-- ==== Sys2Proof/Word.lean ====
section
/-! DEFINITION. The word types of the TM3232 (R3, R396): a register is 32 bits, a byte is 8, a cell of the
Vat is 10. Sparse tables are lists of (key, value) pairs; their operations stand in Machine/Tab.lean. -/

namespace Sys2Proof

/-- A register or Quire word (R396): 32 bits, bit 0 least significant (R3). -/
abbrev W32 := BitVec 32

/-- A byte of a packet, frame, descriptor or flash cell. -/
abbrev Byte := BitVec 8

/-- The Vat's native word (R24): bit 9 P (even parity), bit 8 M (mark), bits 7:0 data. -/
abbrev Cell10 := BitVec 10

/-- A 128-bit AES key or CMAC tag. Byte K0 is bits 7:0 (R411). -/
abbrev Key := BitVec 128

/-- A subscriber identity, 0 to 1,023 (R83). -/
abbrev SubId := BitVec 10

/-- A beat number, 48 bits, wrapping to 0 (R160). -/
abbrev BeatNo := BitVec 48

/-- A sparse table: (key, value) pairs with rising keys; a key not listed holds the table's default. -/
abbrev Tab (α : Type) := List (Nat × α)

end Sys2Proof
end

