-- ==== Sys2Proof/Syntax.lean ====
section
/-! DEFINITION. The commands of the TM3232: one constructor of `Instr` for each row of opcode_table.json,
in the table's order, and the operand types that the rows need. A row is one whole step of the part: an
event on a pin or supply, a received packet or message, a timer that runs out, a register write, or the
execution of an accepted Avvoset request. -/

namespace Sys2Proof

/-- The straps as read at a sampling moment (R42 to R44, R47). A strap reads 0 when strapped. -/
structure Straps where
  /-- `CFG[3:0]` -/
  cfg : BitVec 4
  /-- `U0_DB` -/
  u0Db : Bool
  /-- `CPL_DB` -/
  cplDb : Bool
  /-- `TEST_EN` -/
  testEn : Bool
  deriving DecidableEq, Repr

/-- What stands as power-on reset is released: the straps sampled, and whether `MS_CS_N` is low (R43, R59). -/
structure PowerUp where
  straps : Straps
  csLow : Bool
  deriving DecidableEq, Repr

/-- Names an accepted request: the subscriber and the tag it holds outstanding (R116). -/
structure ReqKey where
  sub : SubId
  tag : BitVec 16
  deriving DecidableEq, Repr

/-- The access path of a register write: each path has its own key guard (R400). -/
inductive Path where
  | spi
  | sub (s : SubId)
  deriving DecidableEq, Repr

/-- One of the four firmware slots (R66). -/
inductive FwSlot where
  | millA | millB | couchA | couchB
  deriving DecidableEq, Repr

/-- A UDP datagram as the MAC and IP layer see it (R95, R96). -/
structure Datagram where
  srcMac : BitVec 48
  /-- 802.1Q tag of the frame, if any -/
  vlan : Option (BitVec 16)
  /-- IP version 6 when true, 4 otherwise -/
  ipv6 : Bool
  srcIp : BitVec 128
  dstIp : BitVec 128
  dscp : BitVec 6
  srcPort : BitVec 16
  dstPort : BitVec 16
  /-- the UDP checksum field is zero -/
  checksumZero : Bool
  /-- the UDP checksum verifies -/
  checksumOk : Bool
  fragmented : Bool
  extHeaders : Bool
  payload : List Byte
  deriving DecidableEq, Repr

/-- A cell that has changed in its bank: its physical bank, row and place in the row. Its P bit shows the change. -/
structure Upset where
  bank : Fin 9
  row : Fin 32768
  column : Fin 32
  deriving DecidableEq, Repr

/-- An address-resolution or echo request received on an E port (R95). -/
structure NetQuery where
  srcMac : BitVec 48
  vlan : Option (BitVec 16)
  ipv6 : Bool
  srcIp : BitVec 128
  /-- the address asked for, or the destination of an echo request -/
  target : BitVec 128
  /-- bytes of the IP packet (echo requests are answered up to the MTU) -/
  length : Nat
  /-- identifier, sequence number and data of an echo request -/
  body : List Byte
  deriving DecidableEq, Repr

/-- What an IEEE 1588 message tells the ordinary clock of an E port (R163, R166). -/
inductive PtpEvent where
  /-- a Sync: offset from the master in ns afterwards, and whether it lies within ±1 µs -/
  | sync (offsetNs : Int)
  /-- an Announce with its Sync interval in microframes -/
  | announce (syncInterval : Nat)
  /-- three announced Sync intervals have passed without a Sync -/
  | syncTimeout
  deriving DecidableEq, Repr

/-- A USB SETUP packet: bmRequestType, bRequest, wValue, wIndex, wLength. -/
structure Setup where
  bmRequestType : Byte
  bRequest : Byte
  wValue : BitVec 16
  wIndex : BitVec 16
  wLength : BitVec 16
  deriving DecidableEq, Repr

/-- The data PID of a USB data packet, or a SuperSpeed data packet. -/
inductive DataPid where
  | data0 | data1 | data2 | mdata
  deriving DecidableEq, Repr

/-- How a USB transaction on a root or coupler port ends (R205, R206). -/
inductive XactResult where
  /-- an IN data packet with its PID; `seq` is the SuperSpeed sequence number, unused below -/
  | data (pid : DataPid) (seq : BitVec 5) (bytes : List Byte)
  | ack
  | nak
  | nyet
  | stall
  /-- no answer, CRC or bit-stuff error, PID check failure, unexpected PID, or no SuperSpeed acknowledgement -/
  | error
  /-- a SuperSpeed NRDY -/
  | nrdy
  /-- a SuperSpeed ERDY: the endpoint of context `ctx` is ready again (R206) -/
  | erdy (ctx : Nat)
  deriving DecidableEq, Repr

/-- The answer to an LPM token (R295). -/
inductive LpmAnswer where
  | ack | nyet | stall | none
  deriving DecidableEq, Repr

/-- What a CC pin shows to its port's front end (R319 to R323). -/
inductive CcLevel where
  | open | ra | rd | rpDefault | rp15 | rp30
  deriving DecidableEq, Repr

/-- The wake sources of DOZE and HIBERNATE, with the codes of `PWR_STATUS.WAKE_SRC` (R307, R312). -/
inductive WakeSrc where
  | remoteWake | ccOrPd | connect | u0 | vinMon | beatIn | msCsN | ethFrame | fault | hostRequest
  deriving DecidableEq, Repr

/-- A Press link event other than a trip (R378, R456, R459). -/
inductive PressEvt where
  /-- the die rises above its temperature shutdown threshold -/
  | temp
  /-- an ADC calibration sample lies outside its tolerance -/
  | cal
  deriving DecidableEq, Repr

/-- Which key a key erase names (R411, R414). -/
inductive KeyName where
  | slot (k : Fin 64)
  | relay (k : Fin 2)
  deriving DecidableEq, Repr

/-- A USB transaction of a split, as the external host addresses it to a TT of the hub function (R223). -/
inductive SplitKind where
  | startIn | startOut (bytes : List Byte) | complete
  deriving DecidableEq, Repr

/-- A JTAG instruction (R46). -/
inductive JtagInstr where
  | bypass | idcode | samplePreload | extest
  /-- any other code, of which the port implements none -/
  | other
  deriving DecidableEq, Repr

/-- A transaction's end on its port, and the cells that have changed in their banks since the last such row (R134, R205). -/
structure Heard where
  result : XactResult
  upsets : List Upset
  deriving DecidableEq, Repr

/-- Where a pointer fault that is no queue's stands: the bank, and whether the state table's entries fail there or the free
list does (R139). -/
structure BankBook where
  bank : Fin 9
  table : Bool
  deriving DecidableEq, Repr

/-- The commands: one constructor per row of opcode_table.json, in its order. -/
inductive Instr where
  -- supplies, resets and bring-up
  | powerOn (p : PowerUp)
  | railTrip
  | resetNAssert
  | resetNRelease (st : Straps) (csLow : Bool)
  | pressSupplyLoss (d : Fin 4)
  | pressSupplyReturn (d : Fin 4)
  | pressArmed (d : Fin 4)
  | pressArmTimeout (d : Fin 4)
  | quireReady
  | deckleReady
  | pdReady
  | vatSelftestDone (failed : BitVec 9)
  | hubStart
  | ethStart
  | slotCheckDone (slot : FwSlot)
  | flashReadTimeout (slot : FwSlot)
  | millInitDone
  | hostStart
  | couchStart
  | millWatchdog
  | couchWatchdog
  | crossCoreTimeout (k : ReqKey)
  | deadBatteryEntry (u0Db : Bool)
  | deadBatteryVbusLoss
  | u0VbusChange (present : Bool)
  -- Avvoset opcodes: the execution of an accepted request
  | identify (k : ReqKey)
  | status (k : ReqKey)
  | resetChip (k : ReqKey)
  | chipResetStart
  | resetPort (k : ReqKey)
  | ready (k : ReqKey)
  | readyAnswer (k : ReqKey)
  | readyWaitExpiry (k : ReqKey)
  | events (k : ReqKey)
  | regRead (k : ReqKey)
  | regWrite (k : ReqKey)
  | wideRead (k : ReqKey)
  | update (k : ReqKey)
  | updateCancel (k : ReqKey)
  | portReset (k : ReqKey)
  | portResetTimeout (k : ReqKey)
  | portDisable (k : ReqKey)
  | portSuspend (k : ReqKey)
  | portResume (k : ReqKey)
  | portInfo (k : ReqKey)
  | efuseClear (k : ReqKey)
  | efuseClearAbortRetry (k : ReqKey)
  | controlXfer (k : ReqKey)
  | bulkOut (k : ReqKey)
  | bulkIn (k : ReqKey)
  | endpointOpen (k : ReqKey)
  | endpointClose (k : ReqKey)
  | endpointCloseDevice (k : ReqKey)
  | subscribe (k : ReqKey)
  | unsubscribe (k : ReqKey)
  | sheetRead (k : ReqKey)
  | periodicWrite (k : ReqKey)
  | pwrStateActive (k : ReqKey)
  | pwrStateDoze (k : ReqKey)
  | pdInfo (k : ReqKey)
  | pdActionPrSwap (k : ReqKey)
  | pdActionDrSwap (k : ReqKey)
  | pdActionSoftReset (k : ReqKey)
  | pdActionHardReset (k : ReqKey)
  | pdActionSrcCap (k : ReqKey)
  | pdActionRequest (k : ReqKey)
  | pdActionGetSnkCap (k : ReqKey)
  | pdActionErrorRecovery (k : ReqKey)
  | faultRead (k : ReqKey)
  | faultClear (k : ReqKey)
  | faultClearAll (k : ReqKey)
  | faultClearWatermark (k : ReqKey)
  | faultForce (k : ReqKey)
  | faultForceRehearse (k : ReqKey)
  | quireWrite (k : ReqKey)
  | keyWrite (k : ReqKey)
  | keyErase (k : ReqKey)
  | fwInfo (k : ReqKey)
  | fwWrite (k : ReqKey)
  | fwEraseDone (k : ReqKey)
  | fwVerify (k : ReqKey)
  | fwActivate (k : ReqKey)
  | fwConfirm (k : ReqKey)
  | selftestVatSpare (k : ReqKey)
  | selftestAdc (k : ReqKey) (firstFail : Option (BitVec 8))
  | selftestPort (k : ReqKey) (failing : W32)
  | selftestEfuseTrip (k : ReqKey) (tripNs : W32)
  | selftestFull (k : ReqKey) (failed : BitVec 4)
  | maintEnter (k : ReqKey)
  | maintLeave (k : ReqKey)
  | chainSet (k : ReqKey)
  | chainSetApply (k : ReqKey)
  | routeWrite (k : ReqKey)
  | tdiWrite (k : ReqKey)
  | tdiRead (k : ReqKey)
  | linkEnable (k : ReqKey)
  | linkEnableRetry (k : ReqKey)
  | linkEnableLinkReset (k : ReqKey)
  | chainInfo (k : ReqKey)
  | statsRead (k : ReqKey)
  | unsupportedOpcode (packet : List Byte)
  -- transports
  | regWr (addr : BitVec 24) (words : List W32)
  | regRd (addr : BitVec 24) (count : Nat) (notReady : Option Nat)
  | rdStatus
  | pktWr (bytes : List Byte)
  | pktRd (clocked : Nat) (badCells : List Nat)
  | badInstr (code : Byte)
  | udpDatagram (e : Fin 2) (d : Datagram)
  | arpRequest (e : Fin 2) (q : NetQuery)
  | neighbourSolicitation (e : Fin 2) (q : NetQuery)
  | echoRequest (e : Fin 2) (q : NetQuery)
  | otherFrame (e : Fin 2)
  | ptpMessage (e : Fin 2) (m : PtpEvent)
  | mgmtBulkOut (link : Fin 5) (bytes : List Byte)
  | mgmtBulkIn (link : Fin 5) (badCells : List Nat)
  | u0BusReset (speed : BitVec 2)
  | u0Suspend
  | u0Resume
  | hubRequest (function : Bool) (setup : Setup)
  | splitTransaction (hubPort : Fin 16) (periodic : Bool) (kind : SplitKind)
  -- the grid
  | microframeStart
  | slotStrobe
  | planNextBeat
  | beatEndStrobe
  | tallyDeferredCheck (cycles : Nat)
  | tallySkip
  | heartbeat (ctx : Nat)
  | beatInEdge (time : Nat) (highCycles : Nat)
  | sourceEdge (time : Nat) (number : Option BeatNo)
  | missingEdge
  | updateApply (groups : BitVec 8)
  -- the Vat
  | rotationStart
  | rotationCopyDone
  | marchPassEnd (bank : Fin 9) (pass : Bool)
  | pointerFault (queue : Option (Fin 16384)) (book : BankBook)
  | queueResetDone (queue : Fin 16384)
  | freeListRebuilt (bank : Fin 8)
  | growthComplete
  | drainComplete
  | vatQresetGo (path : Path) (queue : Fin 16384)
  | headboxGrant (output : Fin 36) (badCells : List Nat)
  -- the host engine
  | transactionResponse (port : Fin 32) (r : Heard) (pastMicroframe : Bool)
  | babble (port : Fin 32)
  | transferTimeout (ctx : Nat)
  | addressHoldEnd (domain : Fin 4) (addr : BitVec 7)
  | connectSeen (port : Fin 32)
  | connectDrop (port : Fin 32)
  | debounceEnd (port : Fin 32)
  | bindingReleaseReset (domain : Fin 4)
  | resetSignallingEnd (port : Fin 32) (speed : BitVec 2)
  | recoveryEnd (port : Fin 32)
  | disconnectSeen (port : Fin 32)
  | ssLinkU0 (port : Fin 8)
  | ssTrainingTimeout (port : Fin 8)
  | presentChange (port : Fin 32)
  -- link power
  | l1Entry (port : Fin 32)
  | lpmResponse (port : Fin 32) (a : LpmAnswer)
  | l1Exit (port : Fin 32)
  | u1Timeout (port : Fin 8)
  | u1u2Exit (port : Fin 8)
  | suspendTimer (port : Fin 32)
  | selectiveSuspend (port : Fin 32) (hub : BitVec 7) (hubPort : BitVec 7)
  | resumeStart (port : Fin 32)
  | resumeEnd (port : Fin 32)
  | resumeRecoveryEnd (port : Fin 32)
  | subtreeResumeWaitEnd (port : Fin 32) (hub : BitVec 7) (hubPort : BitVec 7)
  | remoteWake (port : Fin 32) (subtree : Option (BitVec 7 × BitVec 7))
  -- chip power
  | trimEntry
  | dozeEntry
  | avsAck (coreOk : Bool)
  | avsNoack (coreOk : Bool)
  | wake (src : WakeSrc)
  | hibernateEntry
  | warmStart (src : WakeSrc)
  -- the relay links
  | hello (link : Fin 5) (frame : List Byte)
  | helloRepeat (link : Fin 5)
  | chal (link : Fin 5) (frame : List Byte)
  | resp (link : Fin 5) (frame : List Byte)
  | authTimeout (link : Fin 5)
  | authRetry (link : Fin 5)
  | enable (link : Fin 5) (frame : List Byte)
  | enableSend (link : Fin 5)
  | beatFrame (link : Fin 5) (frame : List Byte)
  | report (link : Fin 5) (data : List Byte) (t1 t4 : Nat)
  | resetFrame (link : Fin 5) (frame : List Byte)
  | creditFrame (link : Fin 5) (frame : List Byte)
  | unknownLinkFrame (link : Fin 5) (frame : List Byte)
  | serviceFrame (link : Fin 5) (low : Bool) (frame : List Byte)
  | relayFrameSend (link : Fin 5) (svc : Fin 4)
  | consumedFrameMove (link : Fin 5)
  | couchEnumerationTimeout (link : Fin 5)
  | poolClaimRetry (link : Fin 5)
  | graceExpiry (link : Fin 5)
  | fwdTimeout (k : ReqKey)
  -- Type-C and PD
  | ccChange (n : Fin 33) (cc1 cc2 : CcLevel)
  | ccDebounceEnd (n : Fin 33)
  | drpToggle (n : Fin 33)
  | tryTimerExpiry (n : Fin 33)
  | detach (n : Fin 33)
  | vbusLost (n : Fin 33)
  | vconnStable (n : Fin 33)
  | vconnLimit (n : Fin 33)
  | sourceCapabilities (n : Fin 33) (rev2 : Bool) (pdos : List W32)
  | sourceCapRepeat (n : Fin 33)
  | request (n : Fin 33) (rev2 : Bool) (rdo : W32)
  | srcTransitionExpiry (n : Fin 33)
  | vbusWindowHeld (n : Fin 33)
  | psrdyDeadline (n : Fin 33)
  | accept (n : Fin 33)
  | reject (n : Fin 33)
  | wait (n : Fin 33)
  | swapRetry (n : Fin 33)
  | sinkRequestRetry (n : Fin 33)
  | psRdy (n : Fin 33)
  | psTransitionTimeout (n : Fin 33)
  | psSourceTimeout (n : Fin 33)
  | prSwap (n : Fin 33)
  | drSwap (n : Fin 33)
  | heldSwapStart (n : Fin 33)
  | vconnSwap (n : Fin 33)
  | softReset (n : Fin 33)
  | hardReset (n : Fin 33)
  | senderResponseTimeout (n : Fin 33)
  | psHardResetExpiry (n : Fin 33)
  | srcRecoverExpiry (n : Fin 33)
  | errorRecoveryEnd (n : Fin 33)
  | ppsTimeout (n : Fin 33)
  | ppsRequest (n : Fin 33)
  | getSourceCap (n : Fin 33)
  | getSinkCap (n : Fin 33)
  | sinkCapabilities (n : Fin 33) (pdos : List W32)
  | alert (n : Fin 33)
  | getStatus (n : Fin 33)
  | getSourceCapExtended (n : Fin 33)
  | getPpsStatus (n : Fin 33)
  | getRevision (n : Fin 33)
  | discoverIdentity (n : Fin 33)
  | cableIdentity (n : Fin 33) (ack : Bool) (fiveAmp : Bool)
  | discoverIdentityRetry (n : Fin 33)
  | bist (n : Fin 33) (carrier : Bool)
  | notSupportedMessage (n : Fin 33)
  | psbTransactionDone (ok : Bool) (value : BitVec 16) (answering : BitVec 7)
  | psbTransactionTimeout
  | psbAlertN
  | vinMonFall
  | vinMonRise
  | alertHoldExpiry (n : Fin 33)
  -- the fuses and Press dies
  | fastTrip (n : Fin 32) (peak : BitVec 12) (vbus : BitVec 11)
  | inrushExpiry (n : Fin 32) (peak : BitVec 12) (vbus : BitVec 11)
  | limitTimeExpiry (n : Fin 32) (peak : BitVec 12) (vbus : BitVec 11)
  | backoffExpiry (n : Fin 32)
  | consecReset (n : Fin 32)
  | powerGood (n : Fin 32) (vbus : BitVec 11)
  | pgLost (n : Fin 32) (vbus : BitVec 11)
  | vsafe0vReached (n : Fin 32) (vbus : BitVec 11)
  | dschLate (n : Fin 32) (vbus : BitVec 11)
  | pressLinkLoss (d : Fin 4)
  | safePairSafe (d : Fin 4)
  | safePairRun (d : Fin 4)
  | tripLine (n : Fin 32)
  | tripEvent (n : Fin 32)
  | tripEventTimeout (n : Fin 32)
  | pressEvent (d : Fin 4) (e : PressEvt)
  -- the fault collector
  | lineFault (i : Fin 512)
  | sourceAssert (i : Fin 512) (context : W32)
  | fcSelf
  | watermarkCopy
  | fcClearGo (path : Path) (source : BitVec 9)
  | fcClearAll (path : Path)
  | fcForceGo (path : Path) (source : BitVec 9)
  | fcForceRehearse (path : Path) (source : BitVec 9)
  | fcWmCtrlClear (path : Path)
  -- register writes with a row of their own
  | efuseCtrlClear (path : Path) (n : Fin 32)
  | efuseCtrlAbortRetry (path : Path) (n : Fin 32)
  | pdCtrlErrorRecovery (path : Path) (n : Fin 33)
  | pdCtrlSrcCap (path : Path) (n : Fin 33)
  | pdCtrlGetSnkCap (path : Path) (n : Fin 33)
  | pdCtrlRequest (path : Path) (n : Fin 33)
  | pdCtrlHardReset (path : Path) (n : Fin 33)
  | pdCtrlSoftReset (path : Path) (n : Fin 33)
  | pdCtrlDrSwap (path : Path) (n : Fin 33)
  | pdCtrlPrSwap (path : Path) (n : Fin 33)
  | cplCtrlRetry (path : Path) (link : Fin 5)
  | cplCtrlLinkReset (path : Path) (link : Fin 5)
  | cplCtrlEnable (path : Path) (link : Fin 5)
  | chainPosWrite (path : Path) (value : W32)
  | reamDnWrite (path : Path) (domain : Fin 4) (value : W32)
  | unlock (path : Path) (value : W32)
  | guardRearm (path : Path)
  | updateGo (path : Path) (whenSel : BitVec 2) (groups : BitVec 8)
  | cancel (path : Path) (groups : BitVec 8)
  | wmbSelWrite (value : W32)
  | wmbD3Read
  | pwrCfgWrite (path : Path) (sleep : Bool) (value : W32)
  | quireWordWrite (path : Path) (word : Fin 4096) (value : W32)
  | quireAck
  | keyWordWrite (path : Path) (key : KeyName) (index : Fin 4) (value : W32)
  | keySlotErase (path : Path) (key : KeyName)
  | registerWrite (path : Path) (addr : BitVec 24) (value : W32)
  -- UFP couplers, the transparent hub and the remaining pin events
  | ufpControlRequest (port : Fin 4) (setup : Setup)
  | ufpBusReset (port : Fin 4) (superSpeed : Bool)
  | ufpSuspend (port : Fin 4)
  | ufpResume (port : Fin 4)
  | reportPoll (link : Fin 5) (t2 t3 : Nat)
  | ssPacket (hubPort : Fin 15) (upstream : Bool) (bytes : List Byte)
  | hubRemoteWake (hubPort : Fin 15)
  | ethLinkChange (e : Fin 2) (up : Bool)
  | pressLinkRestored (d : Fin 4)
  | faultCauseEnds (i : Fin 512)
  | boundaryScan (instr : JtagInstr) (data : List Bool)
  deriving DecidableEq, Repr

end Sys2Proof
end

