-- ==== Sys2Proof/Config.lean ====
section
/-! DEFINITION. What one part has fixed (fuses, the MAC addresses) and the values the spec leaves open: every
constant here is opaque, so no proof can rest on its value. -/

namespace Sys2Proof

/-- `CHIP_UID`, 64 bits from fuses (R407). Fixed per part; its value is open. -/
opaque Config.chipUid : BitVec 64

/-- The key-hash fuses of R70 check 3: SHA-256 of the accepted public key; zero when not programmed. -/
opaque Config.keyHash : BitVec 256

/-- `ACTIVE_MV`, the fused ACTIVE core voltage in mV (R315, R447). -/
opaque Config.activeMv : BitVec 10

/-- The MAC address of E port e (R95 derives the link-local address from it). -/
opaque Config.mac : Nat → BitVec 48

/-- SHA-256 (R70 check 3), of which the spec gives the name only. -/
opaque Config.sha256 : List Byte → BitVec 256

/-- ECDSA P-256 verification of `signature` over `message` under `publicKey` (R69, R70 check 3), of which
the spec gives the name only. -/
opaque Config.ecdsaVerifies : (publicKey message signature : List Byte) → Bool

/-- The nonce that the main die's random source gives at its n-th use (R279). -/
opaque Config.nonce : Nat → Key

/-- A byte of a USB descriptor that the spec leaves open, by device and place (R220, R225 give the rest). Devices: 0 the
USB 2.0 hub, 1 the SuperSpeed hub, 2 to 4 the function device at full, high and SuperSpeed. -/
opaque Config.descByte : Nat → Nat → Byte

/-- A descriptor of which the spec gives nothing, by device, type and index; empty when there is none. -/
opaque Config.descriptor : Nat → Nat → Nat → List Byte

/-- The IDCODE of the JTAG port, from bit 0 up, and what bit i of the boundary-scan chain samples at the n-th use (R46). -/
opaque Config.idCode : Nat → Bool
opaque Config.scanSample : Nat → Nat → Bool

/-- The cells of the boundary-scan chain, and which of them drives the n-th ball that it covers (R46). -/
opaque Config.scanCells : Nat
opaque Config.scanCell : Nat → Nat

/-- Cell c of row r of bank b when its contents are open (R140, R144): after it is powered up, or a march test was stopped. -/
opaque Config.lostCell : Nat → Nat → Nat → Cell10

/-- Cell c of row r in a data background of the march test, the 0 of its notation (R140); the 1 is its complement. -/
opaque Config.marchCell : Bool → Nat → Nat → Cell10

/-- A free bit: the n-th time the spec leaves a two-way outcome open. -/
opaque Config.freeBit : Nat → Bool

/-- A free word: the n-th time the spec leaves a word's value open. -/
opaque Config.freeWord : Nat → W32

end Sys2Proof
end

