-- ==== Sys2Proof/Machine/Tab.lean ====
section
/-! DEFINITION. Sparse tables (`Tab`): reading and writing one key, in canonical form (keys rising, no entry equal
to the table's default), and the bit and byte helpers of R3. -/

namespace Sys2Proof.Machine

/-- The value at key `k`; `d k` when the table does not list it. -/
def look {α : Type} (d : Nat → α) : Tab α → Nat → α
  | [], k => d k
  | (k', v) :: t, k => if k = k' then v else if k < k' then d k else look d t k

/-- Writes `v` at key `k`; writing the default removes the entry. -/
def put {α : Type} [DecidableEq α] (d : Nat → α) : Tab α → Nat → α → Tab α
  | [], k, v => if v = d k then [] else [(k, v)]
  | (k', v') :: t, k, v =>
    if k = k' then (if v = d k then t else (k, v) :: t)
    else if k < k' then (if v = d k then (k', v') :: t else (k, v) :: (k', v') :: t)
    else (k', v') :: put d t k v

/-- Every key is above `b`, keys rise, and no entry equals its default. -/
def wfAbove {α : Type} [DecidableEq α] (d : Nat → α) : Option Nat → Tab α → Bool
  | _, [] => true
  | b, (k, v) :: t => (match b with | none => true | some m => decide (m < k)) && decide (v ≠ d k) && wfAbove d (some k) t

/-- The canonical form of a table. -/
def wfTab {α : Type} [DecidableEq α] (d : Nat → α) (t : Tab α) : Bool := wfAbove d none t

/-! ## Bits and bytes (R3: bit 0 least significant, little-endian) -/

/-- Bits `lo` up, `w` wide, of `x`, as a number. -/
def bits {n : Nat} (x : BitVec n) (lo w : Nat) : Nat := (x.toNat >>> lo) % 2 ^ w

/-- Bit `i` of `x`. -/
def bit {n : Nat} (x : BitVec n) (i : Nat) : Bool := x.getLsbD i

/-- 1 or 0. -/
def b2n (b : Bool) : Nat := if b then 1 else 0

/-- The value `v` placed at bit `lo` of a register. -/
def at_ (v lo : Nat) : W32 := BitVec.ofNat 32 (v <<< lo)

/-- `x` with bits `lo` up, `w` wide, replaced by `v`. -/
def setBits (x : W32) (lo w v : Nat) : W32 :=
  (x &&& ~~~ (at_ (2 ^ w - 1) lo)) ||| at_ (v % 2 ^ w) lo

/-- `x` with bit `i` set to `b`. -/
def setBit (x : W32) (i : Nat) (b : Bool) : W32 := setBits x i 1 (b2n b)

/-- `v` in two's complement, `w` bits wide. -/
def twos (w : Nat) (v : Int) : Nat := (v % (2 ^ w : Int)).toNat

/-- The signed value of the `w`-bit number `v`. -/
def signed (w v : Nat) : Int := if 2 * v < 2 ^ w then (v : Int) else (v : Int) - 2 ^ w

/-- The low `n` bytes of `v`, least significant first. -/
def leBytes : Nat → Nat → List Byte
  | 0, _ => []
  | n + 1, v => BitVec.ofNat 8 v :: leBytes n (v / 256)

/-- The number that little-endian bytes spell. -/
def leNat : List Byte → Nat
  | [] => 0
  | b :: t => b.toNat + 256 * leNat t

/-- Byte `i` of a list, 0 beyond its end. -/
def byteAt (l : List Byte) (i : Nat) : Nat := (l.getD i 0).toNat

/-- The `n`-byte little-endian number at offset `i`. -/
def leAt (l : List Byte) (i n : Nat) : Nat := leNat ((l.drop i).take n)

/-- The four bytes of a word. -/
def wordBytes (w : W32) : List Byte := leBytes 4 w.toNat

/-- The bytes of words in order. -/
def wordsBytes (ws : List W32) : List Byte := ws.flatMap wordBytes

/-- Little-endian words of bytes, `n` of them. -/
def toWords : Nat → List Byte → List W32
  | 0, _ => []
  | n + 1, l => BitVec.ofNat 32 (leAt l 0 4) :: toWords n (l.drop 4)

/-- `n` zero bytes. -/
def zeros (n : Nat) : List Byte := List.replicate n 0

/-- ⌈a / b⌉. -/
def ceilDiv (a b : Nat) : Nat := (a + b - 1) / b

/-- The least of two numbers that saturate at `m`. -/
def satAdd (m a b : Nat) : Nat := min m (a + b)

/-- `f` applied for each of 0 to n − 1, in rising order. -/
def forN {σ : Type} (n : Nat) (f : Nat → σ → σ) (s : σ) : σ := (List.range n).foldl (fun a i => f i a) s

/-- `f` applied for each member of a list, in order. -/
def forEach {α σ : Type} (l : List α) (f : α → σ → σ) (s : σ) : σ := l.foldl (fun a x => f x a) s

end Sys2Proof.Machine
end

