-- ==== Sys2Proof/Machine/Crypto.lean ====
section
/-! DEFINITION. The check codes of Avvoset packets and relay frames: CRC-32C (R85) and AES-128-CMAC (R86,
NIST SP 800-38B over FIPS 197). -/

namespace Sys2Proof.Machine

/-- One bit of the reflected CRC-32C register (polynomial 0x1EDC_6F41, reflected 0x82F6_3B78). -/
def crcBit (c : Nat) : Nat := if c % 2 = 1 then (c >>> 1) ^^^ 0x82F63B78 else c >>> 1

/-- One byte into the CRC-32C register. -/
def crcByte (c : Nat) (b : Byte) : Nat :=
  crcBit (crcBit (crcBit (crcBit (crcBit (crcBit (crcBit (crcBit (c ^^^ b.toNat))))))))

/-- CRC-32C of a message: initial value and final XOR all ones (R85). -/
def crc32c (m : List Byte) : Nat := (m.foldl crcByte 0xFFFFFFFF) ^^^ 0xFFFFFFFF

/-- The S-box of FIPS 197. -/
def sbox : List Nat :=
  [0x63, 0x7C, 0x77, 0x7B, 0xF2, 0x6B, 0x6F, 0xC5, 0x30, 0x01, 0x67, 0x2B, 0xFE, 0xD7, 0xAB, 0x76]
  ++ [0xCA, 0x82, 0xC9, 0x7D, 0xFA, 0x59, 0x47, 0xF0, 0xAD, 0xD4, 0xA2, 0xAF, 0x9C, 0xA4, 0x72, 0xC0]
  ++ [0xB7, 0xFD, 0x93, 0x26, 0x36, 0x3F, 0xF7, 0xCC, 0x34, 0xA5, 0xE5, 0xF1, 0x71, 0xD8, 0x31, 0x15]
  ++ [0x04, 0xC7, 0x23, 0xC3, 0x18, 0x96, 0x05, 0x9A, 0x07, 0x12, 0x80, 0xE2, 0xEB, 0x27, 0xB2, 0x75]
  ++ [0x09, 0x83, 0x2C, 0x1A, 0x1B, 0x6E, 0x5A, 0xA0, 0x52, 0x3B, 0xD6, 0xB3, 0x29, 0xE3, 0x2F, 0x84]
  ++ [0x53, 0xD1, 0x00, 0xED, 0x20, 0xFC, 0xB1, 0x5B, 0x6A, 0xCB, 0xBE, 0x39, 0x4A, 0x4C, 0x58, 0xCF]
  ++ [0xD0, 0xEF, 0xAA, 0xFB, 0x43, 0x4D, 0x33, 0x85, 0x45, 0xF9, 0x02, 0x7F, 0x50, 0x3C, 0x9F, 0xA8]
  ++ [0x51, 0xA3, 0x40, 0x8F, 0x92, 0x9D, 0x38, 0xF5, 0xBC, 0xB6, 0xDA, 0x21, 0x10, 0xFF, 0xF3, 0xD2]
  ++ [0xCD, 0x0C, 0x13, 0xEC, 0x5F, 0x97, 0x44, 0x17, 0xC4, 0xA7, 0x7E, 0x3D, 0x64, 0x5D, 0x19, 0x73]
  ++ [0x60, 0x81, 0x4F, 0xDC, 0x22, 0x2A, 0x90, 0x88, 0x46, 0xEE, 0xB8, 0x14, 0xDE, 0x5E, 0x0B, 0xDB]
  ++ [0xE0, 0x32, 0x3A, 0x0A, 0x49, 0x06, 0x24, 0x5C, 0xC2, 0xD3, 0xAC, 0x62, 0x91, 0x95, 0xE4, 0x79]
  ++ [0xE7, 0xC8, 0x37, 0x6D, 0x8D, 0xD5, 0x4E, 0xA9, 0x6C, 0x56, 0xF4, 0xEA, 0x65, 0x7A, 0xAE, 0x08]
  ++ [0xBA, 0x78, 0x25, 0x2E, 0x1C, 0xA6, 0xB4, 0xC6, 0xE8, 0xDD, 0x74, 0x1F, 0x4B, 0xBD, 0x8B, 0x8A]
  ++ [0x70, 0x3E, 0xB5, 0x66, 0x48, 0x03, 0xF6, 0x0E, 0x61, 0x35, 0x57, 0xB9, 0x86, 0xC1, 0x1D, 0x9E]
  ++ [0xE1, 0xF8, 0x98, 0x11, 0x69, 0xD9, 0x8E, 0x94, 0x9B, 0x1E, 0x87, 0xE9, 0xCE, 0x55, 0x28, 0xDF]
  ++ [0x8C, 0xA1, 0x89, 0x0D, 0xBF, 0xE6, 0x42, 0x68, 0x41, 0x99, 0x2D, 0x0F, 0xB0, 0x54, 0xBB, 0x16]

/-- S-box substitution of one byte. -/
def sboxAt (x : Nat) : Nat := sbox.getD x 0

/-- Multiplication by x in GF(2^8). -/
def xtime (x : Nat) : Nat := let y := 2 * x; if 256 ≤ y then y ^^^ 0x11B else y

/-- XOR of two byte lists. -/
def xorL (a b : List Nat) : List Nat := List.zipWith (fun x y => x ^^^ y) a b

/-- One round key from the one before (FIPS 197 key expansion for 128 bits). -/
def nextKey (rcon : Nat) (k : List Nat) : List Nat :=
  let g := [sboxAt (k.getD 13 0) ^^^ rcon, sboxAt (k.getD 14 0), sboxAt (k.getD 15 0), sboxAt (k.getD 12 0)]
  let w0 := xorL (k.take 4) g
  let w1 := xorL ((k.drop 4).take 4) w0
  let w2 := xorL ((k.drop 8).take 4) w1
  let w3 := xorL (k.drop 12) w2
  w0 ++ w1 ++ w2 ++ w3

/-- SubBytes and ShiftRows on a block in column order. -/
def subShift (s : List Nat) : List Nat :=
  ([0, 5, 10, 15, 4, 9, 14, 3] ++ [8, 13, 2, 7, 12, 1, 6, 11]).map fun i => sboxAt (s.getD i 0)

/-- MixColumns on one column. -/
def mixCol (c : List Nat) : List Nat :=
  let a := c.getD 0 0
  let b := c.getD 1 0
  let d := c.getD 2 0
  let e := c.getD 3 0
  [xtime a ^^^ xtime b ^^^ b ^^^ d ^^^ e, a ^^^ xtime b ^^^ xtime d ^^^ d ^^^ e,
    a ^^^ b ^^^ xtime d ^^^ xtime e ^^^ e, xtime a ^^^ a ^^^ b ^^^ d ^^^ xtime e]

/-- MixColumns. -/
def mixCols (s : List Nat) : List Nat :=
  mixCol (s.take 4) ++ mixCol ((s.drop 4).take 4) ++ mixCol ((s.drop 8).take 4) ++ mixCol (s.drop 12)

/-- The rounds of AES-128, with the round constants that are left; the last round mixes no columns. -/
def aesRounds : List Nat → List Nat → List Nat → List Nat
  | [], _, s => s
  | [r], k, s => xorL (subShift s) (nextKey r k)
  | r :: q :: t, k, s => aesRounds (q :: t) (nextKey r k) (xorL (mixCols (subShift s)) (nextKey r k))

/-- AES-128 of one 16-byte block. -/
def aes (key block : List Nat) : List Nat :=
  aesRounds [0x01, 0x02, 0x04, 0x08, 0x10, 0x20, 0x40, 0x80, 0x1B, 0x36] key (xorL block key)

/-- A big-endian number from bytes. -/
def beNat (l : List Nat) : Nat := l.foldl (fun a b => 256 * a + b) 0

/-- The 16 big-endian bytes of a number. -/
def be16 (v : Nat) : List Nat := (List.range 16).map fun i => (v >>> (8 * (15 - i))) % 256

/-- Doubling in GF(2^128) (SP 800-38B). -/
def dbl (l : List Nat) : List Nat :=
  let v := beNat l
  be16 (((2 * v) % 2 ^ 128) ^^^ (if v < 2 ^ 127 then 0 else 0x87))

/-- CBC over the blocks of a message, the last one closed with the subkeys. `fuel` is the message's length. -/
def cmacGo (fuel : Nat) (key k1 : List Nat) (x m : List Nat) : List Nat :=
  if m.length = 16 then aes key (xorL x (xorL m k1))
  else if m.length < 16 then
    aes key (xorL x (xorL ((m ++ [0x80] ++ List.replicate 16 0).take 16) (dbl k1)))
  else match fuel with
    | 0 => x
    | n + 1 => cmacGo n key k1 (aes key (xorL x (m.take 16))) (m.drop 16)

/-- The bytes K0 to K15 of a key: byte Ki is bits 8i + 7 to 8i (R411). -/
def keyBytes (k : Key) : List Nat := (leBytes 16 k.toNat).map BitVec.toNat

/-- AES-128-CMAC of a message, untruncated (R86). -/
def cmac (k : Key) (m : List Byte) : List Byte :=
  let kb := keyBytes k
  let k1 := dbl (aes kb (List.replicate 16 0))
  (cmacGo m.length kb k1 (List.replicate 16 0) (m.map BitVec.toNat)).map (BitVec.ofNat 8)

end Sys2Proof.Machine
end

