-- ==== Sys2Proof/Machine/RegMap.lean ====
section
/-! DEFINITION. The register map: every mapped address with its reset value, the access of its bits and its UPDATE
group (R4, R396, R397 and the register tables of every chapter), the reserved encodings (R7), and the Quire map
(R414). -/

namespace Sys2Proof.Machine

/-- How the bits of one register behave (R4). -/
structure RegInfo where
  reset : W32
  /-- bits of RW and RWS fields -/
  rw : W32
  /-- bits of W1C fields -/
  w1c : W32
  /-- UPDATE group of the RWS fields -/
  group : Option Nat
  /-- RWK: the key guard applies (R5) -/
  guarded : Bool
  /-- a write starts an action, or is ignored without being refused -/
  acts : Bool
  deriving DecidableEq, Repr

def RegInfo.ro (reset : W32 := 0) : RegInfo := ⟨reset, 0, 0, none, false, false⟩
def RegInfo.plain (rw : W32) (reset : W32 := 0) : RegInfo := ⟨reset, rw, 0, none, false, false⟩
def RegInfo.w1 (m : W32) : RegInfo := ⟨0, 0, m, none, false, false⟩
def RegInfo.rws (g : Nat) (rw reset : W32) : RegInfo := ⟨reset, rw, 0, some g, false, false⟩
def RegInfo.rwsk (g : Nat) (rw reset : W32) : RegInfo := ⟨reset, rw, 0, some g, true, false⟩
def RegInfo.command (guarded : Bool := false) : RegInfo := ⟨0, 0, 0, none, guarded, true⟩
/-- A register of a fixed value that ignores writes. -/
def RegInfo.fixed (v : W32) : RegInfo := ⟨v, 0, 0, none, false, true⟩

/-! ## Fault source configuration defaults (R376) -/

/-- `FC_SRC_CFG` from SEVERE, NORMAL, N and W. -/
def srcCfg (severe normal n w : Nat) : W32 :=
  BitVec.ofNat 32 (severe * 2 ^ 27 + normal * 2 ^ 24 + n * 2 ^ 16 + w)

/-- The class of a source: 0 CHIP, 1 PRESS, 2 PORT, 3 LINK, with its instance and kind; none for an unused slot (R375). -/
def srcKind (i : Nat) : Option (Nat × Nat × Nat) :=
  if i < 18 then some (0, 0, i)
  else if i < 64 then none
  else if i < 96 then (if (i - 64) % 8 < 4 then some (1, (i - 64) / 8, (i - 64) % 8) else none)
  else if i < 480 then some (2, (i - 96) / 12, (i - 96) % 12)
  else if i < 512 then (if (i - 480) % 8 < 5 then some (3, (i - 480) / 8, (i - 480) % 8) else none)
  else none

/-- The default configuration of source i (R376). -/
def srcCfgDefault (i : Nat) : W32 :=
  match srcKind i with
  | none => 0
  | some (0, _, k) =>
    match k with
    | 0 => 0x24010000
    | 1 => srcCfg 4 1 16 8000
    | 2 => srcCfg 4 1 2 64000
    | 3 => srcCfg 1 0 16 8000
    | 7 => srcCfg 4 1 8 160
    | 13 => srcCfg 4 4 1 8000
    | 14 => srcCfg 4 4 1 8000
    | 15 => srcCfg 1 0 3 8000
    | 16 => srcCfg 0 0 1 8000
    | _ => srcCfg 1 1 1 8000
  | some (1, _, k) =>
    match k with
    | 0 => srcCfg 3 3 1 8000
    | 1 => srcCfg 1 1 1 8000
    | 2 => srcCfg 4 3 3 64000
    | _ => srcCfg 3 1 4 8000
  | some (2, _, k) =>
    match k with
    | 0 => srcCfg 3 1 6 64000
    | 1 => srcCfg 3 1 6 64000
    | 2 => srcCfg 3 1 6 64000
    | 3 => srcCfg 3 1 4 8000
    | 4 => srcCfg 1 1 1 8000
    | 5 => srcCfg 1 0 8 8000
    | 6 => srcCfg 1 0 4 64000
    | 7 => srcCfg 3 1 4 64000
    | 11 => srcCfg 2 1 3 8000
    | _ => srcCfg 3 1 3 64000
  | some (_, _, k) =>
    match k with
    | 0 => srcCfg 1 0 4 8000
    | 1 => srcCfg 1 0 4 8000
    | 3 => srcCfg 2 1 3 64000
    | _ => srcCfg 1 1 1 8000

/-- The default reserve fraction of class n (R133). -/
def rsvDefault (n : Nat) : Nat := [32, 64, 256, 16, 128, 32, 16, 8].getD n 0

/-- The reset value of `HB_SHARE` for class c. -/
def shareDefault (c : Nat) : W32 :=
  BitVec.ofNat 32 (64 * 2 ^ 16 + ([4, 0, 0, 0, 1].getD (c - 3) 0) * 2 ^ 8 + [8, 8, 4, 2, 1].getD (c - 3) 0)

/-! ## Addresses -/

def aPortCfg (n : Nat) : Nat := 0x100000 + n * 0x1000
def aPortEvent (n : Nat) : Nat := 0x100008 + n * 0x1000
def aPortLpm (n : Nat) : Nat := 0x100010 + n * 0x1000
def aSsLpm (n : Nat) : Nat := 0x100014 + n * 0x1000
def aPortPwr (n : Nat) : Nat := 0x100018 + n * 0x1000
def aEfuseCfg (n : Nat) : Nat := 0x140000 + n * 0x100
def aEfuseRetry (n : Nat) : Nat := 0x140004 + n * 0x100
def aEfuseCtrl (n : Nat) : Nat := 0x140008 + n * 0x100
def aEfuseEvent (n : Nat) : Nat := 0x140010 + n * 0x100
def aPdCfg (n : Nat) : Nat := 0x180000 + n * 0x1000
def aPdCable (n : Nat) : Nat := 0x180004 + n * 0x1000
def aPsbCfg (n : Nat) : Nat := 0x180008 + n * 0x1000
def aPdCtrl (n : Nat) : Nat := 0x18000C + n * 0x1000
def aPdEvent (n : Nat) : Nat := 0x180018 + n * 0x1000
def aSnkPps (n : Nat) : Nat := 0x18001C + n * 0x1000
def aSrcPdo (n k : Nat) : Nat := 0x180020 + n * 0x1000 + 4 * k
def aSnkPdo (n k : Nat) : Nat := 0x180040 + n * 0x1000 + 4 * k
def aPartnerPdo (n k : Nat) : Nat := 0x180060 + n * 0x1000 + 4 * k
def aPdGcfg : Nat := 0x1A1000
def aQuire (w : Nat) : Nat := 0x1C0000 + 4 * w
def aChainPos : Nat := 0x1E0000
def aChainCfg : Nat := 0x1E0004
def aRoute (p : Nat) : Nat := 0x1E0100 + 4 * p
def aCplCfg (n : Nat) : Nat := 0x1E0400 + n * 0x40
def aCplCtrl (n : Nat) : Nat := 0x1E0404 + n * 0x40
def aPoolA (n : Nat) : Nat := 0x1E0408 + n * 0x40
def aPoolB (n : Nat) : Nat := 0x1E040C + n * 0x40
def aCplEvent (n : Nat) : Nat := 0x1E0418 + n * 0x40
def aFcStatus : Nat := 0x010000
def aFcCfg : Nat := 0x010004
def aFcClear : Nat := 0x010008
def aFcForce : Nat := 0x01000C
def aFcWmCtrl : Nat := 0x010014
def aSrcCfg (i : Nat) : Nat := 0x011000 + 4 * i
def aDkCfg : Nat := 0x020000
def aDkBeatin : Nat := 0x020004
def aDkStatus : Nat := 0x020008
def aDkLoadLo : Nat := 0x020020
def aDkLoadHi : Nat := 0x020024
def aVatCfg : Nat := 0x030000
def aVatRot : Nat := 0x030004
def aVatRsv (n : Nat) : Nat := 0x030020 + 4 * n
def aVatTally : Nat := 0x030068
def aVatQsel : Nat := 0x030080
def aVatQreset : Nat := 0x03008C
def aHbCfg : Nat := 0x040000
def aLoadSel : Nat := 0x040010
def aSubSel : Nat := 0x040020
def aShare (o c : Nat) : Nat := 0x040100 + 0x20 * o + 4 * (c - 3)
def aRate (s : Nat) : Nat := 0x041000 + 0x10 * s
def aBurst (s : Nat) : Nat := 0x041004 + 0x10 * s
def aHostStatus : Nat := 0x080000
def aReam (n : Nat) : Nat := 0x080010 + 4 * n
def aTdi (t : Nat) : Nat := 0x0F0000 + 4 * t
def aUnlock : Nat := 0x000008
def aLockStatus : Nat := 0x00000C
def aRegErr : Nat := 0x000018
def aRegCtrl : Nat := 0x00001C
def aUpdate : Nat := 0x000020
def aUpdateLo : Nat := 0x000024
def aUpdateHi : Nat := 0x000028
def aWmbSel : Nat := 0x000030
def aMsStatus : Nat := 0x000040
def aMsIrqEn : Nat := 0x000044
def aQuireStatus : Nat := 0x000060
def aPwrCfg : Nat := 0x000100
def aPwrSleep : Nat := 0x000104
def aPwrEvent : Nat := 0x00010C

/-! ## The blocks (R397). Each function takes the offset in its block. -/

def infoGlobal (o : Nat) : Option RegInfo :=
  match o with
  | 0x00 => some (.ro 0x3232B100)
  | 0x04 => some .ro
  | 0x08 => some (.command)
  | 0x0C => some (.w1 0x10000)
  | 0x10 => some .ro
  | 0x14 => some .ro
  | 0x18 => some (.w1 0xFC000000)
  | 0x1C => some (.plain 1)
  | 0x20 => some (.command)
  | 0x24 => some (.plain 0xFFFFFFFF)
  | 0x28 => some (.plain 0xFFFF)
  | 0x2C => some .ro
  | 0x30 => some (.plain 0xFFFFFFFF)
  | 0x34 => some .ro
  | 0x40 => some (.w1 0x0FC00000)
  | 0x44 => some (.plain 0x0FE00000 0x00200000)
  | 0x50 => some .ro
  | 0x54 => some .ro
  | 0x58 => some .ro
  | 0x5C => some .ro
  | 0x60 => some (.w1 0x40000000)
  | 0x100 => some (.plain 0x00FF0003 0x00400001)
  | 0x104 => some (.plain 0xFFFFFFFF)
  | 0x108 => some .ro
  | 0x10C => some (.w1 0xF)
  | 0x110 => some .ro
  | _ => none

def infoFault (o : Nat) : Option RegInfo :=
  match o with
  | 0x00 => some (.w1 0x07000000)
  | 0x04 => some (.rwsk 5 7 2)
  | 0x08 => some (.command true)
  | 0x0C => some (.command true)
  | 0x10 => some .ro
  | 0x14 => some (.command true)
  | _ =>
    if 0x40 ≤ o ∧ o < 0x50 then some .ro
    else if 0x800 ≤ o ∧ o < 0x1000 then some .ro
    else if 0x1000 ≤ o ∧ o < 0x1800 then
      let i := (o - 0x1000) / 4
      if i = 0 then some (.ro 0x24010000)
      else match srcKind i with
        | none => some (.fixed 0)
        | some _ => some (.rwsk 5 0x3FFFFFFF (srcCfgDefault i))
    else none

def infoDeckle (o : Nat) : Option RegInfo :=
  match o with
  | 0x00 => some (.rws 0 0xF37 0x700)
  | 0x04 => some (.rws 0 0xFFF 0)
  | 0x08 => some (.w1 0x06000000)
  | 0x0C => some .ro
  | 0x10 => some .ro
  | 0x14 => some .ro
  | 0x18 => some .ro
  | 0x1C => some .ro
  | 0x20 => some (.rws 0 0xFFFFFFFF 0)
  | 0x24 => some (.rws 0 0x8000FFFF 0)
  | _ => none

def infoVat (o : Nat) : Option RegInfo :=
  match o with
  | 0x00 => some (.rws 6 0x13 0x12)
  | 0x04 => some (.rws 6 0xFFFFFF 0)
  | 0x08 => some .ro
  | 0x0C => some .ro
  | 0x10 => some (.ro 0xFFFFFFFF)
  | 0x60 => some .ro
  | 0x64 => some .ro
  | 0x68 => some (.w1 0xE0000000)
  | 0x6C => some .ro
  | 0x80 => some (.plain 0x3FFF)
  | 0x84 => some .ro
  | 0x88 => some .ro
  | 0x8C => some (.command true)
  | _ =>
    if 0x20 ≤ o ∧ o < 0x40 then some (.rws 6 0x3FF (BitVec.ofNat 32 (rsvDefault ((o - 0x20) / 4))))
    else if 0x40 ≤ o ∧ o < 0x60 then some .ro
    else none

def infoHeadbox (o : Nat) : Option RegInfo :=
  match o with
  | 0x00 => some (.rws 1 7 3)
  | 0x04 => some .ro
  | 0x10 => some (.plain 0x1F1FFF)
  | 0x14 => some .ro
  | 0x20 => some (.plain 0x3FFF)
  | 0x24 => some .ro
  | 0x28 => some .ro
  | _ =>
    if 0x100 ≤ o ∧ o < 0x100 + 0x20 * 36 then
      let c := (o - 0x100) % 0x20 / 4
      if c < 5 then some (.rws 1 0x7F7FFF (shareDefault (c + 3))) else none
    else if 0x1000 ≤ o ∧ o < 0x1000 + 0x10 * 1024 then
      match (o - 0x1000) % 0x10 with
      | 0 => some (.rws 1 0x800FFFFF 0x80000000)
      | 4 => some (.rws 1 0xFFFFFF 0x10000)
      | 8 => some (.ro 0x10000)
      | _ => none
    else none

def infoReam (o : Nat) : Option RegInfo :=
  if o = 0 then some (.w1 0xC0000000)
  else if 0x10 ≤ o ∧ o < 0x20 then
    let n := (o - 0x10) / 4
    some (.plain 0x3FFF3FFF (BitVec.ofNat 32 (0x0BF80000 + 0xBF8 * n)))
  else if 0x20 ≤ o ∧ o < 0x40 then some .ro
  else if 0x10000 ≤ o ∧ o < 0x10000 + 32 * 12288 then some .ro
  else if 0x70000 ≤ o ∧ o < 0x70000 + 4 * 4096 then some (.plain 0x803F037F)
  else none

def infoPort (n o : Nat) : Option RegInfo :=
  match o with
  | 0x00 => some (.rws 2 0xB 0xA)
  | 0x04 => some .ro
  | 0x08 => if n < 32 then some (.w1 0x3F) else none
  | 0x10 => if n < 32 then some (.rws 2 0xCFFFFFFF 0x00040000) else none
  | 0x14 => if n < 8 then some (.rws 2 0x00FFFF0F 2) else none
  | 0x18 => if n < 32 then some (.w1 3) else none
  | _ => none

def infoPress (o : Nat) : Option RegInfo :=
  if o = 0x2000 then some .ro
  else if o < 0x2000 then
    match o % 0x100 with
    | 0x00 => some (.rws 3 0xFF1F1FFF 0x080408BC)
    | 0x04 => some (.rws 3 0x000F07FF 0x504)
    | 0x08 => some (.command)
    | 0x0C => some .ro
    | 0x10 => some (.w1 0x3F)
    | 0x14 => some .ro
    | _ => none
  else none

def infoPd (n o : Nat) : Option RegInfo :=
  match o with
  | 0x00 => if n < 32 then some (.rws 4 0x7FFFE 0x12182) else some (.rws 4 0x102 0x10106)
  | 0x04 => if n < 32 then some (.rws 4 3 1) else some (.fixed 0)
  | 0x08 => if n < 32 then some (.rws 4 0x807F (BitVec.ofNat 32 (0x8040 + n))) else some (.fixed 0)
  | 0x0C => some (.command)
  | 0x10 => some .ro
  | 0x14 => some .ro
  | 0x18 => some (.w1 0x1FFFF)
  | 0x1C => some (.plain 0x87FF007F)
  | _ =>
    if 0x20 ≤ o ∧ o < 0x3C then
      if n < 32 then some (.rws 4 0xFFFFFFFF (if o = 0x20 then 0x0001912C else 0)) else some (.fixed 0)
    else if 0x40 ≤ o ∧ o < 0x5C then
      if n < 32 then some (.rws 4 0xFFFFFFFF (if o = 0x40 then 0x00019032 else 0))
      else some (.fixed (if o = 0x40 then 0x0001900A else 0))
    else if 0x60 ≤ o ∧ o < 0x7C then some .ro
    else none

def infoCouch (o : Nat) : Option RegInfo :=
  match o with
  | 0x00 => some (.plain 0x8000003F)
  | 0x04 => some (.rws 7 0x1FF 0x20)
  | _ =>
    if 0x100 ≤ o ∧ o < 0x200 then some (.plain 0x80000007)
    else if 0x400 ≤ o ∧ o < 0x540 then
      match (o - 0x400) % 0x40 with
      | 0x00 => some (.rws 7 1 0)
      | 0x04 => some ⟨0, 1, 0, none, false, true⟩
      | 0x08 => some (.rws 7 0x07FF07FF 0x00800040)
      | 0x0C => some (.rws 7 0x07FF07FF 0x00400100)
      | 0x10 => some .ro
      | 0x14 => some .ro
      | 0x18 => some (.w1 0x7F)
      | 0x20 => some .ro
      | 0x24 => some .ro
      | 0x28 => some .ro
      | 0x2C => some .ro
      | _ => none
    else none

/-- The register at an address outside the Quire block; none when unmapped or unaligned (R397, R398). -/
def regInfo (a : Nat) : Option RegInfo :=
  if a % 4 ≠ 0 then none
  else if a < 0x010000 then infoGlobal a
  else if a < 0x020000 then infoFault (a - 0x010000)
  else if a < 0x030000 then infoDeckle (a - 0x020000)
  else if a < 0x040000 then infoVat (a - 0x030000)
  else if a < 0x080000 then infoHeadbox (a - 0x040000)
  else if a < 0x100000 then infoReam (a - 0x080000)
  else if a < 0x121000 then infoPort ((a - 0x100000) / 0x1000) (a % 0x1000)
  else if 0x140000 ≤ a ∧ a < 0x180000 then infoPress (a - 0x140000)
  else if a = aPdGcfg then some (.rws 4 0x31 0x21)
  else if 0x180000 ≤ a ∧ a < 0x1A1000 then infoPd ((a - 0x180000) / 0x1000) (a % 0x1000)
  else if 0x1E0000 ≤ a ∧ a < 0x1F0000 then infoCouch (a - 0x1E0000)
  else none

/-- The reset value of the register at an address; 0 where there is none. -/
def resetValue (a : Nat) : W32 := match regInfo a with | some i => i.reset | none => 0

/-! ## Reserved encodings within one register (R7) -/

/-- Whether a source slot is a used one, and whether it is a CHIP source (R375). -/
def srcUsed (i : Nat) : Bool := (srcKind i).isSome
def srcChip (i : Nat) : Bool := match srcKind i with | some (0, _, _) => true | _ => false

/-- A Fixed PDO on its own (R326): voltage 5, 9, 15 or 20 V, current at most 5.0 A, supply type Fixed. -/
def fixedOk (p : W32) : Bool :=
  bits p 30 2 = 0 && [100, 180, 300, 400].contains (bits p 10 10) && decide (bits p 0 10 ≤ 500) && decide (bits p 20 10 = 0)

/-- An SPR PPS APDO on its own (R326): minimum at least 3.3 V, maximum at most 21 V and above it, at most 5.0 A. -/
def apdoOk (p : W32) : Bool :=
  decide (bits p 28 4 = 12) && decide (33 ≤ bits p 8 8) && decide (bits p 17 8 ≤ 210) &&
  decide (bits p 8 8 < bits p 17 8) && decide (bits p 0 7 ≤ 100)

/-- Whether object k of a PDO list may hold p: object 0 is Fixed 5 V; an object not in use may be 0. -/
def pdoOk (k : Nat) (p : W32) : Bool :=
  if k = 0 then fixedOk p && decide (bits p 10 10 = 100) else p = 0 || fixedOk p || apdoOk p

/-- The objects of a list that are filled, in ascending order: Fixed objects first, with rising voltages (R326). -/
def pdoOrder : List W32 → Bool
  | [] => true
  | [_] => true
  | p :: q :: t =>
    (if bits q 30 2 = 0 then bits p 30 2 = 0 && decide (bits p 10 10 < bits q 10 10) else true) && pdoOrder (q :: t)

/-- A pool size of R282. -/
def poolOk (v : Nat) : Bool := decide (33 ≤ v ∧ v ≤ 1024)

/-- Whether `v` places no reserved encoding in the register at `a`, judged on the register alone. -/
def encOk (a : Nat) (v : W32) : Bool :=
  if a = aFcCfg then decide (1 ≤ bits v 0 3 ∧ bits v 0 3 ≤ 4)
  else if a = aFcForce then srcUsed (bits v 0 9) && !(bit v 30 && srcChip (bits v 0 9))
  else if 0x011004 ≤ a ∧ a < 0x011800 then
    let i := (a - 0x011000) / 4
    let sv := bits v 27 3
    let nm := bits v 24 3
    !srcUsed i || (decide (nm ≤ sv ∧ sv ≤ 4) && !(srcChip i && (nm = 2 || nm = 3 || sv = 2 || sv = 3)) &&
      decide (bits v 16 8 ≠ 0) && decide (bits v 0 16 ≠ 0))
  else if a = aDkCfg then decide (3 ≤ bits v 8 4 ∧ bits v 8 4 ≤ 13 ∧ bits v 0 3 < 6)
  else if a = aVatCfg then decide (bits v 0 2 ≠ 3)
  else if a = aPwrCfg then decide (bits v 0 2 ≠ 3)
  else if 0x040100 ≤ a ∧ a < 0x040100 + 0x20 * 36 then
    decide (1 ≤ bits v 16 7 ∧ bits v 16 7 ≤ 64 ∧ bits v 8 7 ≤ bits v 16 7 ∧ bits v 0 8 ≠ 0)
  else if 0x041000 ≤ a ∧ a < 0x045000 then
    (if a % 0x10 = 0 then bit v 31 || decide (bits v 0 20 ≠ 0) else decide (4096 ≤ bits v 0 24))
  else if 0x0F0000 ≤ a ∧ a < 0x0F4000 then !(bit v 31 && bits v 0 7 = 0)
  else if 0x100000 ≤ a ∧ a < 0x121000 then
    (if a % 0x1000 = 0x10 then decide (bits v 16 8 ≠ 0)
     else if a % 0x1000 = 0x14 then decide (bits v 16 8 ≠ 255 ∧ bits v 8 8 ≤ 127)
     else true)
  else if 0x140000 ≤ a ∧ a < 0x142000 then
    (if a % 0x100 = 0 then
       decide (1 ≤ bits v 24 8 ∧ bits v 24 8 ≤ 128 ∧ 1 ≤ bits v 16 5 ∧ bits v 16 5 ≤ 16 ∧ 6 ≤ bits v 8 5 ∧
         bits v 8 5 ≤ 16 ∧ 10 ≤ bits v 0 7 ∧ bits v 0 7 ≤ 120)
     else if a % 0x100 = 4 then decide (bits v 8 3 ≠ 7 ∧ bits v 0 8 ≠ 0)
     else true)
  else if a = aPdGcfg then decide (bits v 4 2 ≠ 3)
  else if 0x180000 ≤ a ∧ a < 0x1A0000 then
    let o := a % 0x1000
    if o = 0 then
      decide (bits v 16 3 ≠ 0 ∧ bits v 13 3 ≠ 0 ∧ bits v 6 2 ≠ 3 ∧ bits v 4 2 ≠ 3 ∧ bits v 2 2 ≠ 3)
    else if o = 4 then decide (bits v 0 2 ≠ 3)
    else if o = 0x1C then
      !bit v 31 || decide (165 ≤ bits v 16 11 ∧ bits v 16 11 ≤ 1050 ∧ 1 ≤ bits v 0 7 ∧ bits v 0 7 ≤ 100)
    else if 0x20 ≤ o ∧ o < 0x3C then pdoOk ((o - 0x20) / 4) v
    else if 0x40 ≤ o ∧ o < 0x5C then pdoOk ((o - 0x40) / 4) v
    else true
  else if a = 0x1A001C then
    !bit v 31 || decide (165 ≤ bits v 16 11 ∧ bits v 16 11 ≤ 1050 ∧ 1 ≤ bits v 0 7 ∧ bits v 0 7 ≤ 100)
  else if 0x1E0100 ≤ a ∧ a < 0x1E0200 then decide (bits v 0 3 ≤ 4)
  else if 0x1E0400 ≤ a ∧ a < 0x1E0540 ∧ ((a - 0x1E0400) % 0x40 = 8 ∨ (a - 0x1E0400) % 0x40 = 0xC) then
    poolOk (bits v 16 11) && poolOk (bits v 0 11)
  else true

/-! ## The Quire map (R414) -/

/-- What a Quire word is. -/
inductive QKind where
  | reserved
  | readOnly
  /-- a word of a key: key number 0 to 63 a slot, 64 and 65 the relay keys; index 0 to 3 -/
  | key (k i : Nat)
  /-- ERASE_RELAY0 and ERASE_RELAY1 -/
  | eraseRelay
  /-- the PERM word of a slot -/
  | perm (k : Nat)
  /-- the default of a register -/
  | supplies (a : Nat)
  /-- a field of its own with the mask of its bits -/
  | field (mask : W32)
  deriving DecidableEq, Repr

/-- The word at 0x240 + 5n + j, 0x300 + 5o + c − 3, 0x3C0 + 17n + j, 0x600 + i, 0x800 + 2s: the register supplied. -/
def quireTail (w : Nat) : QKind :=
  if 0x240 ≤ w ∧ w < 0x240 + 165 then
    let n := (w - 0x240) / 5
    match (w - 0x240) % 5 with
    | 0 => .supplies (aPortCfg n)
    | 1 => if n < 32 then .supplies (aPortLpm n) else .reserved
    | 2 => if n < 8 then .supplies (aSsLpm n) else .reserved
    | 3 => if n < 32 then .supplies (aEfuseCfg n) else .reserved
    | _ => if n < 32 then .supplies (aEfuseRetry n) else .reserved
  else if 0x300 ≤ w ∧ w < 0x300 + 180 then .supplies (aShare ((w - 0x300) / 5) ((w - 0x300) % 5 + 3))
  else if 0x3C0 ≤ w ∧ w < 0x3C0 + 561 then
    let n := (w - 0x3C0) / 17
    let j := (w - 0x3C0) % 17
    if j < 3 then .supplies (aPdCfg n + 4 * j)
    else if j < 10 then .supplies (aSrcPdo n (j - 3))
    else .supplies (aSnkPdo n (j - 10))
  else if w = 0x600 then .readOnly
  else if 0x600 < w ∧ w < 0x800 then (if srcUsed (w - 0x600) then .supplies (aSrcCfg (w - 0x600)) else .field 0)
  else if 0x800 ≤ w ∧ w < 0x1000 then .supplies (aRate ((w - 0x800) / 2) + 4 * (w % 2))
  else .reserved

/-- The words from 0x005 to 0x00E, in order. -/
def quireChipRegs : List Nat :=
  [aFcCfg, aPdGcfg, aChainCfg, aHbCfg, aDkCfg, aDkBeatin, aVatCfg, aVatRot, aPwrCfg, aPwrSleep]

/-- What Quire word w is. -/
def quireKind (w : Nat) : QKind :=
  if w = 0 then .readOnly
  else if w = 1 then .field 0x000103FF
  else if w = 2 then .field 0xFFFFFFFF
  else if w = 3 then .field 0x1FF
  else if w = 4 then .field 0x3FFFFF
  else if w < 0x00F then .supplies (quireChipRegs.getD (w - 5) 0)
  else if w = 0x00F then .reserved
  else if w < 0x018 then .supplies (aVatRsv (w - 0x010))
  else if w < 0x01C then .supplies (aReam (w - 0x018))
  else if w < 0x02B then .supplies (aCplCfg ((w - 0x01C) / 3) + [0, 8, 12].getD ((w - 0x01C) % 3) 0)
  else if w < 0x030 then .reserved
  else if w < 0x050 then .field 0x37
  else if w = 0x050 ∨ w = 0x052 then .field 0xFFFFFFFF
  else if w = 0x051 then .field 0xFFFF
  else if 0x058 ≤ w ∧ w < 0x060 then .field 0xFFFFFFFF
  else if 0x060 ≤ w ∧ w < 0x080 then
    (if (w - 0x060) % 16 < 6 then .field 0xFFFFFFFF
     else if (w - 0x060) % 16 = 6 then .field 0x0FFF00FF
     else if (w - 0x060) % 16 = 7 then .field 0x3FFF
     else .reserved)
  else if 0x080 ≤ w ∧ w < 0x090 then .readOnly
  else if 0x090 ≤ w ∧ w < 0x098 then .key (64 + (w - 0x090) / 4) ((w - 0x090) % 4)
  else if 0x098 ≤ w ∧ w < 0x09B then .readOnly
  else if w = 0x09B then .eraseRelay
  else if 0x0C0 ≤ w ∧ w < 0x1C0 then .key ((w - 0x0C0) / 4) ((w - 0x0C0) % 4)
  else if 0x1C0 ≤ w ∧ w < 0x240 then
    (if w % 2 = 0 then .field 0x03FF03FF else .perm ((w - 0x1C1) / 2))
  else quireTail w

/-- The value of a word that has never been written: its register's reset value, else 0 (R414). -/
def quireDefault (w : Nat) : W32 :=
  match quireKind w with
  | .supplies a => resetValue a
  | .readOnly => if w = 0x600 then 0x24010000 else 0
  | _ => 0

/-- The bits that a word stores. -/
def quireMask (w : Nat) : W32 :=
  match quireKind w with
  | .supplies a => match regInfo a with | some i => i.rw | none => 0
  | .field m => m
  | .perm _ => 0xFFF
  | .key _ _ => 0xFFFFFFFF
  | _ => 0

/-- Whether the value of a field word is no reserved encoding, judged on the word alone (R29, R94, R414). -/
def quireFieldOk (w : Nat) (v : W32) : Bool :=
  if w = 4 then decide (bits v 16 6 ≤ 60)
  else if 0x030 ≤ w ∧ w < 0x050 then
    decide (bits v 0 3 ≤ 4) && !(bits v 0 3 = 3 && decide (4 ≤ w - 0x030))
  else if 0x060 ≤ w ∧ w < 0x080 ∧ (w - 0x060) % 16 = 6 then decide (bits v 0 8 ≤ 128 ∧ bits v 16 12 ≤ 4094)
  else if 0x060 ≤ w ∧ w < 0x080 ∧ (w - 0x060) % 16 = 7 then
    decide (bits v 0 14 = 0 ∨ (1280 ≤ bits v 0 14 ∧ bits v 0 14 ≤ 9000))
  else if 0x1C0 ≤ w ∧ w < 0x240 then decide (bits v 0 10 ≤ bits v 16 10)
  else true

end Sys2Proof.Machine
end

