-- ==== Sys2Proof/Machine/State.lean ====
section
/-! DEFINITION. The state of the TM3232: every register, queue, table, timer, mode and pin the spec gives the
part, as plain data, and the queue of waiting commands. Sparse tables (`Tab`) list only the entries that
differ from their default; the default of each is named at its field. -/

namespace Sys2Proof.Machine

/-- Why the machine would stop. No step of this model stops: every row of the table has an effect. -/
inductive Fault where
  deriving DecidableEq, Repr

/-- Why a step has no meaning. -/
inductive Refusal where
  /-- raised by Machine/Dispatch.lean for a row whose meaning is not written; safe: no claim follows from it -/
  | notModelled (mnemonic : String)
  deriving DecidableEq, Repr

/-! ## The device as a whole -/

/-- Whether the part has supply and is out of reset (R47 to R49, R55, R306). -/
inductive Life where
  /-- no supply, not in dead-battery service -/
  | unpowered
  /-- power-on reset or `RESET_N` holds the main die -/
  | reset
  /-- `TEST_EN` read 1 at a reset release (R47) -/
  | testHold
  /-- out of reset, on board supplies -/
  | running
  /-- supplied from `U0_VBUS` (R55) -/
  | deadBattery
  /-- core gated (R311) -/
  | hibernate
  deriving DecidableEq, Repr

/-- `BOOT_STATUS.STATE` (R72, R73). -/
inductive BootState where
  | booting | normal | partialState | limp | recovery
  deriving DecidableEq, Repr

/-- The header fields of a running image that later steps use (R69). -/
structure ImageHdr where
  version : W32
  avvEpoch : BitVec 16
  relayEpoch : BitVec 16
  ownEpoch : BitVec 16
  partnerEpoch : BitVec 16
  deriving DecidableEq, Repr

/-- Bring-up and firmware (R60 to R82). Tables by slot number: 0 Mill A, 1 Mill B, 2 Couch A, 3 Couch B. -/
structure Boot where
  state : BootState
  /-- the READY register (R64) -/
  ready : BitVec 10
  /-- the mask loaded from the Quire at READY.QUIRE (R65); 0 until then -/
  pinMask : BitVec 10
  reverted : Bool
  trial : Bool
  /-- last result code of each slot (R70); default 0 NOT_TRIED -/
  result : Tab Nat
  /-- verified flag of each slot (R438); default false -/
  verified : Tab Bool
  /-- POSITION of each slot's FW_WRITE (R438); default 0 -/
  position : Tab Nat
  /-- the request whose FW_WRITE is erasing each slot (R81); default none -/
  erasing : Tab (Option ReqKey)
  /-- the slot whose check is running, and the one of its image that was tried first -/
  checking : Option FwSlot
  first : Option FwSlot
  /-- the boot ROM runs the Mill steps only, after a Mill watchdog reset (R72) -/
  millOnly : Bool
  mill : Option ImageHdr
  couch : Option ImageHdr
  millSlotB : Bool
  couchSlotB : Bool
  /-- the Mill image is chosen and initialises (R60 step 10 to 11) -/
  millChosen : Bool
  /-- the Couch image is chosen and not yet started (R60 step 13) -/
  couchChosen : Bool
  /-- the Mill watchdog is armed (R77) -/
  wdogArmed : Bool
  /-- microframe counts at which the Mill and the Couch watchdog were armed (R179) -/
  millFrom : Nat
  couchFrom : Nat
  /-- the host engine has been started since the last reset of the main die (R79) -/
  hostRuns : Bool
  /-- too few good Vat banks: bring-up stopped (R146) -/
  stopped : Bool
  /-- this start is a warm start from HIBERNATE (R313) -/
  warm : Bool
  deriving DecidableEq, Repr

/-! ## Requests, transports and subscribers -/

/-- A return address (R106): UDP addresses, the SPI, the link that presents the Management function (4 is U0),
or the ingress chip's position. -/
inductive Route where
  | spi
  | udp (e : Nat) (mac : BitVec 48) (vlan : Option (BitVec 16)) (v6 : Bool) (ip : BitVec 128)
      (dst : BitVec 128) (port : BitVec 16) (dscp : BitVec 6)
  | usb (link : Nat)
  | relay (position : Nat)
  deriving DecidableEq, Repr

/-- Where an accepted request stands (R116). -/
inductive Phase where
  /-- passed check 14, not started -/
  | accepted
  /-- READY waits (R422) -/
  | waitReady (mask : BitVec 10) (deadline : Nat)
  /-- PORT_RESET waits for ENABLED (R427) -/
  | portReset (port : Nat) (deadline : Nat)
  /-- PORT_RESUME waits for ENABLED (R427) -/
  | portResume (port : Nat)
  /-- a transfer of the host engine carries it -/
  | transfer
  /-- ENDPOINT_CLOSE waits for the transaction in progress on its contexts (R195) -/
  | closing (ctxs : List Nat)
  /-- PD_ACTION waits for the end of its exchange (R434); the action code -/
  | pdAction (n : Nat) (action : Nat)
  /-- an FW_WRITE at OFFSET 0 waits for its erase (R438) -/
  | fwErase (slot : FwSlot)
  /-- SELFTEST VAT_SPARE waits for a complete march pass (R439) -/
  | selftest
  /-- forwarded over a link until a deadline (R112 to R114) -/
  | forwarded (link : Nat) (deadline : Nat)
  /-- it has ended with a status and parameters, and its response waits for those of earlier requests of the same
  subscriber to the same target (R117) -/
  | done (status : Nat) (params : List Byte)
  /-- its response is queued and has not left -/
  | answered
  deriving DecidableEq, Repr

/-- An accepted request: it holds its tag until its response leaves the chip (R116). -/
structure Request where
  sub : SubId
  tag : BitVec 16
  opcode : BitVec 16
  keyslot : Nat
  /-- the key that verified it, kept for the life of the tag; none when unauthenticated (R103) -/
  key : Option Key
  route : Route
  dest : BitVec 16
  params : List Byte
  /-- the target of R117, resolved at check 14: 0 the chip, 1 + 128 × bus domain + address of a USB device, or
  65,536 + DEST of a request for another chip -/
  target : Nat
  /-- SV0 segments claimed for the response (R132) -/
  claim : Nat
  /-- microframe count of its acceptance -/
  born : Nat
  /-- SEQ of the last packet of its response, once that is queued: the tag ends as that packet leaves (R116) -/
  lastSeq : Option Nat
  /-- its packet was read poisoned: what is written from it is poisoned too (R134) -/
  poison : Bool
  /-- places in the parameters of its response that were read poisoned (R134) -/
  bad : List Nat
  phase : Phase
  deriving DecidableEq, Repr

/-- An entry of the beat digest being collected (R249). -/
structure DigestEntry where
  /-- 0 DATA, 1 HEARTBEAT, 2 END, 3 OUT_DONE -/
  type : Nat
  ctx : Nat
  mf : Nat
  slot : Nat
  poison : Bool
  coalesced : Bool
  gap : Bool
  prevBeat : Bool
  aux : Nat
  data : List Byte
  /-- the entry comes from an SV1 subscription (R248) -/
  sv1 : Bool
  deriving DecidableEq, Repr

/-- What the chip keeps for one subscriber. -/
structure Subscriber where
  /-- highest sequence counter accepted (R104) -/
  high : Nat
  /-- replay window mask (R104) -/
  mask : BitVec 64
  /-- next sequence counter of a packet sent (R105) -/
  txSeq : Nat
  /-- next notification TAG (R108) -/
  notifTag : Nat
  /-- the route, the key slot it was learned through, and whether that request was authenticated (R103, R106) -/
  route : Option (Route × Nat × Bool)
  /-- token balance B (R255) -/
  tokens : Nat
  /-- EVENTS registration (R424) -/
  classes : BitVec 7
  ports : W32
  u0 : Bool
  /-- digest entries of the beat in progress -/
  digest : List DigestEntry
  deriving DecidableEq, Repr

/-- The default of the subscriber table. -/
def Subscriber.reset : Subscriber :=
  { high := 0, mask := 1, txSeq := 1, notifTag := 1, route := none, tokens := 65536, classes := 0, ports := 0,
    u0 := false, digest := [] }

/-- The management SPI target (R89 to R93). -/
structure Spi where
  /-- response FIFO: whole packets, head first -/
  rsp : List (List Byte)
  /-- the last word sent on a PKT_RD -/
  last : W32
  /-- the bytes that the last read transaction returned -/
  out : List Byte
  /-- the transaction open at a reset release is ignored (R59) -/
  ignore : Bool
  deriving DecidableEq, Repr

/-! ## Register interface -/

/-- A pending UPDATE (R403 to R405). -/
structure PendingUpdate where
  groups : BitVec 8
  /-- 0 NOW, 1 NEXT_MICROFRAME, 2 NEXT_BEAT, 3 AT_BEAT -/
  whenSel : Nat
  atBeat : BeatNo
  /-- subscriber and request TAG; none for the SPI -/
  requester : Option (SubId × BitVec 16)
  /-- microframe count at acceptance: NEXT_* moments lie after it -/
  born : Nat
  deriving DecidableEq, Repr

/-- The Quire controller (R408 to R412). -/
structure Quire where
  /-- the words, by number; default: the reset value of the register supplied (R414) -/
  words : Tab W32
  /-- writes made to each word; default 0 -/
  wear : Tab Nat
  /-- the word whose write awaits its acknowledgement, with its old value -/
  busy : Option (Nat × W32)
  /-- key words written since word 0, by key number 0 to 63, 64 and 65 (R411); default 0 -/
  keyPart : Tab (BitVec 4)
  deriving DecidableEq, Repr

/-- The SPI's wide mailbox (R406). -/
structure Mailbox where
  valid : Bool
  badSel : Bool
  d0 : W32
  d1 : W32
  d2 : W32
  d3 : W32
  deriving DecidableEq, Repr

/-! ## The Vat -/

/-- A pointer of a queue descriptor (R126): a segment and a cell offset in it, 0 to 127. -/
structure Ptr where
  seg : Nat
  off : Nat
  deriving DecidableEq, Repr

/-- The state of a queue (R126). -/
inductive QueueState where
  | idle | active | resetting
  deriving DecidableEq, Repr

/-- A queue descriptor (R126) but for its pointers, which stand in `Books`, with its broke record (R156) and its latency
statistics (R256). -/
structure Queue where
  cls : Nat
  /-- owner kind and identity as `VAT_QOWNER` codes them -/
  ownerKind : Nat
  owner : Nat
  state : QueueState
  /-- segments linked -/
  segs : Nat
  /-- for each packet record, head first: the microframe count and the serial number at which it was linked; as many as
  the descriptor's packet count -/
  stamps : List (Nat × Nat)
  /-- the output it feeds (R252); 36 for none -/
  output : Nat
  /-- subscriber served (0 for none, R252) -/
  sub : Nat
  /-- broke record: OVERFLOW, RESET, POISON, FLUSH (R156) -/
  brokeOverflow : Nat
  brokeReset : Nat
  brokePoison : Nat
  brokeFlush : Nat
  /-- latency statistics (R256): running maxima and means × 256, then the latched summary -/
  maxDepth : Nat
  meanDepth : Nat
  maxAge : Nat
  meanAge : Nat
  latMaxDepth : Nat
  latMeanDepth : Nat
  latMaxAge : Nat
  latMeanAge : Nat
  deriving DecidableEq, Repr

/-- The default of the queue table: IDLE, owned by nobody. -/
def Queue.reset : Queue :=
  { cls := 0, ownerKind := 0, owner := 0, state := .idle, segs := 0, stamps := [], output := 36, sub := 0,
    brokeOverflow := 0, brokeReset := 0, brokePoison := 0, brokeFlush := 0, maxDepth := 0, meanDepth := 0, maxAge := 0,
    meanAge := 0, latMaxDepth := 0, latMeanDepth := 0, latMaxAge := 0, latMeanAge := 0 }

/-- The free list of one logical bank (R127) but for its head and links, which stand in `Books`: the count of its
segments, and whether it is quarantined (R139). -/
structure FreeList where
  count : Nat
  quarantined : Bool
  deriving DecidableEq, Repr

/-- The default of the free-list table: the whole bank. -/
def FreeList.reset : FreeList := { count := 8192, quarantined := false }

/-- What the segment state table says of a segment (R127). -/
inductive SegState where
  | free | linked | held
  deriving DecidableEq, Repr

/-- An entry of the segment state table (R127): the state and the owning queue; 16,384 for none, 16,384 + 1 + c for an
engine that stages in class c. -/
structure SegEntry where
  state : SegState
  owner : Nat
  deriving DecidableEq, Repr

/-- What the Vat keeps twice in Full, and once with parity in Half and Quarter (R137): the pointers of the queues, the
heads of the free lists, the link table and the segment state table. A segment is named by 8,192 × logical bank + number
in the bank. -/
structure Books where
  /-- head and tail of each queue; default segment 0, cell 0 -/
  ptrs : Tab (Ptr × Ptr)
  /-- head of the free list of each logical bank; default the bank's first segment -/
  heads : Tab Nat
  /-- the segment after each; default the next of its bank -/
  link : Tab Nat
  /-- default FREE -/
  sst : Tab SegEntry
  deriving DecidableEq, Repr

/-- Empty books: every segment FREE, each list in rising order. -/
def Books.reset : Books := { ptrs := [], heads := [], link := [], sst := [] }

/-- What the rows of a bank hold that no write has reached since: contents that the spec leaves open, those of the bank
named (power-on, or a march test that was stopped), or the background of the march pass that ran last (R140). -/
inductive Fill where
  | lost (bank : Nat)
  | march (background : Bool)
  deriving DecidableEq, Repr

/-- A physical bank (R120, R124): 32,768 rows of 32 cells. -/
structure Bank where
  fill : Fill
  /-- rows written since; default the fill -/
  rows : Tab (List Cell10)
  /-- the data background of the next march pass -/
  background : Bool
  deriving DecidableEq, Repr

/-- The default of the bank table: a bank just powered up. -/
def Bank.reset (b : Nat) : Bank := { fill := .lost b, rows := [], background := false }

/-- A rotation between steps 1 and 6 of R142: the slot, the row that the copier reads next, and the row that it holds
between its read and its write (R143). -/
structure Migration where
  slot : Nat
  next : Nat
  held : Option (Nat × List Cell10)
  deriving DecidableEq, Repr

/-- A request at an arbiter (R152, R153): the requester's index in the table, the cycle it was raised in, its age, and
whether its row is marked as no break point (R154). -/
structure BankReq where
  who : Nat
  raised : Nat
  age : Nat
  noBreak : Bool
  deriving DecidableEq, Repr

/-- The arbiter of a logical slot (R152 to R154): core cycles it has counted, the requester that holds the bank for the
next cycle, the requests that wait, and the cycle from which the copier may request again. -/
structure Arbiter where
  cycle : Nat
  holder : Option Nat
  waiting : List BankReq
  copierFrom : Nat
  deriving DecidableEq, Repr

/-- The default of the arbiter table: nothing waits. -/
def Arbiter.reset : Arbiter := { cycle := 0, holder := none, waiting := [], copierFrom := 0 }

/-- A depth change in progress (R147, R148): the target depth and the joining banks still to pass. -/
inductive DepthChange where
  | stable
  | growing (target : Nat) (joining : List Nat) (passed : List Nat)
  | draining (target : Nat)
  deriving DecidableEq, Repr

/-- The Vat (R120 to R157). -/
structure Vat where
  /-- depth in effect: 0 Quarter, 1 Half, 2 Full -/
  depth : Nat
  change : DepthChange
  /-- physical bank in each logical slot in service, slot 0 first (`VAT_MAP`) -/
  slots : List Nat
  spare : Option Nat
  /-- a bank powered up to become the spare, running its first march pass (R144) -/
  coming : Option Nat
  retired : BitVec 9
  noSpare : Bool
  rotSlot : Nat
  /-- the rotation in progress -/
  migrating : Option Migration
  /-- whole beats since the previous rotation (R141) -/
  beatsSinceRot : Nat
  /-- the spare has passed a march pass since it became the spare (R141) -/
  sparePassed : Bool
  /-- slots moved to the front of the rotation by R145, the first to fail first -/
  front : List Nat
  marchPasses : Nat
  marchLastOk : Bool
  /-- parity failures of each physical bank in this beat (R145); default 0 -/
  beatParity : Tab Nat
  /-- physical banks whose parity failures the collector has not taken yet, oldest first (R134) -/
  parityDue : List Nat
  /-- the physical banks; default `Bank.reset` of the bank -/
  banks : Tab Bank
  /-- arbiters by logical slot; default `Arbiter.reset` -/
  arbiters : Tab Arbiter
  /-- queue descriptors by number; default `Queue.reset` -/
  queues : Tab Queue
  /-- free lists by logical bank; default `FreeList.reset` -/
  free : Tab FreeList
  /-- the pointers and tables in use, and their second copy (R137) -/
  books : Books
  copy : Books
  /-- outstanding claims of each class in segments; default 0 -/
  claims : Tab Nat
  /-- segments held by engines, per class; default 0 -/
  held : Tab Nat
  /-- usage of each class, kept apart from the books that it sums (R149); default 0 -/
  used : Tab Nat
  /-- halves in use of a segment that holds short sheets, by segment: 1 the first, 2 the second, 3 both (R123); default 0 -/
  halves : Tab Nat
  /-- a tally check waits for the windows of R150 to close -/
  tallyDue : Bool
  lastDefer : Nat
  /-- records linked so far; the model's own field, it orders records across queues -/
  serial : Nat
  deriving DecidableEq, Repr

/-! ## The Deckle -/

/-- `DK_STATUS.STATE` (R168); ACQUIRE splits into qualifying and walking. -/
inductive DkState where
  | free | qualifying | walking | locked | coast
  deriving DecidableEq, Repr

/-- The ordinary clock of one E port (R163, R166). -/
structure PtpClock where
  /-- a Sync has arrived within 3 intervals and the offset lies within ±1 µs -/
  valid : Bool
  offsetNs : Int
  syncInterval : Nat
  deriving DecidableEq, Repr

/-- The Deckle (R158 to R183). Times are HS bit times of its own clock. -/
structure Deckle where
  /-- a grid exists (R179) -/
  running : Bool
  state : DkState
  /-- a source is being re-qualified while in COAST (R169) -/
  qualified : Bool
  beat : BeatNo
  mf : Nat
  /-- the slot in progress, and whether its strobe has been served -/
  slot : Nat
  strobed : Bool
  /-- microframes counted, or 125 µs periods without a grid: `now_mf` of R379 -/
  mfCount : Nat
  /-- bit time at which the microframe in progress and the beat in progress started -/
  mfStart : Nat
  beatStart : Nat
  prevBeatStart : Nat
  /-- rate term F, and e of the last accepted edge -/
  f : Int
  lastE : Int
  misses : Nat
  /-- accepted qualification edges of the current run, latest first (R170) -/
  run : List Nat
  /-- the last accepted edge, for the prediction of R165 -/
  lastEdge : Option Nat
  /-- consecutive accepted edges with |e| ≤ 32 while walking (R169) -/
  closeRun : Nat
  /-- plan of the beat in progress: q and r of R171, and whether it was clamped -/
  planQ : Int
  planR : Nat
  planClamped : Bool
  /-- plan of the next beat -/
  nextQ : Int
  nextR : Nat
  nextClamped : Bool
  /-- one-way delay D of R175, when measured -/
  linkDelay : Option Nat
  fnOffset : Nat
  /-- microframe count at the last beat message of the COUPLER source's neighbour (R166) -/
  beatMsgAt : Option Nat
  neighbourHops : Nat
  /-- the neighbour's number of the beat that its last edge started, from its beat messages (R163) -/
  neighbourBeat : Option BeatNo
  /-- the number that an adoption gives the beat that starts next (R174) -/
  adopt : Option BeatNo
  ptp0 : PtpClock
  ptp1 : PtpClock
  /-- the beat-end strobe of the beat in progress has been sent -/
  beatEnded : Bool
  deriving DecidableEq, Repr

/-! ## The host engine -/

/-- An endpoint context of the Ream (R192). -/
structure Ctx where
  /-- 0 FREE, 1 OPEN, 2 HALTED, 3 TOGGLE_UNSURE, 4 ERROR, 5 DEFAULT (R193) -/
  state : Nat
  /-- 0 control, 2 bulk, 3 interrupt -/
  type : Nat
  dirIn : Bool
  cpl : Bool
  ep : Nat
  domain : Nat
  speed : Nat
  addr : Nat
  port : Nat
  intf : Nat
  interval : Nat
  mult : Nat
  burst : Nat
  mps : Nat
  ttValid : Bool
  parentHub : Nat
  ttMulti : Bool
  parentPort : Nat
  ttHub : Nat
  ttPort : Nat
  route : Nat
  ping : Bool
  /-- the SuperSpeed endpoint has answered NRDY, and its ERDY has not come (R206) -/
  flow : Bool
  seq : Nat
  queue : Nat
  owned : Bool
  owner : Nat
  qslot : Nat
  dup : Nat
  err : Nat
  errRun : Nat
  fenced : Bool
  lastStatus : Nat
  deriving DecidableEq, Repr

/-- A FREE context: all fields 0. -/
def Ctx.reset : Ctx :=
  { state := 0, type := 0, dirIn := false, cpl := false, ep := 0, domain := 0, speed := 0, addr := 0, port := 0,
    intf := 0, interval := 0, mult := 0, burst := 0, mps := 0, ttValid := false, parentHub := 0, ttMulti := false,
    parentPort := 0, ttHub := 0, ttPort := 0, route := 0, ping := false, flow := false, seq := 0, queue := 0, owned := false,
    owner := 0, qslot := 0, dup := 0, err := 0, errRun := 0, fenced := false, lastStatus := 0 }

/-- The address-0 binding of a domain (R188). -/
structure Binding where
  port : Nat
  speed : Nat
  parentHub : Nat
  parentPort : Nat
  ttValid : Bool
  ttMulti : Bool
  ttHub : Nat
  ttPort : Nat
  route : Nat
  deriving DecidableEq, Repr

/-- Why the host engine runs a transfer. -/
inductive Purpose where
  /-- a CONTROL_XFER, BULK_IN or BULK_OUT of this request -/
  | request (k : ReqKey)
  /-- a request that a Mill watchdog reset has dropped: it runs on without a response (R79) -/
  | orphan
  /-- CLEAR_TT_BUFFER (R218) -/
  | clearTt
  /-- SET_FEATURE(PORT_SUSPEND), CLEAR_FEATURE(PORT_SUSPEND), GET_STATUS of a hub port (R300 to R302) -/
  | selSuspend (port : Nat)
  | selResume (port : Nat)
  | selStatus (port : Nat)
  /-- a step 1 to 4 of the Couch's enumeration of a DFP link (R259) -/
  | enumerate (link : Nat) (step : Nat)
  deriving DecidableEq, Repr

/-- A control or bulk transfer, waiting or running (R203). -/
structure Transfer where
  purpose : Purpose
  ctx : Nat
  control : Bool
  setup : Setup
  /-- bytes of OUT data in all, and of data moved so far in the data stage; the bytes themselves wait as records in
  the context's Vat queue (R25) -/
  total : Nat
  moved : Nat
  /-- IN bytes asked for -/
  want : Nat
  zlp : Bool
  /-- 0 SETUP, 1 DATA, 2 STATUS -/
  stage : Nat
  started : Bool
  /-- timeout in microframes; deadline once started (R204) -/
  timeout : Nat
  deadline : Option Nat
  /-- earliest microframe of the next attempt (R205) -/
  notBefore : Nat
  poisonTries : Nat
  /-- a start-split is acknowledged and complete-splits run (R217) -/
  splitOpen : Bool
  /-- the context claimed by a SET_ADDRESS (R189) -/
  claimed : Option Nat
  /-- segments claimed for the IN data of a split that is open (R132) -/
  held : Nat
  /-- SV0 segments that the request claimed which a Mill watchdog reset has dropped: they return as the transfer ends (R79) -/
  dropped : Nat
  deriving DecidableEq, Repr

/-- A USB transaction on the wire: a poll of a subscription, or an attempt of the first transfer of a context. -/
structure Xact where
  ctx : Nat
  poll : Bool
  /-- the last complete-split of a periodic split, or no split at all (R216) -/
  part : Nat
  beat : BeatNo
  mf : Nat
  slot : Nat
  /-- bytes gathered by earlier transactions of the same poll (R228) -/
  got : List Byte
  /-- the packet was sent poisoned (R136) -/
  poisoned : Bool
  /-- the subscription ended while this poll was in flight (R241, R257) -/
  orphan : Bool
  /-- OUT data of the packet, and its data PID (R207, R211) -/
  out : List Byte
  pid : DataPid
  /-- the microframe count at which a poll began (R216) -/
  born : Nat
  /-- the class, and the segments claimed in it for the record of an IN token (R132) -/
  cls : Nat
  claim : Nat
  deriving DecidableEq, Repr

/-- One token of a subscription's polls, as admitted (R236 to R239): the microframe of the beat it falls in, its planned
start and its charge in HS bit times. On an FS or LS root port the start is counted from the start of the frame. -/
structure Token where
  mf : Nat
  start : Nat
  charge : Nat
  deriving DecidableEq, Repr

/-- A periodic subscription with its sheet (R227 to R241). -/
structure Subscription where
  owner : SubId
  /-- 0 EVERY, 1 CHANGE, 2 SHEET -/
  delivery : Nat
  /-- 1 SV1, 2 SV2 -/
  cls : Nat
  /-- interval in beats when true, in microframes otherwise -/
  unitBeats : Bool
  /-- log2 n, or m − 1 -/
  period : Nat
  phase : Nat
  mf : Nat
  slot : Nat
  mask : List Byte
  heartbeat : Nat
  maxChg : Nat
  outRepeat : Bool
  isOut : Bool
  /-- every token in a beat, in rising order of microframe; a beat-interval subscription is charged in every beat -/
  tokens : List Token
  /-- order of admission on the port (R238) -/
  order : Nat
  /-- cells of the Vat that the sheet takes, in order: segment and first cell (R123) -/
  place : List (Nat × Nat)
  /-- bytes of the sheet's value -/
  sheetLen : Nat
  empty : Bool
  sheetPoison : Bool
  updBeat : BeatNo
  updMf : Nat
  updSlot : Nat
  /-- OUT: a value is pending, or has been written at least once; its first ACK has been reported -/
  pending : Bool
  written : Bool
  acked : Bool
  gap : Bool
  /-- beats that ended without a DATA entry (R234) -/
  quietBeats : Nat
  /-- a HEARTBEAT entry has been added in the beat in progress -/
  beatDone : Bool
  /-- polls answered with DATA or NAK since the count restarted (R234) -/
  answered : Nat
  /-- DATA entries in the beat in progress (R250) -/
  entries : Nat
  /-- WMB counters: polls issued, DATA, NAK, skipped (R256) -/
  nIssued : Nat
  nData : Nat
  nNak : Nat
  nSkipped : Nat
  /-- ended; the budget is kept until its last transaction ends (R241) -/
  ended : Bool
  deriving DecidableEq, Repr

/-- Root port states (R198). -/
inductive RootState where
  | notPresent | disconnected | debounce | connected | resetting | recovery | enabled | suspended | error
  deriving DecidableEq, Repr

/-- One of P0 to P31 as the engines see it. -/
structure Port where
  /-- allocation in effect, its code (R28), and its bus domain -/
  alloc : Nat
  domain : Nat
  hubPort : Nat
  state : RootState
  speed : Nat
  ss : Bool
  /-- R18 was judged to hold at the last PRESENT_CHANGE -/
  present : Bool
  /-- place in the queue of ports that wait in CONNECTED for the binding; 0 when not waiting (R199) -/
  waiting : Nat
  /-- the SuperSpeed link is being trained (R200) -/
  ssTraining : Bool
  /-- the hot reset has failed, and the warm reset runs (R200) -/
  warmReset : Bool
  /-- 0 L0 or U0, 1 L1, 2 U1, 3 U2, 4 suspended, 5 resuming -/
  link : Nat
  lpmRefused : Bool
  /-- an LPM token has been sent and not answered -/
  lpmSent : Bool
  /-- subtrees held suspended, as (hub address, hub port) (R300) -/
  selSusp : List (Nat × Nat)
  /-- subtrees whose resume waits 30 ms (R301) -/
  selWait : List (Nat × Nat)
  /-- the resume in progress was started by a remote wake -/
  wakeResume : Bool
  /-- recovery after resume is running (R299) -/
  resumeRecovery : Bool
  /-- consecutive idle beats (R298) -/
  idleBeats : Nat
  /-- a non-periodic transaction ran in the beat in progress -/
  busyBeat : Bool
  /-- the contexts whose non-periodic transactions ran in the beat in progress, and the idle beats of each subtree below a
  known hub, as (hub address, hub port, beats) (R300) -/
  busyCtxs : List Nat
  subIdle : List (Nat × Nat × Nat)
  /-- microframe count of the last non-periodic transaction (R294) -/
  lastWork : Nat
  /-- the USB bus of a coupler port acting as UFP -/
  inflight : List Xact
  /-- largest `hubPort`-independent count of known hubs: addresses that completed a hub-class request (R298) -/
  knownHubs : List Nat
  deriving DecidableEq, Repr

/-- A port before its first load: DISABLED. -/
def Port.reset : Port :=
  { alloc := 0, domain := 0, hubPort := 0, state := .notPresent, speed := 0, ss := false, present := false,
    waiting := 0, ssTraining := false, warmReset := false, link := 0, lpmRefused := false, lpmSent := false, selSusp := [],
    selWait := [], wakeResume := false, resumeRecovery := false, idleBeats := 0, busyBeat := false, busyCtxs := [], subIdle := [], lastWork := 0,
    inflight := [], knownHubs := [] }

/-! ## The fuses and Press dies -/

/-- Fuse states (R356). -/
inductive FuseState where
  | off | inrush | on | backoff | latched | held | sink
  deriving DecidableEq, Repr

/-- A trip known to the Press die and not yet decoded by the main die (R361, R378). -/
structure TripInfo where
  cause : Nat
  peak : BitVec 12
  vbus : BitVec 11
  deriving DecidableEq, Repr

/-- The electronic fuse of one port (R353 to R374). -/
structure Fuse where
  state : FuseState
  pg : Bool
  limiting : Bool
  gate : Bool
  dsch : Bool
  /-- limit of PPS mode in 50 mA, when in PPS mode (R360) -/
  pps : Option Nat
  consec : Nat
  lastCause : Nat
  /-- the trip line reads tripped -/
  tripLine : Bool
  /-- backoff time in ms of the BACKOFF in progress (R363), and whether it has passed -/
  backoffMs : Nat
  backoffDone : Bool
  /-- VBUS has been below vSafe0V since the gate went off -/
  atZero : Bool
  /-- the hold of R50 ended: the port stays off until the next reset -/
  holdEnded : Bool
  /-- the last trip, until its event is decoded -/
  trip : Option TripInfo
  /-- the collector's pending assertion of the trip line (R378) -/
  pendingTrip : Bool
  /-- bit of `PRESS_HOLD` (R371) -/
  hold : Bool
  deriving DecidableEq, Repr

/-- A fuse after reset: OFF. -/
def Fuse.reset : Fuse :=
  { state := .off, pg := false, limiting := false, gate := false, dsch := false, pps := none, consec := 0,
    lastCause := 0, tripLine := false, backoffMs := 0, backoffDone := false, atZero := true,
    holdEnded := false, trip := none, pendingTrip := false, hold := false }

/-- One Press die (R10 to R15, R51, R61, R312). -/
structure Die where
  powered : Bool
  armed : Bool
  lost : Bool
  linkUp : Bool
  /-- the safe pair reads Safe -/
  safe : Bool
  hibernating : Bool
  deriving DecidableEq, Repr

/-- A Press die that is supplied and out of reset, not yet armed. -/
def Die.reset : Die :=
  { powered := true, armed := false, lost := false, linkUp := true, safe := true, hibernating := false }

/-! ## The PD engines and the port supply bus -/

/-- Type-C states (R319). -/
inductive TcState where
  | disabled | unattachedSrc | unattachedSnk | attachWaitSrc | attachWaitSnk | trySrc | tryWaitSnk | trySnk
  | tryWaitSrc | attachedSrc | attachedSnk | errorRecovery | safe | hibernate
  deriving DecidableEq, Repr

/-- Messages that a PD engine sends (R324). -/
inductive PdMsg where
  | sourceCapabilities (pdos : List W32)
  | sinkCapabilities (pdos : List W32)
  | request (rdo : W32)
  | accept | reject | wait | psRdy | softReset | hardReset | notSupported
  | getSinkCap | prSwap | drSwap
  | alert (ado : W32)
  | status (presentInput : Nat)
  | sourceCapabilitiesExtended
  | ppsStatus
  | revision (major minor : Nat)
  | discoverIdentityAck (idHeader certStat product : W32)
  | discoverIdentitySop1
  | bistCarrier
  deriving DecidableEq, Repr

/-- An explicit contract (R327, R328). -/
structure Contract where
  position : Nat
  /-- 20 mV units -/
  volt : Nat
  /-- 10 mA units -/
  current : Nat
  pps : Bool
  /-- minimum voltage of the APDO in 20 mV units, for R360 -/
  ppsMin : Nat
  deriving DecidableEq, Repr

/-- The atomic message sequence an engine is in (R324 to R341). -/
inductive Ams where
  | idle
  /-- Source_Capabilities sent, its Request awaited -/
  | srcCaps
  /-- Request accepted as source: tSrcTransition runs -/
  | srcTransition (c : Contract)
  /-- VOUT_COMMAND is queued or runs -/
  | srcVout (c : Contract)
  /-- waiting for VBUS in the new window -/
  | srcWindow (c : Contract)
  /-- Request sent as sink, Accept awaited -/
  | snkRequest (c : Contract)
  /-- Accept received as sink, PS_RDY awaited -/
  | snkTransition (c : Contract)
  /-- a swap request sent by this end, its answer awaited -/
  | prSwapSent
  | drSwapSent
  /-- PR_Swap accepted, source to sink: tSrcTransition, then VBUS falling, then PS_RDY of the partner awaited -/
  | prToSnk
  | prToSnkDischarge
  | prToSnkWait
  /-- PR_Swap accepted, sink to source: PS_RDY of the partner awaited, then power good awaited -/
  | prToSrcWait
  | prToSrcPower
  /-- Soft_Reset sent, Accept awaited -/
  | softReset
  /-- hard reset as source: tPSHardReset, discharge, tSrcRecover, gate on and power good awaited -/
  | hardSrcStart
  | hardSrcRecover
  | hardSrcPower
  /-- hard reset as sink: Source_Capabilities awaited -/
  | hardSnk
  /-- Get_Sink_Cap sent -/
  | getSnkCap
  /-- Discover Identity sent to SOP' -/
  | discover
  /-- BIST carrier or test data -/
  | bist
  deriving DecidableEq, Repr

/-- One PD engine: P0 to P31 as 0 to 31, U0 as 32 (R317 to R352). -/
structure Pd where
  tc : TcState
  cc1 : CcLevel
  cc2 : CcLevel
  /-- 0 CC1, 1 CC2 -/
  orient : Nat
  source : Bool
  dfp : Bool
  /-- revision in use: 0 no PD, 1 revision 2.0, 2 revision 3.1 -/
  rev : Nat
  contract : Option Contract
  ams : Ams
  psbMissing : Bool
  hardResets : Nat
  /-- Source_Capabilities sent without an answer (nCapsCount) -/
  capsCount : Nat
  /-- the partner has answered PD at least once since attach -/
  partnerPd : Bool
  vconn : Bool
  marker : Bool
  markerI : Nat
  discTries : Nat
  limit5A : Bool
  /-- cable discovery has ended, or is not needed -/
  discDone : Bool
  /-- held swap requests, the one held first first: true PR, false DR (R339) -/
  heldSwaps : List Bool
  /-- Waits drawn by the swap request being retried, and which (R340) -/
  swapWaits : Nat
  retrySwap : Option Bool
  /-- the swap of R318 has been tried on this contract -/
  drTried : Bool
  sinkPath : Bool
  /-- last Source_Capabilities of the partner, for re-evaluation (R351) -/
  sourceCaps : List W32
  /-- the objects offered in the Source_Capabilities that a Request answers (R352) -/
  offered : List W32
  /-- at the end of the AMS a source owes Source_Capabilities, a sink a Request (R345, R351, R352) -/
  sendCaps : Bool
  /-- a Get_Sink_Cap waits for the end of the AMS -/
  getSnkWaits : Bool
  /-- an Alert waits for the end of an AMS, or for the 100 ms hold (R344) -/
  alertWaiting : Bool
  alertHold : Bool
  alertAgain : Bool
  /-- `PD_EVENT` bits set since the last PD_CHANGE (R443) -/
  newEvents : W32
  /-- the message transmit register (R26): last message sent -/
  tx : Option PdMsg
  /-- tErrorRecovery runs (R332) -/
  erTimer : Bool
  /-- a load holds the port in DISABLED until VBUS is at vSafe0V (R30) -/
  loadWait : Bool
  deriving DecidableEq, Repr

/-- An engine before its port's first load: DISABLED, CC open. -/
def Pd.reset : Pd :=
  { tc := .disabled, cc1 := .open, cc2 := .open, orient := 0, source := false, dfp := false, rev := 0,
    contract := none, ams := .idle, psbMissing := false, hardResets := 0, capsCount := 0, partnerPd := false,
    vconn := false, marker := false, markerI := 0, discTries := 0, limit5A := false, discDone := false,
    heldSwaps := [], swapWaits := 0, retrySwap := none, drTried := false, sinkPath := false,
    sourceCaps := [], offered := [], sendCaps := false, getSnkWaits := false, alertWaiting := false, alertHold := false,
    alertAgain := false, newEvents := 0, tx := none, erTimer := false, loadWait := false }

/-- PMBus commands the device uses (R334). -/
inductive PsbCmd where
  | operation (on : Bool)
  | clearFaults
  | readVoutMode
  /-- target in 20 mV units; the word written is formed from the converter's exponent -/
  | vout (volt : Nat)
  | readAlert
  | readStatus
  deriving DecidableEq, Repr

/-- A port supply bus transaction (R335). -/
structure PsbTx where
  port : Nat
  cmd : PsbCmd
  /-- 1 standby and turn-off, 2 voltage transitions and swaps, 3 status and load-time -/
  prio : Nat
  /-- the VOUT_COMMAND of a transition: its end moves the engine on (R337) -/
  transition : Bool
  deriving DecidableEq, Repr

/-- The port supply bus controller (R334 to R336). -/
structure Psb where
  queue : List PsbTx
  current : Option PsbTx
  failures : Nat
  /-- VOUT_MODE exponent of each converter, bits 4:0, as read at its load; default 0 -/
  exponent : Tab Nat
  /-- the level each converter was last commanded to, in 20 mV units; default 0 -/
  commanded : Tab Nat
  alertLow : Bool
  deriving DecidableEq, Repr

/-! ## The fault collector -/

/-- An assertion waiting to be folded at the beat end (R393). -/
structure Fold where
  level : Nat
  forced : Bool
  line : Bool
  c : Nat
  context : W32
  count : Nat
  deriving DecidableEq, Repr

/-- One source slot (R379). -/
structure Source where
  c : Nat
  ws : Nat
  level : Nat
  cause : Bool
  line : Bool
  forced : Bool
  /-- a FAULT_EVENT of this source was sent in the beat in progress, and the later ones folded -/
  sentInBeat : Bool
  fold : Option Fold
  deriving DecidableEq, Repr

/-- A source that has not asserted. -/
def Source.reset : Source :=
  { c := 0, ws := 0, level := 0, cause := false, line := false, forced := false, sentInBeat := false, fold := none }

/-- The Watermark (R389, R390). -/
structure Watermark where
  valid : Bool
  overflow : Bool
  forced : Bool
  line : Bool
  level : Nat
  source : Nat
  count : Nat
  context : W32
  epoch : BitVec 16
  beat : BeatNo
  mf : Nat
  offset : Nat
  deriving DecidableEq, Repr

/-- An empty Watermark. -/
def Watermark.reset : Watermark :=
  { valid := false, overflow := false, forced := false, line := false, level := 0, source := 0, count := 0,
    context := 0, epoch := 0, beat := 0, mf := 0, offset := 0 }

/-- The fault collector (R375 to R395). -/
structure Fc where
  /-- source slots by index; default `Source.reset` -/
  src : Tab Source
  chipSafe : Bool
  self : Bool
  safeSrc : Nat
  /-- the copy into the Quire is due or runs (R391) -/
  copying : Bool
  /-- `FC_FORCE_RESULT` -/
  result : W32
  /-- the FAULT_EVENT of the assertion that entered CHIP_SAFE, due at step 7 of R382 -/
  event : Option (Nat × Fold)
  /-- no FAULT_EVENT before the first latch: the wide mailbox shows the Quire record (R392) -/
  showRecord : Bool
  deriving DecidableEq, Repr

/-! ## Chip power -/

/-- Device power states (R306). -/
inductive PwrState where
  | active | trim | doze | hibernate
  deriving DecidableEq, Repr

/-- Where a change of the core rail stands (R315). -/
inductive AvsPhase where
  | idle
  /-- 650 mV written, VDone awaited -/
  | lowering
  /-- lowering, to be followed by a raising write (R316) -/
  | loweringAbandoned
  /-- `ACTIVE_MV` written, VDone awaited; DOZE, a failed lowering or HIBERNATE ends with it -/
  | raising
  deriving DecidableEq, Repr

/-- Device power management (R306 to R316). -/
structure Power where
  state : PwrState
  wakeSrc : Nat
  lastHib : Bool
  /-- consecutive beats in which the conditions of TRIM, DOZE and HIBERNATE held -/
  trimBeats : Nat
  dozeBeats : Nat
  hibBeats : Nat
  /-- a unit of SV3 to SV7 was granted on a USB output in the beat in progress (R308) -/
  granted : Bool
  /-- a request was accepted on a transport in the beat in progress (R309) -/
  reqInBeat : Bool
  /-- PWR_CFG or PWR_SLEEP was written: the counts restart at the next beat start -/
  restart : Bool
  avs : AvsPhase
  coreOk : Bool
  /-- target voltage last written, when it is not `ACTIVE_MV` -/
  lowered : Bool
  /-- beats of hold-off left after AVS_NOACK -/
  holdoff : Nat
  /-- PWR_STATE asked for DOZE and its response has left -/
  dozeNow : Bool
  deriving DecidableEq, Repr

/-! ## The relay links -/

/-- Link states (R274). -/
inductive LinkState where
  | down | enumerating | hello | quarantine | auth | authFailed | admitted | enabled | resetting | foreign
  deriving DecidableEq, Repr

/-- The books of one service of a link (R282 to R286). -/
structure Credit where
  /-- pool granted by the neighbour (as sender) -/
  pool : Nat
  sent : BitVec 32
  ret : BitVec 32
  /-- neighbour's REL total of the last BEAT frame or report -/
  lastRel : Option (BitVec 32)
  /-- segments released as receiver in all, and held for return -/
  released : BitVec 32
  held : Nat
  /-- own pool as receiver: the size claimed; what of it frames received hold is in their queues -/
  own : Nat
  deriving DecidableEq, Repr

/-- The books after an attach or a relay link reset (R284). -/
def Credit.reset : Credit :=
  { pool := 0, sent := 0, ret := 0, lastRel := none, released := 0, held := 0, own := 0 }

/-- One relay link: coupler ports P0 to P3, and link 4 on U0 (R258 to R292). -/
structure Link where
  state : LinkState
  ufp : Bool
  /-- 0 none, 2 high speed, 3 SuperSpeed -/
  speed : Nat
  noPool : Bool
  posClash : Bool
  authTries : Nat
  epoch : BitVec 16
  nbrPosValid : Bool
  nbrPos : Nat
  nbrEpoch : BitVec 16
  nbrUid : BitVec 64
  /-- CHIP_UID of the neighbour of the last ENABLED link (R281), and beat starts since it left ENABLED -/
  lastUid : Option (BitVec 64)
  beatsSince : Nat
  /-- subscriptions routed over it await the GRACE decision (R289) -/
  graceRuns : Bool
  /-- the link-control allowance is claimed (R270) -/
  allowance : Bool
  helloSent : Bool
  helloSeen : Bool
  /-- microframe count of the last HELLO sent, and of entry to AUTH or of the last failure -/
  helloAt : Nat
  authAt : Nat
  /-- nonces of the exchange: own and neighbour's, and the KEY_ID in use -/
  nonceOwn : Option Key
  nonceNbr : Option Key
  keyId : Nat
  macSent : Bool
  macOk : Bool
  enableSent : Bool
  enableSeen : Bool
  lastCause : Nat
  /-- pools of SV1 to SV3 are claimed -/
  poolsClaimed : Bool
  svc0 : Credit
  svc1 : Credit
  svc2 : Credit
  svc3 : Credit
  /-- SEQ of the next frame to send and to receive, on the high and low pipe (R269) -/
  txHigh : BitVec 16
  txLow : BitVec 16
  rxHigh : BitVec 16
  rxLow : BitVec 16
  /-- link-control frames waiting to be sent, first first -/
  ctl : List (List Byte)
  /-- the last frame sent on the link -/
  lastTx : List Byte
  /-- one-way delay of the link, when measured; T2, T3 of the last report poll -/
  delay : Option Nat
  t2 : Nat
  t3 : Nat
  tBeat16 : BitVec 16
  tValid : Bool
  /-- t1 and t4 of the last report poll at the DFP (R176) -/
  t1 : Option (Nat × Nat)
  /-- the token of the report poll has left, and its data has not arrived (R261) -/
  polled : Bool
  /-- start and number of the UFP's beat that the last exchange found, until it has counted as an edge (R176) -/
  found : Option (Nat × BeatNo)
  /-- the report that this UFP end last returned -/
  report : List Byte
  /-- step of R259 reached, 0 before the first request, and the microframe count at ENABLED -/
  enumStep : Nat
  enumAt : Nat
  deriving DecidableEq, Repr

/-- A link that is DOWN. -/
def Link.reset : Link :=
  { state := .down, ufp := false, speed := 0, noPool := false, posClash := false, authTries := 0, epoch := 0,
    nbrPosValid := false, nbrPos := 0, nbrEpoch := 0, nbrUid := 0, lastUid := none, beatsSince := 0,
    graceRuns := false, allowance := false, helloSent := false, helloSeen := false, helloAt := 0, authAt := 0,
    nonceOwn := none, nonceNbr := none, keyId := 0, macSent := false, macOk := false, enableSent := false,
    enableSeen := false, lastCause := 0, poolsClaimed := false, svc0 := Credit.reset, svc1 := Credit.reset,
    svc2 := Credit.reset, svc3 := Credit.reset, txHigh := 0, txLow := 0, rxHigh := 0, rxLow := 0, ctl := [],
    lastTx := [], delay := none, t2 := 0, t3 := 0, tBeat16 := 0, tValid := false,
    t1 := none, polled := false, found := none, report := [], enumStep := 0, enumAt := 0 }

/-! ## The function device, the hub function and U0 -/

/-- A reply to a control request of an external host (R214, R219, R225). -/
inductive UsbReply where
  | none
  | data (bytes : List Byte)
  | ack
  | stall
  | nak
  | nyet
  | nrdy
  deriving DecidableEq, Repr

/-- The function device on U0 or on a coupler port acting as UFP, and the hub function's own device state (R225). -/
structure UsbFunction where
  addr : Nat
  config : Nat
  remoteWake : Bool
  /-- U1_ENABLE and U2_ENABLE, at SuperSpeed -/
  u1Enable : Bool
  u2Enable : Bool
  halted : List Nat
  suspended : Bool
  /-- remote wake is being signalled (R304) -/
  waking : Bool
  /-- data toggles or sequence numbers by endpoint address; default 0 -/
  toggles : Tab Nat
  reply : UsbReply
  /-- the bus was reset and the function has not been configured since (R98) -/
  busReset : Bool
  deriving DecidableEq, Repr

/-- An unaddressed function. -/
def UsbFunction.reset : UsbFunction :=
  { addr := 0, config := 0, remoteWake := false, u1Enable := false, u2Enable := false, halted := [], suspended := false, waking := false, toggles := [],
    reply := .none, busReset := false }

/-- A TT buffer in use (R223): the split it holds, the answer of the device once it has come, and the class and segments
claimed for it. The bytes of either stand in KIND 5 records of the TT's queues. -/
structure TtBuffer where
  periodic : Bool
  isIn : Bool
  /-- its transaction is on the port -/
  sent : Bool
  result : Option XactResult
  cls : Nat
  claim : Nat
  deriving DecidableEq, Repr

/-- A port of the hub function: `wPortStatus` and `wPortChange` as USB 2.0 lays them out, and its TT (R222, R223). -/
structure HubPort where
  status : BitVec 16
  change : BitVec 16
  /-- TT buffers in use, oldest first -/
  ttBuffers : List TtBuffer
  ttStopped : Bool
  /-- SuperSpeed: the host has put the link into SS.Disabled; the reset in progress is a warm reset -/
  ssDisabled : Bool
  warm : Bool
  /-- SuperSpeed: the U1 and U2 inactivity timeouts and the remote wake mask that the host has set -/
  u1Timeout : Byte
  u2Timeout : Byte
  wakeMask : BitVec 3
  deriving DecidableEq, Repr

/-- A hub port that is powered and shows nothing. -/
def HubPort.reset : HubPort :=
  { status := 0x0100, change := 0, ttBuffers := [], ttStopped := false, ssDisabled := false, warm := false, u1Timeout := 0,
    u2Timeout := 0, wakeMask := 0 }

/-- U0 (R33, R219 to R225). -/
structure U0 where
  vbus : Bool
  /-- speed at which the external host runs U0: 0 not connected, 1 FS, 2 HS, 3 SuperSpeed -/
  speed : Nat
  /-- the external host has reset U0 since data connected -/
  hub : UsbFunction
  suspended : Bool
  /-- hub ports 1 to 16 by number; default `HubPort.reset` -/
  ports : Tab HubPort
  /-- `U0_RELAY_EN` as loaded -/
  relayEn : Bool
  deriving DecidableEq, Repr

/-- One E port (R94, R95). -/
structure Eth where
  linkUp : Bool
  configured : Bool
  ip4Addr : W32
  ip4Mask : W32
  ip6Addr : BitVec 128
  ip6Prefix : Nat
  vlanId : Nat
  mtu : Nat
  /-- the return address to which the last datagram left (R96), and those of the responses that wait, in order -/
  sentTo : Option Route
  rspTo : List Route
  /-- answers of the IP layer that wait in DOZE until the device is ACTIVE (R310) -/
  owed : List (List Byte)
  deriving DecidableEq, Repr

/-- An E port before `READY.ETH`. -/
def Eth.reset : Eth :=
  { linkUp := false, configured := false, ip4Addr := 0, ip4Mask := 0, ip6Addr := 0, ip6Prefix := 0, vlanId := 0,
    mtu := 1500, sentTo := none, rspTo := [], owed := [] }

/-! ## The whole -/

/-- The device: everything but the straps as sampled and the commands that wait. -/
structure Dev where
  life : Life
  boot : Boot
  /-- the flash, by address; default 0xFF -/
  flash : Tab Byte
  /-- registers that hold a value of their own, by address: RW registers, the value in effect of RWS registers,
  W1C event bits; default: the reset value (R4, Machine/RegMap.lean) -/
  regs : Tab W32
  /-- shadows of RWS registers written since their last application, by address; default none (R402) -/
  shadow : Tab (Option W32)
  /-- 64-bit saturating counters by wide-mailbox selector (R407); default 0 -/
  counters : Tab Nat
  /-- microframe starts left until each open guard re-arms; 0 armed; key 0 the SPI, 1 + s subscriber s (R400) -/
  guards : Tab Nat
  updates : List PendingUpdate
  updateLast : BitVec 16
  mailbox : Mailbox
  quire : Quire
  requests : List Request
  subs : Tab Subscriber
  spi : Spi
  vat : Vat
  /-- deficits, uses and round-robin places of the Headbox, keyed 8 × output + class; defaults 0 (R253) -/
  deficit : Tab Int
  used : Tab Nat
  rrNext : Tab Nat
  /-- the class cursor of each output's deficit round robin; default 3 -/
  drrCur : Tab Nat
  /-- the last unit that left at each output -/
  sentUnit : Tab (List Byte)
  /-- its check field (CRC16, CRC-32 or FCS) was sent inverted (R135); default false -/
  sentBad : Tab Bool
  deckle : Deckle
  ctxs : Tab Ctx
  bindings : Tab (Option Binding)
  /-- new addresses held back for 2 ms: domain, address, deadline (R189) -/
  holds : List (Nat × Nat × Nat)
  transfers : List Transfer
  subscriptions : Tab (Option Subscription)
  ports : Tab Port
  fuses : Tab Fuse
  dies : Tab Die
  pd : Tab Pd
  psb : Psb
  vinLow : Bool
  fc : Fc
  watermark : Watermark
  power : Power
  links : Tab Link
  /-- function devices: 0 to 3 on coupler ports, 4 on U0 -/
  funcs : Tab UsbFunction
  u0 : U0
  eths : Tab Eth
  /-- relay keys held by the Couch core since the last handover (R278) -/
  couchKeys : Tab (Option Key)
  maint : Bool
  /-- a chip-scope RESET has been accepted and has not started (R423): no new command starts; the request, and the microframe
  count 10 ms after its response was queued -/
  resetDue : Option (ReqKey × Nat)
  /-- the `CHAIN_POS` of a CHAIN_SET whose response is queued, and the count 10 ms later (R441) -/
  chainDue : Option (ReqKey × W32 × Nat)
  jtag : JtagInstr
  /-- the cells of the boundary-scan chain as SAMPLE/PRELOAD or EXTEST last left them, the one that leaves first ahead; and what
  the last JTAG operation shifted out (R46) -/
  scan : List Bool
  jtagOut : List Bool
  /-- uses of the random source and of the free constants of Config; the model's own field -/
  nonceCtr : Nat
  freeCtr : Nat
  deriving DecidableEq, Repr

/-- The state of the TM3232. -/
structure State where
  /-- the commands that wait, first in first out -/
  pending : List Instr
  /-- the straps as last sampled (R43) -/
  straps : Straps
  dev : Dev
  deriving DecidableEq, Repr

/-! ## Reset -/

/-- Straps left open (R44). -/
def Straps.open : Straps := { cfg := 0xF, u0Db := true, cplDb := true, testEn := false }

def Boot.reset : Boot :=
  { state := .booting, ready := 0, pinMask := 0, reverted := false, trial := false, result := [], verified := [],
    position := [], erasing := [], checking := none, first := none, millOnly := false, mill := none, couch := none,
    millSlotB := false, couchSlotB := false, millChosen := false, couchChosen := false, wdogArmed := false, millFrom := 0, couchFrom := 0, hostRuns := false,
    stopped := false, warm := false }

def Quire.blank : Quire := { words := [], wear := [], busy := none, keyPart := [] }

def Mailbox.reset : Mailbox := { valid := false, badSel := false, d0 := 0, d1 := 0, d2 := 0, d3 := 0 }

def Spi.reset : Spi := { rsp := [], last := 0, out := [], ignore := false }

def Vat.reset : Vat :=
  { depth := 0, change := .stable, slots := [], spare := none, coming := none, retired := 0, noSpare := false,
    rotSlot := 0, migrating := none, beatsSinceRot := 0, sparePassed := false, front := [], marchPasses := 0,
    marchLastOk := false, beatParity := [], parityDue := [], banks := [], arbiters := [], queues := [], free := [],
    books := Books.reset, copy := Books.reset, claims := [], held := [], used := [], halves := [],
    tallyDue := false, lastDefer := 0, serial := 0 }

def PtpClock.reset : PtpClock := { valid := false, offsetNs := 0, syncInterval := 0 }

def Deckle.reset : Deckle :=
  { running := false, state := .free, qualified := false, beat := 0, mf := 0, slot := 0, strobed := false,
    mfCount := 0, mfStart := 0, beatStart := 0, prevBeatStart := 0, f := 0, lastE := 0, misses := 0, run := [], lastEdge := none, closeRun := 0, planQ := 0,
    planR := 0, planClamped := false, nextQ := 0, nextR := 0, nextClamped := false,
    linkDelay := none, fnOffset := 0, beatMsgAt := none, neighbourHops := 0, neighbourBeat := none, adopt := none, ptp0 := PtpClock.reset,
    ptp1 := PtpClock.reset, beatEnded := false }

def Psb.reset : Psb :=
  { queue := [], current := none, failures := 0, exponent := [], commanded := [], alertLow := false }

def Fc.reset : Fc :=
  { src := [], chipSafe := false, self := false, safeSrc := 0, copying := false, result := 0, event := none,
    showRecord := false }

def Power.reset : Power :=
  { state := .active, wakeSrc := 0, lastHib := false, trimBeats := 0, dozeBeats := 0, hibBeats := 0,
    granted := false, reqInBeat := false, restart := false, avs := .idle, coreOk := true, lowered := false,
    holdoff := 0, dozeNow := false }

def U0.reset : U0 :=
  { vbus := false, speed := 0, hub := UsbFunction.reset, suspended := false, ports := [], relayEn := false }

/-- The device right after a power-on reset has been released (R60 step 1): on board supplies, every Press die
supplied and not yet armed, nothing loaded, a Quire that has never been written. -/
def Dev.reset : Dev :=
  { life := .running, boot := Boot.reset, flash := [], regs := [],
    shadow := [], counters := [], guards := [], updates := [], updateLast := 0, mailbox := Mailbox.reset,
    quire := Quire.blank, requests := [], subs := [], spi := Spi.reset, vat := Vat.reset, deficit := [], used := [],
    rrNext := [], drrCur := [], sentUnit := [], sentBad := [], deckle := Deckle.reset, ctxs := [], bindings := [], holds := [],
    transfers := [], subscriptions := [], ports := [], fuses := [], dies := [], pd := [], psb := Psb.reset,
    vinLow := false, fc := Fc.reset, watermark := Watermark.reset, power := Power.reset, links := [], funcs := [],
    u0 := U0.reset, eths := [], couchKeys := [], maint := false, resetDue := none, chainDue := none, jtag := .bypass, scan := [], jtagOut := [], nonceCtr := 0,
    freeCtr := 0 }

/-- The machine right after reset: no command waits, and the straps read as left open. -/
def State.reset : State := { pending := [], straps := Straps.open, dev := Dev.reset }

end Sys2Proof.Machine
end

