-- ==== Sys2Proof/Machine/Access.lean ====
section
/-! DEFINITION. Reading and writing the tables of the device: for each table the default of an unlisted entry, a
read, a write and an update. -/

namespace Sys2Proof.Machine

/-- The default of `ports`. -/
def portDflt (_ : Nat) : Port := Port.reset
/-- Reads P0 to P31 as the engines see them. -/
def Dev.port (d : Dev) (k : Nat) : Port := look portDflt d.ports k
/-- Writes P0 to P31 as the engines see them. -/
def Dev.setPort (d : Dev) (k : Nat) (v : Port) : Dev := { d with ports := put portDflt d.ports k v }
/-- Updates P0 to P31 as the engines see them. -/
def Dev.updPort (d : Dev) (k : Nat) (f : Port → Port) : Dev := d.setPort k (f (d.port k))

/-- The default of `ctxs`. -/
def ctxDflt (_ : Nat) : Ctx := Ctx.reset
/-- Reads endpoint context. -/
def Dev.ctx (d : Dev) (k : Nat) : Ctx := look ctxDflt d.ctxs k
/-- Writes endpoint context. -/
def Dev.setCtx (d : Dev) (k : Nat) (v : Ctx) : Dev := { d with ctxs := put ctxDflt d.ctxs k v }
/-- Updates endpoint context. -/
def Dev.updCtx (d : Dev) (k : Nat) (f : Ctx → Ctx) : Dev := d.setCtx k (f (d.ctx k))

/-- The default of `fuses`. -/
def fuseDflt (_ : Nat) : Fuse := Fuse.reset
/-- Reads the fuse of a port. -/
def Dev.fuse (d : Dev) (k : Nat) : Fuse := look fuseDflt d.fuses k
/-- Writes the fuse of a port. -/
def Dev.setFuse (d : Dev) (k : Nat) (v : Fuse) : Dev := { d with fuses := put fuseDflt d.fuses k v }
/-- Updates the fuse of a port. -/
def Dev.updFuse (d : Dev) (k : Nat) (f : Fuse → Fuse) : Dev := d.setFuse k (f (d.fuse k))

/-- The default of `dies`. -/
def dieDflt (_ : Nat) : Die := Die.reset
/-- Reads a Press die. -/
def Dev.die (d : Dev) (k : Nat) : Die := look dieDflt d.dies k
/-- Writes a Press die. -/
def Dev.setDie (d : Dev) (k : Nat) (v : Die) : Dev := { d with dies := put dieDflt d.dies k v }
/-- Updates a Press die. -/
def Dev.updDie (d : Dev) (k : Nat) (f : Die → Die) : Dev := d.setDie k (f (d.die k))

/-- The default of `pd`. -/
def engDflt (_ : Nat) : Pd := Pd.reset
/-- Reads a PD engine. -/
def Dev.eng (d : Dev) (k : Nat) : Pd := look engDflt d.pd k
/-- Writes a PD engine. -/
def Dev.setEng (d : Dev) (k : Nat) (v : Pd) : Dev := { d with pd := put engDflt d.pd k v }
/-- Updates a PD engine. -/
def Dev.updEng (d : Dev) (k : Nat) (f : Pd → Pd) : Dev := d.setEng k (f (d.eng k))

/-- The default of `links`. -/
def linkDflt (_ : Nat) : Link := Link.reset
/-- Reads a relay link. -/
def Dev.link (d : Dev) (k : Nat) : Link := look linkDflt d.links k
/-- Writes a relay link. -/
def Dev.setLink (d : Dev) (k : Nat) (v : Link) : Dev := { d with links := put linkDflt d.links k v }
/-- Updates a relay link. -/
def Dev.updLink (d : Dev) (k : Nat) (f : Link → Link) : Dev := d.setLink k (f (d.link k))

/-- The default of `funcs`. -/
def funcDflt (_ : Nat) : UsbFunction := UsbFunction.reset
/-- Reads a function device. -/
def Dev.func (d : Dev) (k : Nat) : UsbFunction := look funcDflt d.funcs k
/-- Writes a function device. -/
def Dev.setFunc (d : Dev) (k : Nat) (v : UsbFunction) : Dev := { d with funcs := put funcDflt d.funcs k v }
/-- Updates a function device. -/
def Dev.updFunc (d : Dev) (k : Nat) (f : UsbFunction → UsbFunction) : Dev := d.setFunc k (f (d.func k))

/-- The default of `eths`. -/
def ethDflt (_ : Nat) : Eth := Eth.reset
/-- Reads an E port. -/
def Dev.eth (d : Dev) (k : Nat) : Eth := look ethDflt d.eths k
/-- Writes an E port. -/
def Dev.setEth (d : Dev) (k : Nat) (v : Eth) : Dev := { d with eths := put ethDflt d.eths k v }
/-- Updates an E port. -/
def Dev.updEth (d : Dev) (k : Nat) (f : Eth → Eth) : Dev := d.setEth k (f (d.eth k))

/-- The default of `subs`. -/
def subrDflt (_ : Nat) : Subscriber := Subscriber.reset
/-- Reads what the chip keeps for a subscriber. -/
def Dev.subr (d : Dev) (k : Nat) : Subscriber := look subrDflt d.subs k
/-- Writes what the chip keeps for a subscriber. -/
def Dev.setSubr (d : Dev) (k : Nat) (v : Subscriber) : Dev := { d with subs := put subrDflt d.subs k v }
/-- Updates what the chip keeps for a subscriber. -/
def Dev.updSubr (d : Dev) (k : Nat) (f : Subscriber → Subscriber) : Dev := d.setSubr k (f (d.subr k))

/-- The default of `subscriptions`. -/
def subscriptionDflt (_ : Nat) : Option Subscription := none
/-- Reads the subscription on a context. -/
def Dev.subscription (d : Dev) (k : Nat) : Option Subscription := look subscriptionDflt d.subscriptions k
/-- Writes the subscription on a context. -/
def Dev.setSubscription (d : Dev) (k : Nat) (v : Option Subscription) : Dev := { d with subscriptions := put subscriptionDflt d.subscriptions k v }
/-- Updates the subscription on a context. -/
def Dev.updSubscription (d : Dev) (k : Nat) (f : Option Subscription → Option Subscription) : Dev := d.setSubscription k (f (d.subscription k))

/-- The default of `bindings`. -/
def bindingDflt (_ : Nat) : Option Binding := none
/-- Reads the address-0 binding of a domain. -/
def Dev.binding (d : Dev) (k : Nat) : Option Binding := look bindingDflt d.bindings k
/-- Writes the address-0 binding of a domain. -/
def Dev.setBinding (d : Dev) (k : Nat) (v : Option Binding) : Dev := { d with bindings := put bindingDflt d.bindings k v }
/-- Updates the address-0 binding of a domain. -/
def Dev.updBinding (d : Dev) (k : Nat) (f : Option Binding → Option Binding) : Dev := d.setBinding k (f (d.binding k))

/-- The default of `guards`. -/
def guardDflt (_ : Nat) : Nat := 0
/-- Reads the key guard of a path: microframe starts left, 0 armed. -/
def Dev.guard (d : Dev) (k : Nat) : Nat := look guardDflt d.guards k
/-- Writes the key guard of a path: microframe starts left, 0 armed. -/
def Dev.setGuard (d : Dev) (k : Nat) (v : Nat) : Dev := { d with guards := put guardDflt d.guards k v }
/-- Updates the key guard of a path: microframe starts left, 0 armed. -/
def Dev.updGuard (d : Dev) (k : Nat) (f : Nat → Nat) : Dev := d.setGuard k (f (d.guard k))

/-- The default of `counters`. -/
def counterDflt (_ : Nat) : Nat := 0
/-- Reads a wide-mailbox counter. -/
def Dev.counter (d : Dev) (k : Nat) : Nat := look counterDflt d.counters k
/-- Writes a wide-mailbox counter. -/
def Dev.setCounter (d : Dev) (k : Nat) (v : Nat) : Dev := { d with counters := put counterDflt d.counters k v }
/-- Updates a wide-mailbox counter. -/
def Dev.updCounter (d : Dev) (k : Nat) (f : Nat → Nat) : Dev := d.setCounter k (f (d.counter k))

/-- The default of `couchKeys`. -/
def couchKeyDflt (_ : Nat) : Option Key := none
/-- Reads a relay key held by the Couch core. -/
def Dev.couchKey (d : Dev) (k : Nat) : Option Key := look couchKeyDflt d.couchKeys k
/-- Writes a relay key held by the Couch core. -/
def Dev.setCouchKey (d : Dev) (k : Nat) (v : Option Key) : Dev := { d with couchKeys := put couchKeyDflt d.couchKeys k v }
/-- Updates a relay key held by the Couch core. -/
def Dev.updCouchKey (d : Dev) (k : Nat) (f : Option Key → Option Key) : Dev := d.setCouchKey k (f (d.couchKey k))

/-- The default of `sentUnit`. -/
def unitDflt (_ : Nat) : List Byte := []
/-- Reads the last unit that left at an output. -/
def Dev.unit (d : Dev) (k : Nat) : List Byte := look unitDflt d.sentUnit k
/-- Writes the last unit that left at an output. -/
def Dev.setUnit (d : Dev) (k : Nat) (v : List Byte) : Dev := { d with sentUnit := put unitDflt d.sentUnit k v }
/-- Updates the last unit that left at an output. -/
def Dev.updUnit (d : Dev) (k : Nat) (f : List Byte → List Byte) : Dev := d.setUnit k (f (d.unit k))
/-- The default of `sentBad`. -/
def unitBadDflt (_ : Nat) : Bool := false
/-- Whether the last unit that left at an output had its check field inverted. -/
def Dev.unitBad (d : Dev) (k : Nat) : Bool := look unitBadDflt d.sentBad k
/-- A unit leaves at an output, its check field inverted when `bad` (R135). -/
def Dev.sendUnit (d : Dev) (k : Nat) (v : List Byte) (bad : Bool) : Dev :=
  { d.setUnit k v with sentBad := put unitBadDflt d.sentBad k bad }

/-- The default of `deficit`. -/
def deficitOfDflt (_ : Nat) : Int := 0
/-- Reads the deficit of a class at an output, key 8o + c. -/
def Dev.deficitOf (d : Dev) (k : Nat) : Int := look deficitOfDflt d.deficit k
/-- Writes the deficit of a class at an output, key 8o + c. -/
def Dev.setDeficitOf (d : Dev) (k : Nat) (v : Int) : Dev := { d with deficit := put deficitOfDflt d.deficit k v }
/-- Updates the deficit of a class at an output, key 8o + c. -/
def Dev.updDeficitOf (d : Dev) (k : Nat) (f : Int → Int) : Dev := d.setDeficitOf k (f (d.deficitOf k))

/-- The default of `used`. -/
def usedOfDflt (_ : Nat) : Nat := 0
/-- Reads what a class has used at an output in this microframe, key 8o + c. -/
def Dev.usedOf (d : Dev) (k : Nat) : Nat := look usedOfDflt d.used k
/-- Writes what a class has used at an output in this microframe, key 8o + c. -/
def Dev.setUsedOf (d : Dev) (k : Nat) (v : Nat) : Dev := { d with used := put usedOfDflt d.used k v }
/-- Updates what a class has used at an output in this microframe, key 8o + c. -/
def Dev.updUsedOf (d : Dev) (k : Nat) (f : Nat → Nat) : Dev := d.setUsedOf k (f (d.usedOf k))

/-- The default of `rrNext`. -/
def rrOfDflt (_ : Nat) : Nat := 0
/-- Reads where the round robin of a class at an output continues, key 8o + c. -/
def Dev.rrOf (d : Dev) (k : Nat) : Nat := look rrOfDflt d.rrNext k
/-- Writes where the round robin of a class at an output continues, key 8o + c. -/
def Dev.setRrOf (d : Dev) (k : Nat) (v : Nat) : Dev := { d with rrNext := put rrOfDflt d.rrNext k v }
/-- Updates where the round robin of a class at an output continues, key 8o + c. -/
def Dev.updRrOf (d : Dev) (k : Nat) (f : Nat → Nat) : Dev := d.setRrOf k (f (d.rrOf k))

/-- The default of `drrCur`. -/
def drrOfDflt (_ : Nat) : Nat := 3
/-- Reads the class cursor of an output. -/
def Dev.drrOf (d : Dev) (k : Nat) : Nat := look drrOfDflt d.drrCur k
/-- Writes the class cursor of an output. -/
def Dev.setDrrOf (d : Dev) (k : Nat) (v : Nat) : Dev := { d with drrCur := put drrOfDflt d.drrCur k v }
/-- Updates the class cursor of an output. -/
def Dev.updDrrOf (d : Dev) (k : Nat) (f : Nat → Nat) : Dev := d.setDrrOf k (f (d.drrOf k))

/-- The default of `flash`. -/
def cellDflt (_ : Nat) : Byte := 0xFF
/-- Reads a byte of the flash. -/
def Dev.cell (d : Dev) (k : Nat) : Byte := look cellDflt d.flash k
/-- Writes a byte of the flash. -/
def Dev.setCell (d : Dev) (k : Nat) (v : Byte) : Dev := { d with flash := put cellDflt d.flash k v }
/-- Updates a byte of the flash. -/
def Dev.updCell (d : Dev) (k : Nat) (f : Byte → Byte) : Dev := d.setCell k (f (d.cell k))

/-- The default of `Vat.queues`. -/
def queueDflt (_ : Nat) : Queue := Queue.reset
def Dev.queue (d : Dev) (k : Nat) : Queue := look queueDflt d.vat.queues k
def Dev.setQueue (d : Dev) (k : Nat) (v : Queue) : Dev :=
  { d with vat := { d.vat with queues := put queueDflt d.vat.queues k v } }
def Dev.updQueue (d : Dev) (k : Nat) (f : Queue → Queue) : Dev := d.setQueue k (f (d.queue k))

/-- Updates the Vat. -/
def Dev.updVat (d : Dev) (f : Vat → Vat) : Dev := { d with vat := f d.vat }

/-- The default of `Vat.free`. -/
def freeListDflt (_ : Nat) : FreeList := FreeList.reset
def Dev.freeList (d : Dev) (k : Nat) : FreeList := look freeListDflt d.vat.free k
def Dev.setFreeList (d : Dev) (k : Nat) (v : FreeList) : Dev :=
  { d with vat := { d.vat with free := put freeListDflt d.vat.free k v } }
def Dev.updFreeList (d : Dev) (k : Nat) (f : FreeList → FreeList) : Dev := d.setFreeList k (f (d.freeList k))

/-- The default of `Vat.claims`. -/
def claimDflt (_ : Nat) : Nat := 0
def Dev.claim (d : Dev) (k : Nat) : Nat := look claimDflt d.vat.claims k
def Dev.setClaim (d : Dev) (k : Nat) (v : Nat) : Dev :=
  { d with vat := { d.vat with claims := put claimDflt d.vat.claims k v } }
def Dev.updClaim (d : Dev) (k : Nat) (f : Nat → Nat) : Dev := d.setClaim k (f (d.claim k))

/-- The default of `Vat.held`. -/
def heldOfDflt (_ : Nat) : Nat := 0
def Dev.heldOf (d : Dev) (k : Nat) : Nat := look heldOfDflt d.vat.held k
def Dev.setHeldOf (d : Dev) (k : Nat) (v : Nat) : Dev :=
  { d with vat := { d.vat with held := put heldOfDflt d.vat.held k v } }
def Dev.updHeldOf (d : Dev) (k : Nat) (f : Nat → Nat) : Dev := d.setHeldOf k (f (d.heldOf k))

/-- The default of `Vat.used`. -/
def usedSegsDflt (_ : Nat) : Nat := 0
def Dev.usedSegs (d : Dev) (k : Nat) : Nat := look usedSegsDflt d.vat.used k
def Dev.updUsedSegs (d : Dev) (k : Nat) (f : Nat → Nat) : Dev :=
  { d with vat := { d.vat with used := put usedSegsDflt d.vat.used k (f (d.usedSegs k)) } }

/-- The default of `Vat.beatParity`. -/
def parityOfDflt (_ : Nat) : Nat := 0
def Dev.parityOf (d : Dev) (k : Nat) : Nat := look parityOfDflt d.vat.beatParity k
def Dev.setParityOf (d : Dev) (k : Nat) (v : Nat) : Dev :=
  { d with vat := { d.vat with beatParity := put parityOfDflt d.vat.beatParity k v } }
def Dev.updParityOf (d : Dev) (k : Nat) (f : Nat → Nat) : Dev := d.setParityOf k (f (d.parityOf k))

/-- The default of `Boot.result`. -/
def slotResultDflt (_ : Nat) : Nat := 0
def Dev.slotResult (d : Dev) (k : Nat) : Nat := look slotResultDflt d.boot.result k
def Dev.setSlotResult (d : Dev) (k : Nat) (v : Nat) : Dev :=
  { d with boot := { d.boot with result := put slotResultDflt d.boot.result k v } }

/-- The default of `Boot.verified`. -/
def slotVerifiedDflt (_ : Nat) : Bool := false
def Dev.slotVerified (d : Dev) (k : Nat) : Bool := look slotVerifiedDflt d.boot.verified k
def Dev.setSlotVerified (d : Dev) (k : Nat) (v : Bool) : Dev :=
  { d with boot := { d.boot with verified := put slotVerifiedDflt d.boot.verified k v } }

/-- The default of `Boot.position`. -/
def slotPositionDflt (_ : Nat) : Nat := 0
def Dev.slotPosition (d : Dev) (k : Nat) : Nat := look slotPositionDflt d.boot.position k
def Dev.setSlotPosition (d : Dev) (k : Nat) (v : Nat) : Dev :=
  { d with boot := { d.boot with position := put slotPositionDflt d.boot.position k v } }

/-- The default of `Boot.erasing`. -/
def slotErasingDflt (_ : Nat) : Option ReqKey := none
def Dev.slotErasing (d : Dev) (k : Nat) : Option ReqKey := look slotErasingDflt d.boot.erasing k
def Dev.setSlotErasing (d : Dev) (k : Nat) (v : Option ReqKey) : Dev :=
  { d with boot := { d.boot with erasing := put slotErasingDflt d.boot.erasing k v } }

/-- The default of `Fc.src`. -/
def srcDflt (_ : Nat) : Source := Source.reset
def Dev.src (d : Dev) (i : Nat) : Source := look srcDflt d.fc.src i
def Dev.setSrc (d : Dev) (i : Nat) (v : Source) : Dev := { d with fc := { d.fc with src := put srcDflt d.fc.src i v } }

/-- The default of `Quire.wear` and `Psb` tables. -/
def zeroDflt (_ : Nat) : Nat := 0
def Dev.wear (d : Dev) (w : Nat) : Nat := look zeroDflt d.quire.wear w
/-- Quire word w (R414): as written, or the reset value of the register it supplies. -/
def Dev.qword (d : Dev) (w : Nat) : W32 := look quireDefault d.quire.words w
def Dev.setQword (d : Dev) (w : Nat) (v : W32) : Dev :=
  { d with quire := { d.quire with words := put quireDefault d.quire.words w v } }
def keyPartDflt (_ : Nat) : BitVec 4 := 0
def Dev.keyPart (d : Dev) (k : Nat) : BitVec 4 := look keyPartDflt d.quire.keyPart k
def Dev.setKeyPart (d : Dev) (k : Nat) (v : BitVec 4) : Dev :=
  { d with quire := { d.quire with keyPart := put keyPartDflt d.quire.keyPart k v } }

/-- The stored value of a register: RW, or the value in effect of RWS, or W1C event bits. -/
def Dev.reg (d : Dev) (a : Nat) : W32 := look resetValue d.regs a
def Dev.setReg (d : Dev) (a : Nat) (v : W32) : Dev := { d with regs := put resetValue d.regs a v }
/-- Sets event bits of a register. -/
def Dev.orReg (d : Dev) (a : Nat) (m : W32) : Dev := d.setReg a (d.reg a ||| m)
/-- Sets one event bit. -/
def Dev.flag (d : Dev) (a i : Nat) : Dev := d.orReg a (at_ 1 i)

def shadowDflt (_ : Nat) : Option W32 := none
/-- The shadow of an RWS register: the value it will take, or the value in effect when none is waiting (R402). -/
def Dev.shadowOf (d : Dev) (a : Nat) : W32 := (look shadowDflt d.shadow a).getD (d.reg a)
def Dev.setShadow (d : Dev) (a : Nat) (v : Option W32) : Dev := { d with shadow := put shadowDflt d.shadow a v }

/-- Adds to a counter of the wide mailbox; 64 bits, saturating (R407). -/
def Dev.count (d : Dev) (sel : Nat) (n : Nat := 1) : Dev := d.updCounter sel fun c => satAdd (2 ^ 64 - 1) c n

/-- A wide-mailbox selector (R407). -/
def selector (cls kind inst : Nat) : Nat := cls * 2 ^ 24 + kind * 2 ^ 16 + inst

/-- The value of a register field. -/
def Dev.fld (d : Dev) (a lo w : Nat) : Nat := bits (d.reg a) lo w
def Dev.fldBit (d : Dev) (a i : Nat) : Bool := bit (d.reg a) i

/-! ## Facts that many blocks read -/

/-- BEAT_LEN (R158). -/
def Dev.beatLen (d : Dev) : Nat := 2 ^ d.fld aDkCfg 8 4
/-- The boot epoch (R79): bits 15:0 of the boot counter. -/
def Dev.epoch (d : Dev) : Nat := bits (d.qword 0) 0 16
/-- A `READY` bit (R64). -/
def Dev.isReady (d : Dev) (i : Nat) : Bool := d.boot.ready.getLsbD i
def Dev.setReady (d : Dev) (i : Nat) (b : Bool) : Dev :=
  { d with boot := { d.boot with ready :=
      if b then d.boot.ready ||| BitVec.ofNat 10 (2 ^ i) else d.boot.ready &&& ~~~ BitVec.ofNat 10 (2 ^ i) } }
/-- Limp or RECOVERY (R74). -/
def Dev.limp (d : Dev) : Bool := d.boot.state = .limp || d.boot.state = .recovery
/-- `CHAIN_POS`. -/
def Dev.posValid (d : Dev) : Bool := d.fldBit aChainPos 31
def Dev.position (d : Dev) : Nat := d.fld aChainPos 0 6
/-- The device runs: it is out of reset and not gated. -/
def Dev.up (d : Dev) : Bool := d.life = .running
def Dev.dead (d : Dev) : Bool := d.life = .deadBattery
/-- The Core and Control domains stand still: in DOZE, and from their quiescing before a lowering until a raising write has been
acknowledged (R20, R315). -/
def Dev.halted (d : Dev) : Bool := d.power.state = .doze || d.power.avs ≠ .idle

/-- G of R161. -/
def Dev.gPos (d : Dev) : Nat := d.deckle.beat.toNat * d.beatLen + d.deckle.mf
/-- `now_mf` of R379. -/
def Dev.now (d : Dev) : Nat := d.deckle.mfCount

/-- Takes the next free bit of Config. -/
def Dev.freeBit (d : Dev) : Bool × Dev := (Config.freeBit d.freeCtr, { d with freeCtr := d.freeCtr + 1 })
/-- Takes the next free word of Config. -/
def Dev.freeWord (d : Dev) : W32 × Dev := (Config.freeWord d.freeCtr, { d with freeCtr := d.freeCtr + 1 })

/-- The answer of a meaning that acts on the device alone. -/
def State.next (s : State) (d : Dev) : Host.Outcome State Fault Refusal := .next { s with dev := d }

end Sys2Proof.Machine
end

