-- ==== Sys2Proof/Machine/Rows.lean ====
section
/-! DEFINITION. The Vat's banks: rows and cells (R24, R120, R121), the arbiter of each bank (R152 to R155), mirrored writes
and the copier of a rotation (R142, R143), and the march test (R140). A segment is named by 8,192 × logical bank + number
within the bank, which does not change with the depth; `segNumber` gives its number under R121. -/

namespace Sys2Proof.Machine

open Sys2Proof

/-! ## Cells -/

/-- Whether the ten bits hold an even number of ones (R24). -/
def evenOnes (c : Cell10) : Bool := ((List.range 10).foldl (fun n i => n + b2n (bit c i)) 0) % 2 = 0

/-- A cell with mark and data, its P set to even parity. -/
def mkCell (mark : Bool) (b : Byte) : Cell10 :=
  let c : Cell10 := BitVec.ofNat 10 (b2n mark * 256 + b.toNat)
  if evenOnes c then c else c ||| 512

/-- The data byte of a cell. -/
def cellByte (c : Cell10) : Byte := BitVec.ofNat 8 c.toNat

/-! ## Segments, rows and cell addresses (R120, R121) -/

/-- The logical bank of a segment, and its number within the bank. -/
def segBank (s : Nat) : Nat := s / 8192
def segIndex (s : Nat) : Nat := s % 8192

/-- Banks in service at a depth (R124). -/
def depthBanks (depth : Nat) : Nat := [2, 4, 8].getD depth 8

/-- The number of a segment under R121: the low bits select the logical bank, the rest the segment within it. -/
def segNumber (depth s : Nat) : Nat := segIndex s * depthBanks depth + segBank s

/-- The segment of a number. -/
def segOf (depth n : Nat) : Nat := 8192 * (n % depthBanks depth) + n / depthBanks depth

/-- Row r, 0 to 3, of a segment, as a row of its bank. -/
def segRow (s r : Nat) : Nat := 4 * segIndex s + r

/-! ## Rows of a physical bank -/

/-- Row r of a bank where no write has reached it since it was filled. -/
def fillRow (f : Fill) (r : Nat) : List Cell10 :=
  (List.range 32).map fun c => match f with
    | .lost b => Config.lostCell b r c
    | .march g => Config.marchCell g r c

def bankDflt (b : Nat) : Bank := Bank.reset b
def Vat.bank (v : Vat) (b : Nat) : Bank := look bankDflt v.banks b
def Vat.updBank (v : Vat) (b : Nat) (f : Bank → Bank) : Vat := { v with banks := put bankDflt v.banks b (f (v.bank b)) }

/-- The 32 cells of row r of physical bank b. -/
def Vat.physRow (v : Vat) (b r : Nat) : List Cell10 := look (fillRow (v.bank b).fill) (v.bank b).rows r

/-- Cells written over a row, each under its own enable (R120). -/
def overRow : List (Option Cell10) → List Cell10 → List Cell10
  | e :: es, c :: cs => e.getD c :: overRow es cs
  | _, cs => cs

/-- Writes row r of physical bank b under the enables. -/
def Vat.setPhysRow (v : Vat) (b r : Nat) (cells : List (Option Cell10)) : Vat :=
  let row := overRow cells (v.physRow b r)
  v.updBank b fun x => { x with rows := put (fillRow x.fill) x.rows r row }

/-- A cell has changed in its bank: its P no longer fits. -/
def Vat.upset (v : Vat) (u : Upset) : Vat :=
  let old := (v.physRow u.bank.val u.row.val).getD u.column.val 0
  v.setPhysRow u.bank.val u.row.val (List.replicate u.column.val none ++ [some (old ^^^ 512)])

/-- The physical bank in a logical slot. -/
def Vat.slotBank (v : Vat) (slot : Nat) : Nat := v.slots.getD slot 15

/-! ## The copier (R142, R143) -/

/-- One grant of the copier: it writes the row that it holds to the spare and reads the next row of the source. -/
def Vat.copierGrant (v : Vat) : Vat :=
  match v.migrating, v.spare with
  | some m, some sp =>
    let v1 := match m.held with
      | some (r, row) => v.setPhysRow sp r (row.map some)
      | none => v
    let h := if m.next < 32768 then some (m.next, v.physRow (v.slotBank m.slot) m.next) else none
    { v1 with migrating := some { m with held := h, next := min 32768 (m.next + 1) } }
  | _, _ => v

/-- The remaining grants of the copier, taken together: every row of the source stands in the spare, bit for bit, P
included. -/
def Vat.copyRest (v : Vat) : Vat :=
  match v.migrating, v.spare with
  | some m, some sp =>
    let src := v.bank (v.slotBank m.slot)
    let v1 := v.updBank sp fun x => { x with fill := src.fill, rows := src.rows }
    { v1 with migrating := some { m with next := 32768, held := none } }
  | _, _ => v

/-! ## Arbitration (R152 to R154) -/

/-- Requesters of R152 by index: 0 to 31 the HS engines of P0 to P31, 32 that of U0, 33 to 40 the SuperSpeed lanes of P0 to
P7, 41 that of U0, 42 and 43 the MACs, 44 the SPI FIFOs, 45 the Mill core, 46 the Couch core, 47 the copier. -/
def rqHs (n : Nat) : Nat := n
def rqSs (n : Nat) : Nat := 33 + min n 8
def rqMac (e : Nat) : Nat := 42 + e
def rqSpi : Nat := 44
def rqMill : Nat := 45
def rqCouch : Nat := 46
def rqCopier : Nat := 47

/-- The base priority of a requester. -/
def rqBase (who : Nat) : Nat := if who < 44 then 1 else 0

def arbDflt (_ : Nat) : Arbiter := Arbiter.reset
def Vat.arb (v : Vat) (slot : Nat) : Arbiter := look arbDflt v.arbiters slot
def Vat.setArb (v : Vat) (slot : Nat) (a : Arbiter) : Vat := { v with arbiters := put arbDflt v.arbiters slot a }

/-- Request x is older than y: raised in an earlier cycle, or in the same with a lower index. -/
def BankReq.older (x y : BankReq) : Bool := x.raised < y.raised || (x.raised = y.raised && decide (x.who < y.who))

/-- The priority of a request: ages saturate above every base. -/
def BankReq.prio (x : BankReq) : Nat := min (rqBase x.who + x.age) 2

/-- The request that wins a round. -/
def bestReq : List BankReq → Option BankReq
  | [] => none
  | x :: t => match bestReq t with
    | none => some x
    | some y => if y.prio < x.prio || (y.prio = x.prio && x.older y) then some x else some y

/-- Every request that lost a round ages. -/
def agedBy (l : List BankReq) (won : BankReq) : List BankReq :=
  (l.erase won).map fun x => { x with age := min (x.age + 1) 2 }

/-- One round, one core cycle (R153): the holder of a grant in progress, else the best of those that wait. A second mark in
a row is ignored (R154). -/
def Arbiter.round (a : Arbiter) : Option Nat × Arbiter :=
  match a.holder with
  | some h =>
    let rest := match a.waiting.find? fun x => x.who = h with
      | some x => agedBy a.waiting x
      | none => a.waiting.map fun x => { x with age := min (x.age + 1) 2 }
    (some h, { a with cycle := a.cycle + 1, holder := none, waiting := rest })
  | none => match bestReq a.waiting with
    | none => (none, { a with cycle := a.cycle + 1 })
    | some x => (some x.who, { a with
        cycle := a.cycle + 1, holder := if x.noBreak then some x.who else none, waiting := agedBy a.waiting x })

/-- A requester raises a request in the current cycle; it competes from the next. -/
def Arbiter.raise (a : Arbiter) (who : Nat) (noBreak : Bool) : Arbiter :=
  if a.waiting.any fun x => x.who = who then a
  else { a with waiting := a.waiting ++ [⟨who, a.cycle, 0, noBreak⟩] }

/-- The copier requests at most once every 16 core cycles while a rotation of the slot runs. -/
def Vat.raiseCopier (v : Vat) (slot : Nat) : Vat :=
  let a := v.arb slot
  if (v.migrating.any fun m => m.slot = slot && decide (m.next < 32768)) && decide (a.copierFrom ≤ a.cycle) then
    v.setArb slot { a.raise rqCopier false with copierFrom := a.cycle + 16 }
  else v

/-- Rounds until a requester is granted; a grant of the copier moves its copy on. The fuel is the bound of R155. -/
def Vat.untilGranted (v : Vat) (slot who : Nat) : Nat → Vat
  | 0 => v
  | n + 1 =>
    let v1 := v.raiseCopier slot
    let r := (v1.arb slot).round
    let v2 := v1.setArb slot r.2
    if r.1 = some who then v2
    else (if r.1 = some rqCopier then v2.copierGrant else v2).untilGranted slot who n

/-- One row access of a requester at a logical slot: its request, and the rounds up to its grant. -/
def Vat.access (v : Vat) (slot who : Nat) (noBreak : Bool) : Vat :=
  (v.setArb slot ((v.arb slot).raise who noBreak)).untilGranted slot who 96

/-! ## Row accesses in service -/

/-- The cells of row r of logical slot `slot`: reads come from the bank in the slot, during a rotation from the source. -/
def Vat.rowOf (v : Vat) (slot r : Nat) : List Cell10 := v.physRow (v.slotBank slot) r

/-- Writes a row of a logical slot. During a rotation of the slot the write goes to both banks in the same cycle, the spare
taking the row as the source now holds it, and it cancels the copier's held copy of that row (R142, R143). -/
def Vat.writeRow (v : Vat) (slot r : Nat) (cells : List (Option Cell10)) : Vat :=
  let v1 := v.setPhysRow (v.slotBank slot) r cells
  match v.migrating, v.spare with
  | some m, some sp =>
    if m.slot = slot then
      let v2 := v1.setPhysRow sp r ((v1.rowOf slot r).map some)
      if m.held.any fun h => h.1 = r then { v2 with migrating := some { m with held := none } } else v2
    else v1
  | _, _ => v1

/-- The 128 cells of a segment (R120). -/
def Vat.segCells (v : Vat) (s : Nat) : List Cell10 :=
  ([0, 1, 2, 3] : List Nat).flatMap fun r => v.rowOf (segBank s) (segRow s r)

/-- A list cut into pieces of 32. -/
def rowsOf {α : Type} : Nat → List α → List (List α)
  | 0, _ => []
  | n + 1, l => match l with
    | [] => []
    | _ => l.take 32 :: rowsOf n (l.drop 32)

/-- The row places of segments from cell `off` of the first on. -/
def rowPlaces (segs : List Nat) (off : Nat) : List (Nat × Nat) :=
  (segs.flatMap fun s => ([0, 1, 2, 3] : List Nat).map fun r => (segBank s, segRow s r)).drop (off / 32)

/-- Accesses to rows in order by one requester. The first row is marked as no break point when it and the next must meet as
one in their bank (R154). -/
def Vat.accessRows (v : Vat) (who : Nat) (mark : Bool) : List (Nat × Nat) → Vat
  | [] => v
  | (b, _) :: t => (v.access b who (mark && t.head?.any fun x => x.1 = b)).accessRows who false t

/-- A record's lead cells and its first payload cell from cell `off` on lie in two rows. -/
def leadSplit (off : Nat) : Bool := 28 ≤ off % 32

/-- Writes cells into segments from cell `off` of the first on, row by row, each row with the enables of its cells. -/
def Vat.putCells (v : Vat) (who : Nat) (segs : List Nat) (off : Nat) (cells : List Cell10) : Vat :=
  let padded := List.replicate (off % 32) none ++ cells.map some
  let rows := rowsOf (cells.length + 32) padded
  let places := (rowPlaces segs off).take rows.length
  (places.zip rows).foldl (fun a pr => a.writeRow pr.1.1 pr.1.2 pr.2) (v.accessRows who (leadSplit off) places)

/-- A read of n cells from cell `off` of the first segment on: the books of the arbiters after it. The cells are those of
`segCells`. -/
def Vat.readAccess (v : Vat) (who : Nat) (segs : List Nat) (off n : Nat) : Vat :=
  v.accessRows who (leadSplit off) ((rowPlaces segs off).take ((off % 32 + n + 31) / 32))

/-- The copier moves a segment: it copies 4 rows, P included (R148). -/
def Vat.moveRows (v : Vat) (src dst : Nat) : Vat :=
  ([0, 1, 2, 3] : List Nat).foldl (fun a r =>
    let row := a.rowOf (segBank src) (segRow src r)
    ((a.access (segBank src) rqCopier false).access (segBank dst) rqCopier false).writeRow (segBank dst) (segRow dst r)
      (row.map some)) v

/-! ## The march test (R140) -/

/-- An operation of the march test on a row: reads or writes the background (`0`) or its complement (`1`). -/
inductive MarchOp where
  | r (one : Bool)
  | w (one : Bool)
  deriving DecidableEq, Repr

/-- The sequence of R140: up 0, up r0w1, up r1w0, down r0w1, down r1w0, down r0. True is up: rows in rising order. -/
def marchSequence : List (Bool × List MarchOp) :=
  [(true, [.w false]), (true, [.r false, .w true]), (true, [.r true, .w false]), (false, [.r false, .w true]),
    (false, [.r true, .w false]), (false, [.r false])]

/-- Row operations of a pass. -/
def marchLength : Nat := 32768 * (marchSequence.map fun e => e.2.length).sum

/-- The data of an operation on a row whose background is `zero`. -/
def marchData (zero : List Cell10) (one : Bool) : List Cell10 := if one then zero.map (~~~ ·) else zero

/-- What a sound row holds after operations, and whether every read gave what it should. -/
def marchRow (zero : List Cell10) : List MarchOp → List Cell10 × Bool → List Cell10 × Bool
  | [], x => x
  | .r one :: t, x => marchRow zero t (x.1, x.2 && x.1 = marchData zero one)
  | .w one :: t, x => marchRow zero t (marchData zero one, x.2)

/-- What a sound row holds at the end of a pass. -/
def marchEnd (zero row : List Cell10) : List Cell10 × Bool := marchRow zero (marchSequence.flatMap Prod.snd) (row, true)

/-- The end of a pass on physical bank b: a bank that passed holds the background of the pass, and the next pass has the
other background; what a bank that failed holds is open. -/
def Vat.marched (v : Vat) (b : Nat) (pass : Bool) : Vat :=
  v.updBank b fun x =>
    if pass then { fill := .march x.background, rows := [], background := !x.background }
    else { x with fill := .lost b, rows := [] }

/-- The contents of a bank that is powered up, or whose march test stops in the middle, are open. -/
def Vat.bankLost (v : Vat) (b : Nat) : Vat := v.updBank b fun x => { x with fill := .lost b, rows := [] }

end Sys2Proof.Machine
end

