-- ==== Sys2Proof/Machine/Vat.lean ====
section
/-! DEFINITION. The Vat's books and queues: records (R122), pointers kept twice (R126, R127, R137), allocation (R128),
reserves and claims (R129 to R132), reads with their parity (R134), queue resets (R138), free lists (R139), sheets (R123),
and what a drain moves (R148). -/

namespace Sys2Proof.Machine

open Sys2Proof

/-! ## Records (R122) -/

/-- A packet record. -/
structure Rec where
  kind : Nat
  poison : Bool
  last : Bool
  attr : Nat
  payload : List Byte
  deriving DecidableEq, Repr

/-- The cells of a record: 4 marked lead cells, the first payload cell marked, the others not. -/
def Rec.cells (r : Rec) : List Cell10 :=
  let n := r.payload.length
  let lead := [r.kind * 16 + b2n r.poison * 8 + b2n r.last * 4, n % 256, n / 256 % 64, r.attr]
  (lead.map fun x => mkCell true (BitVec.ofNat 8 x)) ++
    (match r.payload with | [] => [] | b :: t => mkCell true b :: t.map (mkCell false))

/-- Cells that a record of n payload bytes occupies. -/
def recCells (n : Nat) : Nat := n + 4

/-- Segments of the largest record of n payload bytes: what is claimed for it, wherever it begins in its first segment. -/
def recSegs (n : Nat) : Nat := ceilDiv (recCells n) 128

/-- The record at the front of a cell stream, and the cells behind it. -/
def headRec : List Cell10 → Option (Rec × List Cell10)
  | l0 :: l1 :: l2 :: l3 :: t =>
    let n := (cellByte l1).toNat + 256 * ((cellByte l2).toNat % 64)
    let b := (cellByte l0).toNat
    if t.length < n then none
    else some (⟨b / 16, b / 8 % 2 = 1, b / 4 % 2 = 1, (cellByte l3).toNat, (t.take n).map cellByte⟩, t.drop n)
  | _ => none

/-! ## The books, in two copies or with parity (R126, R127, R137) -/

def ptrsDflt (_ : Nat) : Ptr × Ptr := (⟨0, 0⟩, ⟨0, 0⟩)
def headDflt (b : Nat) : Nat := 8192 * b
def nextDflt (s : Nat) : Nat := s + 1
def entryDflt (_ : Nat) : SegEntry := ⟨.free, 16384⟩

def Books.ptr (b : Books) (q : Nat) : Ptr × Ptr := look ptrsDflt b.ptrs q
def Books.setPtr (q : Nat) (x : Ptr × Ptr) (b : Books) : Books := { b with ptrs := put ptrsDflt b.ptrs q x }
def Books.head (b : Books) (k : Nat) : Nat := look headDflt b.heads k
def Books.setHead (k s : Nat) (b : Books) : Books := { b with heads := put headDflt b.heads k s }
def Books.next (b : Books) (s : Nat) : Nat := look nextDflt b.link s
def Books.setNext (s t : Nat) (b : Books) : Books := { b with link := put nextDflt b.link s t }
def Books.entry (b : Books) (s : Nat) : SegEntry := look entryDflt b.sst s
def Books.setEntry (s : Nat) (e : SegEntry) (b : Books) : Books := { b with sst := put entryDflt b.sst s e }

/-- Writes both copies. -/
def Vat.onBooks (v : Vat) (f : Books → Books) : Vat := { v with books := f v.books, copy := f v.copy }
def Dev.onBooks (d : Dev) (f : Books → Books) : Dev := d.updVat fun v => v.onBooks f

/-- The bits of a number, and their parity. -/
def oneBits (n : Nat) : Nat := (List.range 32).foldl (fun k i => k + n / 2 ^ i % 2) 0

/-- A stored number against what is kept beside it: the second copy in Full, the parity of the value written in Half and
Quarter (R137). -/
def Vat.agree (v : Vat) (a b : Nat) : Bool := if v.depth = 2 then a = b else oneBits a % 2 = oneBits b % 2

/-- The words that the books hold. -/
def Ptr.code (p : Ptr) : Nat := p.seg * 128 + p.off
def SegEntry.code (e : SegEntry) : Nat := e.owner * 4 + (match e.state with | .free => 0 | .linked => 1 | .held => 2)

/-- The comparisons made on every use. -/
def Vat.ptrOk (v : Vat) (q : Nat) : Bool :=
  v.agree (v.books.ptr q).1.code (v.copy.ptr q).1.code && v.agree (v.books.ptr q).2.code (v.copy.ptr q).2.code
def Vat.headOk (v : Vat) (b : Nat) : Bool := v.agree (v.books.head b) (v.copy.head b)
def Vat.segOk (v : Vat) (s : Nat) : Bool :=
  v.agree (v.books.next s) (v.copy.next s) && v.agree (v.books.entry s).code (v.copy.entry s).code

/-- n segments from s on along the links. -/
def Books.walk (b : Books) : Nat → Nat → List Nat
  | _, 0 => []
  | s, n + 1 => s :: b.walk (b.next s) n

/-- The segments of queue q, head first. -/
def Dev.qSegs (d : Dev) (q : Nat) : List Nat := d.vat.books.walk (d.vat.books.ptr q).1.seg (d.queue q).segs

/-- The pointers and links of queue q hold. -/
def Dev.queueSound (d : Dev) (q : Nat) : Bool := d.vat.ptrOk q && (d.qSegs q).all d.vat.segOk

/-- The receive queues of the relay links, in which each record begins a segment (R282). -/
def wholeSegs (q : Nat) : Bool := decide (64 ≤ q ∧ q < 184)

/-- The cells of queue q from its head pointer on; a record spans at most 129 segments. -/
def Dev.headCells (d : Dev) (q : Nat) : List Cell10 :=
  (((d.qSegs q).take 130).flatMap d.vat.segCells).drop (d.vat.books.ptr q).1.off

/-- The record at the head of queue q, as the books place it. -/
def Dev.headRecord (d : Dev) (q : Nat) : Option Rec :=
  if (d.queue q).stamps.isEmpty then none else (headRec (d.headCells q)).map Prod.fst

/-- n records of a cell stream that begins at cell `off` of a segment. -/
def recordsFrom (whole : Bool) : Nat → Nat → List Cell10 → List Rec
  | 0, _, _ => []
  | n + 1, off, cs => match headRec cs with
    | none => []
    | some (r, t) =>
      let stop := off + recCells r.payload.length
      let pad := if whole then (128 - stop % 128) % 128 else 0
      r :: recordsFrom whole n ((stop + pad) % 128) (t.drop pad)

/-- The records of queue q, head first. -/
def Dev.qRecords (d : Dev) (q : Nat) : List Rec :=
  recordsFrom (wholeSegs q) (d.queue q).stamps.length (d.vat.books.ptr q).1.off
    (((d.qSegs q).flatMap d.vat.segCells).drop (d.vat.books.ptr q).1.off)

/-- Cells that the records of queue q occupy. -/
def Dev.qCells (d : Dev) (q : Nat) : Nat := ((d.qRecords q).map fun r => recCells r.payload.length).sum

/-! ## Depth and usage -/

/-- The depth that claims and reserves use: the new one from the start of a drain (R148), the old one while
growing (R147). -/
def Dev.claimDepth (d : Dev) : Nat :=
  match d.vat.change with
  | .draining t => t
  | _ => d.vat.depth

/-- In-service segments. -/
def Dev.segments (d : Dev) : Nat := 8192 * depthBanks d.claimDepth

/-- Segments linked in queues of class c, the sheet queues included (R123). -/
def Dev.linked (d : Dev) (c : Nat) : Nat :=
  d.vat.queues.foldl (fun n kq => if kq.2.cls = c then n + kq.2.segs else n) 0

/-- Usage U of class c (R130). -/
def Dev.usage (d : Dev) (c : Nat) : Nat := d.linked c + d.heldOf c + d.claim c

/-- Reserve of class c (R129). -/
def Dev.reserve (d : Dev) (c : Nat) : Nat := d.fld (aVatRsv c) 0 10 * d.segments / 1024

/-- The free shared pool (R130). -/
def Dev.shared (d : Dev) : Nat :=
  d.segments - ((List.range 8).foldl (fun n c => n + d.reserve c) 0 +
    (List.range 8).foldl (fun n c => if c = 0 then n else n + (d.usage c - d.reserve c)) 0)

/-- Whether a claim of n segments by class c succeeds (R132). -/
def Dev.canClaim (d : Dev) (c n : Nat) : Bool :=
  if c = 0 then decide (d.usage 0 + n ≤ d.reserve 0)
  else decide (n - (d.reserve c - d.usage c) ≤ d.shared)

/-- Books n segments of claim to class c, whether or not there is room: a claim that succeeded, or one that is kept. -/
def Dev.addClaim (d : Dev) (c n : Nat) : Dev := (d.updClaim c (· + n)).updUsedSegs c (· + n)

/-- Claims n segments in class c; none when the claim fails. -/
def Dev.takeClaim (d : Dev) (c n : Nat) : Option Dev := if d.canClaim c n then some (d.addClaim c n) else none

/-- Returns unused claim, or uses it up. -/
def Dev.dropClaim (d : Dev) (c n : Nat) : Dev := (d.updClaim c (· - n)).updUsedSegs c (· - min n (d.claim c))

/-! ## Allocation (R128) -/

/-- Logical banks that the allocator takes from. -/
def Dev.allocBanks (d : Dev) : Nat := depthBanks d.claimDepth

/-- Free segments of a logical bank. -/
def Dev.freeIn (d : Dev) (b : Nat) : Nat := (d.freeList b).count

/-- Free segments that the allocator can take. -/
def Dev.freeToTake (d : Dev) : Nat :=
  (List.range d.allocBanks).foldl (fun n b => if (d.freeList b).quarantined then n else n + d.freeIn b) 0

/-- Pops one segment of logical bank b: none from a list that is empty, quarantined, or whose head or link fails its
comparison (R139). -/
def Dev.popBank (d : Dev) (b : Nat) : Option (Nat × Dev) :=
  let f := d.freeList b
  let s := d.vat.books.head b
  if f.quarantined || f.count = 0 || !d.vat.headOk b || !d.vat.segOk s then none
  else some (s, (d.setFreeList b { f with count := f.count - 1 }).onBooks fun k => k.setHead b (k.next s))

/-- The search of R128 over the banks that are left, starting at bank b. -/
def Dev.popFrom (d : Dev) (b : Nat) : Nat → Option (Nat × Dev)
  | 0 => none
  | n + 1 => match d.popBank b with
    | some r => some r
    | none => d.popFrom ((b + 1) % d.allocBanks) n

/-- Returns a segment of class c to its free list. -/
def Dev.release (d : Dev) (c s : Nat) : Dev :=
  let b := segBank s
  ((d.updFreeList b fun f => { f with count := f.count + 1 }).onBooks fun k =>
    ((k.setNext s (k.head b)).setHead b s).setEntry s (entryDflt s)).updUsedSegs c (· - 1)

/-- The bank from which queue q is served next: the one after that of its tail. -/
def Dev.nextBank (d : Dev) (q : Nat) : Nat := (segBank (d.vat.books.ptr q).2.seg + 1) % d.allocBanks

/-- Appends n segments to queue q. -/
def Dev.growQueue (d : Dev) (q : Nat) : Nat → Dev
  | 0 => d
  | n + 1 =>
    match d.popFrom (d.nextBank q) d.allocBanks with
    | none => d
    | some (s, d1) =>
      let x := d1.queue q
      let d2 := d1.onBooks fun k =>
        let p := k.ptr q
        let k1 := k.setEntry s ⟨.linked, q⟩
        if x.segs = 0 then k1.setPtr q (⟨s, 0⟩, ⟨s, 0⟩) else (k1.setNext p.2.seg s).setPtr q (p.1, ⟨s, 0⟩)
      ((d2.setQueue q { x with segs := x.segs + 1 }).updUsedSegs x.cls (· + 1)).growQueue q n

/-- Opens an IDLE queue for an owner (R126, R156: the broke record restarts when the queue is opened again after IDLE). -/
def Dev.openQueue (d : Dev) (q cls kind owner output sub : Nat) : Dev :=
  if (d.queue q).state = .idle then
    d.setQueue q { Queue.reset with
      cls := cls, ownerKind := kind, owner := owner, state := .active, output := output, sub := sub }
  else d

/-- Cells left in the tail segment of queue q. -/
def Dev.tailRoom (d : Dev) (q : Nat) : Nat :=
  if wholeSegs q || (d.queue q).segs = 0 then 0 else (128 - (d.vat.books.ptr q).2.off) % 128

/-- Segments that n more cells need at the tail of queue q. -/
def Dev.segsFor (d : Dev) (q n : Nat) : Nat := ceilDiv (n - d.tailRoom q) 128

/-- Links a record at the tail of queue q, written by requester `who`. A write into a queue that is not ACTIVE (R157), past
4,096 segments (R126), or without a free segment is refused. -/
def Dev.enqueue (d : Dev) (who q : Nat) (r : Rec) : Option Dev :=
  let cells := r.cells
  let n := cells.length
  let need := d.segsFor q n
  let x := d.queue q
  if x.state ≠ .active || decide (4096 < x.segs + need) || decide (d.freeToTake < need) || !d.queueSound q then none
  else
    let room := d.tailRoom q
    let t := (d.vat.books.ptr q).2
    let d1 := d.growQueue q need
    let segs := (if room = 0 then [] else [t.seg]) ++ (d1.qSegs q).drop x.segs
    let off := if room = 0 then 0 else t.off
    let d2 := d1.updVat fun v => { v.putCells who segs off cells with serial := v.serial + 1 }
    let d3 := d2.onBooks fun k => k.setPtr q ((k.ptr q).1, ⟨(k.ptr q).2.seg, (off + n) % 128⟩)
    some (d3.updQueue q fun y => { y with stamps := y.stamps ++ [(d.now, d.vat.serial)] })

/-! ## Reads (R134, R145) -/

/-- A read of the physical bank in a logical slot has failed parity: it is counted, the collector is told, and the
sixteenth failure in a beat moves the slot to the front of the rotation. -/
def Dev.bankParity (d : Dev) (slot : Nat) : Dev :=
  let b := d.vat.slotBank slot
  let d1 := (d.count (selector 0x20 0 b)).updParityOf b (· + 1)
  d1.updVat fun v => { v with
    parityDue := v.parityDue ++ [b]
    front := if d1.parityOf b = 16 && !v.front.contains slot then v.front ++ [slot] else v.front }

/-- Cells have changed in their banks. -/
def Dev.upset (d : Dev) (us : List Upset) : Dev := d.updVat fun v => us.foldl Vat.upset v

/-- Cells as they are read: one that fails has its P wrong (DESIGN CHOICE). -/
def asRead (bad : List Nat) (cells : List Cell10) : List Cell10 :=
  bad.foldl (fun l i => l.modify i (· ^^^ 512)) cells

/-- Whether a cell fails the check of its P. -/
def badCell (c : Cell10) : Bool := !evenOnes c

/-- Counts the cells that fail, each against the bank it was read from. `off` is the place of the first cell in the first of
the segments. -/
def Dev.countBad (d : Dev) (segs : List Nat) (off : Nat) (cells : List Cell10) : Dev :=
  forN cells.length (fun i a => if badCell (cells.getD i 0) then a.bankParity (segBank (segs.getD ((off + i) / 128) 0)) else a) d

/-- Requester `who` reads the record at the head of queue q: the record, and its cells as read. Cells in `bad`, by place in
the record, come out of their bank damaged. -/
def Dev.readHead (d : Dev) (who q : Nat) (bad : List Nat := []) : Option (Rec × List Cell10 × Dev) :=
  if (d.queue q).stamps.isEmpty || !d.queueSound q then none
  else match headRec (d.headCells q) with
    | none => none
    | some (r, _) =>
      let n := recCells r.payload.length
      let cells := asRead bad ((d.headCells q).take n)
      let segs := d.qSegs q
      let off := (d.vat.books.ptr q).1.off
      some (r, cells, (d.updVat fun v => v.readAccess who segs off n).countBad segs off cells)

/-- Takes the head record, of n cells, off queue q: the segments read whole are released. A queue that empties gives back
its part-filled tail too (DESIGN CHOICE). -/
def Dev.popHead (d : Dev) (q n : Nat) : Dev :=
  let x := d.queue q
  let segs := d.qSegs q
  let stop := (d.vat.books.ptr q).1.off + n
  let k := if x.stamps.length ≤ 1 then segs.length else if wholeSegs q then ceilDiv stop 128 else stop / 128
  let off := if wholeSegs q then 0 else stop % 128
  let d1 := (segs.take k).foldl (fun a s => a.release x.cls s) d
  let d2 := d1.onBooks fun b => b.setPtr q (⟨segs.getD k (b.ptr q).2.seg, if k = segs.length then 0 else off⟩, (b.ptr q).2)
  d2.updQueue q fun y => { y with segs := y.segs - k, stamps := y.stamps.drop 1 }

/-- Reads the head record of queue q and takes it off. -/
def Dev.dequeue (d : Dev) (who q : Nat) (bad : List Nat := []) : Option (Rec × List Cell10 × Dev) :=
  (d.readHead who q bad).map fun x => (x.1, x.2.1, x.2.2.popHead q (recCells x.1.payload.length))

/-- Poison that a reader has seen in a record: in its L0, or in a cell (R134). -/
def poisonIn (r : Rec) (cells : List Cell10) : Bool := r.poison || cells.any badCell

/-- Broke causes (R156): 0 OVERFLOW, 1 RESET, 2 POISON, 3 FLUSH. -/
def Dev.broke (d : Dev) (q cause n : Nat) : Dev :=
  let sat := satAdd (2 ^ 32 - 1)
  (d.updQueue q fun qd => match cause with
    | 0 => { qd with brokeOverflow := sat qd.brokeOverflow n }
    | 1 => { qd with brokeReset := sat qd.brokeReset n }
    | 2 => { qd with brokePoison := sat qd.brokePoison n }
    | _ => { qd with brokeFlush := sat qd.brokeFlush n }).count (selector 0x20 2 cause) n

/-! ## Queue resets (R138) and flushes (R156) -/

/-- Returns every segment that the segment state table assigns to queue q; the queue is IDLE. The sweep does not follow
links. -/
def Dev.sweepQueue (d : Dev) (q : Nat) : Dev :=
  let mine := (d.vat.books.sst.filter fun e => e.2.state = .linked && e.2.owner = q).map Prod.fst
  let d1 := mine.foldl (fun a s => a.release (a.queue q).cls s) d
  (d1.onBooks fun b => b.setPtr q (⟨(b.ptr q).2.seg, 0⟩, ⟨(b.ptr q).2.seg, 0⟩)).updQueue q fun x =>
    { x with segs := 0, state := .idle }

/-- Stops queue q: every record is counted under a cause, and the sweep of its segments begins. A queue that holds no
segment is IDLE at once (DESIGN CHOICE); another is RESETTING until QUEUE_RESET_DONE. -/
def Dev.flushQueue (d : Dev) (q cause : Nat) : Dev :=
  let x := d.queue q
  (d.broke q cause x.stamps.length).updQueue q fun y =>
    { y with stamps := [], state := if y.segs = 0 then .idle else .resetting }

/-- A queue reset (R138): its records count under RESET. -/
def Dev.resetQueue (d : Dev) (q : Nat) : Dev := d.flushQueue q 1

/-! ## Free lists (R139) -/

/-- The heads and links of logical bank b that chain its FREE segments in rising order. -/
def relist (b : Nat) (k : Books) : Books :=
  let inBank (s : Nat) : Bool := segBank s = b
  let busy := (k.sst.filter fun e => inBank e.1 && e.2.state ≠ .free).map Prod.fst
  let kept := k.link.filter fun e => !inBank e.1 || busy.contains e.1
  -- from the last segment in use down: the first FREE segment behind it
  let skips := busy.foldr (fun s (acc : List (Nat × Nat)) =>
    (s, match acc with | (t, f) :: _ => if t = s + 1 then f else s + 1 | [] => s + 1) :: acc) []
  let link := skips.foldl (fun t sf =>
    if inBank (sf.1 - 1) && sf.1 ≠ 8192 * b && !busy.contains (sf.1 - 1) then put nextDflt t (sf.1 - 1) sf.2 else t) kept
  let first := match skips with | (t, f) :: _ => if t = 8192 * b then f else 8192 * b | [] => 8192 * b
  { k with link := link, heads := put headDflt k.heads b first }

/-- The sweep engine of bank b has rebuilt its free list from the FREE entries of the state table. -/
def Dev.rebuildList (d : Dev) (b : Nat) : Dev :=
  let busy := (d.vat.books.sst.filter fun e => segBank e.1 = b && e.2.state ≠ .free).length
  (d.onBooks (relist b)).setFreeList b { count := 8192 - busy, quarantined := false }

/-! ## Staging (R24, R25, R127) -/

/-- Takes n segments for an engine of class c; they are HELD. -/
def Dev.holdSegs (d : Dev) (c : Nat) : Nat → List Nat × Dev
  | 0 => ([], d)
  | n + 1 => match d.popFrom 0 d.allocBanks with
    | none => ([], d)
    | some (s, d1) =>
      let r := (((d1.onBooks fun k => k.setEntry s ⟨.held, 16385 + c⟩).updHeldOf c (· + 1)).updUsedSegs c (· + 1)).holdSegs c n
      (s :: r.1, r.2)

/-- An engine drops the segments that it held. -/
def Dev.dropHeld (d : Dev) (c : Nat) (segs : List Nat) : Dev :=
  segs.foldl (fun a s => (a.release c s).updHeldOf c (· - 1)) d

/-- Bytes that a block has received pass through the Vat on their way to their reader (R25): the writer makes their cells in
segments that it holds, and the reader checks every P. The answer is the bytes, whether one was poisoned, and the device; none when no segment is
free. -/
def Dev.stage (d : Dev) (writer reader c kind : Nat) (payload : List Byte) (bad : List Nat := []) :
    Option (List Byte × Bool × Dev) :=
  let cells := (Rec.mk kind false true 0 payload).cells
  let h := d.holdSegs c (recSegs payload.length)
  if h.1.length < recSegs payload.length then none
  else
    let d1 := h.2.updVat fun v => (v.putCells writer h.1 0 cells).readAccess reader h.1 0 cells.length
    let got := asRead bad ((h.1.flatMap d1.vat.segCells).take cells.length)
    some ((got.drop 4).map cellByte, got.any badCell, (d1.countBad h.1 0 got).dropHeld c h.1)

/-! ## Sheets (R123) -/

/-- The sheet queues of SV1 and SV2. -/
def sheetQueue (c : Nat) : Nat := 183 + c

def halvesDflt (_ : Nat) : Nat := 0
def Dev.halvesOf (d : Dev) (s : Nat) : Nat := look halvesDflt d.vat.halves s
def Dev.setHalvesOf (d : Dev) (s m : Nat) : Dev := d.updVat fun v => { v with halves := put halvesDflt v.halves s m }

/-- A segment of class c with one half free for a short sheet. -/
def Dev.openHalf (d : Dev) (c : Nat) : Option (Nat × Nat) :=
  d.vat.halves.find? fun h => h.2 ≠ 3 && (d.vat.books.entry h.1).owner = sheetQueue c

/-- Segments that a sheet of n bytes takes beyond those in use. -/
def Dev.sheetNeed (d : Dev) (c n : Nat) : Nat :=
  if n ≤ 64 then (if (d.openHalf c).isSome then 0 else 1) else ceilDiv n 128

/-- Takes n whole segments for sheets of class c; they are linked to its sheet queue, which has no order. -/
def Dev.sheetSegs (d : Dev) (c : Nat) : Nat → List Nat × Dev
  | 0 => ([], d)
  | n + 1 =>
    let q := sheetQueue c
    match d.popFrom (d.nextBank q) d.allocBanks with
    | none => ([], d)
    | some (s, d1) =>
      let d2 := (d1.onBooks fun k => (k.setEntry s ⟨.linked, q⟩).setPtr q ((k.ptr q).1, ⟨s, 0⟩)).updQueue q fun x =>
        { x with segs := x.segs + 1 }
      let r := (d2.updUsedSegs c (· + 1)).sheetSegs c n
      (s :: r.1, r.2)

/-- Room for a sheet of n bytes in class c (R231), claimed and taken: the places of its cells. -/
def Dev.claimSheet (d : Dev) (c n : Nat) : Option (List (Nat × Nat) × Dev) :=
  let need := d.sheetNeed c n
  if !d.canClaim c need || decide (d.freeToTake < need) then none
  else
    let d0 := d.openQueue (sheetQueue c) c 4 c 36 0
    if n ≤ 64 then
      match d0.openHalf c with
      | some (s, m) => some ([(s, if m = 1 then 64 else 0)], d0.setHalvesOf s 3)
      | none =>
        let r := d0.sheetSegs c 1
        some (r.1.map fun s => (s, 0), forEach r.1 (fun s a => a.setHalvesOf s 1) r.2)
    else
      let r := d0.sheetSegs c need
      some (r.1.map fun s => (s, 0), r.2)

/-- A sheet of class c gives its place back. -/
def Dev.dropSheet (d : Dev) (c : Nat) (place : List (Nat × Nat)) : Dev :=
  forEach place (fun p a =>
    let m := a.halvesOf p.1 - (if p.2 = 0 then 1 else 2)
    if a.halvesOf p.1 ≠ 0 ∧ m ≠ 0 then a.setHalvesOf p.1 m
    else ((a.setHalvesOf p.1 0).release c p.1).updQueue (sheetQueue c) fun x => { x with segs := x.segs - 1 }) d

/-- The cells of a sheet: the first is marked. -/
def sheetCells : List Byte → List Cell10
  | [] => []
  | b :: t => mkCell true b :: t.map (mkCell false)

/-- The row places of a sheet. -/
def sheetRows (place : List (Nat × Nat)) : List (Nat × Nat) :=
  place.flatMap fun p => rowPlaces [p.1] p.2

/-- The cells that stand at a place of a sheet. -/
def Dev.sheetAt (d : Dev) (place : List (Nat × Nat)) (n : Nat) : List Cell10 :=
  ((sheetRows place).flatMap fun r => d.vat.rowOf r.1 r.2).take n

/-- Requester `who` writes a sheet. -/
def Dev.writeSheet (d : Dev) (who : Nat) (place : List (Nat × Nat)) (bytes : List Byte) : Dev :=
  let rows := rowsOf (bytes.length + 1) ((sheetCells bytes).map some)
  d.updVat fun v =>
    let places := (sheetRows place).take rows.length
    (places.zip rows).foldl (fun a pr => a.writeRow pr.1.1 pr.1.2 pr.2) (v.accessRows who false places)

/-- Requester `who` reads a sheet of n bytes: the bytes, whether a cell failed, and the device. `mark` holds the bank for the
write-back of a row (R154). -/
def Dev.readSheet (d : Dev) (who : Nat) (mark : Bool) (place : List (Nat × Nat)) (n : Nat) : List Byte × Bool × Dev :=
  let cells := d.sheetAt place n
  let rows := (sheetRows place).take (ceilDiv n 32)
  let d1 := d.updVat fun v => v.accessRows who mark rows
  (cells.map cellByte, cells.any badCell, forN n (fun i a =>
    if badCell (cells.getD i 0) then a.bankParity ((rows.getD (i / 32) (0, 0)).1) else a) d1)

/-! ## Depth changes -/

/-- L + H: every class's linked and held segments. -/
def Dev.inUse (d : Dev) : Nat := (List.range 8).foldl (fun n c => n + d.linked c + d.heldOf c) 0

/-- Free segments on all lists. -/
def Dev.freeAll (d : Dev) : Nat := (List.range (depthBanks d.vat.depth)).foldl (fun n b => n + d.freeIn b) 0

/-- What must survive a drain: sheets, SV0 queues and the outstanding claims (R148). -/
def Dev.drainFloor (d : Dev) : Nat :=
  (d.queue (sheetQueue 1)).segs + (d.queue (sheetQueue 2)).segs + d.linked 0 + (List.range 8).foldl (fun n c => n + d.claim c) 0

/-- Good banks: neither retired (R147). -/
def Dev.goodBanks (d : Dev) : Nat := 9 - (List.range 9).foldl (fun n b => n + b2n (d.vat.retired.getLsbD b)) 0

/-- Whether a change to `depth` passes check 4 of R403 (R147, R148). -/
def Dev.depthOk (d : Dev) (depth : Nat) : Bool :=
  if d.vat.depth < depth then decide (depthBanks depth ≤ d.goodBanks)
  else if depth < d.vat.depth then decide (d.drainFloor ≤ 8192 * depthBanks depth)
  else true

/-- Power-gated banks that may join, lowest first: neither in service, spare, coming nor retired. -/
def Dev.gatedBanks (d : Dev) : List Nat :=
  (List.range 9).filter fun b =>
    !d.vat.slots.contains b && d.vat.spare ≠ some b && d.vat.coming ≠ some b && !d.vat.retired.getLsbD b

/-- Starts a change to `depth`: GROWING with the banks that join, or DRAINING (R147, R148). A drain that reverses goes
back over GROWING with no bank to join (R308). A depth for which too few good banks remain is not started. -/
def Dev.startDepth (d : Dev) (depth : Nat) : Dev :=
  if depth = d.vat.depth then
    match d.vat.change with
    | .draining _ => d.updVat fun v => { v with change := .growing depth [] [] }
    | _ => d.updVat fun v => { v with change := .stable }
  else if d.vat.depth < depth then
    let need := depthBanks depth - d.vat.slots.length
    let pool := d.gatedBanks ++ d.vat.coming.toList ++ d.vat.spare.toList
    if pool.length < need then d.updVat fun v => { v with change := .stable }
    else d.updVat fun v => { v with change := .growing depth (pool.take need) [] }
  else d.updVat fun v => { v with change := .draining depth }

/-- Starts a change to a depth that is asked for, once no rotation runs (R157). -/
def Dev.seekTo (d : Dev) (depth : Nat) : Dev :=
  if d.vat.migrating.isSome || !d.isReady 4 then d
  else match d.vat.change with
    | .growing g _ _ => if g = depth then d else d.startDepth depth
    | .draining g => if g = depth then d else d.startDepth depth
    | .stable => if d.vat.depth = depth then d else d.startDepth depth

/-- Moves a LINKED segment of queue q out of the leaving banks: the new segment is HELD while 4 rows are copied, takes the
place of the old one, and the old one is released (R148 step 3). None when no segment is free. -/
def Dev.moveSeg (d : Dev) (q s : Nat) : Option (Nat × Dev) :=
  let c := (d.queue q).cls
  match d.popFrom (segBank s % d.allocBanks) d.allocBanks with
  | none => none
  | some (t, d1) =>
    let d2 := ((d1.onBooks fun k => k.setEntry t ⟨.held, 16385 + c⟩).updHeldOf c (· + 1)).updUsedSegs c (· + 1)
    let d3 := d2.updVat fun v => v.moveRows s t
    let d4 := (d3.onBooks fun k => (k.setEntry t ⟨.linked, q⟩).setNext t (k.next s)).updHeldOf c (· - 1)
    some (t, d4.release c s)

/-- Chains segments in order. -/
def Books.chain : List Nat → Books → Books
  | a :: b :: t, k => Books.chain (b :: t) (k.setNext a b)
  | _, k => k

/-- Moves the segments of queue q out of the leaving banks, as far as free segments allow. -/
def Dev.relocate (d : Dev) (banks q : Nat) : Dev :=
  let old := d.qSegs q
  if old.all fun s => decide (segBank s < banks) then d
  else
    let r := old.foldl (fun (acc : List Nat × Dev) s =>
      if segBank s < banks then (acc.1 ++ [s], acc.2)
      else match acc.2.moveSeg q s with
        | none => (acc.1 ++ [s], acc.2)
        | some (t, d1) => (acc.1 ++ [t], d1)) ([], d)
    r.2.onBooks fun k =>
      let p := k.ptr q
      (Books.chain r.1 k).setPtr q (⟨r.1.headD p.1.seg, p.1.off⟩, ⟨r.1.getLastD p.2.seg, p.2.off⟩)

/-- Moves the place of a sheet of class c out of the leaving banks. -/
def Dev.movePlace (d : Dev) (banks c : Nat) (place : List (Nat × Nat)) : List (Nat × Nat) × Dev :=
  place.foldl (fun (acc : List (Nat × Nat) × Dev) p =>
    if segBank p.1 < banks then (acc.1 ++ [p], acc.2)
    else match acc.2.moveSeg (sheetQueue c) p.1 with
      | none => (acc.1 ++ [p], acc.2)
      | some (t, d1) => (acc.1 ++ [(t, p.2)], (d1.setHalvesOf t (d1.halvesOf p.1)).setHalvesOf p.1 0)) ([], d)

/-- Names segment t where sheets of other subscriptions stood in segment s. -/
def movedPlace (s t : Nat) (place : List (Nat × Nat)) : List (Nat × Nat) := place.map fun p => if p.1 = s then (t, p.2) else p

/-- Moves the segments of the sheets of class c: every subscription that shares a segment follows it. -/
def Dev.relocateSheets (d : Dev) (banks c : Nat) : Dev :=
  let mine := (d.vat.books.sst.filter fun e =>
    e.2.state = .linked && e.2.owner = sheetQueue c && decide (banks ≤ segBank e.1)).map Prod.fst
  forEach mine (fun s a =>
    let r := a.movePlace banks c [(s, 0)]
    match r.1 with
    | [(t, _)] =>
      { r.2 with subscriptions := r.2.subscriptions.map fun kv =>
          (kv.1, kv.2.map fun x => if x.cls = c then { x with place := movedPlace s t x.place } else x) }
    | _ => r.2) d

/-- A segment of a leaving bank is still in use. -/
def Dev.straddling (d : Dev) (banks : Nat) : Bool :=
  d.vat.books.sst.any fun e => e.2.state ≠ .free && decide (banks ≤ segBank e.1)

/-- A bank that leaves service is power-gated: its lists start anew when it joins again, and its contents are lost. -/
def Dev.gateSlot (d : Dev) (b : Nat) : Dev :=
  let inBank (s : Nat) : Bool := segBank s = b
  ((d.setFreeList b FreeList.reset).onBooks fun k =>
    { k with
      heads := put headDflt k.heads b (headDflt b), link := k.link.filter fun e => !inBank e.1
      sst := k.sst.filter fun e => !inBank e.1 }).updVat fun v => v.bankLost (v.slotBank b)

/-- The data queue that a drain resets next: class order SV7, SV6, SV5, SV3, SV4, SV2, SV1, largest first (R148). -/
def Dev.drainVictim (d : Dev) : Option Nat :=
  ([7, 6, 5, 3, 4, 2, 1] : List Nat).findSome? fun c =>
    (d.vat.queues.foldl (fun (best : Option (Nat × Nat)) kq =>
      if kq.2.cls = c ∧ 0 < kq.2.segs ∧ kq.2.state = .active ∧ kq.2.ownerKind ≠ 4 then
        match best with
        | some (_, n) => if n < kq.2.segs then some (kq.1, kq.2.segs) else best
        | none => some (kq.1, kq.2.segs)
      else best) none).map Prod.fst

/-! ## Registers of the Vat -/

/-- `VAT_STATUS`. The pointers are duplicated in Full (R137). -/
def Dev.vatStatus (d : Dev) : W32 :=
  let v := d.vat
  let chg := match v.change with | .stable => 0 | .growing _ _ _ => 1 | .draining _ => 2
  if !d.isReady 4 then 0
  else at_ (match v.spare with | some b => b | none => 15) 28 ||| at_ v.rotSlot 25 ||| at_ (b2n v.noSpare) 24 |||
    at_ v.depth 22 ||| at_ chg 20 ||| at_ (b2n v.migrating.isSome) 19 ||| at_ (b2n (v.depth = 2)) 18

/-- `VAT_BANKS`: a bank that fills no slot, is not the spare, is not joining and is not retired is power-gated (R125).
Zero, its reset value, before `READY.VAT` (DEDUCED). -/
def Dev.vatBanks (d : Dev) : W32 :=
  if !d.isReady 4 then 0 else
  let v := d.vat
  let joining := match v.change with | .growing _ j p => j ++ p | _ => []
  let mask (f : Nat → Bool) := (List.range 9).foldl (fun n b => n + b2n (f b) * 2 ^ b) 0
  at_ (mask fun b => !v.slots.contains b && v.spare ≠ some b && v.coming ≠ some b && !joining.contains b && !v.retired.getLsbD b) 18 |||
    at_ (mask fun b => v.retired.getLsbD b) 9 ||| at_ (mask fun b => v.slots.contains b) 0

def Dev.vatMap (d : Dev) : W32 :=
  BitVec.ofNat 32 ((List.range 8).foldl (fun n i => n + (d.vat.slots.getD i 15) * 16 ^ i) 0)

def Dev.vatMarch (d : Dev) : W32 := at_ (min d.vat.marchPasses 65535) 16 ||| at_ (b2n d.vat.marchLastOk) 0

def Dev.vatQinfo (d : Dev) : W32 :=
  let q := d.queue (d.fld aVatQsel 0 14)
  at_ (b2n (q.state = .active)) 31 ||| at_ (b2n (q.state = .resetting)) 30 ||| at_ q.cls 27 ||| at_ q.segs 0

def Dev.vatQowner (d : Dev) : W32 :=
  let q := d.queue (d.fld aVatQsel 0 14)
  at_ q.ownerKind 28 ||| at_ q.owner 0

end Sys2Proof.Machine
end

