-- ==== Sys2Proof/Machine/Packets.lean ====
section
/-! DEFINITION. Avvoset packets that the device builds: headers, HCRC and CMAC (R83 to R86), responses (R103, R105,
R107, R417), notifications (R106 to R109), and the queues they wait in. Queue numbers are the model's: the responses of
output o wait in queue o, relay frames of link l and service v in queue 40 + 4l + v, notifications of subscriber s and
class c in queue 13,312 + 1,024 (c − 1) + s. -/

namespace Sys2Proof.Machine

/-! ## The status codes of R444 -/

def stOk : Nat := 0
def stBusy : Nat := 1
def stNoBudget : Nat := 2
def stNoResource : Nat := 3
def stBadParam : Nat := 4
def stNotPermitted : Nat := 5
def stAuthFail : Nat := 6
def stReplay : Nat := 7
def stThrottled : Nat := 8
def stTimeout : Nat := 9
def stStalled : Nat := 10
def stResetAborted : Nat := 11
def stPoisoned : Nat := 12
def stLinkLost : Nat := 13
def stDetached : Nat := 14
def stCausePresent : Nat := 15
def stUnsupported : Nat := 16
def stLimp : Nat := 17
def stToggleUnsure : Nat := 18
def stQuarantine : Nat := 19
def stWearFlagged : Nat := 20

/-! ## Header fields (R83) -/

def pkFlags (p : List Byte) : Nat := byteAt p 1
def pkOpcode (p : List Byte) : Nat := leAt p 2 2
def pkTag (p : List Byte) : Nat := leAt p 4 2
def pkSub (p : List Byte) : Nat := leAt p 6 2 % 1024
def pkSlot (p : List Byte) : Nat := leAt p 6 2 / 1024
def pkSeq (p : List Byte) : Nat := leAt p 8 8
def pkPlen (p : List Byte) : Nat := leAt p 16 2
def pkDest (p : List Byte) : Nat := leAt p 18 2
def pkStatus (p : List Byte) : Nat := leAt p 20 2
def pkHcrc (p : List Byte) : Nat := leAt p 28 4
def pkRsp (p : List Byte) : Bool := pkFlags p % 2 = 1
def pkNotify (p : List Byte) : Bool := pkFlags p / 2 % 2 = 1
def pkAuth (p : List Byte) : Bool := pkFlags p / 4 % 2 = 1
def pkFwd (p : List Byte) : Bool := pkFlags p / 8 % 2 = 1
def pkMore (p : List Byte) : Bool := pkFlags p / 16 % 2 = 1
def pkParams (p : List Byte) : List Byte := (p.drop 32).take (pkPlen p)

/-- `p` with its FWD bit set to b (R84). -/
def withFwd (b : Bool) : List Byte → List Byte
  | v :: f :: t => v :: (if b then f ||| 8 else f &&& ~~~ (8 : Byte)) :: t
  | p => p

/-- HCRC of a packet: header bytes 0 to 27 and the parameters, with FWD read as 0 (R85). -/
def hcrcOf (p : List Byte) : Nat :=
  crc32c ((withFwd false p).take 28 ++ pkParams p)

/-- The CMAC tag of a packet: header bytes 0 to 31 with FWD read as 0, and the parameters (R86). -/
def tagOf (k : Key) (p : List Byte) : List Byte := cmac k ((withFwd false p).take 32 ++ pkParams p)

/-- Header bytes 0 to 27 (R83). -/
def header (flags opcode tag sub slot seq plen dest status beat16 : Nat) : List Byte :=
  [3, BitVec.ofNat 8 flags] ++ leBytes 2 opcode ++ leBytes 2 tag ++ leBytes 2 (slot * 1024 + sub) ++
    leBytes 8 seq ++ leBytes 2 plen ++ leBytes 2 dest ++ leBytes 2 status ++ leBytes 2 beat16 ++ zeros 4

/-- The packet of a 28-byte header and its parameters: HCRC first, the tag second when a key is given (R86). -/
def sealPkt (h : List Byte) (params : List Byte) (key : Option Key) : List Byte :=
  let body := h ++ leBytes 4 (crc32c (withFwd false h ++ params)) ++ params
  match key with
  | none => body
  | some k => body ++ tagOf k body

/-- The poisoned packet of R110: STATUS POISONED, PLEN 0, AUTH clear, HCRC recomputed. -/
def stomp (p : List Byte) : List Byte :=
  let flags := pkFlags p - (if pkAuth p then 4 else 0)
  sealPkt (header flags (pkOpcode p) (pkTag p) (pkSub p) (pkSlot p) (pkSeq p) 0 (pkDest p) stPoisoned (leAt p 22 2)) [] none

/-! ## Keys -/

/-- The key in slot k: none when the slot is empty (R102, R411). Slots 64 and 65 are the relay keys. -/
def Dev.slotKey (d : Dev) (k : Nat) : Option Key :=
  let valid := if k < 64 then bit (d.qword (0x098 + k / 32)) (k % 32) else bit (d.qword 0x09A) (k - 64)
  let w := if k < 64 then 0x0C0 + 4 * k else 0x090 + 4 * (k - 64)
  if valid then
    some (BitVec.ofNat 128 ((List.range 4).foldl (fun n i => n + (d.qword (w + i)).toNat * 2 ^ (32 * i)) 0))
  else none

/-- Whether the slot's range holds the subscriber (R102). -/
def Dev.slotHolds (d : Dev) (k sub : Nat) : Bool :=
  let w := d.qword (0x1C0 + 2 * k)
  decide (bits w 0 10 ≤ sub ∧ sub ≤ bits w 16 10)

/-- Whether the slot's PERM includes the opcode's group (R102). -/
def Dev.slotPermits (d : Dev) (k opcode : Nat) : Bool :=
  bit (d.qword (0x1C1 + 2 * k)) (opcode / 256 % 256) && (d.slotKey k).isSome

/-! ## Routes and limits -/

/-- L of R87 on a route. -/
def Dev.limitOf (d : Dev) : Route → Nat
  | .udp e _ vlan v6 _ _ _ _ =>
    min 4096 ((d.eth e).mtu - (if v6 then 48 else 28) - (if vlan.isSome then 4 else 0))
  | _ => 4096

/-- The output of a Management function's link: port 0 to 3, or U0 (R252). -/
def linkOutput (l : Nat) : Nat := if l < 4 then l else 32

/-- The link that leads toward a position (R265): none without a valid entry. -/
def Dev.routeLink (d : Dev) (p : Nat) : Option Nat :=
  let r := d.reg (aRoute p)
  if bit r 31 then some (bits r 0 3) else none

/-- The queue of relay frames of link l and service v. -/
def relayQueue (l v : Nat) : Nat := 40 + 4 * l + v

/-- The queue of the notifications of subscriber s in class c, 1 to 3. -/
def notifQueue (c s : Nat) : Nat := 13312 + 1024 * (c - 1) + s

/-- The output over which a route leaves; none for a relay route whose position has no link. -/
def Dev.routeOutput (d : Dev) : Route → Option Nat
  | .spi => some 35
  | .udp e _ _ _ _ _ _ _ => some (33 + e)
  | .usb l => some (linkOutput l)
  | .relay p => (d.routeLink p).map linkOutput

/-- DEST of what this chip builds (R108). -/
def Dev.originDest (d : Dev) : Nat := if d.posValid then 0x8000 + d.position else 0x7FFF

/-- BEAT16 of a packet built now (R83). -/
def Dev.beat16 (d : Dev) : Nat := d.deckle.beat.toNat % 65536

/-- Takes the next SEQ for a subscriber (R105). -/
def Dev.takeSeq (d : Dev) (sub : Nat) : Nat × Dev :=
  let n := (d.subr sub).txSeq
  (d.epoch * 2 ^ 48 + n, d.updSubr sub fun x => { x with txSeq := (n + 1) % 2 ^ 48 })

/-- Parameters cut into pieces of at most n bytes, at least one piece (R107). -/
def cut (n : Nat) : Nat → List Byte → List (List Byte)
  | 0, l => [l]
  | f + 1, l => if l.length ≤ n then [l] else l.take n :: cut n f (l.drop n)

/-- Room for parameters in a packet of at most `limit` bytes; PLEN is at most 4,048 (R83, R107). -/
def paramRoom (limit : Nat) (signed : Bool) : Nat := min 4048 (limit - (if signed then 48 else 32))

def pieces (limit : Nat) (signed : Bool) (params : List Byte) : List (List Byte) :=
  let n := paramRoom limit signed
  if n = 0 then [params] else cut n (params.length / n) params

/-! ## Queueing -/

/-- The function device signals remote wake for a packet on Management bulk IN (R304). -/
def Dev.functionWake (d : Dev) (l : Nat) : Dev :=
  let f := d.func l
  if f.suspended && f.remoteWake then d.updFunc l fun x => { x with waking := true } else d

/-- A relay frame as it waits in the Vat: the header of R267 with CREDIT, SEQ and FCRC still 0, and the payload. -/
def relayFrame (dst src svc hops : Nat) (poison : Bool) (payload : List Byte) : List Byte :=
  ([dst, src, svc, hops * 4 + b2n poison].map (BitVec.ofNat 8)) ++ leBytes 2 payload.length ++ zeros 10 ++ payload


/-- The queue in which a response on a route waits, opened for it: that of its output, or that of the relay frames of service
SV0. None for a relay route without a link. -/
def Dev.openAnswers (d : Dev) (r : Route) : Option (Nat × Dev) :=
  match r with
  | .relay pos => (d.routeLink pos).map fun l => (relayQueue l 0, d.openQueue (relayQueue l 0) 0 3 l (linkOutput l) 0)
  | .usb l => some (linkOutput l, d.openQueue (linkOutput l) 0 5 0 (linkOutput l) 0)
  | .udp e _ _ _ _ _ _ _ => some (33 + e, d.openQueue (33 + e) 0 5 0 (33 + e) 0)
  | .spi => some (35, d.openQueue 35 0 5 0 35 0)

/-- The record of an Avvoset packet on a route: the packet, or a relay frame of service SV0 with FWD set (R113). -/
def Dev.answerRec (d : Dev) (r : Route) (last : Bool) (p : List Byte) (poison : Bool) : Rec :=
  match r with
  | .relay pos => ⟨3, poison, last, 0, relayFrame pos d.position 0 0 poison (withFwd true p)⟩
  | _ => ⟨2, poison, last, 0, p⟩

/-- Queues an Avvoset packet that leaves on a route. A relay route without a link loses the packet. -/
def Dev.queueOnRoute (d : Dev) (r : Route) (last : Bool) (p : List Byte) (poison : Bool := false) : Dev :=
  match d.openAnswers r with
  | none => d
  | some (q, d1) =>
    match d1.enqueue rqMill q (d1.answerRec r last p poison) with
    | none => d1.broke q 0 1
    | some d2 => match r with
      | .usb l => d2.functionWake l
      | .udp e _ _ _ _ _ _ _ => d2.updEth e fun x => { x with rspTo := x.rspTo ++ [r] }
      | _ => d2

/-- SV0 has room for one packet more on a route: what a response without a claim needs (R131, R132). -/
def Dev.roomOnRoute (d : Dev) (r : Route) (p : List Byte) : Bool :=
  match d.openAnswers r with
  | none => true
  | some (q, d1) => d1.canClaim 0 (d1.segsFor q (recCells (d1.answerRec r true p false).payload.length))

/-- Builds and queues the packets of a response (R103, R107, R417), the first from byte `off` of its parameters on. A packet
that carries bytes read poisoned is marked so (R134). -/
def Dev.respondFrom (d : Dev) (rq : Request) (status off : Nat) : List (List Byte) → Dev
  | [] => d
  | c :: rest =>
    let n := d.takeSeq rq.sub.toNat
    let flags := 1 + (if rq.key.isSome then 4 else 0) + (if rest.isEmpty then 0 else 16)
    let h := header flags rq.opcode.toNat rq.tag.toNat rq.sub.toNat rq.keyslot n.1 c.length n.2.originDest status
      n.2.beat16
    let poison := rq.bad.any fun i => decide (off ≤ i ∧ i < off + c.length)
    (n.2.queueOnRoute rq.route rest.isEmpty (sealPkt h c rq.key) poison).respondFrom rq status (off + c.length) rest

def Dev.respondPieces (d : Dev) (rq : Request) (status : Nat) (ps : List (List Byte)) : Dev := d.respondFrom rq status 0 ps

/-- Sends the response of a request that holds no tag: a refusal at checks 1 to 15 (R100). It has no claim: where SV0 has no
room it is discarded and counted (R131, R156). -/
def Dev.refuse (d : Dev) (rq : Request) (status : Nat) : Dev :=
  let sized := zeros (32 + (if rq.key.isSome then 16 else 0))
  if d.roomOnRoute rq.route sized then d.respondPieces rq status [[]]
  else match d.openAnswers rq.route with
    | some (q, d1) => d1.broke q 0 1
    | none => d

/-! ## Outstanding requests (R116) -/

def Request.name (r : Request) : ReqKey := ⟨r.sub, r.tag⟩

def Request.isFor (r : Request) (k : ReqKey) : Bool := r.sub = k.sub && r.tag = k.tag

/-- The outstanding request a key names. -/
def Dev.findReq (d : Dev) (k : ReqKey) : Option Request := d.requests.find? fun r => r.isFor k

/-- Replaces an outstanding request. -/
def Dev.setReq (d : Dev) (k : ReqKey) (f : Request → Request) : Dev :=
  { d with requests := d.requests.map fun r => if r.isFor k then f r else r }

/-- Frees a tag: its response has left, or it is dropped (R116). -/
def Dev.dropReq (d : Dev) (k : ReqKey) : Dev := { d with requests := d.requests.filter fun r => !r.isFor k }

/-- Whether an opcode names a USB device: the Transfers and Periodic groups (R111). -/
def namesDevice (opcode : Nat) : Bool := opcode / 256 = 3 || opcode / 256 = 4

/-- The requests that came before r from its subscriber and for its target (R117). -/
def Dev.before (d : Dev) (r : Request) : List Request :=
  (d.requests.takeWhile fun x => !x.isFor ⟨r.sub, r.tag⟩).filter fun x => x.sub = r.sub && x.target = r.target

/-- Queues the response of an accepted request. Its tag ends as the last of these packets leaves the chip (R116). -/
def Dev.respondAs (d : Dev) (r : Request) (status : Nat) (params : List Byte) : Dev :=
  let ps := pieces (d.limitOf r.route) r.key.isSome params
  let last := ((d.subr r.sub.toNat).txSeq + ps.length - 1) % 2 ^ 48
  (d.respondPieces r status ps).setReq r.name
    fun x => { x with phase := .answered, claim := 0, lastSeq := some (d.epoch * 2 ^ 48 + last) }

/-- Sends the responses of the requests that have ended and wait for none before them. A claim that the response did not
use returns (R132). The tag stays outstanding until the response leaves the chip. -/
def Dev.release117 (d : Dev) : Dev :=
  forEach d.requests (fun r a =>
    match r.phase with
    | .done status params =>
      if (a.before r).all fun x => x.phase = .answered then (a.dropClaim 0 r.claim).respondAs r status params else a
    | _ => a) d

/-- Ends a request with a response, sent in the order of R117. -/
def Dev.answer (d : Dev) (k : ReqKey) (status : Nat) (params : List Byte) : Dev :=
  match d.findReq k with
  | none => d
  | some rq =>
    match rq.phase with
    | .answered => d
    | .done _ _ => d
    | _ => (d.setReq k fun r => { r with phase := .done status params }).release117

/-- Ends with a status and no parameters. -/
def Dev.fail (d : Dev) (k : ReqKey) (status : Nat) : Dev := d.answer k status []

/-- Ends every request of a list. -/
def Dev.failAll (d : Dev) (ks : List ReqKey) (status : Nat) : Dev := forEach ks (fun k x => x.fail k status) d

/-! ## Notifications -/

/-- The counter of AVV_NOTIF_DROP (R407). -/
def selNotifDrop (s : Nat) : Nat := selector 0x10 5 s

/-- Unsent notification packets of a subscriber. -/
def Dev.unsent (d : Dev) (s : Nat) : Nat :=
  ([1, 2, 3] : List Nat).foldl (fun n c => n + (d.queue (notifQueue c s)).stamps.length) 0

/-- Serial number of the head record of a queue. -/
def Dev.headSerial (d : Dev) (q : Nat) : Option Nat := (d.queue q).stamps.head?.map Prod.snd

/-- The class, 1 to 3, that holds a subscriber's oldest unsent notification. -/
def Dev.oldestNotif (d : Dev) (s : Nat) : Option Nat :=
  (([1, 2, 3] : List Nat).foldl (fun (best : Option (Nat × Nat)) c =>
    match d.headSerial (notifQueue c s), best with
    | some n, some (_, m) => if n < m then some (c, n) else best
    | some n, none => some (c, n)
    | none, b => b) none).map Prod.fst

/-- Discards the oldest unsent notification (R108). -/
def Dev.dropOldest (d : Dev) (s : Nat) : Dev :=
  match d.oldestNotif s with
  | none => d
  | some c => match d.dequeue rqMill (notifQueue c s) with
    | none => d
    | some (_, _, d') => d'.count (selNotifDrop s)

/-- Takes the next notification TAG of a subscriber: the cycle 1 to 0xFFFF (R108). -/
def Dev.takeNotifTag (d : Dev) (s : Nat) : Nat × Dev :=
  let n := (d.subr s).notifTag
  (n, d.updSubr s fun x => { x with notifTag := if n = 65535 then 1 else n + 1 })

/-- Queues one notification packet. Its key slot, HCRC and tag are those of the moment of sending (R103, R119): it waits
unsigned with slot 0. A class without room loses it. -/
def Dev.queueNotif (d : Dev) (s cls kind status beat16 : Nat) (more : Bool) (params : List Byte) : Dev :=
  let d0 := if 64 ≤ d.unsent s then d.dropOldest s else d
  let t := d0.takeNotifTag s
  let n := t.2.takeSeq s
  let h := header (2 + (if more then 16 else 0)) kind t.1 s 0 n.1 params.length n.2.originDest status beat16
  let r : Rec := ⟨2, false, !more, 0, sealPkt h params none⟩
  let q := notifQueue cls s
  let d1 := n.2.openQueue q cls 2 s 35 s
  let need := d1.segsFor q r.cells.length
  if d1.canClaim cls need then
    match d1.enqueue rqMill q r with
    | some d2 => match (d2.subr s).route with
      | some (.usb l, _, _) => d2.functionWake l
      | _ => d2
    | none => (d1.broke q 0 1).count (selNotifDrop s)
  else (d1.broke q 0 1).count (selNotifDrop s)

/-- Queues the packets of one notification, given as pieces. -/
def Dev.queueNotifs (d : Dev) (s cls kind status beat16 : Nat) : List (List Byte) → Dev
  | [] => d
  | c :: rest => (d.queueNotif s cls kind status beat16 (!rest.isEmpty) c).queueNotifs s cls kind status beat16 rest

/-- Sends a notification to one subscriber: without a route it is discarded and counted (R106). -/
def Dev.notifySub (d : Dev) (s kind status : Nat) (params : List Byte) : Dev :=
  match (d.subr s).route with
  | none => d.count (selNotifDrop s)
  | some (r, _, signed) => d.queueNotifs s 3 kind status d.beat16 (pieces (d.limitOf r) signed params)

/-- The subscribers that EVENTS registered for a class and, for classes 0 to 2, a port (R424). -/
def Dev.registered (d : Dev) (cls : Nat) (port : Option Nat) : List Nat :=
  (d.subs.filter fun kv =>
    kv.2.classes.getLsbD cls &&
      (match port with
       | none => true
       | some n => if n = 32 then kv.2.u0 else kv.2.ports.getLsbD n)).map Prod.fst

/-- Whether the Mill core sends notifications: the Limp interpreter sends none (R75), and none is built before
READY.MILL. -/
def Dev.notifies (d : Dev) : Bool := d.isReady 8

/-- Sends a notification to every subscriber registered for its class (R443). -/
def Dev.notify (d : Dev) (cls : Nat) (port : Option Nat) (kind : Nat) (params : List Byte) : Dev :=
  if d.notifies then forEach (d.registered cls port) (fun s x => x.notifySub s kind 0 params) d else d

/-- The 6-byte beat number and the 2-byte microframe. -/
def Dev.beatMf (d : Dev) : List Byte := leBytes 6 d.deckle.beat.toNat ++ leBytes 2 d.deckle.mf

/-! ## Digests (R249, R250) -/

def DigestEntry.bytes (e : DigestEntry) (slotMf : Nat := e.mf * 8 + e.slot) : List Byte :=
  leBytes 2 (e.type * 2 ^ 14 + e.ctx) ++ leBytes 2 slotMf ++
    leBytes 2 (b2n e.poison * 2 ^ 15 + b2n e.coalesced * 2 ^ 14 + b2n e.gap * 2 ^ 13 + b2n e.prevBeat * 2 ^ 12 +
      e.data.length) ++ leBytes 2 e.aux ++ e.data

/-- Entries packed into packets of at most `room` bytes, split only between entries: (count, bytes) of each packet. -/
def packEntries (room : Nat) (cur : Nat × List Byte) : List (List Byte) → List (Nat × List Byte)
  | [] => [cur]
  | e :: t =>
    if cur.1 ≠ 0 ∧ room < cur.2.length + e.length then cur :: packEntries room (1, e) t
    else packEntries room (cur.1 + 1, cur.2 ++ e) t

/-- Builds and queues the digest of beat n for a subscriber (R248, R249). -/
def Dev.sendDigest (d : Dev) (s : Nat) (beat : BeatNo) (es : List DigestEntry) : Dev :=
  match (d.subr s).route with
  | none => d.count (selNotifDrop s)
  | some (r, _, signed) =>
    let room := paramRoom (d.limitOf r) signed - 8
    let cls := if es.any (·.sv1) then 1 else 2
    let ps := (packEntries room (0, []) (es.map fun e => e.bytes)).map fun p =>
      leBytes 6 beat.toNat ++ leBytes 2 p.1 ++ p.2
    d.queueNotifs s cls 0x8401 0 (beat.toNat % 65536) ps

/-! ## Leaving the chip -/

/-- A notification made ready for the route in force: key slot, HCRC and tag (R103, R106, R119). -/
def Dev.finishNotif (d : Dev) (s : Nat) (p : List Byte) : Option (Route × List Byte) :=
  match (d.subr s).route with
  | none => none
  | some (r, slot, signed) =>
    let key := if signed then d.slotKey slot else none
    let flags := pkFlags p + (if key.isSome then 4 else 0)
    some (r, sealPkt (header flags (pkOpcode p) (pkTag p) s slot (pkSeq p) (pkPlen p) (pkDest p) (pkStatus p) (leAt p 22 2))
      (pkParams p) key)

/-- The tag of a request ends as the last packet of its own response leaves the chip (R116); a refusal that carries the same
TAG ends none (R101). DOZE is asked for once the OK response of PWR_STATE has left (R433). -/
def Dev.leaves (d : Dev) (p : List Byte) : Dev :=
  if pkRsp p then
    let k : ReqKey := ⟨BitVec.ofNat 10 (pkSub p), BitVec.ofNat 16 (pkTag p)⟩
    match d.findReq k with
    | some rq =>
      if rq.lastSeq ≠ some (pkSeq p) then d
      else
        let d1 := d.dropReq k
        if rq.opcode = 0x0501 && rq.target = 0 && byteAt rq.params 0 = 2 && pkStatus p = stOk then
          { d1 with power := { d1.power with dozeNow := true } }
        else d1
    | none => d
  else d

end Sys2Proof.Machine
end

