-- ==== Sys2Proof/Machine/Frames.lean ====
section
/-! DEFINITION. Ethernet frames of E0 and E1 (R94 to R96): the frame around an Avvoset packet, and the answers of the IP
layer. Addresses hold their first octet in bits 7:0 (R414). Header formats are those of Ethernet, ARP, IPv4, IPv6, UDP and ICMP
(PRESUMED: IEEE 802.3, 802.1Q, RFC 826, 791, 8200, 768, 792, 4443, 4861), of which the spec gives the names. -/

namespace Sys2Proof.Machine

open Sys2Proof

/-- A number of n bytes, the most significant first. -/
def netBytes (n v : Nat) : List Byte := (leBytes n v).reverse

/-- The sum of 16-bit words, the high byte of each first. -/
def netSum : List Byte → Nat
  | a :: b :: t => 256 * a.toNat + b.toNat + netSum t
  | [a] => 256 * a.toNat
  | [] => 0

/-- The Internet checksum: the complement of the ones' complement sum. -/
def netCheck (l : List Byte) : Nat :=
  let fold (n : Nat) : Nat := n % 65536 + n / 65536
  65535 - fold (fold (netSum l))

/-- An Ethernet frame without its FCS, filled up to 60 bytes. -/
def ethFrame (dst src : BitVec 48) (vlan : Option (BitVec 16)) (type : Nat) (body : List Byte) : List Byte :=
  let tag := match vlan with
    | some t => netBytes 2 0x8100 ++ netBytes 2 t.toNat
    | none => []
  let f := leBytes 6 dst.toNat ++ leBytes 6 src.toNat ++ tag ++ netBytes 2 type ++ body
  f ++ zeros (60 - f.length)

/-- An IP address on the wire. -/
def addrBytes (v6 : Bool) (a : BitVec 128) : List Byte := leBytes (if v6 then 16 else 4) a.toNat

/-- What an IP header takes from outside the body: addresses, the traffic class or type of service, the hop limit or TTL,
and the protocol. -/
structure IpHead where
  v6 : Bool
  src : BitVec 128
  dst : BitVec 128
  class_ : Nat
  hops : Nat
  proto : Nat
  deriving DecidableEq, Repr

/-- The EtherType of an IP packet. -/
def IpHead.type (h : IpHead) : Nat := if h.v6 then 0x86DD else 0x0800

/-- An IP packet. The identification and the don't-fragment flag, or the flow label, come from an open word w. -/
def IpHead.packet (h : IpHead) (w : W32) (body : List Byte) : List Byte :=
  if h.v6 then
    netBytes 4 (6 * 2 ^ 28 + h.class_ * 2 ^ 20 + bits w 0 20) ++ netBytes 2 body.length ++
      [BitVec.ofNat 8 h.proto, BitVec.ofNat 8 h.hops] ++ addrBytes true h.src ++ addrBytes true h.dst ++ body
  else
    let head (check : Nat) : List Byte :=
      [0x45, BitVec.ofNat 8 h.class_] ++ netBytes 2 (20 + body.length) ++ netBytes 2 (bits w 0 16) ++
        netBytes 2 (bits w 16 1 * 0x4000) ++ [BitVec.ofNat 8 h.hops, BitVec.ofNat 8 h.proto] ++ netBytes 2 check ++
        addrBytes false h.src ++ addrBytes false h.dst
    head (netCheck (head 0)) ++ body

/-- The pseudo-header that the checksums of UDP and ICMPv6 cover. -/
def IpHead.pseudo (h : IpHead) (len : Nat) : List Byte :=
  addrBytes h.v6 h.src ++ addrBytes h.v6 h.dst ++
    (if h.v6 then netBytes 4 len ++ zeros 3 ++ [BitVec.ofNat 8 h.proto] else [0, BitVec.ofNat 8 h.proto] ++ netBytes 2 len)

/-- A UDP datagram; a checksum of 0 is sent as all ones. -/
def udpDatagramBytes (h : IpHead) (srcPort dstPort : Nat) (payload : List Byte) : List Byte :=
  let n := 8 + payload.length
  let head (check : Nat) : List Byte := netBytes 2 srcPort ++ netBytes 2 dstPort ++ netBytes 2 n ++ netBytes 2 check
  let c := netCheck (h.pseudo n ++ head 0 ++ payload)
  head (if c = 0 then 65535 else c) ++ payload

/-- An ICMP message: type, code 0, checksum, body. -/
def icmpBytes (h : IpHead) (type : Nat) (body : List Byte) : List Byte :=
  let m (check : Nat) : List Byte := [BitVec.ofNat 8 type, 0] ++ netBytes 2 check ++ body
  m (netCheck ((if h.v6 then h.pseudo (4 + body.length) else []) ++ m 0))

/-- `AVV_UDP_PORT`. -/
def Dev.udpPort (d : Dev) : Nat :=
  let n := bits (d.qword 4) 0 16
  if n = 0 then 41930 else n

/-- The frame that carries a packet on a UDP route (R96): to the requester's MAC address, IP address and port, from the
device's address and `AVV_UDP_PORT`, with the request's DSCP and VLAN tag and a TTL or hop limit of 64. The ECN bits are open. -/
def Dev.udpFrame (d : Dev) (r : Route) (p : List Byte) : List Byte × Dev :=
  match r with
  | .udp e mac vlan v6 ip dst port dscp =>
    let w := d.freeWord
    let h : IpHead := ⟨v6, dst, ip, dscp.toNat * 4 + bits w.1 20 2, 64, 17⟩
    (ethFrame mac (Config.mac e) vlan h.type (h.packet w.1 (udpDatagramBytes h d.udpPort port.toNat p)), w.2)
  | _ => (p, d)

/-- A datagram as the MAC received it: its traffic class, hop limit and identification are open. -/
def Datagram.frame (g : Datagram) (e : Nat) (w : W32) : List Byte :=
  let h : IpHead := ⟨g.ipv6, g.srcIp, g.dstIp, g.dscp.toNat * 4 + bits w 20 2, bits w 24 8, 17⟩
  ethFrame (Config.mac e) g.srcMac g.vlan h.type (h.packet w (udpDatagramBytes h g.srcPort.toNat g.dstPort.toNat g.payload))

/-- Bytes of a datagram's frame before its payload. -/
def Datagram.lead (g : Datagram) : Nat := 14 + (if g.vlan.isSome then 4 else 0) + (if g.ipv6 then 48 else 28)

/-- The kinds of answer of the IP layer (R95). -/
inductive NetAnswer where
  | arp | neighbour | echo
  deriving DecidableEq, Repr

/-- An answer of the IP layer: an ARP reply, a solicited neighbour advertisement with the port's MAC address, or an echo reply
with the body of the request. The advertisement has hop limit 255; class and hop limit of an echo reply are open. -/
def NetAnswer.frame (k : NetAnswer) (e : Nat) (q : NetQuery) (w : W32) : List Byte :=
  let own := Config.mac e
  match k with
  | .arp =>
    ethFrame q.srcMac own q.vlan 0x0806 (netBytes 2 1 ++ netBytes 2 0x0800 ++ [6, 4] ++ netBytes 2 2 ++ leBytes 6 own.toNat ++
      addrBytes false q.target ++ leBytes 6 q.srcMac.toNat ++ addrBytes false q.srcIp)
  | .neighbour =>
    let h : IpHead := ⟨true, q.target, q.srcIp, bits w 20 8, 255, 58⟩
    ethFrame q.srcMac own q.vlan h.type (h.packet w (icmpBytes h 136 ([0x60, 0, 0, 0] ++ addrBytes true q.target ++ [2, 1] ++
      leBytes 6 own.toNat)))
  | .echo =>
    let h : IpHead := ⟨q.ipv6, q.target, q.srcIp, bits w 20 4 * 16 + bits w 18 2, bits w 24 8, if q.ipv6 then 58 else 1⟩
    ethFrame q.srcMac own q.vlan h.type (h.packet w (icmpBytes h (if q.ipv6 then 129 else 0) q.body))

/-! ## Frames in the Vat (R25, R132) -/

/-- The queue of the answers of the IP layer of E port e, and of the frames it has received. -/
def netQueue (e : Nat) : Nat := 38 + e
def rxFrameQueue (e : Nat) : Nat := 36 + e

/-- The class of what the IP layer answers and of the frames received (DESIGN CHOICE). -/
def netClass : Nat := 7

/-- A frame is linked in a queue of E port e under a claim of its record; without room it is discarded and counted under
OVERFLOW. -/
def Dev.linkFrame (d : Dev) (e q : Nat) (f : List Byte) : Option Dev :=
  let d1 := d.openQueue q netClass 1 (33 + e) (if q = netQueue e then 33 + e else 36) 0
  if d1.canClaim netClass (d1.segsFor q (recCells f.length)) then d1.enqueue (rqMac e) q ⟨4, false, true, 0, f⟩ else none

/-- A frame that its queue cannot take. -/
def Dev.frameLost (d : Dev) (e q : Nat) : Dev := (d.openQueue q netClass 1 (33 + e) 36 0).broke q 0 1

/-- An answer of the IP layer waits for its output. -/
def Dev.queueNet (d : Dev) (e : Nat) (f : List Byte) : Dev := (d.linkFrame e (netQueue e) f).getD (d.frameLost e (netQueue e))

/-- A received frame passes through the Vat to the Mill core: its bytes, or none when it is discarded for lack of room. -/
def Dev.passFrame (d : Dev) (e : Nat) (f : List Byte) : Option (List Byte) × Dev :=
  match (d.linkFrame e (rxFrameQueue e) f).bind fun a => a.dequeue rqMill (rxFrameQueue e) with
  | some (r, _, d1) => (some r.payload, d1)
  | none => (none, d.frameLost e (rxFrameQueue e))

/-- Room for the record of a received frame of n bytes, claimed as the frame starts. -/
def Dev.rxRoom (d : Dev) (e n : Nat) : Bool := d.canClaim netClass (d.segsFor (rxFrameQueue e) (recCells (max 60 n)))

end Sys2Proof.Machine
end

