-- ==== Sys2Proof/Machine/Ports.lean ====
section
/-! DEFINITION. The low-level acts on a port: its allocation and roles (R28, R317), its fuse (R356 to R368), its CC
presentation, the port supply bus queue (R334, R335), the status registers of both, and the start of a wake (R307,
R316). Port n is P0 to P31; engine 32 is U0's. -/

namespace Sys2Proof.Machine

/-! ## Allocations (R28) -/

def Dev.isDisabled (d : Dev) (n : Nat) : Bool := n < 32 && (d.port n).alloc = 0
def Dev.isEmbedded (d : Dev) (n : Nat) : Bool := n < 32 && (d.port n).alloc = 1
def Dev.isTransparent (d : Dev) (n : Nat) : Bool := n < 32 && (d.port n).alloc = 2
def Dev.isCoupler (d : Dev) (n : Nat) : Bool := n < 4 && (d.port n).alloc = 3
def Dev.isChargeOnly (d : Dev) (n : Nat) : Bool := n < 32 && (d.port n).alloc = 4

/-- The power role that allocation and `PD_CFG.ROLE` give engine n (R317): 0 source, 1 sink, 2 dual, none for none. A
converter that did not pass R336 leaves a dual-role port as sink and a source-only port in DISABLED presentation. -/
def Dev.pdRole (d : Dev) (n : Nat) : Option Nat :=
  let r := if n = 32 then some 1
    else if d.isDisabled n then none
    else if d.isCoupler n then some 2
    else if d.isChargeOnly n then some 0
    else some (d.fld (aPdCfg n) 2 2)
  match r with
  | some 0 => if (d.eng n).psbMissing then none else some 0
  | some 2 => if (d.eng n).psbMissing then some 1 else some 2
  | r => r

/-- Ports that may source have a converter on the port supply bus (R334). -/
def Dev.maySource (d : Dev) (n : Nat) : Bool :=
  n < 32 && !d.isDisabled n && (d.isCoupler n || d.isChargeOnly n || d.fld (aPdCfg n) 2 2 ≠ 1)

/-! ## Ports of the hub function (R221, R222) -/

/-- The default of `U0.ports`. -/
def hubPortDflt (_ : Nat) : HubPort := HubPort.reset
def Dev.hubPort (d : Dev) (k : Nat) : HubPort := look hubPortDflt d.u0.ports k
def Dev.updHubPort (d : Dev) (k : Nat) (f : HubPort → HubPort) : Dev :=
  { d with u0 := { d.u0 with ports := put hubPortDflt d.u0.ports k (f (d.hubPort k)) } }

/-- A status bit of hub port k takes a value; its change bit is set when it differs. -/
def Dev.hubBit (d : Dev) (k i : Nat) (b : Bool) : Dev :=
  if bit (d.hubPort k).status i = b then d
  else d.updHubPort k fun p =>
    { p with status := p.status ^^^ BitVec.ofNat 16 (2 ^ i), change := p.change ||| BitVec.ofNat 16 (2 ^ i) }

/-- The port that hub port k carries (R221). -/
def Dev.portOfHub (d : Dev) (k : Nat) : Option Nat :=
  (List.range 32).find? fun n => d.isTransparent n && (d.port n).hubPort = k && decide (0 < k)

/-- Hub port k shows that port n is connected. A SuperSpeed link trains to U0 and is enabled; a port of P8 to P31 has none
(R221). -/
def Dev.hubConnect (d : Dev) (k n : Nat) : Dev :=
  if d.u0.speed ≠ 3 then d.hubBit k 0 true
  else if 8 ≤ n then d
  else (d.hubBit k 0 true).updHubPort k fun p => { p with status := p.status ||| 2 }

/-- The queues of the TT of hub port k: the splits that wait for the port, and what the device has answered. -/
def ttQueue (k : Nat) (periodic answers : Bool) : Nat := (if answers then 304 else 240) + (if periodic then 32 else 0) + k

/-- The queue of the SuperSpeed packets that wait at an output of the hub engine: 0 to 7, or 32 for U0. -/
def ssQueue (o : Nat) : Nat := 200 + o

/-- The TT buffers of hub port k are emptied, and their claims return (R132). -/
def Dev.clearTtBuffers (d : Dev) (k : Nat) : Dev :=
  let d1 := (forEach (d.hubPort k).ttBuffers (fun b a => a.dropClaim b.cls b.claim) d).updHubPort k fun p => { p with ttBuffers := [] }
  (((d1.flushQueue (ttQueue k false false) 3).flushQueue (ttQueue k true false) 3).flushQueue (ttQueue k false true) 3).flushQueue
    (ttQueue k true true) 3

/-- What the hub engine holds for the port behind hub port k is flushed: its TT, and the SuperSpeed packets toward it. -/
def Dev.clearHubQueues (d : Dev) (k : Nat) : Dev :=
  match d.portOfHub k with
  | some n => (d.clearTtBuffers k).flushQueue (ssQueue n) 3
  | none => d.clearTtBuffers k

/-- A trip of a TRANSPARENT port, or its end, is shown as PORT_OVER_CURRENT (R222). -/
def Dev.hubOver (d : Dev) (n : Nat) (b : Bool) : Dev :=
  if d.isTransparent n && 0 < (d.port n).hubPort then d.hubBit (d.port n).hubPort 3 b else d

/-! ## Levels of the collector that bear on a port (R379) -/

/-- The highest active level among the PRESS, PORT and LINK sources that cover port n. -/
def Dev.portLevel (d : Dev) (n : Nat) : Nat :=
  let lv (b k : Nat) := (List.range k).foldl (fun m i => max m (d.src (b + i)).level) 0
  max (lv (64 + 8 * (n / 8)) 4) (max (lv (96 + 12 * n) 12) (if n < 4 then lv (480 + 8 * n) 5 else 0))

/-- Whether port n is held (R50): its fuse is HELD. -/
def Dev.isHeld (d : Dev) (n : Nat) : Bool := n < 32 && (d.fuse n).state = .held

/-- Whether the collector isolates the port (R380, R381). -/
def Dev.isolated (d : Dev) (n : Nat) : Bool := 2 ≤ d.portLevel n && !(d.fc.chipSafe && d.isHeld n)

/-! ## The port supply bus (R334, R335) -/

/-- Starts the first transaction of the most urgent priority when the bus is free. -/
def Dev.psbStart (d : Dev) : Dev :=
  match d.psb.current with
  | some _ => d
  | none =>
    match ([1, 2, 3] : List Nat).findSome? fun p => d.psb.queue.find? fun t => t.prio = p with
    | none => d
    | some t => { d with psb := { d.psb with current := some t, queue := d.psb.queue.erase t, failures := 0 } }

/-- Queues a transaction of port n. -/
def Dev.psbPush (d : Dev) (n prio : Nat) (cmd : PsbCmd) (transition : Bool := false) : Dev :=
  ({ d with psb := { d.psb with queue := d.psb.queue ++ [PsbTx.mk n cmd prio transition] } }).psbStart

/-- 5 V in the 20 mV units of the bus. -/
def fiveVolt : Nat := 250

/-- A 5 V standby command at the first priority; a transition of the port that is still queued is removed (R343). -/
def Dev.psbStandby (d : Dev) (n : Nat) : Dev :=
  let d1 := { d with psb := { d.psb with
    queue := d.psb.queue.filter fun t => !(t.port = n && t.transition) } }
  if n < 32 && d.maySource n && !(d.eng n).psbMissing then d1.psbPush n 1 (.vout fiveVolt) else d1

/-! ## The fuse (R356) -/

/-- The gate turns on as source: INRUSH (R357). -/
def Dev.gateOn (d : Dev) (n : Nat) : Dev :=
  d.updFuse n fun f => { f with
    state := .inrush, gate := true, pg := false, limiting := false, dsch := false, atZero := false }

/-- The gate turns off without a trip (R356); the switch of a sourcing port closes (R368). -/
def Dev.gateOff (d : Dev) (n : Nat) : Dev :=
  if 32 ≤ n then d
  else d.updFuse n fun f =>
    match f.state with
    | .inrush | .on | .held =>
      { f with state := .off, gate := false, pg := false, limiting := false, dsch := true, pps := none }
    | .sink => { f with state := .off, gate := false, pg := false, limiting := false, pps := none }
    | _ => { f with pg := false, pps := none }

/-- The gate turns on as sink, and off again (R356, `PD_CFG.SNK_PATH`). -/
def Dev.sinkPathOn (d : Dev) (n : Nat) : Dev :=
  if n < 32 && d.fldBit (aPdCfg n) 12 && (d.fuse n).state = .off then
    (d.updFuse n fun f => { f with state := .sink, gate := true }).updEng n fun e => { e with sinkPath := true }
  else d

def Dev.sinkPathOff (d : Dev) (n : Nat) : Dev :=
  (if (d.fuse n).state = .sink then d.gateOff n else d).updEng n fun e => { e with sinkPath := false }

/-- Codes of `EFUSE_STATUS.STATE`. -/
def FuseState.code : FuseState → Nat
  | .off => 0 | .inrush => 1 | .on => 2 | .backoff => 3 | .latched => 4 | .held => 5 | .sink => 6

/-- `EFUSE_STATUS`. -/
def Dev.efuseStatus (d : Dev) (n : Nat) : W32 :=
  let f := d.fuse n
  at_ f.state.code 28 ||| at_ (b2n f.pg) 27 ||| at_ (b2n f.limiting) 26 ||| at_ (b2n f.gate) 25 |||
    at_ (b2n f.dsch) 24 ||| at_ (b2n f.pps.isSome) 23 ||| at_ (min f.consec 15) 16 ||| at_ f.lastCause 10

/-- `PRESS_HOLD`. -/
def Dev.pressHold (d : Dev) : W32 :=
  BitVec.ofNat 32 ((List.range 32).foldl (fun m n => m + b2n (d.fuse n).hold * 2 ^ n) 0)

/-! ## The start of a wake -/

def PwrState.code : PwrState → Nat
  | .active => 0 | .trim => 1 | .doze => 2 | .hibernate => 3

/-- Codes of `PWR_STATUS.WAKE_SRC`. -/
def wakeCode : WakeSrc → Nat
  | .remoteWake => 1 | .ccOrPd => 2 | .connect => 3 | .u0 => 4 | .vinMon => 5 | .beatIn => 6 | .msCsN => 7
  | .ethFrame => 8 | .fault => 9 | .hostRequest => 10

/-- Takes the device out of DOZE, or abandons an entry into it (R307, R315, R316): the raising write goes out, at once
or once the lowering write has ended. -/
def Dev.startWake (d : Dev) (src : WakeSrc) : Dev :=
  let p := d.power
  let d1 := { d with power := { p with dozeNow := false, dozeBeats := 0 } }
  match p.avs with
  | .lowering => { d1 with power := { d1.power with avs := .loweringAbandoned, wakeSrc := wakeCode src } }
  | .idle =>
    if p.state = .doze then
      { d1 with power := { d1.power with avs := .raising, lowered := false, wakeSrc := wakeCode src } }
    else d1
  | _ => d1

/-! ## Type-C and PD status -/

def TcState.code : TcState → Nat
  | .disabled => 0 | .unattachedSrc => 1 | .unattachedSnk => 2 | .attachWaitSrc => 3 | .attachWaitSnk => 4
  | .trySrc => 5 | .tryWaitSnk => 6 | .trySnk => 7 | .tryWaitSrc => 8 | .attachedSrc => 9 | .attachedSnk => 10
  | .errorRecovery => 11 | .safe => 12 | .hibernate => 13

/-- Whether engine n is in an Attached state. -/
def Dev.tcAttached (d : Dev) (n : Nat) : Bool := (d.eng n).tc = .attachedSrc || (d.eng n).tc = .attachedSnk

/-- The Type-C state Attached as reported for R18 (R318): on an EMBEDDED or TRANSPARENT port only while DFP. -/
def Dev.attachedFor (d : Dev) (n : Nat) : Bool :=
  d.tcAttached n && !((d.isEmbedded n || d.isTransparent n) && !(d.eng n).dfp)

/-- The port follows R198: an EMBEDDED port, or a coupler port that is DFP. -/
def Dev.isRoot (d : Dev) (n : Nat) : Bool := d.isEmbedded n || (d.isCoupler n && (d.eng n).dfp)

/-- The swap of a source to sink has turned its gate off: the port sources VBUS no more. -/
def Pd.givesUp (e : Pd) : Bool := e.ams = .prToSnkDischarge || e.ams = .prToSnkWait

/-- The conditions of R18: Attached, power good where the port sources VBUS, and no level that isolates the port. -/
def Dev.r18 (d : Dev) (n : Nat) : Bool :=
  d.up && d.attachedFor n && (!(d.eng n).source || (d.eng n).givesUp || (d.fuse n).pg) && !d.fc.chipSafe && !d.isolated n

/-- The port is presented to its engine, and nothing has withdrawn it. -/
def Dev.served (d : Dev) (n : Nat) : Bool := (d.port n).present && d.r18 n

/-- Whether engine n is Unattached (R311, R434). -/
def Dev.tcUnattached (d : Dev) (n : Nat) : Bool :=
  (d.eng n).tc = .disabled || (d.eng n).tc = .unattachedSrc || (d.eng n).tc = .unattachedSnk

/-- The level seen on the pin of the orientation. -/
def Pd.pin (e : Pd) : CcLevel := if e.orient = 0 then e.cc1 else e.cc2

/-- Codes of `PD_STATUS.PARTNER_RP`. -/
def rpCode : CcLevel → Nat
  | .rpDefault => 1 | .rp15 => 2 | .rp30 => 3 | _ => 0

/-- `PD_STATUS`. -/
def Dev.pdStatus (d : Dev) (n : Nat) : W32 :=
  let e := d.eng n
  at_ e.tc.code 28 ||| at_ (b2n (d.attachedFor n)) 27 ||| at_ (b2n (d.tcAttached n && e.source)) 26 |||
    at_ (b2n (d.tcAttached n && e.dfp)) 25 ||| at_ e.orient 24 |||
    at_ (if e.tc = .attachedSnk then rpCode e.pin else 0) 22 ||| at_ e.rev 20 ||| at_ (b2n e.contract.isSome) 19 |||
    at_ (b2n (match e.contract with | some c => c.pps | none => false)) 18 ||| at_ (b2n (e.ams ≠ .idle)) 17 |||
    at_ (b2n e.psbMissing) 16 ||| at_ (min e.hardResets 2) 14

/-- `PD_CONTRACT`. -/
def Dev.pdContract (d : Dev) (n : Nat) : W32 :=
  match (d.eng n).contract with
  | none => 0
  | some c => at_ c.position 29 ||| at_ c.volt 16 ||| at_ c.current 0

/-- `PD_CABLE`: the stored CAP field and the result of cable discovery. -/
def Dev.pdCable (d : Dev) (n : Nat) : W32 :=
  let e := d.eng n
  if n = 32 then 0
  else at_ (b2n e.marker) 31 ||| at_ e.markerI 29 ||| at_ (b2n e.vconn) 28 ||| at_ e.discTries 25 |||
    at_ (b2n (e.limit5A && e.vconn && d.fld (aPdCable n) 0 2 = 1)) 24 ||| at_ (d.fld (aPdCable n) 0 2) 0

/-- Bits of `PD_EVENT`. -/
def evAttach : Nat := 0
def evDetach : Nat := 1
def evContract : Nat := 2
def evSoftReset : Nat := 3
def evHardReset : Nat := 4
def evErrorRecovery : Nat := 5
def evSwapDone : Nat := 6
def evSwapFail : Nat := 7
def evDrRefused : Nat := 8
def evPsrdyLate : Nat := 9
def evPsbNoack : Nat := 10
def evCable : Nat := 11
def evAlertSent : Nat := 12
def evNotSupported : Nat := 13
def evVbusLost : Nat := 14
def evAlertRx : Nat := 15
def evMismatch : Nat := 16

/-- Sets a bit of `PD_EVENT`. -/
def Dev.pdEvt (d : Dev) (n b : Nat) : Dev :=
  (d.flag (aPdEvent n) b).updEng n fun e => { e with newEvents := e.newEvents ||| at_ 1 b }

/-- PD_CHANGE (R350, R443): the bits set since the last one. -/
def Dev.pdChange (d : Dev) (n : Nat) : Dev :=
  let e := d.eng n
  let p := [BitVec.ofNat 8 n, BitVec.ofNat 8 e.tc.code, 0, 0] ++ wordBytes e.newEvents ++ wordBytes (d.pdContract n) ++
    wordBytes (d.pdStatus n)
  (d.notify 2 (some n) 0x8503 p).updEng n fun x => { x with newEvents := 0 }

/-- An event that needs host software: it is notified, and takes the device out of DOZE (R350, R307). -/
def Dev.pdTell (d : Dev) (n b : Nat) : Dev := ((d.pdEvt n b).pdChange n).startWake .ccOrPd

/-! ## CC presentation -/

/-- Whether the fuse and the collector let the engine present CC (R362 to R364, R371, R380). -/
def Dev.mayPresent (d : Dev) (n : Nat) : Bool :=
  n = 32 ||
    (!d.fc.chipSafe && (d.die (n / 8)).powered && (d.die (n / 8)).linkUp && !(d.die (n / 8)).safe && d.portLevel n < 3 &&
      (d.fuse n).state ≠ .latched && (d.fuse n).state ≠ .backoff && !(d.fuse n).holdEnded)

/-- The engine as an attach ends: no contract, no AMS, no cable result (R330), no VCONN (R322). -/
def Pd.cleared (e : Pd) : Pd :=
  { e with
    contract := none, ams := .idle, hardResets := 0, capsCount := 0, partnerPd := false, vconn := false,
    marker := false, markerI := 0, discTries := 0, limit5A := false, discDone := false, heldSwaps := [],
    swapWaits := 0, retrySwap := none, drTried := false, sinkPath := false, sourceCaps := [],
    offered := [], sendCaps := false, getSnkWaits := false, alertWaiting := false, alertHold := false, alertAgain := false, rev := 0 }

/-- Rp waits for vSafe0V: a load (R30), or a discharge that is late (R368). -/
def Dev.rpWaits (d : Dev) (n : Nat) : Bool := (d.eng n).loadWait && !(d.fuse n).atZero

/-- Starts again from Unattached in the role of R317. A dual-role port starts as UNATTACHED_SRC (DESIGN CHOICE); where
nothing may be presented, or Rp waits for vSafe0V, the port stays with CC open. -/
def Dev.pdStart (d : Dev) (n : Nat) : Dev :=
  let tc := if !d.mayPresent n then none
    else match d.pdRole n with
      | none => some TcState.disabled
      | some 1 => some .unattachedSnk
      | some _ => if d.rpWaits n then none else some .unattachedSrc
  match tc with
  | none => d.updEng n fun e => { e.cleared with
      tc := if e.tc = .errorRecovery then .errorRecovery else .disabled, source := false, dfp := false }
  | some t => d.updEng n fun e => { e.cleared with tc := t, erTimer := false, loadWait := false, source := false, dfp := false }

/-- CC may be presented again after error recovery, a backoff, a clear or a discharge: the engine starts from
Unattached unless its own timer or a load still holds it. -/
def Dev.pdRelease (d : Dev) (n : Nat) : Dev :=
  let e := d.eng n
  if e.erTimer || d.rpWaits n then d
  else if (e.tc = .errorRecovery || e.tc = .disabled) && d.mayPresent n then d.pdStart n
  else d

/-- A discharge of port n is late (R368): the engine presents Rp no longer, and not again before vSafe0V. Attached, it
stays as it is. -/
def Dev.zeroWait (d : Dev) (n : Nat) : Dev :=
  d.updEng n fun e => match e.tc with
    | .attachedSrc | .attachedSnk | .hibernate => e
    | .unattachedSrc | .attachWaitSrc | .trySrc | .tryWaitSrc => { e with tc := .disabled, loadWait := true }
    | .disabled | .unattachedSnk | .attachWaitSnk | .tryWaitSnk | .trySnk | .errorRecovery | .safe => { e with loadWait := true }

/-- Ends the requests of PD_ACTION that wait on engine n, with a status (R434). -/
def Dev.endActions (d : Dev) (n : Nat) (acts : List Nat) (status : Nat) : Dev :=
  let ks := (d.requests.filter fun r => match r.phase with
    | .pdAction m a => m = n && acts.contains a
    | _ => false).map Request.name
  forEach ks (fun k x => x.answer k status (if status = stOk then wordBytes (x.pdStatus n) else [])) d

/-- ERROR_RECOVERY: CC open, gate off, VCONN removed, 5 V standby queued; the running AMS and the waiting actions end
(R332, R361). -/
def Dev.enterErrorRecovery (d : Dev) (n : Nat) : Dev :=
  let d1 := ((d.gateOff n).psbStandby n).updEng n fun e => { e.cleared with tc := .errorRecovery, erTimer := true }
  ((d1.endActions n [7] stOk).endActions n [0, 1, 2, 3, 4, 5, 6] stDetached).pdTell n evErrorRecovery

/-- The port becomes Unattached: the gate turns off without a trip, standby follows, VBUS discharges (R343). -/
def Dev.becomeUnattached (d : Dev) (n : Nat) : Dev :=
  let d1 := ((d.gateOff n).psbStandby n)
  (d1.endActions n [0, 1, 2, 3, 4, 5, 6, 7] stDetached).pdStart n

end Sys2Proof.Machine
end

