-- ==== Sys2Proof/Machine/Faults.lean ====
section
/-! DEFINITION. The fault collector (R375 to R395): one assertion with its counting, Watermark, reaction and
notification; the chip safe state; clearing and forcing; its registers. -/

namespace Sys2Proof.Machine

/-! ## Source numbers (R375, R376) -/

def srcSelf : Nat := 0
def srcVatPtr : Nat := 1
def srcVatTally : Nat := 2
def srcVatParity : Nat := 3
def srcBankFail : Nat := 4
def srcNoSpare : Nat := 5
def srcBeatLost : Nat := 6
def srcAvsNoack : Nat := 7
def srcMillWdog : Nat := 8
def srcCouchWdog : Nat := 9
def srcStrap : Nat := 10
def srcAlloc : Nat := 11
def srcWear : Nat := 12
def srcThermal : Nat := 13
def srcPll : Nat := 14
def srcU0Pd : Nat := 15
def srcInputWarn : Nat := 16
def srcQuireDefault : Nat := 17
/-- PRESS source k of die x: 0 PRESS_LINK, 1 PRESS_ARM, 2 PRESS_TEMP, 3 PRESS_CAL. -/
def srcPress (x k : Nat) : Nat := 64 + 8 * x + k
/-- PORT source k of port n, in the order of R376. -/
def srcPort (n k : Nat) : Nat := 96 + 12 * n + k
/-- LINK source k of coupler port p. -/
def srcLink (p k : Nat) : Nat := 480 + 8 * p + k

/-- The ports a source covers. -/
def srcPorts (i : Nat) : List Nat :=
  match srcKind i with
  | some (1, x, _) => (List.range 8).map (8 * x + ·)
  | some (2, n, _) => [n]
  | some (3, p, _) => [p]
  | _ => []

/-- Whether the cause of source i is present (R376, R377). -/
def Dev.causePresent (d : Dev) (i : Nat) : Bool :=
  let s := d.src i
  s.line ||
    (match srcKind i with
     | some (0, _, 5) => d.vat.noSpare
     | some (0, _, 6) => d.deckle.state = .coast
     | some (0, _, 13) => s.cause
     | some (0, _, 14) => s.cause
     | some (0, _, 16) => d.vinLow
     | some (1, x, 0) => !(d.die x).linkUp
     | some (1, x, 1) => (d.die x).lost
     | some (1, _, 2) => s.cause
     | some (2, n, 3) => (d.fuse n).gate && !(d.fuse n).pg
     | some (2, n, 4) => (d.fuse n).dsch
     | some (2, n, k) => if k < 3 then (d.fuse n).tripLine else if k = 10 then d.psb.alertLow && s.cause else false
     | some (3, p, 4) => (d.link p).state = .quarantine
     | _ => false)

/-! ## The time of an event (R160, R390) -/

/-- The length change k(i) of microframe i under a plan q, r (R171). -/
def kOf (q : Int) (r bl i : Nat) : Int := q + (if i * r / bl < (i + 1) * r / bl then 1 else 0)

/-- Length of the microframe in progress in bit times (R159). -/
def Dev.mfLen (d : Dev) : Nat := (60000 + kOf d.deckle.planQ d.deckle.planR d.beatLen d.deckle.mf).toNat

/-- Length of slot s of the microframe in progress: slot 7 takes up the whole of the change (R159). -/
def Dev.slotLen (d : Dev) (s : Nat) : Nat := if s < 7 then 7500 else d.mfLen - 52500

/-- The bit time of this moment after the start of its microframe: within the slot in progress it is open, so it is a free
value there. -/
def Dev.bitNow (d : Dev) : Nat × Dev :=
  let w := d.freeWord
  (7500 * d.deckle.slot + w.1.toNat % max 1 (d.slotLen d.deckle.slot), w.2)

/-- OFFSET of an event in nanoseconds (R160); without a grid the count of microseconds since power good, which is open. -/
def Dev.offsetNow (d : Dev) : Nat × Dev :=
  let w := d.bitNow
  if d.deckle.running then (w.1 * 25 / 12, w.2) else ((Config.freeWord d.freeCtr).toNat % 131072, w.2)

/-- BEAT and MF of an event (R390). -/
def Dev.eventBeat (d : Dev) : Nat := if d.deckle.running then d.deckle.beat.toNat else 2 ^ 48 - 1
def Dev.eventMf (d : Dev) : Nat := if d.deckle.running then d.deckle.mf else 0x1FFF

/-- The payload of FAULT_EVENT (R393). -/
def faultEvent (i lvl c : Nat) (forced rehearsal line folded : Bool) (ctx : W32) (beat mf offset fold : Nat) :
    List Byte :=
  leBytes 2 i ++
    [BitVec.ofNat 8 (lvl + 8 * b2n forced + 16 * b2n rehearsal + 32 * b2n line + 64 * b2n folded), BitVec.ofNat 8 c] ++
    wordBytes ctx ++ leBytes 6 beat ++ leBytes 2 mf ++ leBytes 4 offset ++ leBytes 4 fold

/-- Sends a FAULT_EVENT with the time of this moment. -/
def Dev.sendFault (d : Dev) (i : Nat) (f : Fold) (rehearsal folded : Bool) : Dev :=
  let o := d.offsetNow
  o.2.notify 4 none 0x8601
    (faultEvent i f.level f.c f.forced rehearsal f.line folded f.context d.eventBeat d.eventMf o.1 f.count)

/-! ## Pending UPDATEs end (R405) -/

/-- Ends one pending UPDATE with a status: `UPDATE_STATUS.LAST` and UPDATE_DONE. -/
def Dev.updateDone (d : Dev) (u : PendingUpdate) (status : Nat) : Dev :=
  let d1 := { d with updates := d.updates.erase u, updateLast := BitVec.ofNat 16 status }
  match u.requester with
  | none => d1
  | some (s, tag) =>
    if d.notifies then
      d1.notifySub s.toNat 0x8101 status
        (leBytes 2 tag.toNat ++ [BitVec.ofNat 8 u.groups.toNat, BitVec.ofNat 8 u.whenSel] ++ d.beatMf)
    else d1

/-! ## TRIM (R308) -/

/-- Leaves TRIM: ACTIVE, and the Vat returns to `VAT_CFG.DEPTH`. -/
def Dev.leaveTrim (d : Dev) : Dev :=
  if d.power.state = .trim then
    ({ d with power := { d.power with state := .active, trimBeats := 0 } }).seekTo (d.fld aVatCfg 0 2)
  else d

/-! ## The chip safe state (R382) -/

/-- The engine of a port taken to the chip safe state: Rd, no contract (R49, R349). -/
def Dev.pdSafe (d : Dev) (n : Nat) : Dev :=
  d.updEng n fun e => { e.cleared with tc := .safe, erTimer := false, loadWait := false, source := false, dfp := false }

/-- A Press die takes port n to the chip safe state (R12, R50): a selected port in INRUSH or ON becomes HELD and keeps
its contract, every other gate turns off. -/
def Dev.portSafe (d : Dev) (n : Nat) : Dev :=
  let f := d.fuse n
  if f.state = .held then d
  else if f.hold && (f.state = .inrush || f.state = .on) then
    (d.updFuse n fun x => { x with state := .held }).updEng n fun e =>
      { e with ams := .idle, heldSwaps := [], retrySwap := none, sendCaps := false, alertWaiting := false, vconn := false }
  else if (d.die (n / 8)).powered && !(d.die (n / 8)).lost then ((d.gateOff n).psbStandby n).pdSafe n
  else d

/-- A die's safe pair reads Safe, and its eight ports follow. -/
def Dev.dieSafe (d : Dev) (x : Nat) : Dev :=
  forN 8 (fun j a => a.portSafe (8 * x + j)) (d.updDie x fun y => { y with safe := true })

/-- Entry into CHIP_SAFE by source i (R382, R405, R307, R308). U0 data disconnects (R49); R18 ceases to hold on
every port (PRESENT_CHANGE). The copy of the Watermark becomes due (R391). -/
def Dev.enterChipSafe (d : Dev) (i : Nat) (isSelf : Bool) : Dev :=
  let d1 := { d with fc := { d.fc with chipSafe := true, self := d.fc.self || isSelf, safeSrc := i, copying := true } }
  let d2 := (forN 4 (fun x a => a.dieSafe x) d1).pdSafe 32
  let d3 := forN 33 (fun n a => a.endActions n [0, 1, 2, 3, 4, 5, 6, 7] stTimeout) d2
  let d4 := (forEach d.updates (fun u a => a.updateDone u stNotPermitted) d3).setFunc 4 UsbFunction.reset
  let d5 := { d4 with u0 := { d4.u0 with speed := 0, suspended := false, hub := UsbFunction.reset } }
  d5.leaveTrim.startWake .fault

/-! ## Port reactions (R380, R381) -/

/-- PORT_OFF on port n: gate off without a trip, CC open until the level ends. -/
def Dev.portOff (d : Dev) (n : Nat) : Dev :=
  if d.isHeld n && d.fc.chipSafe then d
  else
    let was := d.tcAttached n
    let d1 := ((d.gateOff n).psbStandby n).endActions n [0, 1, 2, 3, 4, 5, 6, 7] stDetached
    let d2 := d1.updEng n fun e =>
      if d.fc.chipSafe || e.tc = .errorRecovery then e
      else { e.cleared with tc := .disabled, source := false, dfp := false }
    if was && !d.fc.chipSafe then d2.pdTell n evDetach else d2

/-- The reactions on the ports of source i when its level rises to PORT_OFF. With the Press link down the collector
drives the die's safe pair Safe instead (R381). -/
def Dev.reactPorts (d : Dev) (i : Nat) : Dev :=
  forEach (srcPorts i) (fun n a =>
    if 3 ≤ a.portLevel n && !a.isDisabled n then
      let x := n / 8
      if (a.die x).linkUp || !(a.die x).powered then a.portOff n
      else if (a.die x).safe then a
      else a.dieSafe x
    else a) d

/-! ## The Watermark (R389) -/

def Dev.latchWatermark (d : Dev) (i lvl : Nat) (ctx : W32) (forced line : Bool) : Dev :=
  if lvl < d.fld aFcCfg 0 3 then d
  else if d.watermark.valid then
    { d with watermark := { d.watermark with overflow := true, count := satAdd 65535 d.watermark.count 1 } }
  else
    let o := d.offsetNow
    { o.2 with
      fc := { o.2.fc with showRecord := false }
      watermark := { valid := true, overflow := false, forced := forced, line := line, level := lvl, source := i,
                     count := 0, context := ctx, epoch := BitVec.ofNat 16 d.epoch,
                     beat := BitVec.ofNat 48 d.eventBeat, mf := d.eventMf, offset := o.1 } }

/-! ## One assertion (R379) -/

/-- The counting of R379 on (c, ws): the new pair and the level. -/
def countWindow (cfg : W32) (now c ws : Nat) : Nat × Nat × Nat :=
  let w := bits cfg 0 16
  let p := if c = 0 ∨ w ≤ now - ws then (1, now) else (if c < 255 then c + 1 else c, ws)
  (p.1, p.2, if bits cfg 16 8 ≤ p.1 then bits cfg 27 3 else bits cfg 24 3)

/-- An assertion of source i. FC_SELF goes straight to CHIP_SAFE without counting (R384); in HIBERNATE the collector is
stopped (R380). -/
def Dev.assert (d : Dev) (i : Nat) (ctx : W32) (forced : Bool := false) (line : Bool := false) : Dev :=
  if !srcUsed i || !d.up then d
  else
    let d0 := d.count (selector 0x27 3 i)
    let s := d0.src i
    let r := if i = srcSelf then (s.c, s.ws, 4) else countWindow (d0.reg (aSrcCfg i)) d0.now s.c s.ws
    let lvl := r.2.2
    let d1 := d0.setSrc i { s with
      c := r.1, ws := r.2.1, level := max s.level lvl, forced := forced, line := s.line || line }
    let d2 := d1.latchWatermark i lvl ctx forced line
    let entering := lvl = 4 && !d2.fc.chipSafe
    let d3 := if entering then d2.enterChipSafe i (i = srcSelf)
      else if 2 ≤ lvl && s.level < 3 then d2.reactPorts i else d2
    let f : Fold := { level := lvl, forced := forced, line := line, c := r.1, context := ctx, count := 0 }
    let d4 :=
      if lvl = 0 then d3
      else if entering then { d3 with fc := { d3.fc with event := some (i, f) } }
      else if s.sentInBeat then
        d3.setSrc i { d3.src i with
          fold := some { f with count := (match s.fold with | some g => g.count | none => 0) + 1 } }
      else d3.sendFault i f false false
    let d5 := if lvl = 0 then d4 else d4.setSrc i { d4.src i with sentInBeat := true }
    if 1 ≤ lvl then d5.startWake .fault else d5

/-- The folded FAULT_EVENTs of the beat, in index order (R393). -/
def Dev.foldedEvents (d : Dev) : Dev :=
  forEach (d.fc.src.map Prod.fst) (fun i a =>
    let s := a.src i
    let a1 := match s.fold with
      | some f => a.sendFault i f false true
      | none => a
    a1.setSrc i { a1.src i with sentInBeat := false, fold := none }) d

/-! ## Clearing (R385) -/

/-- What ends when the levels that cover a port fall: the engine starts again, the safe pair may return to Run (R381). -/
def Dev.levelFell (d : Dev) (i : Nat) : Dev :=
  forEach (srcPorts i) (fun n a => if a.portLevel n < 3 && !a.fc.chipSafe then a.pdRelease n else a) d

/-- Clears one source: refused while its cause is present, whatever its level, and for a CHIP_SAFE level. The answer is
whether it was refused. An unused slot has nothing to clear. -/
def Dev.clearSource (d : Dev) (i : Nat) : Bool × Dev :=
  let s := d.src i
  if !srcUsed i then (false, d)
  else if d.causePresent i || s.level = 4 then (true, d)
  else if s.level = 0 then (false, d)
  else (false, (d.setSrc i { s with level := 0, line := false }).levelFell i)

/-- Clears every source, each judged on its own; the count of those refused. -/
def Dev.clearAll (d : Dev) : Nat × Dev :=
  ((List.range 512).filter srcUsed).foldl (fun a i =>
    let r := a.2.clearSource i
    (a.1 + b2n r.1, r.2)) (0, d)

/-! ## Forcing and rehearsal (R387, R388) -/

def forceResult (rehearsed : Bool) (lvl c i : Nat) : W32 :=
  at_ 1 31 ||| at_ (b2n rehearsed) 30 ||| at_ lvl 27 ||| at_ c 16 ||| at_ i 0

/-- A real assertion with a context word of 0. -/
def Dev.force (d : Dev) (i : Nat) : Dev :=
  let s := d.src i
  let r := if i = srcSelf then (s.c, s.ws, 4) else countWindow (d.reg (aSrcCfg i)) d.now s.c s.ws
  let d1 := d.assert i 0 true false
  { d1 with fc := { d1.fc with result := forceResult false r.2.2 r.1 i } }

/-- The counting on a copy: only the result and a FAULT_EVENT. -/
def Dev.rehearse (d : Dev) (i : Nat) : Dev :=
  let s := d.src i
  let r := countWindow (d.reg (aSrcCfg i)) d.now s.c s.ws
  let d1 := { d with fc := { d.fc with result := forceResult true r.2.2 r.1 i } }
  d1.sendFault i { level := r.2.2, forced := true, line := false, c := r.1, context := 0, count := 0 } true false

/-- Clears the Watermark; refused in CHIP_SAFE (R389). -/
def Dev.clearWatermark (d : Dev) : Dev :=
  if d.fc.chipSafe then d else { d with watermark := Watermark.reset }

/-! ## Registers -/

/-- `FC_STATUS`; its W1C bits are stored. -/
def Dev.fcStatus (d : Dev) : W32 :=
  at_ (b2n d.fc.chipSafe) 31 ||| at_ (b2n d.fc.self) 30 ||| at_ (b2n d.watermark.valid) 29 |||
    at_ (b2n d.watermark.overflow) 28 ||| at_ (b2n d.fc.copying) 27 ||| (d.reg aFcStatus &&& 0x07000000) |||
    at_ d.fc.safeSrc 0

/-- `FC_SRC_STAT_i`. -/
def Dev.srcStat (d : Dev) (i : Nat) : W32 :=
  let s := d.src i
  if srcUsed i then
    at_ s.level 29 ||| at_ (b2n (d.causePresent i)) 28 ||| at_ (b2n s.line) 27 ||| at_ (b2n s.forced) 26 ||| at_ s.c 16
  else 0

/-- `FC_PORT_LEVEL_k`. -/
def Dev.portLevels (d : Dev) (k : Nat) : W32 :=
  BitVec.ofNat 32 ((List.range 8).foldl (fun m j =>
    m + (d.portLevel (8 * k + j) + 8 * b2n (d.isHeld (8 * k + j))) * 16 ^ j) 0)

/-- `FC_WM_INFO` and `FC_WM_TIME` of the Watermark (R390). -/
def Watermark.info (w : Watermark) : List W32 :=
  [at_ (b2n w.valid) 31 ||| at_ (b2n w.overflow) 30 ||| at_ (b2n w.forced) 29 ||| at_ (b2n w.line) 28 |||
     at_ w.level 25 ||| at_ w.source 0,
   at_ w.count 0, w.context, at_ w.epoch.toNat 0]

def Watermark.time (w : Watermark) : List W32 :=
  [BitVec.ofNat 32 w.beat.toNat, at_ w.mf 16 ||| at_ (w.beat.toNat / 2 ^ 32) 0, at_ w.offset 0, 0]

/-! ## The safe-state record (R391) -/

/-- The eight words of record slot r. -/
def Dev.safeRec (d : Dev) (r : Nat) : List W32 := (List.range 8).map fun i => d.qword (0x080 + 8 * r + i)

/-- A record is valid when its CRC matches. -/
def recValid (ws : List W32) : Bool := crc32c (wordsBytes (ws.take 7)) = ((ws.getD 7 0).toNat)

/-- The slot that holds the newer valid record. -/
def Dev.newerRec (d : Dev) : Option Nat :=
  let a := d.safeRec 0
  let b := d.safeRec 1
  match recValid a, recValid b with
  | false, false => none
  | true, false => some 0
  | false, true => some 1
  | true, true =>
    let x := bits (a.getD 0 0) 0 16
    let y := bits (b.getD 0 0) 0 16
    let ahead := (y + 65536 - x) % 65536
    if 1 ≤ ahead ∧ ahead ≤ 32767 then some 1 else some 0

/-- The record of the Watermark with a sequence number. -/
def Dev.recordWords (d : Dev) (seqNo : Nat) : List W32 :=
  let w := d.watermark
  let ws := [at_ seqNo 0, w.info.getD 0 0, at_ w.epoch.toNat 16 ||| at_ w.count 0, w.context] ++ w.time.take 3
  ws ++ [BitVec.ofNat 32 (crc32c (wordsBytes ws))]

/-- `FC_WM_INFO` and `FC_WM_TIME` read from a Quire record (R392). -/
def recInfo (ws : List W32) : List W32 :=
  [ws.getD 1 0, at_ (bits (ws.getD 2 0) 0 16) 0, ws.getD 3 0, at_ (bits (ws.getD 2 0) 16 16) 0]

def recTime (ws : List W32) : List W32 := [ws.getD 4 0, ws.getD 5 0, ws.getD 6 0, 0]

end Sys2Proof.Machine
end

