-- ==== Sys2Proof/Machine/Host.lean ====
section
/-! DEFINITION. The low-level acts of the embedded host (R184 to R218): contexts and bindings, ending transfers and
subscriptions, detach and reset of devices, port states and their notifications. The Vat queue of context c is
1,024 + c. -/

namespace Sys2Proof.Machine

/-! ## Contexts -/

/-- The Vat queue of context c. -/
def epQueue (c : Nat) : Nat := 1024 + c

/-- The numbers of the contexts that are not FREE and satisfy p, in rising order. -/
def Dev.ctxsWhere (d : Dev) (p : Ctx → Bool) : List Nat :=
  (d.ctxs.filter fun kv => kv.2.state ≠ 0 && p kv.2).map Prod.fst

/-- BASE and COUNT of `REAM_Dn`. -/
def Dev.reamBase (d : Dev) (dom : Nat) : Nat := d.fld (aReam dom) 0 14
def Dev.reamCount (d : Dev) (dom : Nat) : Nat := d.fld (aReam dom) 16 14

/-- The contexts that waiting SET_ADDRESS requests have claimed (R189). Their words read as FREE until the status stage
completes; no state of R193 stands for them (DESIGN CHOICE). -/
def Dev.claimedCtxs (d : Dev) : List Nat := d.transfers.filterMap Transfer.claimed

/-- The lowest FREE context of a domain's range but its first, which the address-0 binding uses (R188, R194). -/
def Dev.freeCtx (d : Dev) (dom : Nat) : Option Nat :=
  let b := d.reamBase dom
  (List.range (d.reamCount dom - 1)).findSome? fun i =>
    if (d.ctx (b + 1 + i)).state = 0 && !d.claimedCtxs.contains (b + 1 + i) then some (b + 1 + i) else none

/-- The endpoint 0 context at an address of a domain, in any state but FREE. -/
def Dev.ep0 (d : Dev) (dom addr : Nat) : Option Nat :=
  (d.ctxsWhere fun c => c.ep = 0 && c.domain = dom && c.addr = addr && !c.cpl).head?

/-- The context of an endpoint of a device. -/
def Dev.epCtx (d : Dev) (dom addr ep : Nat) (dirIn : Bool) : Option Nat :=
  (d.ctxsWhere fun c => c.ep = ep && c.domain = dom && c.addr = addr && !c.cpl && (ep = 0 || c.dirIn = dirIn)).head?

/-- Max packet size of endpoint 0 at address 0 by speed (R188). -/
def mps0 (speed : Nat) : Nat := if speed = 0 then 8 else if speed = 3 then 512 else 64

/-- The service class of a context's work: control in SV3, bulk in SV5 (DESIGN CHOICE), a subscription in its own. -/
def Dev.ctxClass (d : Dev) (c : Nat) : Nat :=
  match d.subscription c with
  | some s => s.cls
  | none => if (d.ctx c).type = 2 then 5 else 3

/-- The bank requester that moves the data of port n (R152). -/
def Dev.rqPort (d : Dev) (n : Nat) : Nat := if (d.port n).ss then rqSs n else rqHs n

/-- Opens the Vat queue of context c. -/
def Dev.openEpQueue (d : Dev) (c : Nat) : Dev :=
  let x := d.ctx c
  d.openQueue (epQueue c) (d.ctxClass c) 1 x.port x.port (if x.owned then x.owner else 0)

/-! ## The address-0 binding (R188) -/

/-- Makes the binding of a domain, with its endpoint 0 context. -/
def Dev.bind (d : Dev) (dom : Nat) (b : Binding) : Dev :=
  let c := d.reamBase dom
  let x : Ctx := { Ctx.reset with
    state := 1, domain := dom, speed := b.speed, port := b.port, mps := mps0 b.speed, ttValid := b.ttValid,
    parentHub := b.parentHub, ttMulti := b.ttMulti, parentPort := b.parentPort, ttHub := b.ttHub, ttPort := b.ttPort,
    route := b.route, queue := epQueue c }
  let d1 := d.setBinding dom (some b)
  if 0 < d.reamCount dom then d1.setCtx c x else d1

/-- The binding that a root port makes when it enters RESETTING. -/
def rootBinding (n : Nat) : Binding :=
  { port := n, speed := 0, parentHub := 0, parentPort := 0, ttValid := false, ttMulti := false, ttHub := 0, ttPort := 0,
    route := 0 }

/-- Ends the binding of a domain. -/
def Dev.unbind (d : Dev) (dom : Nat) : Dev :=
  let d1 := d.setBinding dom none
  let c := d.reamBase dom
  if (d.ctx c).addr = 0 ∧ (d.ctx c).ep = 0 then d1.setCtx c Ctx.reset else d1

/-! ## Digest entries and the end of a subscription -/

/-- Adds an entry to a subscriber's digest of the beat in progress. -/
def Dev.addEntry (d : Dev) (s : Nat) (e : DigestEntry) : Dev :=
  d.updSubr s fun x => { x with digest := x.digest ++ [e] }

/-- An entry of context c at this moment, without data. -/
def Dev.entryOf (d : Dev) (c type aux : Nat) (sv1 : Bool) : DigestEntry :=
  { type := type, ctx := c, mf := d.deckle.mf, slot := d.deckle.slot, poison := false, coalesced := false, gap := false,
    prevBeat := false, aux := aux, data := [], sv1 := sv1 }

/-- Whether a poll of context c is on the wire. -/
def Dev.pollInFlight (d : Dev) (c : Nat) : Bool :=
  (d.port (d.ctx c).port).inflight.any fun x => x.poll && x.ctx = c

/-- Payload limit of one poll (R230). -/
def Ctx.payload (c : Ctx) : Nat :=
  if c.speed = 3 then c.mps * (c.burst + 1) else c.mps * (c.mult + 1)

/-- Ends the subscription on context c: its sheet is released, and an END entry with the status is made unless the
cause is UNSUBSCRIBE (R231, R251). A poll in flight becomes an orphan and keeps the budget until it ends (R241). -/
def Dev.endSubscription (d : Dev) (c : Nat) (status : Option Nat) : Dev :=
  match d.subscription c with
  | none => d
  | some s =>
    if s.ended then d
    else
      let x := d.ctx c
      let d1 := match status with
        | some st => d.addEntry s.owner.toNat (d.entryOf c 2 st (s.cls = 1))
        | none => d
      let d2 := d1.dropSheet s.cls s.place
      if d2.pollInFlight c then
        (d2.setSubscription c (some { s with ended := true })).updPort x.port fun p =>
          { p with inflight := p.inflight.map fun y => if y.poll && y.ctx = c then { y with orphan := true } else y }
      else d2.setSubscription c none

/-- Removes a subscription that has ended, once its last transaction has (R241). -/
def Dev.reapSub (d : Dev) (c : Nat) : Dev :=
  match d.subscription c with
  | some s => if s.ended && !d.pollInFlight c then d.setSubscription c none else d
  | none => d

/-- The transactions of port n that satisfy p are on the wire no longer: their claims return (R132). -/
def Dev.cutXacts (d : Dev) (n : Nat) (p : Xact → Bool) : Dev :=
  let gone := (d.port n).inflight.filter p
  let d1 := forEach gone (fun y a => a.dropClaim y.cls y.claim) d
  let d2 := d1.updPort n fun x => { x with inflight := x.inflight.filter fun y => !p y }
  forEach gone (fun y a => if y.poll then a.reapSub y.ctx else a) d2

/-! ## The end of a transfer (R203 to R210) -/

/-- The contexts that a request of R208 on context c affects. -/
def Dev.affected (d : Dev) (c : Nat) (st : Setup) : List Nat :=
  let x := d.ctx c
  let same (y : Ctx) : Bool := y.domain = x.domain && y.addr = x.addr && y.cpl = x.cpl && y.ep ≠ 0 &&
    (!x.cpl || y.port = x.port)
  if st.bmRequestType = 0 ∧ st.bRequest = 9 then d.ctxsWhere same
  else if st.bmRequestType = 1 ∧ st.bRequest = 0x0B then
    d.ctxsWhere fun y => same y && y.intf = bits st.wIndex 0 8
  else if st.bmRequestType = 2 ∧ st.bRequest = 1 ∧ st.wValue = 0 then
    d.ctxsWhere fun y => same y && y.ep = bits st.wIndex 0 4 && y.dirIn = bit st.wIndex 7
  else []

/-- Whether a setup packet is one of the requests that fence (R209). -/
def fences (st : Setup) : Bool :=
  (st.bmRequestType = 0 && st.bRequest = 9) || (st.bmRequestType = 1 && st.bRequest = 0x0B) ||
    (st.bmRequestType = 2 && st.bRequest = 1 && st.wValue = 0)

/-- A reset request to an external hub (R208). -/
def resetsHubPort (st : Setup) : Bool :=
  st.bmRequestType = 0x23 && st.bRequest = 3 && (st.wValue = 4 || st.wValue = 28)

/-- SET_ADDRESS (R189). -/
def setsAddress (st : Setup) : Bool := st.bmRequestType = 0 && st.bRequest = 5

/-- Sets or clears the fence of contexts. -/
def Dev.fence (d : Dev) (cs : List Nat) (b : Bool) : Dev :=
  forEach cs (fun c x => x.updCtx c fun y => { y with fenced := b }) d

/-- The payload bytes of a record that were read poisoned, by place (R134): all of them when its L0 says so. -/
def badBytes (r : Rec) (cells : List Cell10) : List Nat :=
  (List.range r.payload.length).filter fun i => r.poison || badCell (cells.getD (i + 4) 0)

/-- The Mill core takes n records off the queue of a context: their payload bytes, the places of those read poisoned, and the
device. -/
def Dev.takeRecords (d : Dev) (q : Nat) : Nat → List Byte × List Nat × Dev
  | 0 => ([], [], d)
  | n + 1 => match d.dequeue rqMill q with
    | none => ([], [], d)
    | some (r, cells, d') =>
      let t := d'.takeRecords q n
      (r.payload ++ t.1, badBytes r cells ++ t.2.1.map (· + r.payload.length), t.2.2)

/-- Records that a transfer still has in its context's queue. -/
def Transfer.records (t : Transfer) (mps : Nat) : Nat :=
  if t.want = 0 then ceilDiv (t.total - t.moved) (max mps 1) else ceilDiv t.moved (max mps 1)

/-- Whether the transfer moves IN data. -/
def Transfer.isIn (t : Transfer) : Bool := t.want ≠ 0

/-- A transfer of a purpose, not yet started. -/
def newTransfer (p : Purpose) (c : Nat) (control : Bool) (st : Setup) (total want timeout : Nat) (zlp : Bool) : Transfer :=
  { purpose := p, ctx := c, control := control, setup := st, total := total, moved := 0, want := want, zlp := zlp,
    stage := 0, started := false, timeout := timeout, deadline := none, notBefore := 0, poisonTries := 0,
    splitOpen := false, claimed := none, held := 0, dropped := 0 }

/-- Default timeout of a transfer (R204). -/
def defaultTimeout (control : Bool) : Nat := if control then 40000 else 80000

/-- Queues CLEAR_TT_BUFFER to the TT hub of context c, ahead of what waits on the hub's endpoint 0 (R218). It is skipped
where that context is not OPEN, or is among those that the same event takes away. -/
def Dev.clearTt (d : Dev) (c : Nat) (gone : List Nat) : Dev :=
  let x := d.ctx c
  match d.ep0 x.domain x.ttHub with
  | some h =>
    if (d.ctx h).state = 1 && !gone.contains h then
      let st : Setup :=
        { bmRequestType := 0x23, bRequest := 8
          wValue := BitVec.ofNat 16 (x.ep + x.addr * 16 + x.type * 2 ^ 11 + b2n x.dirIn * 2 ^ 15)
          wIndex := BitVec.ofNat 16 (if x.ttMulti then x.ttPort else 1), wLength := 0 }
      let t := newTransfer .clearTt h true st 0 0 (defaultTimeout true) false
      let onHub := d.transfers.filter fun u => u.ctx = h && u.started
      let rest := d.transfers.filter fun u => !(u.ctx = h && u.started)
      { d with transfers := onHub ++ [t] ++ rest }
    else d.flag aHostStatus 30
  | none => d.flag aHostStatus 30

/-- Whether a status carries the error layout of CONTROL_XFER (R429). -/
def controlLayout (status : Nat) : Bool :=
  [stStalled, stTimeout, stResetAborted, stPoisoned, stDetached].contains status

/-- The parameters of a transfer's response. -/
def Transfer.reply (t : Transfer) (status : Nat) (inData : List Byte) : List Byte :=
  if t.control then
    if status = stOk then leBytes 2 t.moved ++ zeros 2 ++ inData
    else if controlLayout status then leBytes 2 t.moved ++ [BitVec.ofNat 8 t.stage, 0] else []
  else if status = stOk then leBytes 4 t.moved ++ inData else []

/-- What a context becomes when the fence of a request is lifted with the status of its transfer (R210). -/
def Dev.liftFence (d : Dev) (t : Transfer) (status : Nat) : Dev :=
  if t.control && fences t.setup then
    let cs := d.affected t.ctx t.setup
    let d1 := d.fence cs false
    if status = stOk then
      forEach cs (fun c x => x.updCtx c fun y => { y with state := 1, seq := 0 }) d1
    else if 1 ≤ t.stage && status = stTimeout then
      forEach cs (fun c x => x.updCtx c fun y => { y with state := 3 }) d1
    else d1
  else d

/-- Fences the contexts that the first transfer of context c affects, when it is one of the requests that fence and its
SETUP has not been acknowledged (R209). -/
def Dev.headFence (d : Dev) (c : Nat) : Dev :=
  match d.transfers.find? fun t => t.ctx = c with
  | some t => if t.control && t.stage = 0 && fences t.setup then d.fence (d.affected c t.setup) true else d
  | none => d

/-- A control or OUT transfer of a request holds the claim of its status record (R132). -/
def Transfer.statusClaim (t : Transfer) : Bool :=
  (t.control || t.want = 0) && (match t.purpose with | .request _ => true | .orphan => true | _ => false)

/-- Ends a transfer: it leaves the list with its records and its claimed context; its fence is lifted; its status is
recorded and its response sent; a split it leaves open is cleared (R204, R210, R218). The answer carries the IN data.
`gone` names the contexts that the same event takes away. -/
def Dev.endTransferData (d : Dev) (t : Transfer) (status : Nat) (gone : List Nat := []) : List Byte × Dev :=
  let x := d.ctx t.ctx
  let d0 := { d with transfers := d.transfers.erase t }
  let cls := d0.ctxClass t.ctx
  let got := d0.takeRecords (epQueue t.ctx) (t.records x.mps)
  let inData := if t.isIn then got.1 else []
  let d1 := (got.2.2.dropClaim cls (t.held + b2n t.statusClaim)).dropClaim 0 t.dropped
  let d2 := match t.claimed with
    | some c => if status = stOk then d1 else d1.setCtx c Ctx.reset
    | none => d1
  let d3 := (d2.liftFence t status).updCtx t.ctx fun y =>
    if y.state = 0 then y else { y with lastStatus := status, qslot := (y.qslot + 1) % 128 }
  let d4 := if t.splitOpen && (status = stTimeout || status = stResetAborted) then d3.clearTt t.ctx gone else d3
  let d5 := d4.headFence t.ctx
  (inData, match t.purpose with
    | .request k =>
      let bad := if t.isIn && status = stOk then got.2.1.map (· + 4) else []
      (d5.setReq k fun r => { r with bad := bad }).answer k status (t.reply status inData)
    | _ => d5)

/-- Ends a transfer. -/
def Dev.endTransfer (d : Dev) (t : Transfer) (status : Nat) (gone : List Nat := []) : Dev := (d.endTransferData t status gone).2

/-- Ends every transfer on the contexts of a list, with a status. -/
def Dev.endTransfersOn (d : Dev) (cs : List Nat) (status : Nat) (gone : List Nat := []) : Dev :=
  forEach (d.transfers.filter fun t => cs.contains t.ctx) (fun t x => x.endTransfer t status gone) d

/-- Context c waits to be closed: no new transaction starts on it (R195). -/
def Dev.isClosing (d : Dev) (c : Nat) : Bool :=
  d.requests.any fun r => match r.phase with | .closing cs => cs.contains c | _ => false

/-- Ends the ENDPOINT_CLOSE requests whose contexts are all closed. -/
def Dev.closeDone (d : Dev) : Dev :=
  let ks := d.requests.filterMap fun r => match r.phase with
    | .closing cs => if cs.all fun c => (d.ctx c).state = 0 then some r.name else none
    | _ => none
  d.failAll ks stOk

/-- The queues of contexts are reset, their records counted under a cause (R138, R156), and their transfers end with a
status. -/
def Dev.clearContexts (d : Dev) (cs : List Nat) (cause status : Nat) (gone : List Nat) : Dev :=
  (forEach cs (fun c x => x.flushQueue (epQueue c) cause) d).endTransfersOn cs status gone

/-- Contexts become FREE: transfers end with a status, subscriptions with DETACHED, queues are flushed and counted under FLUSH
(R195, R201). What is in flight on them ends. -/
def Dev.freeContexts (d : Dev) (cs : List Nat) (status : Nat) : Dev :=
  let d0 := forEach (cs.map fun c => (d.ctx c).port).eraseDups (fun n x => x.cutXacts n fun y => cs.contains y.ctx) d
  let d1 := d0.clearContexts cs 3 status cs
  (forEach cs (fun c x => (x.endSubscription c (some status)).setCtx c Ctx.reset) d1).closeDone

/-- A device reset as seen from the host (R212): its records are counted under RESET, endpoint 0 becomes FREE, the others
DEFAULT. -/
def Dev.resetContexts (d : Dev) (cs : List Nat) : Dev :=
  let d1 := d.clearContexts cs 1 stResetAborted (cs.filter fun c => (d.ctx c).ep = 0)
  (forEach cs (fun c x =>
    let y := x.endSubscription c (some stResetAborted)
    if (x.ctx c).ep = 0 then y.setCtx c Ctx.reset
    else y.updCtx c fun z => { z with state := 5, seq := 0, errRun := 0, fenced := false, ping := false }) d1).closeDone

/-- Babble: transfers end with DETACHED, records are counted under FLUSH, contexts become DEFAULT (R202, R214). -/
def Dev.babbleContexts (d : Dev) (cs : List Nat) : Dev :=
  let d1 := d.clearContexts cs 3 stDetached []
  (forEach cs (fun c x => (x.endSubscription c (some stDetached)).updCtx c fun z =>
    { z with state := 5, seq := 0, errRun := 0, fenced := false, ping := false }) d1).closeDone

/-! ## Root port states (R198 to R202) -/

def RootState.code : RootState → Nat
  | .notPresent => 0 | .disconnected => 1 | .debounce => 2 | .connected => 3 | .resetting => 4 | .recovery => 5
  | .enabled => 6 | .suspended => 7 | .error => 8

/-- `PORT_STATUS` of P0 to P31. -/
def Dev.portStatus (d : Dev) (n : Nat) : W32 :=
  let p := d.port n
  at_ p.alloc 29 ||| at_ (if p.alloc = 1 then p.domain else 0) 27 ||| at_ (if p.alloc = 2 then p.hubPort else 0) 19 |||
    at_ p.state.code 12 ||| at_ p.speed 10 ||| at_ (b2n p.ss) 9

/-- PORT_CHANGE (R199, R443). -/
def Dev.portChange (d : Dev) (n : Nat) : Dev :=
  let p := d.port n
  d.notify 0 (some n) 0x8201
    ([BitVec.ofNat 8 n, BitVec.ofNat 8 p.state.code, BitVec.ofNat 8 p.speed,
      BitVec.ofNat 8 (bits (d.reg (aPortEvent n)) 0 6)] ++ d.beatMf ++ zeros 4)

/-- Sets a `PORT_EVENT` bit: 0 PRESENT, 1 CONNECT, 2 DISCONNECT, 3 ENABLED, 4 BABBLE, 5 SS_FALLBACK. -/
def Dev.portEvt (d : Dev) (n b : Nat) : Dev := d.flag (aPortEvent n) b

/-- A port enters a state. -/
def Dev.toState (d : Dev) (n : Nat) (st : RootState) : Dev := d.updPort n fun p => { p with state := st }

/-- The contexts of the devices behind root port n. -/
def Dev.ctxsOf (d : Dev) (n : Nat) : List Nat := d.ctxsWhere fun c => c.port = n

/-- The port leaves link power states and its queue for the binding. -/
def Port.quiet (p : Port) : Port :=
  { p with
    waiting := 0, ssTraining := false, link := 0, lpmRefused := false, lpmSent := false, selSusp := [], selWait := [],
    wakeResume := false, resumeRecovery := false, idleBeats := 0, knownHubs := [] }

/-- Ends requests of the Ports group that wait on port n (R427). -/
def Dev.endPortWaits (d : Dev) (n status : Nat) : Dev :=
  d.failAll ((d.requests.filter fun r => match r.phase with
    | .portReset m _ => m = n
    | .portResume m => m = n
    | _ => false).map Request.name) status

/-- The effects of R201 on root port n: a detach, or R18 that stops holding. -/
def Dev.detachPort (d : Dev) (n : Nat) (st : RootState) : Dev :=
  let cs := d.ctxsOf n
  let d1 := d.freeContexts cs stDetached
  let dom := (d.port n).domain
  let d2 := match d1.binding dom with
    | some b => if b.port = n && d.isEmbedded n then d1.unbind dom else d1
    | none => d1
  let d3 := (d2.cutXacts n fun _ => true).updPort n fun p => { p.quiet with state := st, speed := 0, ss := false }
  ((d3.endPortWaits n stDetached).portEvt n 2).portChange n

/-- Enters RESETTING: on an EMBEDDED port the binding is made for it, or kept (R188, R199). R212 applies to the devices
behind it. -/
def Dev.enterResetting (d : Dev) (n : Nat) : Dev :=
  let dom := (d.port n).domain
  let d1 := (d.cutXacts n fun _ => true).resetContexts (d.ctxsOf n)
  let d2 := if d.isEmbedded n then d1.bind dom (rootBinding n) else d1
  d2.updPort n fun p => { p.quiet with state := .resetting }

/-- Numbers a port that starts to wait for the binding behind those that wait already. -/
def Dev.nextWaiting (d : Dev) : Nat := d.ports.foldl (fun m kv => max m kv.2.waiting) 0 + 1

/-- ERROR: SOF stops; the port waits for PORT_RESET (R199). -/
def Dev.enterError (d : Dev) (n : Nat) : Dev :=
  (d.updPort n fun p => { p.quiet with state := .error }).portChange n

end Sys2Proof.Machine
end

