-- ==== Sys2Proof/Machine/Relay.lean ====
section
/-! DEFINITION. The relay links (R258 to R292): frames, credits, the states of a link, the exchange of epochs and
nonces, going down and resetting. Links 0 to 3 are coupler ports, link 4 is U0's. A frame received over link i waits in
the Vat queue `rxQueue i o v`: o is the link it leaves by, 5 for this chip. -/

namespace Sys2Proof.Machine

/-- The receive queue of link i and service v for frames that leave by link o, or for this chip (o = 5). -/
def rxQueue (i o v : Nat) : Nat := 64 + 24 * i + 4 * o + v

/-- The Vat class of the pool of service v (R282, R287). -/
def poolClass (v : Nat) : Nat := if v = 0 then 0 else 4

/-! ## Frames (R267) -/

def frDst (f : List Byte) : Nat := byteAt f 0 % 64
def frSrc (f : List Byte) : Nat := byteAt f 1 % 64
def frSvc (f : List Byte) : Nat := byteAt f 2 % 4
def frLink (f : List Byte) : Bool := byteAt f 2 / 4 % 2 = 1
def frPoison (f : List Byte) : Bool := byteAt f 3 % 2 = 1
def frHops (f : List Byte) : Nat := byteAt f 3 / 4
def frLen (f : List Byte) : Nat := leAt f 4 2
def frSeq (f : List Byte) : Nat := leAt f 10 2
def frPayload (f : List Byte) : List Byte := f.drop 16

/-- FCRC of a frame: bytes 0 to 11 and the payload. -/
def frCrc (f : List Byte) : Nat := crc32c (f.take 12 ++ frPayload f)

/-- The checks of R268: FCRC, the transfer length and the reserved bits. -/
def frameOk (f : List Byte) : Bool :=
  decide (16 ≤ f.length) && decide (f.length = 16 + frLen f) && decide (frLen f ≤ 4096) &&
    decide (byteAt f 0 < 64) && decide (byteAt f 1 < 64) && decide (byteAt f 2 < 8) && decide (byteAt f 3 / 2 % 2 = 0) &&
    decide (frCrc f = leAt f 12 4)

/-- What a frame costs (R283). -/
def frameCost (len : Nat) : Nat := ceilDiv (len + 20) 128

/-- A link-control frame before its CREDIT, SEQ and FCRC. -/
def controlFrame (payload : List Byte) : List Byte := [0, 0, 4, 0] ++ leBytes 2 payload.length ++ zeros 10 ++ payload

/-! ## The books of a link -/

def Link.svc (l : Link) : Nat → Credit
  | 0 => l.svc0 | 1 => l.svc1 | 2 => l.svc2 | _ => l.svc3

def Link.setSvc (l : Link) (v : Nat) (c : Credit) : Link :=
  match v with
  | 0 => { l with svc0 := c } | 1 => { l with svc1 := c } | 2 => { l with svc2 := c } | _ => { l with svc3 := c }

/-- C of R283. -/
def Credit.avail (c : Credit) : Nat := c.pool - (c.sent - c.ret).toNat

/-- The pool size of service v that the registers set (R282). -/
def Dev.poolSize (d : Dev) (l v : Nat) : Nat :=
  let a := if v < 2 then aPoolA l else aPoolB l
  d.fld a (if v % 2 = 0 then 0 else 16) 11

/-- Updates the books of service v of link l. -/
def Dev.updSvc (d : Dev) (l v : Nat) (f : Credit → Credit) : Dev := d.updLink l fun x => x.setSvc v (f (x.svc v))

/-- Segments that frames received over link i in service v hold. -/
def Dev.poolInUse (d : Dev) (i v : Nat) : Nat :=
  (List.range 6).foldl (fun n o => n + (d.queue (rxQueue i o v)).segs) 0

/-- Releases n segments of the pool of link i and service v: they become claim again and are held for return (R282,
R284). The segments themselves have gone back to their free lists. -/
def Dev.poolReturn (d : Dev) (i v n : Nat) : Dev :=
  (d.addClaim (poolClass v) n).updSvc i v fun c =>
    { c with held := c.held + n, released := c.released + BitVec.ofNat 32 n }

/-- A frame passes through the pool of its service and leaves it at once: what it cost is held for return (R284). -/
def Dev.poolPass (d : Dev) (n : Nat) (f : List Byte) : Dev :=
  let cost := frameCost (frLen f)
  d.updSvc n (frSvc f) fun c => { c with held := c.held + cost, released := c.released + BitVec.ofNat 32 cost }

/-- Links a received frame into a receive queue: each record starts at a new segment (R282), so it takes what the frame
costs, out of the pool's claim. The link's engine writes it. A queue that is being reset refuses it (R157). -/
def Dev.poolStore (d : Dev) (i o v : Nat) (r : Rec) : Dev :=
  let q := rxQueue i o v
  let n := recSegs r.payload.length
  let d1 := d.openQueue q (poolClass v) 3 i (if o < 5 then linkOutput o else 36) 0
  match (d1.dropClaim (poolClass v) n).enqueue (rqHs (linkOutput i)) q r with
  | some d2 => d2
  | none => (d1.broke q 0 1).poolPass i r.payload

/-- Takes the head record off a receive queue for the Couch core, or for the engine of the link it goes out on; its segments are
released to the pool. A record with a cell that fails is
poisoned from here on (R134). -/
def Dev.poolTake (d : Dev) (i o v : Nat) : Option (Rec × Dev) :=
  (d.dequeue (if o < 5 then rqHs (linkOutput o) else rqCouch) (rxQueue i o v)).map fun x =>
    ({ x.1 with poison := poisonIn x.1 x.2.1 }, x.2.2.poolReturn i v (recSegs x.1.payload.length))

/-- The segments that a queue reset of a receive queue has returned become claim of its pool again. -/
def Dev.poolSwept (d : Dev) (i o v : Nat) : Dev :=
  let n := (d.queue (rxQueue i o v)).segs
  (d.sweepQueue (rxQueue i o v)).poolReturn i v n

/-- Flushes a receive queue under FLUSH; its segments return to the pool. The sweep ends within this step (DESIGN CHOICE). -/
def Dev.poolFlush (d : Dev) (i o v : Nat) : Dev := (d.flushQueue (rxQueue i o v) 3).poolSwept i o v

/-! ## Status registers -/

def LinkState.code : LinkState → Nat
  | .down => 0 | .enumerating => 1 | .hello => 2 | .quarantine => 3 | .auth => 4 | .authFailed => 5 | .admitted => 6
  | .enabled => 7 | .resetting => 8 | .foreign => 9

/-- RELAY_EPOCH of the running Couch image (R277). -/
def Dev.couchEpoch (d : Dev) : Nat := match d.boot.couch with | some h => h.relayEpoch.toNat | none => 0

/-- The common epoch of two ends; epoch 0 is never used (R277). -/
def commonEpoch (a b : Nat) : Option Nat :=
  if a = 0 ∨ b = 0 then none else if a ≤ b + 1 ∧ b ≤ a + 1 then some (min a b) else none

/-- Whether the link is in a state from HELLO to ENABLED (R264, R275). -/
def LinkState.lively (s : LinkState) : Bool :=
  s = .hello || s = .quarantine || s = .auth || s = .authFailed || s = .admitted || s = .enabled

def Dev.cplStatus (d : Dev) (n : Nat) : W32 :=
  let l := d.link n
  at_ l.state.code 28 ||| at_ (b2n l.ufp) 27 ||| at_ l.speed 25 ||| at_ (b2n l.noPool) 24 ||| at_ (b2n l.posClash) 23 |||
    at_ (min l.authTries 3) 21 ||| at_ l.epoch.toNat 0

def Dev.cplNbr (d : Dev) (n : Nat) : W32 :=
  let l := d.link n
  at_ (b2n l.nbrPosValid) 31 ||| at_ (l.nbrPos % 64) 24 ||| at_ l.nbrEpoch.toNat 0

def Dev.cplCredit (d : Dev) (n k : Nat) : W32 :=
  let c := (d.link n).svc k
  at_ (c.held % 2048) 16 ||| at_ (c.avail % 2048) 0

/-! ## Changes of state (R275) -/

/-- LINK_CHANGE (R443). -/
def Dev.linkChange (d : Dev) (n : Nat) : Dev :=
  let l := d.link n
  let cause := if l.state = .resetting then l.lastCause else 0
  d.notify 5 none 0x8A01
    ([n, l.state.code, b2n l.ufp + 2 * l.speed, cause, b2n l.nbrPosValid * 128 + l.nbrPos % 64, 0].map (BitVec.ofNat 8) ++
      leBytes 2 l.epoch.toNat ++ leBytes 8 l.nbrUid.toNat)

/-- Link n enters a state: `CPL_EVENT.STATE_CHG` and LINK_CHANGE when it differs. -/
def Dev.linkTo (d : Dev) (n : Nat) (s : LinkState) : Dev :=
  if (d.link n).state = s then d
  else ((d.updLink n fun x => { x with state := s }).flag (aCplEvent n) 0).linkChange n

/-- A LINK-class source of link n; link 4 has none (R291). -/
def Dev.linkSource (d : Dev) (n k : Nat) (ctx : W32 := 0) : Dev := if n < 4 then d.assert (srcLink n k) ctx else d

/-- The route runs over link n (R289). -/
def Dev.routeOver (d : Dev) (n : Nat) : Route → Bool
  | .relay p => d.routeLink p = some n
  | .usb l => l = n
  | _ => false

/-- Ends the subscriptions whose owner's route runs over link n with LINK_LOST (R289 step 5). -/
def Dev.endOver (d : Dev) (n : Nat) : Dev :=
  forEach (d.subscriptions.map Prod.fst) (fun c a =>
    match a.subscription c with
    | some s =>
      (match (a.subr s.owner.toNat).route with
       | some (r, _, _) => if a.routeOver n r then a.endSubscription c (some stLinkLost) else a
       | none => a)
    | none => a) d

/-- Steps 1 to 4 of R289: forwarded requests end with LINK_LOST, queues are flushed, pools and books are cleared. -/
def Dev.linkEnd (d : Dev) (n : Nat) : Dev :=
  let lost := (d.requests.filter fun r => match r.phase with | .forwarded l _ => l = n | _ => false).map Request.name
  let d1 := d.failAll lost stLinkLost
  let d2 := forN 4 (fun v a => a.flushQueue (relayQueue n v) 3) d1
  let d3 := forN 5 (fun i a => forN 4 (fun v b => b.poolFlush i n v) a) d2
  let d4 := forN 6 (fun o a => forN 4 (fun v b => b.poolFlush n o v) a) d3
  let d5 := forN 4 (fun v a => a.dropClaim (poolClass v) ((a.link n).svc v).own) d4
  d5.updLink n fun x =>
    { x with
      svc0 := Credit.reset, svc1 := Credit.reset, svc2 := Credit.reset, svc3 := Credit.reset, poolsClaimed := false
      noPool := false, ctl := [], helloSent := false, helloSeen := false, nonceOwn := none, nonceNbr := none,
      macSent := false, macOk := false, enableSent := false, enableSeen := false, posClash := false, epoch := 0
      graceRuns := x.graceRuns || x.state = .enabled, beatsSince := if x.state = .enabled then 0 else x.beatsSince
      lastUid := if x.state = .enabled then some x.nbrUid else x.lastUid }

/-- The eight contexts of coupler port n (R191). -/
def couplerCtxs (n : Nat) : List Nat := (List.range 8).map (12256 + 8 * n + ·)

/-- DOWN (R289). `CPL_CTRL.ENABLE` is cleared; the attempt count restarts (R292). -/
def Dev.linkDown (d : Dev) (n : Nat) : Dev :=
  if (d.link n).state = .down then d
  else
    let d1 := d.linkEnd n
    let d2 := if n < 4 then d1.freeContexts ((couplerCtxs n).filter fun c => (d1.ctx c).state ≠ 0) stDetached else d1
    let d3 := d2.updLink n fun x =>
      { x with
        authTries := 0, speed := 0, nbrPosValid := false, nbrPos := 0, nbrEpoch := 0, nbrUid := 0, enumStep := 0
        delay := none, t1 := none, found := none, tValid := false, report := [] }
    (d3.setReg (aCplCtrl n) (setBit (d3.reg (aCplCtrl n)) 0 false)).linkTo n .down

/-! ## A frame leaves (R285) -/

/-- Completes a frame for link n: CREDIT from the returns held, SEQ and FCRC; it leaves. -/
def Dev.sendFrame (d : Dev) (n : Nat) (low : Bool) (f : List Byte) : Dev :=
  let l := d.link n
  let credit := (List.range 4).map fun v => min 255 (l.svc v).held
  let seqNo := if low then l.txLow else l.txHigh
  let h := f.take 6 ++ credit.map (BitVec.ofNat 8) ++ leBytes 2 seqNo.toNat
  let whole := h ++ leBytes 4 (crc32c (h ++ frPayload f)) ++ frPayload f
  let l1 := (List.range 4).foldl (fun (x : Link) v =>
    let c := x.svc v
    x.setSvc v { c with held := c.held - credit.getD v 0 }) l
  let l2 := if low then { l1 with txLow := l1.txLow + 1, lastTx := whole } else { l1 with txHigh := l1.txHigh + 1, lastTx := whole }
  ((d.setLink n l2).count (selector 0x24 1 n)).sendUnit (linkOutput n) whole false

/-! ## Allowance, pools and HELLO (R270, R282) -/

/-- Claims the link-control allowance. -/
def Dev.claimAllowance (d : Dev) (n : Nat) : Dev :=
  if (d.link n).allowance then d
  else match d.takeClaim 0 4 with
    | some d1 => d1.updLink n fun x => { x with allowance := true, noPool := false }
    | none => d.updLink n fun x => { x with noPool := true }

/-- Returns the allowance. -/
def Dev.dropAllowance (d : Dev) (n : Nat) : Dev :=
  if (d.link n).allowance then (d.dropClaim 0 4).updLink n fun x => { x with allowance := false } else d

/-- Whether the device lets a link leave DOWN: not in Limp or PARTIAL, and the Couch runs (R274). -/
def Dev.couchRuns (d : Dev) : Bool := d.isReady 9 && !d.limp && d.boot.state ≠ .partialState

/-- DOWN to ENUMERATING, when R18 holds on the port and the allowance is claimed. -/
def Dev.linkStart (d : Dev) (n : Nat) (ufp : Bool) : Dev :=
  if (d.link n).state = .down && (d.link n).allowance && d.couchRuns then
    (d.updLink n fun x => { x with ufp := ufp, enumStep := 0, enumAt := d.now }).linkTo n .enumerating
  else d

/-- Queues a link-control frame. -/
def Dev.control (d : Dev) (n : Nat) (payload : List Byte) : Dev :=
  d.updLink n fun x => { x with ctl := x.ctl ++ [controlFrame payload] }

/-- The HELLO frame's payload (R271). -/
def Dev.helloPayload (d : Dev) (n : Nat) : List Byte :=
  [1, 0] ++ leBytes 2 d.couchEpoch ++
    [BitVec.ofNat 8 (if d.posValid then 128 + d.position else 0), 0] ++ leBytes 2 ((d.link n).svc 0).own ++
    leBytes 8 Config.chipUid.toNat

def Dev.sendHello (d : Dev) (n : Nat) : Dev :=
  (d.control n (d.helloPayload n)).updLink n fun x => { x with helloSent := true, helloAt := d.now }

/-- Entry to HELLO: the SV0 pool is claimed and HELLO is sent; a failed claim leaves the state with NO_POOL set. -/
def Dev.enterHello (d : Dev) (n : Nat) : Dev :=
  let p := d.poolSize n 0
  match d.takeClaim 0 p with
  | none => d.updLink n fun x => { x with noPool := true }
  | some d1 =>
    let d2 := d1.updLink n fun x =>
      { x with
        noPool := false, svc0 := { Credit.reset with own := p }, txHigh := 0, txLow := 0, rxHigh := 0, rxLow := 0
        helloSeen := false, nbrEpoch := 0, nbrPosValid := false, nbrPos := 0, nbrUid := 0 }
    (d2.sendHello n).linkTo n .hello

/-- A relay link reset (R290), with its cause. RESET leaves at once, under the old numbering, unless the neighbour's RESET
was the cause; the link restarts at HELLO within this step when the pool can be claimed. -/
def Dev.relayReset (d : Dev) (n cause : Nat) : Dev :=
  if (d.link n).state.lively || (d.link n).state = .resetting then
    let d1 := (d.linkEnd n).updLink n fun x => { x with lastCause := cause }
    let d2 := (d1.count (selector 0x24 7 n)).linkTo n .resetting
    let d3 := if cause = 6 then d2 else d2.sendFrame n false (controlFrame [6, BitVec.ofNat 8 cause])
    d3.enterHello n
  else d

/-! ## Authentication (R279, R280) -/

/-- The MAC of one end over the exchange: 51 bytes. -/
def macOf (key : Key) (role : Byte) (nd nu : Key) (dfpUid ufpUid : BitVec 64) (epoch : Nat) : List Byte :=
  cmac key ([role] ++ leBytes 16 nd.toNat ++ leBytes 16 nu.toNat ++ leBytes 8 dfpUid.toNat ++ leBytes 8 ufpUid.toNat ++
    leBytes 2 epoch)

/-- The MAC that the exchange of link n has for a role, under the key named; none when the key is empty. -/
def Dev.linkMac (d : Dev) (n : Nat) (ufpRole : Bool) : Option (List Byte) :=
  let l := d.link n
  match d.couchKey l.keyId, l.nonceOwn, l.nonceNbr with
  | some k, some a, some b =>
    some (macOf k (if ufpRole then 0x55 else 0x44) (if l.ufp then b else a) (if l.ufp then a else b)
      (if l.ufp then l.nbrUid else Config.chipUid) (if l.ufp then Config.chipUid else l.nbrUid) l.epoch.toNat)
  | _, _, _ => none

/-- Takes a new nonce from the main die's random source. -/
def Dev.newNonce (d : Dev) : Key × Dev := (Config.nonce d.nonceCtr, { d with nonceCtr := d.nonceCtr + 1 })

/-- Sends CHAL with a new nonce. -/
def Dev.sendChal (d : Dev) (n : Nat) : Dev :=
  let r := d.newNonce
  let l := d.link n
  (r.2.control n ([2, BitVec.ofNat 8 l.keyId] ++ leBytes 2 l.epoch.toNat ++ leBytes 16 r.1.toNat)).updLink n fun x =>
    { x with nonceOwn := some r.1 }

/-- Sends RESP with a MAC. -/
def Dev.sendResp (d : Dev) (n : Nat) (mac : List Byte) : Dev :=
  (d.control n ([3, 0, 0, 0] ++ mac)).updLink n fun x => { x with macSent := true }

/-- AUTH: a new attempt. The DFP sends CHAL with the key that `CHAIN_CFG.KEY_ID` names (R278). -/
def Dev.enterAuth (d : Dev) (n : Nat) : Dev :=
  let d1 := (d.updLink n fun x =>
    { x with
      authAt := d.now, nonceOwn := none, nonceNbr := none, macSent := false, macOk := false
      keyId := if x.ufp then x.keyId else d.fld aChainCfg 8 1 }).linkTo n .auth
  if (d1.link n).ufp then d1 else d1.sendChal n

/-- A failed attempt (R280): RESET, AUTH_FAILED and the fault source. The CAUSE of that RESET is open. -/
def Dev.authFail (d : Dev) (n : Nat) : Dev :=
  let w := d.freeWord
  let d1 := (w.2.sendFrame n false (controlFrame [6, BitVec.ofNat 8 w.1.toNat])).updLink n fun x =>
    { x with authTries := min 3 (x.authTries + 1), authAt := d.now, txHigh := 0, txLow := 0, rxHigh := 0, rxLow := 0 }
  ((d1.flag (aCplEvent n) 2).linkTo n .authFailed).linkSource n 2

/-- A further attempt from AUTH_FAILED; HELLO goes first, for an end that the RESET has taken back to HELLO. -/
def Dev.authAgain (d : Dev) (n : Nat) : Dev := (d.sendHello n).enterAuth n

/-- ADMITTED: a different neighbour ends the old subscriptions at once (R289). -/
def Dev.enterAdmitted (d : Dev) (n : Nat) : Dev :=
  let l := d.link n
  let d1 := if l.graceRuns && l.lastUid ≠ some l.nbrUid then
      (d.endOver n).updLink n fun x => { x with graceRuns := false }
    else d
  d1.linkTo n .admitted

/-- ENABLED, once each end has both sent and received ENABLE. The same neighbour's return keeps the subscriptions. -/
def Dev.enterEnabled (d : Dev) (n : Nat) : Dev :=
  let l := d.link n
  if l.state = .admitted && l.enableSent && l.enableSeen then
    (d.updLink n fun x => { x with lastUid := some x.nbrUid, graceRuns := false, beatsSince := 0 }).linkTo n .enabled
  else d

/-- Whether one of the three enable conditions of R281 holds. -/
def Dev.mayEnable (d : Dev) (n : Nat) : Bool :=
  let l := d.link n
  d.fldBit (aCplCtrl n) 0 || d.fldBit (aCplCfg n) 0 ||
    (l.lastUid = some l.nbrUid && decide (l.beatsSince < d.fld aChainCfg 0 8))

/-- Claims the pools of SV1 to SV3 in class SV4, all or none. -/
def Dev.claimPools (d : Dev) (n : Nat) : Dev :=
  if (d.link n).poolsClaimed then d
  else
    let p (v : Nat) := d.poolSize n v
    match d.takeClaim 4 (p 1 + p 2 + p 3) with
    | none => d.updLink n fun x => { x with noPool := true }
    | some d1 => d1.updLink n fun x =>
        { x with
          noPool := false, poolsClaimed := true, svc1 := { x.svc1 with own := p 1 }
          svc2 := { x.svc2 with own := p 2 }, svc3 := { x.svc3 with own := p 3 } }

/-- An end in ADMITTED sends ENABLE when R281 lets it. -/
def Dev.trySendEnable (d : Dev) (n : Nat) : Dev :=
  let l := d.link n
  if l.state = .admitted && !l.enableSent && !l.posClash && d.posValid && d.mayEnable n then
    let d1 := d.claimPools n
    let x := d1.link n
    if x.poolsClaimed then
      ((d1.control n ([4, 0] ++ leBytes 2 x.svc1.own ++ leBytes 2 x.svc2.own ++ leBytes 2 x.svc3.own)).updLink n
        fun y => { y with enableSent := true }).enterEnabled n
    else d1
  else d

/-! ## Returns without a frame (R285) -/

/-- Returns still held with no frame queued to carry them go out in a CREDIT frame (R285). -/
def Dev.creditReturn (d : Dev) (n : Nat) : Dev :=
  let l := d.link n
  let waits := (List.range 4).any fun v => 0 < (l.svc v).held
  let queued := !l.ctl.isEmpty || (List.range 4).any fun v =>
    0 < (d.queue (relayQueue n v)).stamps.length ||
      (List.range 5).any fun i => 0 < (d.queue (rxQueue i n v)).stamps.length
  if l.state.lively && waits && !queued then d.sendFrame n false (controlFrame [7]) else d

/-! ## Receiving a frame (R268, R269, R285) -/

/-- Whether a frame passes the checks that every frame meets; a failure counts, raises its source and starts a relay link
reset. On success SEQ advances and the returns it carries are added to RET. -/
def Dev.rxFrame (d : Dev) (n : Nat) (low : Bool) (f : List Byte) : Bool × Dev :=
  let l := d.link n
  if !frameOk f then
    (false, (((d.count (selector 0x24 3 n)).flag (aCplEvent n) 3).linkSource n 0).relayReset n 1)
  else if frSeq f ≠ (if low then l.rxLow else l.rxHigh).toNat then
    (false, (((d.count (selector 0x24 4 n)).flag (aCplEvent n) 4).linkSource n 1).relayReset n 2)
  else
    let d1 := (d.count (selector 0x24 2 n)).updLink n fun x =>
      if low then { x with rxLow := x.rxLow + 1 } else { x with rxHigh := x.rxHigh + 1 }
    (true, forN 4 (fun v a => a.updSvc n v fun c => { c with ret := c.ret + BitVec.ofNat 32 (byteAt f (6 + v)) }) d1)

/-- A link-control frame of the kind expected, received on a link that carries them. -/
def Dev.rxControl (d : Dev) (n : Nat) (f : List Byte) (kind : Nat) (act : Dev → Dev) : Dev :=
  if (d.link n).state.lively || (d.link n).state = .resetting then
    let r := d.rxFrame n false f
    if r.1 && frLink f && byteAt (frPayload f) 0 = kind then act r.2 else r.2
  else d

/-- The check of R286 on one service, with the neighbour's REL total: the new books, whether it failed, whether it
resynchronised. -/
def Credit.check (c : Credit) (rel : BitVec 32) : Credit × Bool × Bool :=
  let bad := decide (c.pool < (c.sent - rel).toNat)
  let lost := match c.lastRel with
    | some r => decide (r ≠ c.ret ∧ (r - c.ret).toNat < 2 ^ 31)
    | none => false
  ({ c with ret := if lost then c.lastRel.getD c.ret else c.ret, lastRel := some rel }, bad, lost)

/-- The credit check on all four services (R286). -/
def Dev.creditCheck (d : Dev) (n : Nat) (rels : List Nat) : Dev :=
  let r := (List.range 4).foldl (fun (acc : Dev × Bool) v =>
    let x := (((acc.1.link n).svc v).check (BitVec.ofNat 32 (rels.getD v 0)))
    let d1 := acc.1.updSvc n v fun _ => x.1
    let d2 := if x.2.2 then (d1.count (selector 0x24 6 n)).flag (aCplEvent n) 6 else d1
    (d2, acc.2 || x.2.1)) (d, false)
  if r.2 then (((r.1.flag (aCplEvent n) 5).linkSource n 3).relayReset n 3) else r.1

/-! ## What a link carries (R276) -/

/-- Whether link n carries a service frame of a packet with this opcode in this service. -/
def Dev.carries (d : Dev) (n svc opcode : Nat) : Bool :=
  match (d.link n).state with
  | .enabled => true
  | .hello | .quarantine | .auth | .authFailed | .admitted => svc = 0 && opcode = 1
  | _ => false

/-- The status that R112 and R276 give a packet routed onto link n; none when it is forwarded. -/
def Dev.carryStatus (d : Dev) (n opcode : Nat) : Option Nat :=
  if d.carries n 0 opcode then none
  else if (d.link n).state.lively then some stQuarantine
  else some stLinkLost

/-- Counts a frame in `RELAY_NOROUTE`. -/
def Dev.noRoute (d : Dev) (n : Nat) : Dev := d.count (selector 0x24 5 n)

/-- A frame in transit: queued on the link of its destination with HOPS raised by 1, or discarded (R266). -/
def Dev.transit (d : Dev) (n : Nat) (f : List Byte) : Dev :=
  match d.routeLink (frDst f) with
  | none => (d.noRoute n).poolPass n f
  | some o =>
    if o = n || 5 ≤ o || !d.carries o (frSvc f) (pkOpcode (frPayload f)) || frHops f = 63 then
      (d.noRoute n).poolPass n f
    else d.poolStore n o (frSvc f) ⟨3, frPoison f, true, 0,
      f.take 3 ++ [BitVec.ofNat 8 ((frHops f + 1) * 4 + b2n (frPoison f))] ++ f.drop 4⟩

end Sys2Proof.Machine
end

