-- ==== Sys2Proof/Machine/Deckle.lean ====
section
/-! DEFINITION. The Deckle (R158 to R183): positions, sources, the slew law, the lock states, the beat number, and its
registers. Times are HS bit times of the Deckle's own clock. -/

namespace Sys2Proof.Machine

/-- `v` clamped to −m to m. -/
def clampI (m v : Int) : Int := max (-m) (min m v)

/-- Updates the Deckle. -/
def Dev.updDk (d : Dev) (f : Deckle → Deckle) : Dev := { d with deckle := f d.deckle }

/-! ## Sources (R163, R166, R167) -/

/-- `DK_CFG.SRC` and `SRC_PORT`. -/
def Dev.dkSrc (d : Dev) : Nat := d.fld aDkCfg 0 3
def Dev.dkPort (d : Dev) : Nat := d.fld aDkCfg 4 2

/-- The COUPLER source's neighbour reports 63 hops. -/
def Dev.dkLoop (d : Dev) : Bool := d.dkSrc = 4 && d.deckle.neighbourHops = 63

/-- The hop count that this chip sends. -/
def Dev.dkHops (d : Dev) : Nat := if d.dkSrc = 4 then min 63 (d.deckle.neighbourHops + 1) else 0

/-- The ordinary clock of the PTP source named. -/
def Dev.ptp (d : Dev) (e : Nat) : PtpClock := if e = 0 then d.deckle.ptp0 else d.deckle.ptp1

/-- No beat message has come from the COUPLER source's neighbour in the last 2 beats. -/
def Dev.noBeatMsg (d : Dev) : Bool :=
  match d.deckle.beatMsgAt with
  | some t => decide (t + 2 * d.beatLen ≤ d.now)
  | none => true

/-- The selected source is absent: each of its edges is missing. -/
def Dev.srcAbsent (d : Dev) : Bool :=
  let n := d.dkPort
  match d.dkSrc with
  | 1 => d.deckle.lastEdge.isNone || d.deckle.misses ≠ 0
  | 2 => !d.isReady 8 || !(d.eth 0).linkUp || !(d.ptp 0).valid
  | 3 => !d.isReady 8 || !(d.eth 1).linkUp || !(d.ptp 1).valid
  | 4 =>
    !d.isCoupler n || d.boot.state = .partialState || (d.link n).state = .down || (d.port n).state = .suspended ||
      (d.func n).suspended || d.noBeatMsg || d.dkLoop
  | 5 => d.u0.speed = 0 || d.u0.suspended
  | _ => false

/-- Whether the source selected carries a beat number. -/
def Dev.srcNumbered (d : Dev) : Bool := d.dkSrc = 2 || d.dkSrc = 3 || d.dkSrc = 4

/-! ## Positions (R160, R161) -/

/-- Length of the beat in progress. -/
def Dev.beatBits (d : Dev) : Int := 60000 * (d.beatLen : Int) + d.deckle.planQ * d.beatLen + d.deckle.planR

/-- The SOF count. -/
def Dev.sofCount (d : Dev) : Nat := (d.gPos + d.deckle.fnOffset) % 16384

/-- Gives the beat in progress another number; FN_OFFSET keeps the SOF count (R161, R174). -/
def Dev.renumber (d : Dev) (n : BeatNo) : Dev :=
  let sof := d.sofCount
  let d1 := d.updDk fun x => { x with beat := n }
  d1.updDk fun x => { x with fnOffset := (sof + 16384 - d1.gPos % 16384) % 16384 }

/-! ## Lock states -/

/-- Codes of `DK_STATUS.STATE`. -/
def DkState.code : DkState → Nat
  | .free => 0 | .qualifying => 1 | .walking => 1 | .locked => 2 | .coast => 3

/-- DECKLE_EVENT (R443). -/
def Dev.deckleEvent (d : Dev) (event : Nat) (old new : BeatNo) : Dev :=
  d.notify 6 none 0x8001
    ([BitVec.ofNat 8 event, BitVec.ofNat 8 d.deckle.state.code, 0, 0] ++ leBytes 6 old.toNat ++ leBytes 6 new.toNat)

/-- Enters a lock state; a change of the state shown is notified. -/
def Dev.toDk (d : Dev) (s : DkState) : Dev :=
  let d1 := d.updDk fun x => { x with state := s }
  if d.deckle.state.code = s.code then d1
  else d1.deckleEvent (match s with | .locked => 1 | .coast => 2 | _ => 3) d.deckle.beat d.deckle.beat

/-- Selects the source that `DK_CFG` names: FREE, or ACQUIRE qualifying with F held (R169). What a neighbour on another port
has told does not count for it (R166, R167). -/
def Dev.selectSource (d : Dev) : Dev :=
  let d1 := d.updDk fun x =>
    { x with
      misses := 0, run := [], lastEdge := none, closeRun := 0, qualified := false, linkDelay := none, beatMsgAt := none
      neighbourHops := 0, neighbourBeat := none, adopt := none }
  if d.dkSrc = 0 then (d1.updDk fun x => { x with f := 0 }).toDk .free else d1.toDk .qualifying

/-- COAST (R169). -/
def Dev.enterCoast (d : Dev) : Dev :=
  (((d.updDk fun x => { x with qualified := false, run := [], closeRun := 0 }).flag aDkStatus 26).toDk .coast).assert
    srcBeatLost 0

/-! ## The slew law (R171) -/

/-- The plan of the next beat: q, r and whether it was clamped. -/
def Dev.plan (d : Dev) : Int × Nat × Bool :=
  let k := d.deckle
  let bl : Int := d.beatLen
  let raw : Int := match k.state with
    | .free => 0
    | .coast => k.f
    | .qualifying => k.f
    | _ => k.f + k.lastE / 4
  let x := match k.state with
    | .walking => clampI (28 * bl) raw
    | .locked => clampI (28 * bl) raw
    | _ => raw
  (x / bl, (x % bl).toNat, x ≠ raw)

/-- The phase error of an edge at bit time t, and which beat start it matches: 0 the beat in progress, 1 the next, −1
the one before. -/
def Dev.phase (d : Dev) (t : Nat) : Int × Int :=
  let k := d.deckle
  let half : Int := 30000 * d.beatLen
  let e0 : Int := (t : Int) - k.beatStart
  let prev : Int := (k.beatStart : Int) - k.prevBeatStart
  let r : Int × Int :=
    if d.beatBits ≤ 2 * e0 then (e0 - d.beatBits, 1)
    else if 2 * e0 < -prev then (e0 + prev, -1)
    else (e0, 0)
  ((r.1 + half) % (2 * half) - half, r.2)

/-- `on_edge`: e is recorded and F follows while |e| ≤ 4,096 and the source is not being qualified. -/
def Dev.onEdge (d : Dev) (t : Nat) : Dev :=
  let e := (d.phase t).1
  d.updDk fun x =>
    { x with
      lastE := e, misses := 0, lastEdge := some t
      f := if -4096 ≤ e ∧ e ≤ 4096 ∧ (x.state = .walking ∨ x.state = .locked) then
          clampI (24 * d.beatLen) (x.f + e / 16)
        else x.f }

/-- Entry to LOCKED: a source that carries a number gives it to the local beat matched, which is `off` beats after the one in
progress. An adoption numbers a whole beat, so the count goes over at the beat that starts next (R174). -/
def Dev.enterLocked (d : Dev) (number : Option BeatNo) (off : Int) : Dev :=
  let d1 := d.toDk .locked
  match number with
  | some n =>
    if d.srcNumbered then d1.updDk fun x => { x with adopt := some (BitVec.ofInt 48 ((n.toNat : Int) + 1 - off)) } else d1
  | none => d1

/-- The beat that has just started takes the number that an adoption gives it (R174). -/
def Dev.takeAdopted (d : Dev) : Dev :=
  match d.deckle.adopt with
  | some n =>
    let d1 := d.updDk fun x => { x with adopt := none }
    if n = d.deckle.beat then d1 else ((d1.renumber n).flag aDkStatus 25).deckleEvent 0 d.deckle.beat n
  | none => d

/-- An edge while the source is being qualified, in ACQUIRE or COAST (R170). -/
def Dev.qualifyEdge (d : Dev) (t : Nat) : Dev :=
  let k := d.deckle
  let nom : Int := 60000 * d.beatLen
  let tol : Int := 24 * d.beatLen
  let good := match k.run with
    | l :: _ => decide (k.misses = 0) && decide (-tol ≤ (t : Int) - l - nom) && decide ((t : Int) - l - nom ≤ tol)
    | [] => false
  let run := if good then t :: k.run else [t]
  let d1 := (d.onEdge t).updDk fun x => { x with run := run }
  match run with
  | [a, _, _, b] =>
    (d1.updDk fun x =>
      { x with
        run := [], closeRun := 0, qualified := true
        f := clampI tol (Int.tdiv ((a : Int) - b - 3 * nom) 3) }).toDk .walking
  | _ => d1

/-- The moment at which the next edge is predicted (R165): a further period for each edge missing. -/
def Dev.predicted (d : Dev) : Option Int :=
  d.deckle.lastEdge.map fun l => (l : Int) + (d.deckle.misses + 1) * (60000 * d.beatLen + d.deckle.f)

/-- An edge once the source has qualified: the first within ±15,000 bit times of the prediction is accepted. -/
def Dev.walkEdge (d : Dev) (t : Nat) (number : Option BeatNo) : Dev :=
  match d.predicted with
  | none => d
  | some p =>
    if -15000 ≤ (t : Int) - p ∧ (t : Int) - p ≤ 15000 then
      let ph := d.phase t
      let e := ph.1
      let d1 := d.onEdge t
      if d.deckle.state = .locked then
        (if -4096 ≤ e ∧ e ≤ 4096 then d1 else (d1.updDk fun x => { x with closeRun := 0 }).toDk .walking)
      else
        let n := if -32 ≤ e ∧ e ≤ 32 then d.deckle.closeRun + 1 else 0
        let d2 := d1.updDk fun x => { x with closeRun := n }
        if 4 ≤ n then d2.enterLocked number ph.2 else d2
    else d

/-- An edge of the selected source. Edges of an absent source are missing; with FREE there is no edge. -/
def Dev.edge (d : Dev) (t : Nat) (number : Option BeatNo) : Dev :=
  if !d.deckle.running || d.dkSrc = 0 || (d.dkSrc ≠ 1 && d.srcAbsent) then d
  else match d.deckle.state with
    | .free => d
    | .qualifying => d.qualifyEdge t
    | .coast => d.qualifyEdge t
    | _ => d.walkEdge t number

/-- A missing edge (R169, R170). -/
def Dev.missEdge (d : Dev) : Dev :=
  if !d.deckle.running || d.dkSrc = 0 then d
  else
    let m := min 2 (d.deckle.misses + 1)
    let d1 := d.updDk fun x => { x with misses := m }
    match d.deckle.state with
    | .free => d
    | .qualifying => d1.updDk fun x => { x with run := [] }
    | .coast => d1.updDk fun x => { x with run := [] }
    | _ => if m = 2 then d1.enterCoast else d1

/-! ## The grid (R159) -/

/-- The next microframe starts; at the end of a beat the next beat starts under its plan. -/
def Dev.advanceMf (d : Dev) : Dev :=
  let k := d.deckle
  let start := k.mfStart + d.mfLen
  if k.mf + 1 < d.beatLen then
    d.updDk fun x =>
      { x with mf := x.mf + 1, slot := 0, strobed := false, mfCount := x.mfCount + 1, mfStart := start }
  else
    d.updDk fun x =>
      { x with
        mf := 0, slot := 0, strobed := false, mfCount := x.mfCount + 1, mfStart := start
        prevBeatStart := x.beatStart, beatStart := start, beat := x.beat + 1, planQ := x.nextQ, planR := x.nextR
        planClamped := x.nextClamped, beatEnded := false }

/-- The next slot strobe: slot 0 first, then each slot in turn. -/
def Dev.advanceSlot (d : Dev) : Option Dev :=
  let k := d.deckle
  if !k.running then none
  else if !k.strobed then some (d.updDk fun x => { x with strobed := true })
  else if k.slot < 7 then some (d.updDk fun x => { x with slot := x.slot + 1 })
  else none

/-- Whether this moment is the start of a microframe, or of a beat: slot 0 has not been strobed. -/
def Dev.atMf (d : Dev) : Bool := d.deckle.running && d.deckle.slot = 0 && !d.deckle.strobed
def Dev.atBeat (d : Dev) : Bool := d.atMf && d.deckle.mf = 0

/-- The Deckle starts with the registers in force: FREE, or ACQUIRE qualifying (R60, R182). -/
def Dev.startDeckle (d : Dev) (beat : BeatNo) : Dev :=
  d.updDk fun x =>
    { Deckle.reset with
      running := true, mfCount := x.mfCount, beat := beat
      state := if d.dkSrc = 0 then .free else .qualifying }

/-! ## Registers -/

def Dev.dkStatus (d : Dev) : W32 :=
  let k := d.deckle
  at_ k.state.code 30 ||| at_ (b2n k.qualified) 29 ||| at_ (b2n d.srcAbsent) 28 ||| at_ (b2n d.dkLoop) 27 |||
    (d.reg aDkStatus &&& 0x06000000) ||| at_ (b2n k.planClamped) 24 ||| at_ k.misses 22 ||| at_ d.dkHops 8

def Dev.dkPos (d : Dev) : W32 :=
  at_ (d.deckle.beat.toNat % 65536) 16 ||| at_ (d.deckle.mf % 8192) 3 ||| at_ d.deckle.slot 0

def Dev.dkPhaseErr (d : Dev) : W32 := BitVec.ofInt 32 d.deckle.lastE
def Dev.dkRate (d : Dev) : W32 := at_ (twos 20 d.deckle.f) 0
def Dev.dkPlan (d : Dev) : W32 := at_ (twos 6 d.deckle.planQ) 16 ||| at_ (d.deckle.planR % 8192) 0
def Dev.dkLink (d : Dev) : W32 :=
  match d.deckle.linkDelay with
  | some x => at_ 1 31 ||| at_ (x % 65536) 0
  | none => 0

/-- `DK_TIME` (R407); the offset within the slot in progress is open. -/
def Dev.dkTime (d : Dev) : List W32 × Dev :=
  let o := d.offsetNow
  let k := d.deckle
  ([BitVec.ofNat 32 k.beat.toNat, at_ k.mf 16 ||| at_ (k.beat.toNat / 2 ^ 32) 0, at_ o.1 0, at_ k.slot 0], o.2)

end Sys2Proof.Machine
end

