-- ==== Sys2Proof/Machine/Power.lean ====
section
/-! DEFINITION. Link power on the ports (R293 to R305) and the device power states with the core rail (R306 to R316):
conditions, transitions and registers. -/

namespace Sys2Proof.Machine

/-- Updates the power record. -/
def Dev.updPower (d : Dev) (f : Power → Power) : Dev := { d with power := f d.power }

/-! ## Ports -/

/-- `PORT_PWR`. -/
def Dev.portPwr (d : Dev) (n : Nat) : W32 :=
  let p := d.port n
  at_ (min p.link 5) 29 ||| at_ (b2n p.lpmRefused) 28 ||| at_ (min 127 p.selSusp.length) 16 ||| (d.reg (aPortPwr n) &&& 3)

/-- Context c is the interrupt IN endpoint of a known hub (R298). -/
def Dev.isHubInt (d : Dev) (c : Nat) : Bool :=
  let x := d.ctx c
  x.type = 3 && x.dirIn && (d.port x.port).knownHubs.contains x.addr

/-- A subscription that keeps the devices behind port n from being idle. -/
def Dev.subsBehind (d : Dev) (n : Nat) (p : Ctx → Bool) : Bool :=
  d.subscriptions.any fun kv =>
    let x := d.ctx kv.1
    (match kv.2 with | some s => !s.ended | none => false) && x.port = n && p x && !d.isHubInt kv.1

/-- A transfer queued or in progress for a device behind port n. -/
def Dev.workBehind (d : Dev) (n : Nat) (p : Ctx → Bool) : Bool :=
  d.transfers.any fun t => (d.ctx t.ctx).port = n && p (d.ctx t.ctx)

/-- The domain's address-0 binding names port n. -/
def Dev.boundTo (d : Dev) (n : Nat) : Bool :=
  match d.binding (d.port n).domain with
  | some b => b.port = n
  | none => false

/-- The conditions that one beat must meet for R298. -/
def Dev.idleBeat (d : Dev) (n : Nat) : Bool :=
  (d.port n).state = .enabled && !(d.port n).busyBeat && !d.workBehind n (fun _ => true) && !d.boundTo n &&
    !d.subsBehind n fun _ => true

/-- SUSPENDED (R298): the port leaves L1 first when it is there. -/
def Dev.suspendPort (d : Dev) (n : Nat) : Dev :=
  (d.cutXacts n fun _ => true).updPort n fun p => { p with state := .suspended, link := 4, lpmSent := false, idleBeats := 0 }

/-- Driving resume on a suspended port (R299). -/
def Dev.resumePort (d : Dev) (n : Nat) (wake : Bool) : Dev :=
  if (d.port n).state = .suspended && (d.port n).link = 4 then
    d.updPort n fun p => { p with link := 5, wakeResume := wake }
  else d

/-- REMOTE_WAKE (R303, R316, R443). -/
def Dev.remoteWakeSent (d : Dev) (n hub hubPort : Nat) (merged : Bool) : Dev :=
  (d.count (selector 0x25 2 n)).notify 1 (some n) 0x8502
    ([n, hub, hubPort, b2n merged].map (BitVec.ofNat 8) ++ zeros 4)

/-- Lx of R294: T_BESL in whole microframes, plus 1. -/
def besl (v : Nat) : Nat := [125, 150, 200, 300, 400, 500, 1000, 2000, 3000, 4000, 5000, 6000, 7000, 8000, 9000, 10000].getD v 10000
def Dev.lx (d : Dev) (n : Nat) : Nat := ceilDiv (besl (d.fld (aPortLpm n) 24 4)) 125 + 1

/-- SET_FEATURE and CLEAR_FEATURE(PORT_SUSPEND), GET_STATUS of hub port p (R300 to R302). -/
def hubPortRequest (reqType req val p len : Nat) : Setup :=
  { bmRequestType := BitVec.ofNat 8 reqType, bRequest := BitVec.ofNat 8 req, wValue := BitVec.ofNat 16 val,
    wIndex := BitVec.ofNat 16 p, wLength := BitVec.ofNat 16 len }

/-- Queues a request of the device's own on the endpoint 0 context of hub H, ahead of the transfers that wait there and
behind the one in progress. -/
def Dev.hubRequest (d : Dev) (c : Nat) (why : Purpose) (st : Setup) : Dev :=
  let t := newTransfer why c true st 0 st.wLength.toNat (defaultTimeout true) false
  let front := d.transfers.filter fun u => u.ctx = c && u.started
  let back := d.transfers.filter fun u => !(u.ctx = c && u.started)
  { d with transfers := front ++ [t] ++ back }

/-! ## Conditions of DOZE and HIBERNATE (R309, R311) -/

/-- Any Vat queue holds a record. -/
def Dev.queuesHold (d : Dev) : Bool := d.vat.queues.any fun kq => !kq.2.stamps.isEmpty

/-- The USB link of coupler port n is suspended. -/
def Dev.couplerSuspended (d : Dev) (n : Nat) : Bool := (d.port n).state = .suspended || (d.func n).suspended

/-- The BLOCK bits of `PWR_STATUS`, bits 12 to 0; bit 10 and bit 11 bear on HIBERNATE only. -/
def Dev.powerBlock (d : Dev) : Nat :=
  let subs := d.subscriptions.any fun kv => kv.2.isSome
  let ports := (List.range 32).any fun n =>
    d.isEmbedded n && (d.port n).state ≠ .suspended && (d.port n).state ≠ .disconnected && (d.port n).state ≠ .notPresent
  let u0 := d.u0.vbus && !d.u0.suspended
  let coupler := (List.range 4).any fun n => d.isCoupler n && (d.link n).state ≠ .down && !d.couplerSuspended n
  let work := !d.requests.isEmpty || d.queuesHold || d.power.reqInBeat || !d.spi.rsp.isEmpty
  let ptp := d.dkSrc = 2 || d.dkSrc = 3
  let fw := d.quire.busy.isSome || d.requests.any fun r => match r.phase with | .fwErase _ => true | _ => false
  let gates := (List.range 32).any fun n => !d.tcUnattached n || (d.fuse n).gate
  b2n subs + 2 * b2n ports + 4 * b2n u0 + 8 * b2n coupler + 16 * b2n work + 32 * b2n ptp + 64 * b2n d.fc.chipSafe +
    128 * b2n (d.limp || d.life = .deadBattery) + 256 * b2n (!d.updates.isEmpty) + 512 * b2n fw + 1024 * b2n gates +
    2048 * b2n (!d.tcUnattached 32) + 4096 * b2n (d.power.holdoff ≠ 0)

/-- Every condition of R309 holds: bits 12 and 9 to 0 are clear. -/
def Dev.mayDoze (d : Dev) : Bool := d.powerBlock % 1024 = 0 && d.powerBlock < 4096

/-- Every converter has been commanded to 5 V standby (R311). -/
def Dev.allStandby (d : Dev) : Bool :=
  d.psb.queue.isEmpty && d.psb.current.isNone &&
    (List.range 32).all fun n => !d.maySource n || (d.eng n).psbMissing || look zeroDflt d.psb.commanded n = fiveVolt

/-- The further conditions of HIBERNATE. -/
def Dev.mayHibernate (d : Dev) : Bool := d.powerBlock = 0 && d.allStandby

/-- The conditions of TRIM in a beat: nothing of SV3 to SV7 granted, L + H at most a quarter of the TRIM depth. -/
def Dev.trimDepth (d : Dev) : Nat := min (d.fld aPwrCfg 0 2) (d.fld aVatCfg 0 2)
def Dev.trimQuiet (d : Dev) : Bool :=
  !d.power.granted && decide (4 * d.inUse ≤ 8192 * depthBanks (d.fld aPwrCfg 0 2))

/-- The counts of beats, at a beat start (R308, R309, R311, R315). -/
def Dev.countBeats (d : Dev) : Dev :=
  let q := d.trimQuiet
  let z := d.mayDoze
  d.updPower fun p =>
    { p with
      trimBeats := if p.restart || !q || p.state ≠ .active then 0 else p.trimBeats + 1
      dozeBeats := if p.restart || !z || p.state = .doze then 0 else p.dozeBeats + 1
      hibBeats := if p.restart || !z || p.state ≠ .doze then 0 else p.hibBeats + 1
      granted := false, reqInBeat := false, restart := false, holdoff := p.holdoff - 1 }

/-! ## Leaving DOZE, and TRIM's end -/

/-- POWER_STATE (R443). -/
def Dev.powerState (d : Dev) : Dev :=
  d.notify 3 none 0x8501
    ([BitVec.ofNat 8 d.power.state.code, BitVec.ofNat 8 d.power.wakeSrc, 0, 0] ++ leBytes 4 d.powerBlock)

/-- The answers of the IP layer that waited for ACTIVE leave (R310). -/
def Dev.sendOwed (d : Dev) : Dev :=
  forN 2 (fun e a => (forEach (a.eth e).owed (fun f b => b.queueNet e f) a).updEth e fun x => { x with owed := [] }) d

/-- The raising write has ended and `CORE_OK` is set: the clocks restart; the device is ACTIVE and the Vat returns to its
depth (R307, R315, R316). -/
def Dev.clocksRestart (d : Dev) : Dev :=
  if d.power.state = .doze then
    (((d.updPower fun p => { p with state := .active, avs := .idle, trimBeats := 0, hibBeats := 0 }).seekTo
      (d.fld aVatCfg 0 2))).powerState.sendOwed
  else (d.updPower fun p => { p with avs := .idle, lowered := false }).leaveTrim

/-- A unit of SV3 to SV7 is granted on a USB output, which ends TRIM; so does usage above half of the TRIM depth. -/
def Dev.noteGrant (d : Dev) (o cls : Nat) : Dev :=
  if 3 ≤ cls ∧ o ≤ 32 then (d.updPower fun p => { p with granted := true }).leaveTrim else d

def Dev.trimUsage (d : Dev) : Dev :=
  if d.power.state = .trim && decide (8192 * depthBanks (d.fld aPwrCfg 0 2) < 2 * d.inUse) then d.leaveTrim else d

/-! ## Registers -/

def Dev.pwrStatus (d : Dev) : W32 :=
  at_ d.power.state.code 30 ||| at_ d.power.wakeSrc 26 ||| at_ (b2n d.power.lastHib) 25 ||| at_ d.powerBlock 0

/-- `PWR_AVS`. -/
def Dev.pwrAvs (d : Dev) : W32 :=
  at_ (b2n (d.power.avs ≠ .idle)) 25 ||| at_ (b2n d.power.coreOk) 24 |||
    at_ (if d.power.avs = .lowering || d.power.avs = .loweringAbandoned || d.power.lowered then 650 else Config.activeMv.toNat) 12 |||
    at_ Config.activeMv.toNat 0

end Sys2Proof.Machine
end

