-- ==== Sys2Proof/Machine/Periodic.lean ====
section
/-! DEFINITION. Periodic subscriptions (R227 to R247): charges, planned starts and admission, sheets and the change
comparator, digest entries and heartbeats. -/

namespace Sys2Proof.Machine

/-! ## Charges (R236) -/

/-- ⌈28m / 3⌉. -/
def payBits (m : Nat) : Nat := ceilDiv (28 * m) 3

/-- An FS or LS transaction in FS bit times. -/
def fsCharge (speed m : Nat) : Nat := if speed = 0 then 8 * (120 + payBits m) else 120 + payBits m

/-- The port is an FS or LS root port: planning runs over frames. -/
def Dev.byFrame (d : Dev) (n : Nat) : Bool := (d.port n).speed < 2 && !(d.port n).ss

/-- The context is served by splits: its tokens lie at Y, Y + 2, Y + 3 and Y + 4 (R239). -/
def Dev.bySplit (d : Dev) (c : Nat) : Bool := (d.ctx c).ttValid && !d.byFrame (d.ctx c).port

/-- Charges of one poll, token by token: the offset in microframes from its first and the charge in HS bit times. -/
def Dev.charges (d : Dev) (c : Nat) : List (Nat × Nat) :=
  let x := d.ctx c
  if d.byFrame x.port then [(0, 40 * fsCharge x.speed x.mps)]
  else if x.ttValid then
    if x.dirIn then [(0, 320), (2, 320 + payBits x.mps), (3, 320 + payBits x.mps), (4, 320 + payBits x.mps)]
    else [(0, 320 + payBits x.mps), (2, 320), (3, 320), (4, 320)]
  else if x.speed = 3 then [(0, (x.burst + 1) * (120 + x.mps))]
  else [(0, (x.mult + 1) * (480 + payBits x.mps))]

/-- What a TT carries for one poll, in FS bit times. -/
def Dev.ttCharge (d : Dev) (c : Nat) : Nat := if d.bySplit c then fsCharge (d.ctx c).speed (d.ctx c).mps else 0

/-! ## Loads (R237) -/

/-- The subscriptions in effect behind port n, with their contexts; an ended one counts until its last transaction ends. -/
def Dev.portSubs (d : Dev) (n : Nat) : List (Nat × Subscription) :=
  d.subscriptions.filterMap fun kv =>
    match kv.2 with
    | some s => if (d.ctx kv.1).port = n then some (kv.1, s) else none
    | none => none

/-- A token placed: its unit of planning, its order in the unit, its start and its end without allowance. -/
structure Placed where
  slotKey : Nat
  order : Nat
  start : Nat
  charge : Nat
  deriving DecidableEq, Repr

/-- The unit of planning of a microframe: the microframe itself, or its frame. -/
def Dev.unitOf (d : Dev) (n mf : Nat) : Nat := if d.byFrame n then mf / 8 else mf

/-- The place of a slot in its unit of planning. -/
def Dev.slotKeyOf (d : Dev) (n mf slot : Nat) : Nat := if d.byFrame n then mf % 8 * 8 + slot else slot

/-- Insertion in order of slot, then of admission. -/
def insPlaced (p : Placed) : List Placed → List Placed
  | [] => [p]
  | q :: t => if p.slotKey < q.slotKey ∨ (p.slotKey = q.slotKey ∧ p.order < q.order) then p :: q :: t else q :: insPlaced p t

/-- The tokens of one unit of planning on port n that `keep` selects. -/
def Dev.placedWhere (d : Dev) (n unit : Nat) (keep : Subscription → Token → Bool) : List Placed :=
  (d.portSubs n).foldl (fun acc cs =>
    cs.2.tokens.foldl (fun a t =>
      if d.unitOf n t.mf = unit && keep cs.2 t then
        insPlaced ⟨d.slotKeyOf n t.mf cs.2.slot, cs.2.order, t.start, t.charge⟩ a
      else a) acc) []

/-- The tokens of one unit of planning on port n. -/
def Dev.placedIn (d : Dev) (n unit : Nat) : List Placed := d.placedWhere n unit fun _ _ => true

/-- A token falls in a beat: in every beat, or in the beats of a beat-interval subscription; a complete-split may lie in the
beat after that of its poll (R228). -/
def tokenDueIn (beat : Nat) (s : Subscription) (t : Token) : Bool :=
  !s.unitBeats || (beat + (if t.mf < s.mf then s.period else 0)) % (s.period + 1) = s.phase

/-- A token falls in the beat in progress. -/
def Dev.tokenDue (d : Dev) (s : Subscription) (t : Token) : Bool := tokenDueIn d.deckle.beat.toNat s t

/-- Whether the port's PHY is gated in bursts (R245). -/
def Dev.burst (d : Dev) (n : Nat) : Bool := bit (d.reg (aPortCfg n)) 0

/-- The ends of the tokens of a unit, with the wake allowance of the first of each run when gated (R245, R246). -/
def endsOf (gated : Bool) : Nat → List Placed → List Nat
  | _, [] => []
  | prev, p :: t =>
    let e := p.start + p.charge + (if gated && decide (prev + 4800 < p.start) then 2400 else 0)
    e :: endsOf gated e t

/-- The charges of a unit, allowances counted. -/
def loadOf (gated : Bool) (ps : List Placed) : Nat :=
  ((ps.zip (endsOf gated 200 ps)).map fun pe => pe.2 - pe.1.start).foldl (· + ·) 0

/-- End limit and budget of a unit, in HS bit times. -/
def Dev.unitLimit (d : Dev) (n : Nat) : Nat := if d.byFrame n then 479776 else 59972
def Dev.unitBudget (d : Dev) (n : Nat) : Nat := if d.byFrame n then 40 * 10800 else 48000

/-- Whether the tokens of a unit keep R237 and R238. -/
def Dev.unitOk (d : Dev) (n : Nat) (gated : Bool) (ps : List Placed) : Bool :=
  let es := endsOf gated 200 ps
  decide (loadOf gated ps ≤ d.unitBudget n) && es.all (fun e => decide (e ≤ d.unitLimit n)) &&
    (es.zip (ps.drop 1)).all fun ep => decide (ep.1 ≤ ep.2.start)

/-- The load of the unit that holds a microframe. -/
def Dev.mfLoad (d : Dev) (n mf : Nat) : Nat := loadOf (d.burst n) (d.placedIn n (d.unitOf n mf))

/-- The largest load on a port. -/
def Dev.maxLoad (d : Dev) (n : Nat) : Nat :=
  ((d.portSubs n).flatMap fun cs => cs.2.tokens.map Token.mf).foldl (fun m mf => max m (d.mfLoad n mf)) 0

/-- The microframes of a beat in which a subscription's poll starts (R228, R162). -/
def pollMfs (bl : Nat) (unitBeats : Bool) (period phase mf : Nat) : List Nat :=
  if unitBeats then [mf] else (List.range (bl / 2 ^ period)).map fun i => phase + 2 ^ period * i

/-- FS bit times that the TT of context c carries in a frame. -/
def Dev.ttLoad (d : Dev) (c frame : Nat) : Nat :=
  let x := d.ctx c
  (d.portSubs x.port).foldl (fun m cs =>
    let y := d.ctx cs.1
    if d.bySplit cs.1 && y.domain = x.domain && y.ttHub = x.ttHub && (!x.ttMulti || y.ttPort = x.ttPort) &&
        (pollMfs d.beatLen cs.2.unitBeats cs.2.period cs.2.phase cs.2.mf).any fun k => k / 8 = frame then
      m + d.ttCharge cs.1
    else m) 0

/-! ## Placing one poll (R238 to R240) -/

/-- The start of a slot in its unit. -/
def Dev.slotStart (d : Dev) (n mf slot : Nat) : Nat :=
  let j := if d.byFrame n then mf % 8 else 0
  if j = 0 ∧ slot = 0 then 200 else 60000 * j + 7500 * slot

/-- The planned end of the poll before a place. -/
def endBefore (key : Nat) (gated : Bool) (ps : List Placed) : Nat :=
  ((ps.zip (endsOf gated 200 ps)).filter fun pe => pe.1.slotKey ≤ key).foldl (fun m pe => max m pe.2) 0

/-- Places one token of a new poll in microframe mf: its start, when R237 and R238 let it in. -/
def Dev.placeToken (d : Dev) (n mf slot charge order : Nat) (gated : Bool) (ps : List Placed) : Option Token :=
  let key := d.slotKeyOf n mf slot
  let start := max (d.slotStart n mf slot) (endBefore key gated ps)
  if d.unitOk n gated (insPlaced ⟨key, order, start, charge⟩ ps) then some ⟨mf, start, charge⟩ else none

/-- The tokens of a poll in the microframes that it touches, in order: (microframe, charge). -/
def Dev.touched (d : Dev) (c : Nat) (mfs : List Nat) : List (Nat × Nat) :=
  mfs.flatMap fun m => (d.charges c).map fun oc => ((m + oc.1) % d.beatLen, oc.2)

/-- A refusal: the microframe, and the charge of the token refused there; none where no slot can help, because the TT's budget
or the position in the frame refuses (R237, R239). -/
abbrev Refused := Nat × Option Nat

/-- Places every token; the first that is refused is named. -/
def Dev.placeAll (d : Dev) (c slot order : Nat) : List (Nat × Nat) → Except Refused (List Token)
  | [] => .ok []
  | (mf, charge) :: t =>
    let n := (d.ctx c).port
    match d.placeToken n mf slot charge order (d.burst n) (d.placedIn n (d.unitOf n mf)) with
    | none => .error (mf, some charge)
    | some k => match d.placeAll c slot order t with
      | .ok ks => .ok (k :: ks)
      | .error e => .error e

/-- One placement, poll by poll: R237 to R239 with the TT's budget. -/
def Dev.tryPlace (d : Dev) (c slot order : Nat) : List Nat → Except Refused (List Token)
  | [] => .ok []
  | m :: t =>
    if d.bySplit c && (decide (4 < m % 8) || decide (10800 < d.ttLoad c (m / 8) + d.ttCharge c)) then .error (m, none)
    else match d.placeAll c slot order (d.touched c [m]), d.tryPlace c slot order t with
      | .error e, _ => .error e
      | .ok ks, .ok rest => .ok (ks ++ rest)
      | .ok _, .error e => .error e

/-- The latest slot at which the poll would fit in a microframe that refused it; 255 for none (R241). -/
def Dev.latestSlot (d : Dev) (c order : Nat) (r : Refused) : Nat :=
  let n := (d.ctx c).port
  match r.2 with
  | none => 255
  | some charge =>
    match (List.range 8).reverse.find? fun s =>
        (d.placeToken n r.1 s charge order (d.burst n) (d.placedIn n (d.unitOf n r.1))).isSome with
    | some s => s
    | none => 255

/-- The largest load of the microframes that a candidate touches (R240). -/
def Dev.candLoad (d : Dev) (c : Nat) (mfs : List Nat) : Nat :=
  (d.touched c mfs).foldl (fun m mc => max m (d.mfLoad (d.ctx c).port mc.1)) 0

/-- Insertion of a candidate in rising order of load, then of value. -/
def insCand (x : Nat × Nat) : List (Nat × Nat) → List (Nat × Nat)
  | [] => [x]
  | y :: t => if x.1 < y.1 ∨ (x.1 = y.1 ∧ x.2 < y.2) then x :: y :: t else y :: insCand x t

/-- Tries slots, then candidates, in the order given; the first refusal is kept for the report. -/
def Dev.searchPlace (d : Dev) (c order : Nat) (mfsOf : Nat → List Nat) (slots : List Nat) :
    List Nat → Option Refused → Except (Option Refused) (Nat × Nat × List Token)
  | [], refused => .error refused
  | v :: rest, refused =>
    let r := slots.foldl (fun (acc : Option (Nat × List Token) × Option Refused) s =>
      match acc.1 with
      | some _ => acc
      | none => match d.tryPlace c s order (mfsOf v) with
        | .ok ks => (some (s, ks), acc.2)
        | .error m => (none, match acc.2 with | some x => some x | none => some m)) (none, refused)
    match r.1 with
    | some (s, ks) => .ok (v, s, ks)
    | none => d.searchPlace c order mfsOf slots rest r.2

/-- An admission asked for: unit, period, phase (none AUTO), microframe (none AUTO), slot (none AUTO). The answer is
phase, microframe, slot and tokens, or the microframe first refused. -/
def Dev.place (d : Dev) (c order : Nat) (unitBeats : Bool) (period : Nat) (phase mf slot : Option Nat) :
    Except (Option Refused) (Nat × Nat × Nat × List Token) :=
  let bl := d.beatLen
  let slots := match slot with | some s => [s] | none => List.range 8
  let fixed := if unitBeats then mf else phase
  let mfsOf (v : Nat) := if unitBeats then pollMfs bl true period 0 v else pollMfs bl false period v 0
  let ok (v : Nat) : Bool := !d.bySplit c || decide (v % 8 ≤ 4)
  let cands := match fixed with
    | some v => [v]
    | none =>
      let all := (List.range (if unitBeats then bl else 2 ^ period)).filter ok
      ((all.map fun v => (d.candLoad c (mfsOf v), v)).foldl (fun l x => insCand x l) []).map Prod.snd
  match d.searchPlace c order mfsOf slots cands none with
  | .error m => .error m
  | .ok (v, s, ks) => if unitBeats then .ok (phase.getD 0, v, s, ks) else .ok (v, 0, s, ks)

/-- The gating of port n could be BURST: every unit still keeps R237 and R238 with the allowances (R247). -/
def Dev.burstOk (d : Dev) (n : Nat) : Bool :=
  ((d.portSubs n).flatMap fun cs => cs.2.tokens.map Token.mf).all fun mf =>
    d.unitOk n true (d.placedIn n (d.unitOf n mf))

/-! ## Sheets and entries (R231 to R234, R250) -/

/-- The bytes of a subscription's sheet, as they stand in the Vat. -/
def Dev.sheet (d : Dev) (s : Subscription) : List Byte := (d.sheetAt s.place s.sheetLen).map cellByte

/-- A CHANGE result counts as a change against the sheet's old bytes (R233); so does any poison that the comparator sees in
either (R135). -/
def Subscription.changed (s : Subscription) (old r : List Byte) (poison : Bool) : Bool :=
  s.empty || poison || decide (r.length ≠ old.length) ||
    (List.range r.length).any fun i => ((r.getD i 0 ^^^ old.getD i 0) &&& s.mask.getD i 0) ≠ 0

/-- Updates the subscription on a context. -/
def Dev.updSub (d : Dev) (c : Nat) (f : Subscription → Subscription) : Dev :=
  d.updSubscription c fun o => o.map f

/-- Folds a change into the last DATA entry of context c (R250). -/
def coalesce (c : Nat) (e : DigestEntry) : List DigestEntry → List DigestEntry
  | [] => []
  | x :: t =>
    if x.ctx = c ∧ x.type = 0 ∧ !(t.any fun y => y.ctx = c && y.type = 0) then
      { x with
        mf := e.mf, slot := e.slot, data := e.data, poison := e.poison, coalesced := true
        prevBeat := e.prevBeat, aux := min 65535 (x.aux + 1) } :: t
    else x :: coalesce c e t

/-- A DATA entry of subscription c, from a poll at (beat, mf, slot) (R232, R250). It takes the place of a HEARTBEAT entry of
the same beat (R257). -/
def Dev.dataEntry (d : Dev) (c : Nat) (s : Subscription) (beat : BeatNo) (mf slot : Nat) (r : List Byte)
    (poison : Bool) : Dev :=
  let e : DigestEntry :=
    { type := 0, ctx := c, mf := mf, slot := slot, poison := poison, coalesced := false, gap := s.gap,
      prevBeat := beat ≠ d.deckle.beat || d.deckle.beatEnded, aux := 0, data := r, sv1 := s.cls = 1 }
  let full := s.delivery = 1 && decide (s.maxChg ≤ s.entries)
  let d := if s.beatDone then d.updSubr s.owner.toNat fun x =>
      { x with digest := x.digest.filter fun y => !(y.ctx = c && y.type = 1) } else d
  let d1 := if full then d.updSubr s.owner.toNat fun x => { x with digest := coalesce c e x.digest }
    else d.addEntry s.owner.toNat e
  d1.updSub c fun x =>
    { x with
      gap := false, entries := x.entries + (if full then 0 else 1), quietBeats := 0, answered := 0, beatDone := false }

/-- The result of an IN poll: the sheet and the digest (R232). The comparator reads the sheet and holds the bank for the
write-back (R154); the result is written by the port's engine. -/
def Dev.pollResult (d : Dev) (c : Nat) (beat : BeatNo) (mf slot : Nat) (r : List Byte) (poison : Bool) : Dev :=
  match d.subscription c with
  | none => d
  | some s =>
    let who := d.rqPort (d.ctx c).port
    let old := if s.delivery = 1 then d.readSheet who true s.place s.sheetLen else ([], false, d)
    let take := s.delivery ≠ 1 || s.changed old.1 r (poison || old.2.1 || s.sheetPoison)
    let d1 := old.2.2.updSub c fun x => { x with
      answered := x.answered + 1, nData := satAdd (2 ^ 32 - 1) x.nData 1 }
    if take then
      let d2 := (d1.writeSheet who s.place r).updSub c fun x =>
        { x with
          sheetLen := r.length, empty := false, sheetPoison := poison, updBeat := beat, updMf := mf, updSlot := slot }
      if s.delivery = 2 then d2 else d2.dataEntry c s beat mf slot r poison
    else d1

/-- A HEARTBEAT entry: the current sheet, which the Mill core reads, and the polls answered (R234). -/
def Dev.heartbeatEntry (d : Dev) (c : Nat) (s : Subscription) : Dev :=
  let r := d.readSheet rqMill false s.place s.sheetLen
  (r.2.2.addEntry s.owner.toNat
    { type := 1, ctx := c, mf := s.updMf, slot := s.updSlot, poison := s.sheetPoison || r.2.1, coalesced := false
      gap := false, prevBeat := false, aux := min 65535 s.answered, data := r.1, sv1 := s.cls = 1 }).updSub c fun x =>
    { x with quietBeats := 0, answered := 0, beatDone := true }

/-- Whether the beat in progress brings a subscription's heartbeat. -/
def Subscription.heartbeatDue (s : Subscription) : Bool :=
  s.delivery = 1 && !s.isOut && !s.ended && 1 ≤ s.heartbeat && s.entries = 0 && !s.beatDone &&
    decide (s.heartbeat ≤ s.quietBeats + 1)

/-- The end of a beat for one subscription. -/
def Dev.subBeatEnd (d : Dev) (c : Nat) : Dev :=
  match d.subscription c with
  | none => d
  | some s =>
    let d1 := if s.heartbeatDue then d.heartbeatEntry c s else d
    d1.updSub c fun x =>
      { x with
        entries := 0, beatDone := false, answered := if x.entries ≠ 0 then 0 else x.answered
        quietBeats := if x.beatDone || x.entries ≠ 0 then x.quietBeats else x.quietBeats + 1 }

/-! ## Registers -/

def Dev.hbStatus (d : Dev) : W32 := at_ (d.subscriptions.filter fun kv => match kv.2 with | some s => !s.ended | none => false).length 0

def Dev.hbLoad (d : Dev) : W32 :=
  let n := d.fld aLoadSel 16 5
  let mf := d.fld aLoadSel 0 13
  if d.byFrame n then at_ (d.mfLoad n mf / 40) 0 else at_ (d.mfLoad n mf) 16

def Dev.hbSubInfo (d : Dev) : W32 :=
  match d.subscription (d.fld aSubSel 0 14) with
  | none => 0
  | some s =>
    at_ 1 31 ||| at_ s.delivery 29 ||| at_ (s.cls - 1) 28 ||| at_ (b2n s.unitBeats) 27 ||| at_ (b2n s.isOut) 26 |||
      at_ s.owner.toNat 16 ||| at_ s.slot 13 ||| at_ (if s.unitBeats then s.mf else s.phase) 0

/-- Planned start after the microframe start of the first token. -/
def Dev.plannedStart (d : Dev) (c : Nat) (s : Subscription) : Nat :=
  match s.tokens with
  | [] => 0
  | t :: _ => if d.byFrame (d.ctx c).port then t.start - 60000 * (t.mf % 8) else t.start

def Dev.hbSubPer (d : Dev) : W32 :=
  let c := d.fld aSubSel 0 14
  match d.subscription c with
  | none => 0
  | some s => at_ (d.plannedStart c s % 65536) 16 ||| at_ s.period 8 ||| at_ (if s.unitBeats then s.phase else 0) 0

/-- The counters of a subscription (R256). -/
def Dev.subCounters (d : Dev) (c : Nat) : List W32 :=
  match d.subscription c with
  | none => [0, 0, 0, 0]
  | some s => [s.nIssued, s.nData, s.nNak, s.nSkipped].map (BitVec.ofNat 32)

end Sys2Proof.Machine
end

