-- ==== Sys2Proof/Machine/Xfer.lean ====
section
/-! DEFINITION. Transactions of the host engine (R203 to R218, R228, R242): starting an attempt or a poll, and what each
answer does to the transfer, the context and the subscription. The enumeration of a coupler neighbour (R259). -/

namespace Sys2Proof.Machine

/-! ## Enumeration by the Couch (R259) -/

/-- The control endpoint context of coupler port n. -/
def couplerEp0 (n : Nat) : Nat := 12256 + 8 * n

/-- The requests of R259; the length asked of the configuration descriptor is 255. -/
def enumSetup : Nat → Setup
  | 1 => { bmRequestType := 0x80, bRequest := 6, wValue := 0x100, wIndex := 0, wLength := 18 }
  | 2 => { bmRequestType := 0, bRequest := 5, wValue := 1, wIndex := 0, wLength := 0 }
  | 3 => { bmRequestType := 0x80, bRequest := 6, wValue := 0x200, wIndex := 0, wLength := 255 }
  | _ => { bmRequestType := 0, bRequest := 9, wValue := 1, wIndex := 0, wLength := 0 }

/-- The descriptors of a configuration, in order. -/
def descriptors : Nat → List Byte → List (List Byte)
  | 0, _ => []
  | n + 1, l =>
    let k := byteAt l 0
    if k < 2 ∨ l.length < k then [] else l.take k :: descriptors n (l.drop k)

/-- Configuration 1 has an interface of class 0xFF, subclass 0 and protocol 2 with the endpoints of R225. -/
def relayConfig (l : List Byte) : Bool :=
  let ds := descriptors l.length l
  (ds.any fun x => byteAt x 1 = 4 && byteAt x 5 = 0xFF && byteAt x 6 = 0 && byteAt x 7 = 2) &&
    ([0x02, 0x82, 0x03, 0x83, 0x84] : List Nat).all fun a => ds.any fun x => byteAt x 1 = 5 && byteAt x 2 = a

/-- Queues request `step` of the enumeration of link n. -/
def Dev.enumRequest (d : Dev) (n step : Nat) : Dev :=
  let st := enumSetup step
  { d with transfers := d.transfers ++
      [newTransfer (.enumerate n step) (couplerEp0 n) true st 0 st.wLength.toNat (defaultTimeout true) false] }

/-- The context of endpoint address a of the neighbour on coupler port n. -/
def couplerCtx (n speed i : Nat) : Ctx :=
  let ep := [0, 1, 1, 2, 2, 3, 3, 4].getD i 0
  let isIn := [false, false, true, false, true, false, true, true].getD i false
  let mps := if i = 7 then 64 else if i = 0 then (if speed = 3 then 512 else 64) else if speed = 3 then 1024 else 512
  { Ctx.reset with
    state := 1, type := if i = 0 then 0 else if i = 7 then 3 else 2, dirIn := isIn, cpl := true, ep := ep, speed := speed
    addr := if i = 0 then 0 else 1, port := n, interval := if i = 7 then 15 else 0, mps := mps
    intf := if 3 ≤ i then 1 else 0, burst := if speed = 3 ∧ 1 ≤ i ∧ i < 7 then 3 else 0, queue := epQueue (couplerEp0 n + i) }

/-- Starts the enumeration of a DFP link whose port is ENABLED. -/
def Dev.enumStart (d : Dev) (n : Nat) : Dev :=
  let d1 := d.setCtx (couplerEp0 n) (couplerCtx n (d.port n).speed 0)
  (d1.updLink n fun x => { x with enumStep := 0, enumAt := d.now, speed := (d.port n).speed }).enumRequest n 1

/-- A request of the enumeration has ended. -/
def Dev.enumEnd (d : Dev) (n step status : Nat) (inData : List Byte) : Dev :=
  if (d.link n).state ≠ .enumerating then d
  else if status ≠ stOk || (step = 3 && !relayConfig inData) then (d.updLink n fun x => { x with enumStep := 0 }).linkTo n .foreign
  else
    let d1 := d.updLink n fun x => { x with enumStep := step }
    let d2 := if step = 2 then d1.updCtx (couplerEp0 n) fun x => { x with addr := 1 } else d1
    if step < 4 then d2.enumRequest n (step + 1)
    else
      ((List.range 7).foldl (fun a i => a.setCtx (couplerEp0 n + i + 1) (couplerCtx n (a.port n).speed (i + 1))) d2).enterHello n

/-! ## The chip's own hub requests (R300 to R302) -/

/-- A remote wake of a subtree: it is active again, and R303 applies. -/
def Dev.subtreeWake (d : Dev) (n hub hp : Nat) : Dev :=
  if (d.port n).selSusp.contains (hub, hp) then
    ((((d.updPort n fun p => { p with selSusp := p.selSusp.erase (hub, hp) }).flag (aPortPwr n) 0).remoteWakeSent n hub hp
      false).startWake .remoteWake)
  else d

/-- One of the chip's own requests has ended. -/
def Dev.ownEnd (d : Dev) (t : Transfer) (status : Nat) (inData : List Byte) : Dev :=
  let hp := bits t.setup.wIndex 0 8
  let hub := (d.ctx t.ctx).addr
  match t.purpose with
  | .selSuspend n =>
    if status = stOk then d.updPort n fun p => { p with selSusp := p.selSusp ++ [(hub, hp)] }
    else d.updPort n fun p => { p with subIdle := p.subIdle.filter fun x => !(x.1 = hub && x.2.1 = hp) }
  | .selResume n =>
    if status = stOk then
      d.updPort n fun p => { p with selSusp := p.selSusp.erase (hub, hp), selWait := p.selWait ++ [(hub, hp)] }
    else d
  | .selStatus n =>
    let w := BitVec.ofNat 32 (leAt inData 0 4)
    if status = stOk && bit w 18 && !bit w 2 then d.subtreeWake n hub hp else d
  | .enumerate l step => d.enumEnd l step status inData
  | _ => d

/-! ## The end of a transfer as its transactions bring it -/

/-- The contexts of the devices that a reset of hub port p of hub h reaches (R213): those on the port, the bound device at
address 0 among them, and, through their hubs, those below; `fuel` bounds the depth. A hub has an address of its own. -/
def Dev.below (d : Dev) (dom h p : Nat) : Nat → List Nat
  | 0 => []
  | f + 1 =>
    let here := d.ctxsWhere fun c => c.domain = dom && !c.cpl && h ≠ 0 && c.parentHub = h && c.parentPort = p
    let addrs := ((here.map fun c => (d.ctx c).addr).filter (· ≠ 0)).eraseDups
    here ++ addrs.flatMap fun a =>
      ((d.ctxsWhere fun c => c.domain = dom && c.parentHub = a && c.addr ≠ 0).map fun c => (d.ctx c).parentPort).eraseDups.flatMap
        fun q => d.below dom a q f

/-- The devices below hub port hp of the hub on port n are idle in the sense of R298. -/
def Dev.subtreeIdle (d : Dev) (n hub hp : Nat) : Bool :=
  let cs := d.below (d.port n).domain hub hp 6
  !cs.isEmpty && !(d.transfers.any fun t => cs.contains t.ctx) && !((d.port n).busyCtxs.any cs.contains) &&
    !(d.subscriptions.any fun kv => cs.contains kv.1 && kv.2.isSome && !d.isHubInt kv.1) &&
    !((d.binding (d.port n).domain).any fun b => b.parentHub = hub && b.parentPort = hp)

/-- The idle beats of a subtree. -/
def Port.idleOf (p : Port) (hub hp : Nat) : Nat := ((p.subIdle.find? fun x => x.1 = hub && x.2.1 = hp).map fun x => x.2.2).getD 0

/-- The idle beats of the subtrees below the known hubs of port n, with the beat that ends (R300). -/
def Dev.subtreeBeats (d : Dev) (n : Nat) : List (Nat × Nat × Nat) :=
  let p := d.port n
  p.knownHubs.flatMap fun h =>
    let hps := ((d.ctxsWhere fun c => c.port = n && !c.cpl && c.parentHub = h).map fun c => (d.ctx c).parentPort).eraseDups
    (hps.filter fun hp => p.state = .enabled && d.subtreeIdle n h hp).map fun hp => (h, hp, p.idleOf h hp + 1)

/-- Effects of a completed control transfer besides its response (R213; the bound device at address 0 keeps the binding and
its context, and only its transfers end, R214): SET_ADDRESS, hub port resets, known hubs. What waits on
address 0 as the binding ends has no device any more: it ends with DETACHED (DEDUCED). -/
def Dev.controlDone (d : Dev) (t : Transfer) : Dev :=
  let x := d.ctx t.ctx
  let st := t.setup
  let d1 :=
    if setsAddress st then
      match t.claimed with
      | some c =>
        let a := st.wValue.toNat % 128
        let d2 := d.setCtx c { x with addr := a, queue := epQueue c, seq := 0, lastStatus := 0 }
        { (d2.endTransfersOn [t.ctx] stDetached).unbind x.domain with holds := d2.holds ++ [(x.domain, a, d.now + 16)] }
      | none => d
    else d
  let d3 :=
    if resetsHubPort st then
      let p := bits st.wIndex 0 8
      let cs := d1.below x.domain x.addr p 6
      let bound := cs.filter fun c => (d1.ctx c).addr = 0
      ((d1.resetContexts (cs.filter fun c => (d1.ctx c).addr ≠ 0)).endTransfersOn bound stResetAborted).updPort x.port fun y =>
        { y with
          selSusp := y.selSusp.filter fun hp => hp ≠ (x.addr, p), selWait := y.selWait.filter fun hp => hp ≠ (x.addr, p) }
    else d1
  let r := st.bmRequestType.toNat
  if ((0x20 ≤ r ∧ r ≤ 0x23) ∨ (0xA0 ≤ r ∧ r ≤ 0xA3)) ∧ !(d.port x.port).knownHubs.contains x.addr then
    d3.updPort x.port fun y => { y with knownHubs := y.knownHubs ++ [x.addr] }
  else d3

/-- Ends a transfer with a status, and what follows from it. -/
def Dev.complete (d : Dev) (t : Transfer) (status : Nat) : Dev :=
  let r := d.endTransferData t status
  let d1 := if status = stOk && t.control then r.2.controlDone t else r.2
  (d1.ownEnd t status r.1).closeDone

/-! ## Starting an attempt -/

/-- The first transfer of a context. -/
def Dev.headOn (d : Dev) (c : Nat) : Option Transfer := d.transfers.find? fun t => t.ctx = c

/-- Replaces a transfer. -/
def Dev.setTransfer (d : Dev) (t u : Transfer) : Dev :=
  { d with transfers := d.transfers.map fun x => if x = t then u else x }

/-- The subtree of a device is held suspended or waits for its resume (R300, R301). -/
def Dev.subtreeHeld (d : Dev) (c : Nat) : Bool :=
  let x := d.ctx c
  let p := d.port x.port
  (p.selSusp ++ p.selWait).any fun hp => (d.below x.domain hp.1 hp.2 6).contains c

/-- New addresses are held for 16 microframes (R189). -/
def Dev.addrHeld (d : Dev) (x : Ctx) : Bool := d.holds.any fun h => h.1 = x.domain && h.2.1 = x.addr && x.addr ≠ 0

/-- A transaction in flight on a context. -/
def Dev.onWire (d : Dev) (c : Nat) : Bool := (d.port (d.ctx c).port).inflight.any fun y => y.ctx = c && y.part ≠ 1 && y.part ≠ 11 && y.part ≠ 12

/-- Whether the first transfer of a context can make an attempt now (R203 to R209). -/
def Dev.attemptable (d : Dev) (t : Transfer) : Bool :=
  let x := d.ctx t.ctx
  let p := d.port x.port
  x.state = 1 && !x.fenced && !x.flow && (d.queue (epQueue t.ctx)).state ≠ .resetting && !d.isClosing t.ctx && decide (t.notBefore ≤ d.now) && d.served x.port && p.state = .enabled && p.link = 0 && !d.addrHeld x &&
    !d.subtreeHeld t.ctx && !(p.inflight.any fun y => !y.poll) && d.headOn t.ctx = some t &&
    !(t.control && t.stage = 0 && fences t.setup && (d.affected t.ctx t.setup).any d.onWire)

/-- The packet direction of the transfer's present stage: IN when true. -/
def Transfer.inNow (t : Transfer) (x : Ctx) : Bool :=
  if !t.control then x.dirIn
  else match t.stage with
    | 0 => false
    | 1 => t.isIn
    | _ => !t.isIn || t.setup.wLength = 0

/-- The transfer's present stage is a DATA or bulk stage that reads OUT data from the Vat. -/
def Transfer.sendsData (t : Transfer) (x : Ctx) : Bool :=
  !t.inNow x && (!t.control || t.stage = 1) && decide (t.moved < t.total)

/-- The SETUP packet. -/
def setupBytes (s : Setup) : List Byte :=
  [s.bmRequestType, s.bRequest] ++ leBytes 2 s.wValue.toNat ++ leBytes 2 s.wIndex.toNat ++ leBytes 2 s.wLength.toNat

/-- The data PID of a context's next OUT packet. -/
def Ctx.outPid (x : Ctx) : DataPid := if x.seq % 2 = 1 then .data1 else .data0

/-- What an attempt sends: the SETUP packet, which the engine stages, or the record at the head of the context's queue, read
again for every attempt (R136); and whether it was read poisoned. None when no segment is free for the SETUP packet.
`bad` names cells that come out of their bank damaged. -/
def Dev.attemptData (d : Dev) (t : Transfer) (bad : List Nat) : Option (List Byte × Bool × Dev) :=
  let x := d.ctx t.ctx
  let who := d.rqPort x.port
  if t.inNow x then some ([], false, d)
  else if t.control && t.stage = 0 then d.stage rqMill who (d.ctxClass t.ctx) 0 (setupBytes t.setup) bad
  else if t.sendsData x then
    match d.readHead who (epQueue t.ctx) bad with
    | some (r, cells, d1) => some (r.payload, poisonIn r cells, d1)
    | none => none
  else some ([], false, d)

/-- The transfer's next transaction is a PING: a HS OUT that was answered NAK or NYET goes on with one (R205). -/
def Transfer.pings (t : Transfer) (x : Ctx) : Bool := x.ping && !t.inNow x && !(t.control && t.stage = 0)

/-- The device issues the next transaction of a transfer: an IN token when its record claim succeeds, or an OUT, SETUP,
PING or split token. The first attempt starts the timeout (R204). A packet that is sent poisoned counts once, however often
it is tried (R136). -/
def Dev.attempt (d : Dev) (t : Transfer) (bad : List Nat) : Dev :=
  let c := t.ctx
  let x := d.ctx c
  let cls := d.ctxClass c
  let split := d.bySplit c
  let isIn := t.inNow x
  let part := if split then (if t.splitOpen then 2 else 5) else if t.pings x then 9 else 0
  let n := if isIn && part ≠ 2 then recSegs x.mps else 0
  match d.takeClaim cls n with
  | none => d
  | some d0 =>
    match (if part = 9 ∨ part = 2 then some ([], false, d0) else d0.attemptData t bad) with
    | none => d
    | some (out, poison, d1) =>
      let y : Xact :=
        { ctx := c, poll := false, part := part, beat := d.deckle.beat, mf := d.deckle.mf, slot := d.deckle.slot, got := [],
          poisoned := poison, orphan := false, out := out, pid := if t.control && t.stage = 0 then .data0 else x.outPid
          born := d.now, cls := cls, claim := if part = 2 then t.held else n }
      let u := { t with
        held := 0
        started := true, deadline := some (t.deadline.getD (d.now + t.timeout))
        poisonTries := if poison then t.poisonTries + 1 else t.poisonTries }
      let d2 := (d1.setTransfer t u).updPort x.port fun p =>
        { p with
          inflight := p.inflight ++ [y], busyBeat := true, lastWork := d.now
          busyCtxs := if p.busyCtxs.contains c then p.busyCtxs else p.busyCtxs ++ [c] }
      let d3 := if t.started then d2 else d2.updCtx c fun z => { z with errRun := 0 }
      if poison && t.poisonTries = 0 then d3.broke (epQueue c) 2 1 else d3

/-! ## The answer to an attempt -/

/-- Counts a transaction error on a context and its port (R205). -/
def Dev.xactError (d : Dev) (c : Nat) : Dev :=
  (d.updCtx c fun x => { x with err := min 255 (x.err + 1), errRun := min 3 (x.errRun + 1) }).count
    (selector 0x22 1 (d.ctx c).port)

/-- The microframe in which a NAK is retried (R205). -/
def Dev.nakRetry (d : Dev) (x : Ctx) : Nat := if x.speed < 2 then d.now + (8 - d.deckle.mf % 8) else d.now + 1

/-- A stale-toggle discard (R211). -/
def Dev.staleData (d : Dev) (c : Nat) : Dev :=
  (d.updCtx c fun x => { x with dup := min 255 (x.dup + 1) }).count (selector 0x22 0 (d.ctx c).port)

/-- The next sequence number of a context. -/
def Ctx.bump (x : Ctx) : Ctx := { x with seq := if x.speed = 3 then (x.seq + 1) % 32 else 1 - x.seq % 2, errRun := 0 }

/-- Whether a data packet's PID or sequence number is the one expected. -/
def Ctx.expects (x : Ctx) (pid : DataPid) (sq : BitVec 5) : Bool :=
  if x.speed = 3 then sq.toNat = x.seq else decide ((pid = .data1) = (x.seq % 2 = 1)) && (pid = .data0 || pid = .data1)

/-- The stage after SETUP. -/
def Transfer.afterSetup (t : Transfer) : Nat := if t.isIn || t.total ≠ 0 then 1 else 2

/-- The transfer's OUT data is all sent, its zero-length packet included. -/
def Transfer.outDone (t : Transfer) (mps lastLen : Nat) : Bool :=
  decide (t.total ≤ t.moved) && !(t.zlp && lastLen ≠ 0 && t.total % max mps 1 = 0)

/-- An OUT packet or SETUP accepted by the device. -/
def Dev.outTaken (d : Dev) (t : Transfer) (y : Xact) (nyet : Bool) : Dev :=
  let c := t.ctx
  let x := d.ctx c
  let ping (z : Ctx) : Ctx := { z with ping := nyet && z.speed = 2 }
  if t.control && t.stage = 0 then
    (d.updCtx c fun z => { z with seq := if z.speed = 3 then 0 else 1, errRun := 0, ping := false }).setTransfer t
      { t with stage := t.afterSetup, splitOpen := false }
  else if t.control && t.stage = 2 then (d.updCtx c fun z => { z with errRun := 0 }).complete { t with splitOpen := false } stOk
  else
    let n := y.out.length
    let d1 := if t.sendsData x then d.popHead (epQueue c) (recCells n) else d
    let u := { t with moved := t.moved + n, poisonTries := 0, splitOpen := false }
    let d2 := (d1.updCtx c fun z => ping z.bump).setTransfer t u
    if u.outDone x.mps n then
      if t.control then d2.setTransfer u { u with stage := 2 } else d2.complete u stOk
    else d2

/-- A transaction error of a transfer: retried at once; three in a row end it (R205). -/
def Dev.attemptError (d : Dev) (t : Transfer) : Dev :=
  let d1 := d.xactError t.ctx
  if 3 ≤ (d1.ctx t.ctx).errRun then d1.complete t stTimeout else d1

/-- An IN data packet. -/
def Dev.inTaken (d : Dev) (t : Transfer) (pid : DataPid) (sq : BitVec 5) (bytes : List Byte) : Dev :=
  let c := t.ctx
  let x := d.ctx c
  if x.speed ≠ 3 && pid ≠ .data0 && pid ≠ .data1 then d.attemptError t
  else if t.control && t.stage = 2 then
    if x.speed = 3 then d.attemptError t
    else if pid = .data0 then (d.staleData c).setTransfer t { t with splitOpen := false }
    else (d.updCtx c fun z => { z with errRun := 0 }).complete { t with splitOpen := false } stOk
  else if !x.expects pid sq then (d.staleData c).setTransfer t { t with splitOpen := false }
  else
    let keep := bytes.take (t.want - t.moved)
    let u := { t with moved := t.moved + keep.length, splitOpen := false }
    let ends := decide (bytes.length < x.mps) || decide (t.want ≤ u.moved)
    let r : Rec := ⟨0, false, ends, x.qslot * 2 + x.seq % 2, keep⟩
    let d1 := d.openEpQueue c
    match d1.enqueue (d.rqPort x.port) (epQueue c) r with
    | none => (d1.broke (epQueue c) 0 1).complete { t with splitOpen := false } stNoResource
    | some d2 =>
    let d3 := (d2.updCtx c Ctx.bump).setTransfer t u
    if ends then
      if t.control then (d3.updCtx c fun z => { z with seq := if z.speed = 3 then z.seq else 1 }).setTransfer u { u with stage := 2 }
      else d3.complete u stOk
    else d3

/-- The answer to the attempt y of transfer t. -/
def Dev.attemptAnswer (d : Dev) (t : Transfer) (y : Xact) (r : XactResult) : Dev :=
  let c := t.ctx
  let x := d.ctx c
  let again (d : Dev) (u : Transfer) : Dev := d.setTransfer t { u with notBefore := d.nakRetry x }
  let nakked (d : Dev) : Dev :=
    let d1 := if !t.inNow x && x.speed = 2 && !(t.control && t.stage = 0) then d.updCtx c fun z => { z with ping := true } else d
    again d1 { t with splitOpen := false }
  let keeps := (y.part = 5 && r = .ack) || (y.part = 2 && r = .nyet)
  let d := if keeps then d else d.dropClaim y.cls y.claim
  if y.poisoned && 3 ≤ t.poisonTries then (d.dropClaim y.cls (if keeps then y.claim else 0)).complete t stPoisoned
  else if y.part = 5 then
    match r with
    | .ack =>
      d.setTransfer t { t with splitOpen := true, notBefore := d.now + 1, held := y.claim }
    | .nak => nakked d
    | _ => d.attemptError t
  else if y.part = 9 then
    match r with
    | .ack => d.updCtx c fun z => { z with ping := false, errRun := 0 }
    | .nak => again d t
    | .stall => (d.updCtx c fun z => { z with state := if t.control then z.state else 2, errRun := 0 }).complete t stStalled
    | _ => d.attemptError t
  else
    match r with
    | .data pid sq bytes =>
      if t.inNow x && bytes.length ≤ x.mps then d.inTaken t pid sq bytes else d.attemptError t
    | .ack =>
      if x.speed = 3 && t.control && t.stage = 2 then (d.updCtx c fun z => { z with errRun := 0 }).complete t stOk
      else if t.inNow x then d.attemptError t else d.outTaken t y false
    | .nyet =>
      if y.part = 2 then d.setTransfer t { t with notBefore := d.now + 1, held := y.claim }
      else if t.inNow x then d.attemptError t else d.outTaken t y true
    | .nak => nakked d
    | .nrdy => if x.speed = 3 then again (d.updCtx c fun z => { z with flow := true }) t else d.attemptError t
    | .erdy _ => d
    | .stall =>
      (d.updCtx c fun z => { z with state := if t.control then z.state else 2, errRun := 0 }).complete { t with splitOpen := false }
        stStalled
    | .error => d.attemptError t

/-! ## Polls (R228, R235, R242, R244) -/

/-- The microframe and beat are one of the subscription's (R162, R228). -/
def Dev.pollDue (d : Dev) (s : Subscription) (mf : Nat) (beat : Nat) : Bool :=
  if s.unitBeats then mf = s.mf && beat % (s.period + 1) = s.phase
  else (beat * d.beatLen + mf) % 2 ^ s.period = s.phase

/-- A skipped poll (R244). -/
def Dev.skipPoll (d : Dev) (c : Nat) : Dev :=
  d.updSub c fun s => { s with gap := true, nSkipped := satAdd (2 ^ 32 - 1) s.nSkipped 1 }

/-- PIDs by number: those of a high-bandwidth IN poll run DATA2, DATA1, DATA0, from any of them (R211). -/
def pidNumber : DataPid → Nat
  | .data0 => 0 | .data1 => 1 | .data2 => 2 | .mdata => 3

/-- The PID of packet i of an OUT poll of n bytes: on a high-bandwidth endpoint MDATA, but for the last, which says how many
there were (R211). -/
def Ctx.pollPid (x : Ctx) (n i : Nat) : DataPid :=
  if x.speed = 2 ∧ x.mult ≠ 0 then
    let m := max 1 (ceilDiv n (max 1 x.mps))
    if i + 1 < m then .mdata else [DataPid.data0, .data1, .data2].getD (m - 1) .data2
  else x.outPid

/-- Starts the poll of subscription c, or skips it. The engine reads the value of an OUT poll from its sheet. A SuperSpeed
endpoint that has answered NRDY is not polled before its ERDY (R206). -/
def Dev.startPoll (d : Dev) (c : Nat) (s : Subscription) : Dev :=
  let x := d.ctx c
  let p := d.port x.port
  let pays := !s.isOut || (if s.outRepeat then s.written else s.pending)
  if s.ended || !pays || d.pollInFlight c || x.flow then d
  else if x.state ≠ 1 || x.fenced || d.isClosing c || !d.served x.port || p.state ≠ .enabled || d.subtreeHeld c then d.skipPoll c
  else
    let n := if s.isOut then 0 else recSegs x.payload
    match d.takeClaim s.cls n with
    | none => d.skipPoll c
    | some d0 =>
      let v := if s.isOut then d0.readSheet (d.rqPort x.port) false s.place s.sheetLen else ([], false, d0)
      let y : Xact :=
        { ctx := c, poll := true, part := if d.bySplit c then 1 else 0, beat := d.deckle.beat, mf := d.deckle.mf,
          slot := d.deckle.slot, got := [], poisoned := v.2.1, orphan := false, out := v.1, pid := x.pollPid v.1.length 0
          born := d.now, cls := s.cls, claim := n }
      (v.2.2.updPort x.port fun q => { q with inflight := q.inflight ++ [y] }).updSub c fun z =>
        { z with nIssued := satAdd (2 ^ 32 - 1) z.nIssued 1 }

/-- A complete-split falls due for a poll that waits for it, 2 to 4 microframes after its start-split: the first, or after a
NYET (R216). The microframes are counted on the grid, whatever the beat is called (R180). -/
def completeSplit (c now : Nat) (y : Xact) : Xact :=
  let k := now - y.born
  if y.ctx = c ∧ y.poll ∧ ((k = 2 ∧ y.part = 1) ∨ ((k = 3 ∨ k = 4) ∧ y.part = 8 + k)) then { y with part := k } else y

/-- The tokens of subscription c at the slot strobe in progress: its poll starts, or its complete-split k of 2 to 4. -/
def Dev.pollStrobe (d : Dev) (c : Nat) : Dev :=
  match d.subscription c with
  | none => d
  | some s =>
    if s.slot ≠ d.deckle.slot then d
    else
      let d1 := if d.pollDue s d.deckle.mf d.deckle.beat.toNat then d.startPoll c s else d
      if d.bySplit c then
        d1.updPort (d.ctx c).port fun p => { p with inflight := p.inflight.map (completeSplit c d.now) }
      else d1

/-- Every poll and complete-split of the slot in progress, SV1 before SV2, in order of admission (R253). -/
def Dev.strobePolls (d : Dev) : Dev :=
  let at_ (cls : Nat) := (d.subscriptions.filterMap fun kv => match kv.2 with
    | some s => if s.cls = cls then some kv.1 else none
    | none => none)
  forEach (at_ 1 ++ at_ 2) (fun c a => a.pollStrobe c) d

/-- The claim of a transaction's record ends. -/
def Dev.pollUnclaim (d : Dev) (y : Xact) : Dev := d.dropClaim y.cls y.claim

/-- A poll that drew no data (R205). -/
def Dev.pollNak (d : Dev) (c : Nat) : Dev :=
  (d.updCtx c fun x => { x with errRun := 0 }).updSub c fun s =>
    { s with answered := s.answered + 1, nNak := satAdd (2 ^ 32 - 1) s.nNak 1 }

/-- A poll in error: three in a row put the context in ERROR (R205). -/
def Dev.pollError (d : Dev) (c : Nat) : Dev :=
  let d1 := d.xactError c
  if 3 ≤ (d1.ctx c).errRun then (d1.updCtx c fun x => { x with state := 4 }).endSubscription c (some stTimeout) else d1

/-- The result of a hub's interrupt endpoint while subtrees are held (R302). -/
def Dev.hubChange (d : Dev) (c : Nat) (r : List Byte) : Dev :=
  let x := d.ctx c
  if d.isHubInt c then
    match d.ep0 x.domain x.addr with
    | some h =>
      forEach ((d.port x.port).selSusp.filter fun hp => hp.1 = x.addr && bit (r.getD (hp.2 / 8) 0) (hp.2 % 8)) (fun hp a =>
        a.hubRequest h (.selStatus x.port) (hubPortRequest 0xA3 0 0 hp.2 4)) d
    | none => d
  else d

/-- Puts poll y back on the wire for its next transaction. -/
def Dev.pollMore (d : Dev) (n : Nat) (y : Xact) : Dev := d.updPort n fun p => { p with inflight := y :: p.inflight }

/-- OUT_DONE (R235). -/
def Dev.outDone (d : Dev) (c : Nat) (s : Subscription) (y : Xact) : Dev :=
  let d1 := if s.outRepeat && s.acked then d
    else d.addEntry s.owner.toNat { d.entryOf c 3 0 (s.cls = 1) with
      mf := y.mf, slot := y.slot, prevBeat := y.beat ≠ d.deckle.beat || d.deckle.beatEnded }
  d1.updSub c fun z =>
    if d.sheet z = y.out ∨ z.outRepeat then { z with pending := false, acked := true } else z

/-- The data of an IN poll, one packet of it: `k` counts the packets before it. The cells of a whole result are staged in the
Vat, where the comparator reads them (R25, R134). -/
def Dev.pollData (d : Dev) (n : Nat) (y : Xact) (pid : DataPid) (sq : BitVec 5) (bytes : List Byte) : Dev :=
  let c := y.ctx
  let x := d.ctx c
  let k := y.got.length / max x.mps 1
  let all := y.got ++ bytes
  let finish (d : Dev) : Dev :=
    let d1 := d.pollUnclaim y
    let r := (d1.stage (d.rqPort x.port) (d.rqPort x.port) y.cls 0 all).getD (all, false, d1)
    if y.orphan then d1.reapSub c else (r.2.2.pollResult c y.beat y.mf y.slot r.1 r.2.1).hubChange c r.1
  if bytes.length > x.mps then ((d.pollUnclaim y).pollError c).reapSub c
  else if x.speed = 2 && x.mult ≠ 0 then
    let first := y.part = 0
    let want := if first then pidNumber pid else y.part - 20
    if pidNumber pid ≠ want || x.mult < pidNumber pid then ((d.pollUnclaim y).pollError c).reapSub c
    else if want = 0 then finish (d.updCtx c fun z => { z with errRun := 0 })
    else d.pollMore n { y with got := all, part := 20 + (want - 1) }
  else if x.speed ≠ 3 && pid ≠ .data0 && pid ≠ .data1 then ((d.pollUnclaim y).pollError c).reapSub c
  else if !x.expects pid sq then (((d.pollUnclaim y).staleData c).pollNak c).reapSub c
  else
    let d1 := d.updCtx c Ctx.bump
    if x.speed = 3 && bytes.length = x.mps && k < x.burst then d1.pollMore n { y with got := all } else finish d1

/-- The answer to a poll. -/
def Dev.pollAnswer (d : Dev) (n : Nat) (y : Xact) (r : XactResult) : Dev :=
  let c := y.ctx
  let x := d.ctx c
  match r with
  | .data pid sq bytes =>
    if x.dirIn then d.pollData n y pid sq bytes else ((d.pollUnclaim y).pollError c).reapSub c
  | .ack =>
    if x.dirIn then ((d.pollUnclaim y).pollError c).reapSub c
    else
      let d1 := d.updCtx c fun z => if z.mult = 0 then z.bump else { z with errRun := 0 }
      let sent := min y.out.length ((y.got.length + 1) * max x.mps 1)
      if sent < y.out.length && x.ttValid = false then
        d1.pollMore n { y with got := y.got ++ [0], pid := x.pollPid y.out.length (y.got.length + 1) }
      else match d1.subscription c with
        | some s => if y.orphan then d1.reapSub c else d1.outDone c s y
        | none => d1
  | .nyet =>
    if y.part = 2 ∨ y.part = 3 then d.pollMore n { y with part := y.part + 9 }
    else if y.part = 4 then (d.pollUnclaim y).reapSub c
    else ((d.pollUnclaim y).pollError c).reapSub c
  | .nak => ((d.pollUnclaim y).pollNak c).reapSub c
  | .nrdy =>
    if x.speed = 3 then (((d.pollUnclaim y).updCtx c fun z => { z with flow := true }).pollNak c).reapSub c
    else ((d.pollUnclaim y).pollError c).reapSub c
  | .erdy _ => d
  | .stall =>
    (((d.pollUnclaim y).updCtx c fun z => { z with state := 2, errRun := 0 }).endSubscription c (some stStalled)).reapSub c
  | .error => ((d.pollUnclaim y).pollError c).reapSub c

/-! ## Babble (R202) -/

/-- A packet past the end of the microframe: the port enters ERROR. -/
def Dev.babblePort (d : Dev) (n : Nat) : Dev :=
  let d1 := (d.cutXacts n fun _ => true).babbleContexts (d.ctxsOf n)
  let d2 := d1.portEvt n 4
  (d2.enterError n).assert (srcPort n 11) 0

end Sys2Proof.Machine
end

