-- ==== Sys2Proof/Machine/Present.lean ====
section
/-! DEFINITION. Presentation of a port to its engine, and its withdrawal (R18, R19, R201). -/

namespace Sys2Proof.Machine

open Sys2Proof

/-! ## Presentation (R18, R19) -/

/-- The engine that serves port n runs: the host engine, or in Limp as far as CONNECTED; the hub engine; the Couch. One
that runs stays with its ports through a Mill watchdog reset (R79). -/
def Dev.engineRuns (d : Dev) (n : Nat) : Bool :=
  (d.isEmbedded n && (d.boot.hostRuns || d.limp)) || (d.isTransparent n && d.isReady 6) || (d.isCoupler n && d.couchRuns) ||
    (d.port n).present

/-- A port is presented to its engine. -/
def Dev.presentTo (d : Dev) (n : Nat) : Dev :=
  if d.isTransparent n then d.hubConnect (d.port n).hubPort n
  else if d.isRoot n then
    let d1 := (((d.updPort n fun p => { p.quiet with
      state := .disconnected, ssTraining := decide (n < 8) && d.fldBit (aPortCfg n) 3 }).portEvt n 2).portChange n)
    if d1.isCoupler n then d1.linkStart n false else d1
  else if d.isCoupler n then (d.setFunc n UsbFunction.reset).linkStart n true
  else d

/-- A hub port shows no connection: it is disabled, as USB 2.0 has it. -/
def Dev.hubGone (d : Dev) (k : Nat) : Dev :=
  ((d.hubBit k 0 false).clearHubQueues k).updHubPort k fun p => { p with status := p.status &&& 0x0108, ttStopped := false, ssDisabled := false, warm := false }

/-- A port is withdrawn from its engine, with the effects of R201. -/
def Dev.withdraw (d : Dev) (n : Nat) : Dev :=
  if d.isTransparent n then d.hubGone (d.port n).hubPort
  else if d.isCoupler n then
    let d1 := d.linkDown n
    let d2 := if (d.link n).ufp then d1.setFunc n UsbFunction.reset else d1
    if (d2.port n).state = .notPresent then d2 else d2.detachPort n .notPresent
  else if d.isEmbedded n then d.detachPort n .notPresent
  else d

/-- Port n is present no more. -/
def Dev.withdrawn (d : Dev) (n : Nat) : Dev := ((d.updPort n fun p => { p with present := false }).portEvt n 0).withdraw n

/-- R18 is judged anew on port n. -/
def Dev.presentJudged (d : Dev) (n : Nat) : Dev :=
  let now := d.r18 n && d.engineRuns n
  if now = (d.port n).present then d
  else
    if now then ((d.updPort n fun p => { p with present := true }).portEvt n 0).presentTo n else d.withdrawn n

/-- The ports that have lost a condition of R18 are withdrawn in the cycle in which the loss is seen. -/
def Dev.withdrawLost (d : Dev) : Dev :=
  forN 32 (fun n a => if (a.port n).present && !a.r18 n then a.presentJudged n else a) d

/-- The answer of a row that may end R18 on a port. -/
def State.seen (s : State) (d : Dev) : Host.Outcome State Fault Refusal := s.next d.withdrawLost

end Sys2Proof.Machine
end

