-- ==== Sys2Proof/Machine/Headbox.lean ====
section
/-! DEFINITION. The Headbox (R252 to R257): what can be sent at an output, the choice of the next unit, parity as a unit
is read (R134, R135), and what an output does with its unit. The latency statistics, the tally and the end of a beat. -/

namespace Sys2Proof.Machine

/-! ## Frames that wait for a relay link (R283, R287) -/

/-- The entry of a list of queues whose head record was linked first. -/
def Dev.oldestOf {α : Type} (d : Dev) (qs : List (Nat × α)) : Option (Nat × α) :=
  (qs.foldl (fun (best : Option (Nat × Nat × α)) x =>
    match d.headSerial x.1, best with
    | some n, some (m, _) => if n < m then some (n, x) else best
    | some n, none => some (n, x)
    | none, b => b) none).map Prod.snd

/-- Where a frame to be sent waits. -/
inductive Waiting where
  /-- the link's own queue of the service -/
  | own
  /-- in transit, received over a link -/
  | via (i : Nat)
  /-- a notification of a subscriber -/
  | notif (s : Nat)
  deriving DecidableEq, Repr

/-- The subscriber of a queue; queues that have none count as subscriber 0 (R252). -/
def Waiting.sub : Waiting → Nat
  | .notif s => s
  | _ => 0

/-- The class in which a frame is served (R287). -/
def feederClass (v : Nat) : Waiting → Nat
  | .via _ => poolClass v
  | _ => v

/-- The queues that feed service v of link n, in groups of one class and one subscriber. -/
def Dev.feederGroups (d : Dev) (n v : Nat) : List (List (Nat × Waiting)) :=
  let own := [(relayQueue n v, Waiting.own)]
  let via := (List.range 5).map fun i => (rxQueue i n v, Waiting.via i)
  if v = 0 then [own ++ via]
  else own :: via :: d.subs.filterMap fun kv =>
    match kv.2.route with
    | some (.relay p, _, _) => if d.routeLink p = some n then some [(notifQueue v kv.1, .notif kv.1)] else none
    | _ => none

/-- A notification made ready for the route in force; one of another chip goes on as it came. -/
def Dev.notifPacket (d : Dev) (s : Nat) (p : List Byte) : List Byte :=
  if pkFwd p || (pkStatus p = stPoisoned && pkPlen p = 0) then p else ((d.finishNotif s p).map Prod.snd).getD p

/-- The frame that a record becomes: a notification is finished for its route, marked FWD and framed. -/
def Dev.frameOf (d : Dev) (v : Nat) (w : Waiting) (r : Rec) : List Byte :=
  match w with
  | .notif s =>
    let pos := match (d.subr s).route with | some (.relay p, _, _) => p | _ => 0
    relayFrame pos d.position v 0 r.poison (withFwd true (d.notifPacket s r.payload))
  | _ => r.payload.take 3 ++ [BitVec.ofNat 8 (byteAt r.payload 3 / 2 * 2 + b2n r.poison)] ++ r.payload.drop 4

/-- The frame at the head of a queue that feeds service v. -/
def Dev.headFrame (d : Dev) (v : Nat) (x : Nat × Waiting) : List Byte :=
  match d.headRecord x.1 with
  | some r => d.frameOf v x.2 r
  | none => []

/-- The link carries the frame at the head of a queue and the credits cover its cost (R276, R283). -/
def Dev.frameReady (d : Dev) (n v : Nat) (x : Nat × Waiting) : Bool :=
  let f := d.headFrame v x
  d.carries n v (pkOpcode (frPayload f)) && decide (frameCost (frLen f) ≤ ((d.link n).svc v).avail)

/-- The heads of service v that can start on link n, the oldest of each group. While the oldest of all waits for credits none
of its service passes it (R283). -/
def Dev.serviceHeads (d : Dev) (n v : Nat) : List (Nat × Waiting) :=
  let gs := d.feederGroups n v
  match d.oldestOf gs.flatten with
  | none => []
  | some x => if d.frameReady n v x then (gs.filterMap d.oldestOf).filter (d.frameReady n v) else []

/-- The USB link that carries relay link n is suspended. -/
def Dev.linkAsleep (d : Dev) (n : Nat) : Bool := if n < 4 then d.couplerSuspended n else d.u0.suspended

/-- Link n sends frames. -/
def Dev.linkSends (d : Dev) (n : Nat) : Bool :=
  d.couchRuns && !d.halted && !d.linkAsleep n && ((d.link n).state.lively || (d.link n).state = .resetting)

/-! ## What can be sent -/

/-- A unit that waits at an output. -/
inductive Work where
  | xfer (t : Transfer)
  /-- a link-control frame -/
  | linkControl
  /-- a frame of relay service v at the head of a queue -/
  | relay (v queue : Nat) (w : Waiting)
  | response
  | notif (s : Nat)
  /-- an answer of the IP layer -/
  | netAnswer
  /-- a SuperSpeed packet of the hub engine (R223) -/
  | superSpeed
  /-- a transaction of the TT of a hub port -/
  | translated (hubPort : Nat) (periodic : Bool)
  deriving DecidableEq, Repr

/-- A unit with its class, its subscriber and its size. -/
structure Cand where
  cls : Nat
  sub : Nat
  size : Nat
  work : Work
  deriving DecidableEq, Repr

/-- Charge of the next transaction of a context's transfer, one packet of it, in the units of its port (R236, R253). -/
def Dev.xferSize (d : Dev) (t : Transfer) : Nat :=
  let x := d.ctx t.ctx
  if d.byFrame x.port then fsCharge x.speed x.mps
  else if x.ttValid then
    let cs := d.charges t.ctx
    ((if t.splitOpen then cs.getD 1 (0, 0) else cs.headD (0, 0))).2
  else if x.speed = 3 then 120 + x.mps
  else 480 + payBits x.mps

/-- Bytes of a packet on the wire of an output: the UDP frame of 64 bytes or more, or SPI words with lead and trail. -/
def wireSize (r : Route) (n : Nat) : Nat :=
  match r with
  | .udp _ _ vlan v6 _ _ _ _ => max 64 (18 + (if vlan.isSome then 4 else 0) + (if v6 then 48 else 28) + n)
  | _ => 4 * ceilDiv n 4 + 8

/-- The payload length of the head record of a queue. -/
def Dev.headLen (d : Dev) (q : Nat) : Nat :=
  match d.headRecord q with | some r => r.payload.length | none => 0

/-- A queue holds a record. -/
def Dev.queued (d : Dev) (q : Nat) : Bool := !(d.queue q).stamps.isEmpty

/-- The route of the oldest response that waits at output o. -/
def Dev.headRoute (d : Dev) (o : Nat) : Route := if o = 33 ∨ o = 34 then (d.eth (o - 33)).rspTo.headD .spi else .spi

/-- The class in which the hub engine works: SV2 periodic, SV5 otherwise (DESIGN CHOICE). -/
def ttClass (periodic : Bool) : Nat := if periodic then 2 else 5

/-- What the hub engine can start at output o: a SuperSpeed packet, and on a port the next transaction of its TT when none is
in progress (R223). -/
def Dev.hubCands (d : Dev) (o : Nat) : List Cand :=
  let ss : List Cand := if d.queued (ssQueue o) then [⟨5, 0, 120 + d.headLen (ssQueue o), .superSpeed⟩] else []
  if o = 32 then ss
  else
    let k := (d.port o).hubPort
    let h := d.hubPort k
    let busy := h.ttBuffers.any fun b => b.sent && b.result.isNone
    let tt (periodic : Bool) : List Cand :=
      if !busy && d.queued (ttQueue k periodic false) then
        [⟨ttClass periodic, 0, fsCharge (if bit h.status 9 then 0 else 1) (d.headLen (ttQueue k periodic false)), .translated k periodic⟩]
      else []
    ss ++ tt true ++ tt false

/-- The charge of a relay frame with `len` bytes of payload: its transactions, with the short or empty packet that ends it
(R236, R267). -/
def Dev.frameCharge (d : Dev) (n len : Nat) : Nat :=
  let b := 16 + len
  if (d.link n).speed = 3 then 120 * (b / 1024 + 1) + b
  else b / 512 * (480 + payBits 512) + (480 + payBits (b % 512))

/-- The frames that can start on link n among some services: link control first, and of the frames in transit in SV4 those of
the lowest service (R270, R287). -/
def Dev.linkCands (d : Dev) (n : Nat) (svcs : List Nat) : List Cand :=
  if !d.linkSends n then []
  else
    let ctl : List Cand := match (d.link n).ctl with
      | c :: _ => if svcs.contains 0 then [⟨0, 0, d.frameCharge n (frLen c), .linkControl⟩] else []
      | [] => []
    let all : List Cand := if d.posValid then svcs.flatMap fun v => (d.serviceHeads n v).map fun x =>
        ⟨feederClass v x.2, x.2.sub, d.frameCharge n (frLen (d.headFrame v x)), .relay v x.1 x.2⟩ else []
    ctl ++ all.filter (fun c => c.cls ≠ 4) ++ (all.filter fun c => c.cls = 4).take 1

/-- The services that compete with service v at an end of link n: all at a DFP, those of its pipe at a UFP, whose host chooses
between the pipes (R260, R261). -/
def Dev.rivals (d : Dev) (n v : Nat) : List Nat :=
  if !(d.link n).ufp then [0, 1, 2, 3] else if v < 2 then [0, 1] else [2, 3]

/-- The units that could start at output o, first the oldest of each queue (R252). What a UFP sends on IN pipes leaves by rows of
its own: its host starts the transaction. -/
def Dev.cands (d : Dev) (o : Nat) : List Cand :=
  if o < 32 then
    if d.isTransparent o then (if d.served o then d.hubCands o else [])
    else ((d.transfers.filter fun t => (d.ctx t.ctx).port = o && d.attemptable t).map fun t =>
      let x := d.ctx t.ctx
      (⟨d.ctxClass t.ctx, if x.owned then x.owner else 0, d.xferSize t, .xfer t⟩ : Cand)) ++
      if d.isCoupler o && !(d.link o).ufp then d.linkCands o [0, 1, 2, 3] else []
  else if o = 32 then d.hubCands 32
  else if (o = 33 || o = 34) && !(d.eth (o - 33)).linkUp then []
  else
    (if d.queued o then [⟨0, 0, wireSize (d.headRoute o) (d.headLen o), .response⟩] else []) ++
      (if o < 35 && d.queued (netQueue (o - 33)) then [⟨netClass, 0, 4 + d.headLen (netQueue (o - 33)), .netAnswer⟩] else []) ++
      if d.limp then [] else ([1, 2, 3] : List Nat).flatMap fun c => d.subs.filterMap fun kv =>
        match kv.2.route with
        | some (r, _, _) =>
          if d.routeOutput r = some o && d.queued (notifQueue c kv.1) then
            some ⟨c, kv.1, wireSize r (d.headLen (notifQueue c kv.1)), .notif kv.1⟩
          else none
        | none => none

/-! ## Room before the next periodic transaction (R243) -/

/-- The free stretches of the unit of planning in progress on port n, and the place of bit time t in it. -/
def Dev.gaps (d : Dev) (n : Nat) : List (Nat × Nat) :=
  let mf := d.deckle.mf
  let ps := d.placedWhere n (d.unitOf n mf) d.tokenDue
  let ends := endsOf (d.burst n) 200 ps
  let len (i : Nat) : Nat := (60000 + kOf d.deckle.planQ d.deckle.planR d.beatLen i).toNat
  let whole := if d.byFrame n then ((List.range 8).map fun i => len (mf / 8 * 8 + i)).foldl (· + ·) 0 else len mf
  (0 :: ends).zip (ps.map Placed.start ++ [whole])

/-- Whether a non-periodic transaction may start now on USB output o, at bit time t of the microframe. Without a grid
nothing is planned; a TRANSPARENT port holds no polls and runs in the microframes of the external host (R33). Of a relay frame
the first transaction is judged. -/
def Dev.fits (d : Dev) (o t : Nat) (c : Cand) : Bool :=
  if 32 ≤ o || d.isTransparent o || !d.deckle.running then true
  else
    let off := if d.byFrame o then 60000 * (d.deckle.mf % 8) else 0
    let packet := if (d.port o).ss then 120 + 1024 else 480 + payBits 512
    let size := match c.work with
      | .relay _ _ _ | .linkControl => min packet c.size
      | _ => if d.byFrame o then 40 * c.size else c.size
    (d.gaps o).any fun g => decide (g.1 ≤ off + t ∧ off + t + size ≤ g.2)

/-! ## The choice (R253, R254) -/

/-- The output runs at full or low speed: a root port by its speed, a TRANSPARENT port as its hub port shows. -/
def Dev.slowOutput (d : Dev) (o : Nat) : Bool :=
  if d.isTransparent o then !bit (d.hubPort (d.port o).hubPort).status 10 && d.u0.speed ≠ 3 else d.byFrame o

/-- Capacity of an output in a microframe. The link rate of an E port is open. -/
def Dev.capacity (d : Dev) (o : Nat) : Nat × Dev :=
  if o < 33 then (if o < 32 && d.slowOutput o then 1500 else 60000, d)
  else if o < 35 then let w := d.freeWord; (w.1.toNat, w.2)
  else (62500, d)

/-- MIN, MAX and WEIGHT of a class at an output. -/
def Dev.shareMin (d : Dev) (o c cap : Nat) : Nat := d.fld (aShare o c) 8 7 * cap / 64
def Dev.shareMax (d : Dev) (o c cap : Nat) : Nat := d.fld (aShare o c) 16 7 * cap / 64
def Dev.weight (d : Dev) (o c : Nat) : Nat := d.fld (aShare o c) 0 8

/-- `rr_sub`: the unit of the next subscriber, in round-robin order, that has one ready in the class. -/
def Dev.rrSub (d : Dev) (o c : Nat) (cs : List Cand) : Option Cand :=
  let mine := cs.filter fun x => x.cls = c
  let next := d.rrOf (8 * o + c)
  let rank (x : Cand) : Nat := (x.sub + 1024 - next) % 1024
  mine.foldl (fun (best : Option Cand) x => match best with
    | some b => if rank x < rank b then some x else best
    | none => some x) none

/-- The deficit round robin among SV3 to SV7. `heads` gives the unit of each eligible class. -/
def Dev.drr (d : Dev) (o : Nat) (heads : Nat → Option Cand) : Nat → Option (Cand × Dev)
  | 0 => none
  | fuel + 1 =>
    let c := d.drrOf o
    match heads c with
    | some x =>
      if (x.size : Int) ≤ d.deficitOf (8 * o + c) then some (x, d.updDeficitOf (8 * o + c) (· - x.size))
      else
        let n := if c = 7 then 3 else c + 1
        ((d.setDrrOf o n).updDeficitOf (8 * o + n) (· + 256 * d.weight o n)).drr o heads fuel
    | none =>
      let n := if c = 7 then 3 else c + 1
      (((d.setDeficitOf (8 * o + c) 0).setDrrOf o n).updDeficitOf (8 * o + n) (· + 256 * d.weight o n)).drr o heads fuel

/-- Rounds that the search is given: 235 rounds of five classes, and the first. -/
def drrFuel : Nat := 1200

/-- `next(o)` among the units that `among` gives, but for the placed polls, which leave at their strobe: the unit chosen, and
the device after the search. -/
def Dev.chooseUnit (d : Dev) (o : Nat) (among : Dev → List Cand) : Option (Cand × Dev) :=
  let t := d.bitNow
  let cap := t.2.capacity o
  let d1 := cap.2
  let cs := (among d1).filter (d1.fits o t.1)
  let used (c : Nat) := d1.usedOf (8 * o + c)
  match ([0, 1, 2] : List Nat).findSome? fun c => d1.rrSub o c cs with
  | some x => some (x, d1)
  | none =>
    match ([3, 4, 5, 6, 7] : List Nat).findSome? fun c =>
        if used c < d1.shareMin o c cap.1 then d1.rrSub o c cs else none with
    | some x => some (x, d1)
    | none =>
      let heads (c : Nat) : Option Cand := if used c < d1.shareMax o c cap.1 then d1.rrSub o c cs else none
      if ([3, 4, 5, 6, 7] : List Nat).all fun c => (heads c).isNone then none
      else d1.drr o heads drrFuel

/-- The unit that output o starts next. -/
def Dev.nextUnit (d : Dev) (o : Nat) : Option (Cand × Dev) := d.chooseUnit o fun a => a.cands o

/-- The unit is granted: its use is counted, the round robin moves past its subscriber, and TRIM may end (R308). -/
def Dev.grant (d : Dev) (o : Nat) (x : Cand) : Dev :=
  ((d.updUsedOf (8 * o + x.cls) (· + x.size)).setRrOf (8 * o + x.cls) ((x.sub + 1) % 1024)).noteGrant o x.cls

/-! ## A record leaves the Vat at an edge (R110, R135) -/

/-- Places of the cells of a record that fail their check. -/
def failing (cells : List Cell10) : List Nat := (List.range cells.length).filter fun i => badCell (cells.getD i 0)

/-- Requester `who` takes the Avvoset packet at the head of queue q: what is sent, with whether the check field is corrupted
because poison was found while sending; or none when its header is poisoned and it is discarded. Poison in L0 is known before
sending, and all poison is where the packet is complete before it leaves. A packet that is replaced, corrupted or discarded
counts in the broke record of its queue (R136). -/
def Dev.takePacket (d : Dev) (who q : Nat) (bad : List Nat) (complete : Bool) :
    Option (List Byte × Option (List Byte × Bool) × Dev) :=
  match d.dequeue who q bad with
  | none => none
  | some (r, cells, d1) =>
    let f := failing cells
    if f.any (· < 36) then
      some (r.payload, none, (d1.broke q 2 1).count (selNotifDrop (pkSub r.payload)))
    else if r.poison || (complete && !f.isEmpty) then some (r.payload, some (stomp r.payload, false), d1.broke q 2 1)
    else if f.isEmpty then some (r.payload, some (r.payload, false), d1)
    else some (r.payload, some (r.payload, true), d1.broke q 2 1)

/-- The packet of a response or a notification as it leaves: a notification of this chip is finished for the route in
force; one of another chip goes on as it came. -/
def Dev.outgoing (d : Dev) (w : Work) (p : List Byte) : List Byte :=
  match w with
  | .notif s => d.notifPacket s p
  | _ => p

/-- The SPI response FIFO (R92): it holds 8,192 bytes. -/
def Spi.room (s : Spi) (n : Nat) : Bool := decide (s.rsp.foldl (fun m p => m + p.length) 0 + n ≤ 8192)

/-- A packet leaves at E0 or E1 in its frame. -/
def Dev.sendUdp (d : Dev) (e : Nat) (route : Route) (p : List Byte) (bad : Bool) : Dev :=
  let f := d.udpFrame route p
  (f.2.sendUnit (33 + e) f.1 bad).updEth e fun x => { x with sentTo := some route }

/-- A packet leaves at E0, E1 or for the SPI's response FIFO. -/
def Dev.sendPacket (d : Dev) (o : Nat) (x : Cand) (bad : List Nat) : Dev :=
  let q := match x.work with | .notif s => notifQueue x.cls s | _ => o
  if o = 35 && !d.spi.room (d.headLen q + 16) then d
  else
    let route := match x.work with | .notif s => ((d.subr s).route.map Prod.fst).getD .spi | _ => d.headRoute o
    match d.takePacket (if o = 35 then rqSpi else rqMac (o - 33)) q bad (o = 35) with
    | none => d
    | some (p, out, d1) =>
      let d2 := if o < 35 && x.work = .response then (d1.grant o x).updEth (o - 33) fun e => { e with rspTo := e.rspTo.drop 1 }
        else d1.grant o x
      match out with
      | none => d2
      | some (sent, corrupt) =>
        let w := d1.outgoing x.work sent
        if o = 35 then { d2 with spi := { d2.spi with rsp := d2.spi.rsp ++ [w] } }
        else (d2.sendUdp (o - 33) route w corrupt).leaves p

/-- A record of queue q leaves whole at output o, its check field inverted when it is poisoned. -/
def Dev.sendRecord (d : Dev) (who q o : Nat) (x : Cand) (bad : List Nat) : Dev :=
  match d.dequeue who q bad with
  | none => d
  | some (r, cells, d1) =>
    let poison := poisonIn r cells
    let d2 := (d1.grant o x).sendUnit o r.payload poison
    if poison then d2.broke q 2 1 else d2

/-- The oldest buffer of a pipeline that has not been sent is on the port. -/
def ttSent (periodic : Bool) : List TtBuffer → List TtBuffer
  | [] => []
  | b :: t => if b.periodic = periodic && !b.sent then { b with sent := true } :: t else b :: ttSent periodic t

/-! ## A relay frame leaves (R283, R285) -/

/-- The link's engine takes the head record of a queue. -/
def Dev.takeFeeder (d : Dev) (n v : Nat) (q : Nat) (w : Waiting) : Option (Rec × Dev) :=
  match w with
  | .via i => d.poolTake i n v
  | _ => (d.dequeue (rqHs (linkOutput n)) q).map fun x => ({ x.1 with poison := poisonIn x.1 x.2.1 }, x.2.2)

/-- A link-control frame starts: it needs no credit (R270). -/
def Dev.sendControl (d : Dev) (n : Nat) : Dev :=
  match (d.link n).ctl with
  | [] => d
  | c :: rest => (d.updLink n fun x => { x with ctl := rest }).sendFrame n false c

/-- The frame of a unit starts, at its cost in credits. -/
def Dev.sendRelay (d : Dev) (n : Nat) (x : Cand) (v q : Nat) (w : Waiting) : Dev :=
  match d.takeFeeder n v q w with
  | none => d
  | some (r, d1) =>
    let f := d.frameOf v w r
    let d2 := if r.poison then d1.broke q 2 1 else d1
    let d3 := (d2.sendFrame n (decide (2 ≤ v)) f).updSvc n v fun c => { c with sent := c.sent + BitVec.ofNat 32 (frameCost (frLen f)) }
    let d4 := if w = .own then d3.leaves (frPayload f) else d3
    d4.grant (linkOutput n) x

/-- HEADBOX_GRANT on output o. -/
def Dev.headboxGrant (d : Dev) (o : Nat) (bad : List Nat) : Dev :=
  match d.nextUnit o with
  | none => d
  | some (x, d1) =>
    match x.work with
    | .xfer t =>
      let d2 := d1.attempt t bad
      if d2.transfers = d1.transfers then d else d2.grant o x
    | .linkControl => (d1.sendControl o).grant o x
    | .relay v q w => d1.sendRelay o x v q w
    | .netAnswer => d1.sendRecord (rqMac (o - 33)) (netQueue (o - 33)) o x bad
    | .superSpeed => d1.sendRecord (rqSs (min o 8)) (ssQueue o) o x bad
    | .translated k periodic =>
      (d1.sendRecord (rqHs o) (ttQueue k periodic false) o x bad).updHubPort k fun h =>
        { h with ttBuffers := ttSent periodic h.ttBuffers }
    | _ => d1.sendPacket o x bad

/-! ## Token buckets (R255) -/

/-- Refills every bucket that is not unlimited. -/
def Dev.refill (d : Dev) : Dev :=
  let ks := (d.regs.map Prod.fst).filterMap fun a =>
    if 0x041000 ≤ a ∧ a < 0x045000 ∧ (a - 0x041000) % 16 = 0 then some ((a - 0x041000) / 16) else none
  forEach ks (fun s x =>
    let r := x.reg (aRate s)
    if bit r 31 then x
    else x.updSubr s fun y => { y with tokens := min (x.fld (aBurst s) 0 24) (y.tokens + bits r 0 20) }) d

/-! ## Latency statistics (R256) -/

/-- E ← E + ((x − E) >> LAT_SHIFT), with 8 fraction bits. -/
def meanStep (e x shift : Nat) : Nat := ((e : Int) + ((256 * x : Int) - e) / 2 ^ shift).toNat

/-- Samples depth and age of every queue at slot 0. -/
def Dev.sampleLatency (d : Dev) : Dev :=
  let sh := d.fld aHbCfg 0 3
  forEach (d.vat.queues.map Prod.fst) (fun q a =>
    let x := a.queue q
    let depth := a.qCells q
    let r : Nat × Dev := match x.stamps with
      | [] => (0, a)
      | (at0, _) :: _ =>
        let w := a.freeWord
        (min (2 ^ 24 - 1) ((a.now - at0) * 125 - min ((a.now - at0) * 125) (w.1.toNat % 125)), w.2)
    r.2.updQueue q fun y =>
      { y with
        maxDepth := max y.maxDepth depth, meanDepth := meanStep y.meanDepth depth sh
        maxAge := max y.maxAge r.1, meanAge := meanStep y.meanAge r.1 sh }) d

/-- Latches the summaries at the beat-end strobe; the maxima restart. -/
def Dev.latchLatency (d : Dev) : Dev :=
  forEach (d.vat.queues.map Prod.fst) (fun q a => a.updQueue q fun y =>
    { y with
      latMaxDepth := y.maxDepth, latMeanDepth := y.meanDepth, latMaxAge := y.maxAge, latMeanAge := y.meanAge
      maxDepth := 0, maxAge := 0 }) d

/-! ## The tally (R149 to R151) -/

/-- Whether one of the windows of R150 is open: a queue reset or a free-list rebuild. -/
def Dev.windowOpen (d : Dev) : Bool :=
  d.vat.queues.any (fun kq => kq.2.state = .resetting) || d.vat.free.any fun kf => kf.2.quarantined

/-- Raises VAT_TALLY with the two sides of an equation. -/
def Dev.tallyFault (d : Dev) (a b : Nat) : Dev :=
  (d.flag aVatTally 31).assert srcVatTally (at_ (a % 65536) 16 ||| at_ (b % 65536) 0)

/-- Checks both equations. U is the sum of the class usages, a book of its own. -/
def Dev.tallyCheck (d : Dev) : Dev :=
  let f := d.freeAll
  let lh := d.inUse
  let s := 8192 * depthBanks d.vat.depth
  let u := (List.range 8).foldl (fun n c => n + d.usedSegs c) 0
  let c := (List.range 8).foldl (fun n c => n + d.claim c) 0
  if f + lh ≠ s then d.tallyFault (f + lh) s
  else if u ≠ lh + c then d.tallyFault u (lh + c)
  else d

/-- The check at the beat-end strobe: at once, or deferred while a window is open. -/
def Dev.beatTally (d : Dev) : Dev :=
  if !d.isReady 4 then d
  else if d.windowOpen then { d with vat := { d.vat with tallyDue := true } }
  else ({ d with vat := { d.vat with lastDefer := 0, tallyDue := false } }).tallyCheck

/-! ## The end of a beat (R248) -/

/-- The entries of the beat leave as digests; before `READY.MILL` they are discarded (R79). -/
def Dev.buildDigests (d : Dev) : Dev :=
  let beat := d.deckle.beat
  forEach (d.subs.map Prod.fst) (fun s a =>
    match (a.subr s).digest with
    | [] => a
    | es =>
      let b := a.updSubr s fun x => { x with digest := [] }
      if b.notifies then b.sendDigest s beat es else b) d

/-- Deckle cycles for which the PHY of a port was powered in the beat (R247): all of the beat without gating, and open in
BURST and in TRIM (R308). -/
def Dev.phyOn (d : Dev) : Dev :=
  forN 33 (fun n a =>
    if n < 32 && a.isDisabled n then a
    else if n < 32 && !a.burst n && a.power.state ≠ .trim then a.setCounter (selector 0x23 0 n) a.beatBits.toNat
    else
      let w := a.freeWord
      w.2.setCounter (selector 0x23 0 n) w.1.toNat) d

/-- The beat-end strobe: heartbeats, digests, the tally, folded FAULT_EVENTs, the latency summaries. -/
def Dev.beatEnd (d : Dev) : Dev :=
  let d1 := forEach (d.subscriptions.map Prod.fst) (fun c a => a.subBeatEnd c) d
  let d2 := (d1.buildDigests.beatTally.foldedEvents).latchLatency.phyOn
  d2.updDk fun x => { x with beatEnded := true }

end Sys2Proof.Machine
end

