-- ==== Sys2Proof/Machine/Pd.lean ====
section
/-! DEFINITION. The Type-C state machine and the PD policy engine of each port (R317 to R352), and the port supply bus
(R334 to R336): the acts of an engine, and the meaning of each row. Engines are P0 to P31 as 0 to 31 and U0 as 32. A
message that the engine's present sequence does not expect changes nothing (DESIGN CHOICE). -/

namespace Sys2Proof.Machine

/-! ## What an engine is and may do -/

/-- The engine is Attached, messaging is enabled, and it is not that of a held port (R349). -/
def Dev.pdTalks (d : Dev) (n : Nat) : Bool :=
  d.tcAttached n && d.fldBit (aPdCfg n) 1 && !(d.isHeld n && d.fc.chipSafe)

/-- `CAPTIVE`, which is permitted on COUPLER ports only (R321). -/
def Dev.captive (d : Dev) (n : Nat) : Bool := d.isCoupler n && d.fldBit (aPdCfg n) 11

/-- The engine may take either power role. -/
def Dev.pdDual (d : Dev) (n : Nat) : Bool := d.pdRole n = some 2

/-- A voltage transition is in progress (R340). -/
def Ams.transition : Ams → Bool
  | .srcTransition _ => true | .srcVout _ => true | .srcWindow _ => true | .snkTransition _ => true | _ => false

/-- The pin of the orientation shows SinkTxOK, or collision avoidance does not apply (R325). -/
def Pd.sinkTxOk (e : Pd) : Bool := e.source || e.rev = 1 || e.pin = .rp30

/-- Sends a message: it becomes the content of the transmit register (R26). -/
def Dev.pdSay (d : Dev) (n : Nat) (m : PdMsg) : Dev := d.updEng n fun e => { e with tx := some m }

/-- Raises a PD fault source: PORT kind k of port n, or U0_PD for a hard reset or an error recovery of U0 (R376, R378). -/
def Dev.pdFault (d : Dev) (n k : Nat) : Dev :=
  let ctx := d.reg (aPdEvent n) &&& 0xFFFF
  if n < 32 then d.assert (srcPort n k) ctx else if k = 6 ∨ k = 7 then d.assert srcU0Pd ctx else d

/-- The engine has heard a message of its partner. -/
def Dev.pdHeard (d : Dev) (n : Nat) : Dev := d.updEng n fun e => { e with partnerPd := true }

/-! ## Capabilities (R326, R327, R330) -/

/-- The cable limit in 10 mA (R330). -/
def Dev.cableLimit (d : Dev) (n : Nat) : Nat :=
  match d.fld (aPdCable n) 0 2 with
  | 0 => 300
  | 2 => 150
  | _ => if (d.eng n).limit5A && (d.eng n).vconn then 500 else 300

/-- `LIMIT` of the port in 10 mA. -/
def Dev.portLimit (d : Dev) (n : Nat) : Nat := 5 * d.fld (aEfuseCfg n) 0 7

/-- Current of a source object in 10 mA. -/
def pdoCurrent (p : W32) : Nat := if bits p 30 2 = 0 then bits p 0 10 else 5 * bits p 0 7

/-- The object as offered: its current clamped to a limit in 10 mA. -/
def clampPdo (limit : Nat) (p : W32) : W32 :=
  if bits p 30 2 = 0 then setBits p 0 10 (min (bits p 0 10) limit) else setBits p 0 7 (min (bits p 0 7) (limit / 5))

/-- Source objects in use. -/
def Dev.srcPdos (d : Dev) (n : Nat) : List W32 :=
  ((List.range (d.fld (aPdCfg n) 13 3)).map fun k => d.reg (aSrcPdo n k)).filter (· ≠ 0)

/-- The Source_Capabilities of the port now. Object 0 carries the role bits of `PD_CFG`; a revision 2.0 partner is offered
no APDO. -/
def Dev.offer (d : Dev) (n : Nat) : List W32 :=
  let limit := min (d.cableLimit n) (d.portLimit n)
  let ps := (d.srcPdos n).filter fun p => bits p 30 2 = 0 || (d.eng n).rev ≠ 1
  (ps.map (clampPdo limit)).mapIdx fun k p =>
    if k = 0 then setBit (setBit p 29 (d.pdDual n)) 25 (d.fldBit (aPdCfg n) 9) else p

/-- Sink objects in use: U0's is Fixed 5 V at 100 mA (R328). -/
def Dev.snkPdos (d : Dev) (n : Nat) : List W32 :=
  if n = 32 then [0x0001900A]
  else ((List.range (d.fld (aPdCfg n) 16 3)).map fun k => d.reg (aSnkPdo n k)).filter (· ≠ 0)

/-- Sends Source_Capabilities. -/
def Dev.sendSourceCaps (d : Dev) (n : Nat) : Dev :=
  let ps := d.offer n
  d.updEng n fun e =>
    { e with tx := some (.sourceCapabilities ps), offered := ps, ams := .srcCaps, sendCaps := false, capsCount := e.capsCount + 1 }

/-- Sends an Alert of Source Input Change (R344, R346). -/
def Dev.sendAlert (d : Dev) (n : Nat) : Dev :=
  ((d.pdSay n (.alert 0x20000000)).updEng n fun e => { e with alertWaiting := false, alertHold := true }).pdEvt n evAlertSent

/-! ### The sink's choice (R328) -/

/-- What a sink would request: object position, contract and RDO. -/
structure Choice where
  contract : Contract
  rdo : W32
  power : Nat
  deriving DecidableEq, Repr

/-- The choice that an offered object allows. -/
def Dev.choiceOf (d : Dev) (n pos : Nat) (p : W32) : Option Choice :=
  let pps := d.reg (aSnkPps n)
  if bits p 30 2 = 0 then
    match (d.snkPdos n).find? fun s => bits s 30 2 = 0 && bits s 10 10 = bits p 10 10 && decide (bits s 0 10 ≤ bits p 0 10) with
    | some s =>
      let i := bits s 0 10
      some ⟨⟨pos, bits p 10 10 * 5 / 2, i, false, 0⟩, at_ pos 28 ||| at_ i 10 ||| at_ i 0, bits p 10 10 * 5 / 2 * i⟩
    | none => none
  else if bits p 28 4 = 12 && bit pps 31 && decide (5 * bits p 8 8 ≤ bits pps 16 11) && decide (bits pps 16 11 ≤ 5 * bits p 17 8) &&
      decide (bits pps 0 7 ≤ bits p 0 7) then
    let v := bits pps 16 11
    let i := 5 * bits pps 0 7
    some ⟨⟨pos, v, i, true, 5 * bits p 8 8⟩, at_ pos 28 ||| at_ v 9 ||| at_ (bits pps 0 7) 0, v * i⟩
  else none

/-- The request on Source_Capabilities: the matching object of the highest voltage × current, the lowest position among
equals; else PDO 1 at the current of sink PDO 0 with Capability Mismatch. -/
def Dev.choose (d : Dev) (n : Nat) (pdos : List W32) : Choice :=
  let all := (pdos.mapIdx fun k p => d.choiceOf n (k + 1) p).filterMap id
  match all.foldl (fun (best : Option Choice) x => match best with
      | some b => if b.power < x.power then some x else best
      | none => some x) none with
  | some x => x
  | none =>
    let i := bits ((d.snkPdos n).headD 0) 0 10
    ⟨⟨1, fiveVolt, i, false, 0⟩, at_ 1 28 ||| at_ 1 26 ||| at_ i 10 ||| at_ i 0, 0⟩

/-- Sends a Request on the capabilities last received. In dead-battery service U0 makes none. -/
def Dev.sendRequest (d : Dev) (n : Nat) : Dev :=
  let e := d.eng n
  if d.dead || e.sourceCaps.isEmpty then d
  else
    let c := d.choose n e.sourceCaps
    (d.pdSay n (.request c.rdo)).updEng n fun x => { x with ams := .snkRequest c.contract, sendCaps := false }

/-! ### The end of an AMS -/

/-- Sends Get_Sink_Cap. -/
def Dev.sendGetSinkCap (d : Dev) (n : Nat) : Dev :=
  (d.pdSay n .getSinkCap).updEng n fun e => { e with ams := .getSnkCap, getSnkWaits := false }

/-- The AMS ends: what has become due meanwhile is sent. An Alert goes first, then Source_Capabilities or the sink's Request, then
Get_Sink_Cap. -/
def Dev.amsEnd (d : Dev) (n : Nat) : Dev :=
  let d1 := d.updEng n fun e => { e with ams := .idle }
  let d2 := if (d1.eng n).alertWaiting then d1.sendAlert n else d1
  let d3 := if (d2.eng n).sendCaps then (if (d2.eng n).source then d2.sendSourceCaps n else d2.sendRequest n) else d2
  if (d3.eng n).getSnkWaits && (d3.eng n).source && (d3.eng n).ams = .idle then d3.sendGetSinkCap n else d3

/-- A new Request of an Attached sink: at once, or when the running AMS ends (R329, R351, R352). -/
def Dev.askRequest (d : Dev) (n : Nat) : Dev :=
  let e := d.eng n
  if d.pdTalks n && !e.source then
    if e.ams = .idle then d.sendRequest n else d.updEng n fun x => { x with sendCaps := true }
  else d

/-- New Source_Capabilities of an Attached source: at once, or when the running AMS ends (R345, R351, R373). -/
def Dev.resendCaps (d : Dev) (n : Nat) : Dev :=
  let e := d.eng n
  if d.pdTalks n && e.source then
    if e.ams = .idle && (d.fuse n).pg && e.discDone then d.sendSourceCaps n else d.updEng n fun x => { x with sendCaps := true }
  else d

/-! ## Failures (R332, R333) -/

/-- A held or retried swap is dropped, or a running one ends without success (R339, R340). -/
def Dev.swapFail (d : Dev) (n : Nat) (pr : Bool) (status : Nat) : Dev :=
  let d1 := d.updEng n fun e => { e with
    heldSwaps := e.heldSwaps.filter (· ≠ pr), retrySwap := if e.retrySwap = some pr then none else e.retrySwap, swapWaits := 0 }
  let d2 := (d1.pdTell n evSwapFail).endActions n [if pr then 0 else 1] status
  if !pr && (d2.isEmbedded n || d2.isTransparent n) && !(d2.eng n).dfp then (d2.pdEvt n evDrRefused) else d2

/-- Every swap of this end is dropped. -/
def Dev.dropSwaps (d : Dev) (n status : Nat) : Dev :=
  let e := d.eng n
  let has (pr : Bool) : Bool := e.heldSwaps.contains pr || e.retrySwap = some pr ||
    (match e.ams with
     | .prSwapSent => pr | .drSwapSent => !pr
     | .prToSnk => pr | .prToSnkDischarge => pr | .prToSnkWait => pr | .prToSrcWait => pr | .prToSrcPower => pr
     | _ => false)
  let d1 := if has true then d.swapFail n true status else d
  if has false then d1.swapFail n false status else d1

/-- ERROR_RECOVERY under R332 or by command, with its source (R376). -/
def Dev.pdErrorRecovery (d : Dev) (n : Nat) : Dev := (d.enterErrorRecovery n).pdFault n 7

/-- A hard reset, sent or received. After nHardResetCount of them without a contract the engine goes to ERROR_RECOVERY. -/
def Dev.hardResetAct (d : Dev) (n : Nat) (received : Bool) : Dev :=
  if 2 ≤ (d.eng n).hardResets && !received then d.pdErrorRecovery n
  else
    let d1 := (((d.dropSwaps n stTimeout).pdTell n evHardReset).pdFault n 6)
    let d2 := if received then d1 else (d1.pdSay n .hardReset).endActions n [3] stOk
    if !d2.tcAttached n then d2
    else if 2 ≤ (d2.eng n).hardResets then d2.pdErrorRecovery n
    else
      let src := (d2.eng n).source
      let d3 := d2.updEng n fun e =>
        { e with
          contract := none, vconn := false, hardResets := e.hardResets + 1, capsCount := 0, offered := [], sendCaps := false
          ams := if src then .hardSrcStart else .hardSnk }
      let d4 := if n < 32 then d3.updFuse n fun f => { f with pps := none } else d3
      if src then d4.psbStandby n else if n < 32 then d4.sinkPathOff n else d4

/-- A Soft_Reset of this end: step 1 of R332. -/
def Dev.softResetAct (d : Dev) (n : Nat) : Dev :=
  (((d.pdSay n .softReset).updEng n fun e => { e with ams := .softReset }).pdEvt n evSoftReset).pdFault n 5

/-- R337 is not met. -/
def Dev.psrdyLate (d : Dev) (n : Nat) : Dev := ((d.pdTell n evPsrdyLate).pdFault n 8).hardResetAct n false

/-! ## Contracts -/

/-- An explicit contract. On a source, PPS mode follows it (R360); a sink's path closes. -/
def Dev.makeContract (d : Dev) (n : Nat) (c : Contract) : Dev :=
  let e := d.eng n
  let d1 := d.updEng n fun x => { x with contract := some c, hardResets := 0, capsCount := 0, ams := .idle }
  let d2 := if n < 32 && e.source then
      d1.updFuse n fun f =>
        { f with
          dsch := false
          pps := if c.pps then some (min (d.fld (aEfuseCfg n) 0 7) (max 10 (ceilDiv c.current 5))) else none }
    else if n < 32 then d1.sinkPathOn n else d1
  if e.contract = some c then d2 else d2.pdTell n evContract

/-- VBUS as commanded, in 20 mV. -/
def Pd.volt (e : Pd) : Nat := match e.contract with | some c => c.volt | none => fiveVolt

/-- Sends a swap request, or holds it while an AMS runs or the source shows SinkTxNG (R338, R339). -/
def Dev.askSwap (d : Dev) (n : Nat) (pr : Bool) : Dev :=
  let e := d.eng n
  if e.ams ≠ .idle || !e.sinkTxOk || !d.pdTalks n then
    d.updEng n fun x => { x with heldSwaps := if x.heldSwaps.contains pr then x.heldSwaps else x.heldSwaps ++ [pr] }
  else (d.pdSay n (if pr then .prSwap else .drSwap)).updEng n fun x =>
    { x with ams := if pr then .prSwapSent else .drSwapSent, drTried := x.drTried || !pr, retrySwap := none }

/-- R317 lets this end ask for the swap. -/
def Dev.swapAllowed (d : Dev) (n : Nat) (pr : Bool) : Bool :=
  if pr then d.pdDual n && n < 32
  else d.isCoupler n || ((d.isEmbedded n || d.isTransparent n) && !(d.eng n).dfp)

/-- R318: a sink on an EMBEDDED or TRANSPARENT port asks to become DFP once a contract exists. -/
def Dev.tryDfp (d : Dev) (n : Nat) : Dev :=
  let e := d.eng n
  if (d.isEmbedded n || d.isTransparent n) && e.contract.isSome && !e.dfp && !e.drTried && e.ams = .idle then d.askSwap n false
  else d

/-- A sequence ends in success: the Alert and the capabilities that wait, then R318. -/
def Dev.amsDone (d : Dev) (n : Nat) : Dev := (d.amsEnd n).tryDfp n

/-! ## The acts of PD_CTRL and PD_ACTION (R434): 0 PR_SWAP, 1 DR_SWAP, 2 SOFT_RESET, 3 HARD_RESET, 4 SRC_CAP, 5 REQUEST,
6 GET_SNK_CAP, 7 ERROR_RECOVERY -/

/-- The engine's role can take the action. -/
def Dev.actionFits (d : Dev) (n a : Nat) : Bool :=
  let e := d.eng n
  match a with
  | 4 => e.source && n < 32
  | 5 => !e.source
  | 6 => e.source && n < 32
  | 0 => n < 32
  | 1 => n < 32
  | 7 => n < 32
  | _ => true

/-- Does an action on an Attached engine. -/
def Dev.pdAct (d : Dev) (n a : Nat) : Dev :=
  if d.tcUnattached n || !d.actionFits n a || (d.isHeld n && d.fc.chipSafe) then d
  else match a with
    | 7 => d.pdErrorRecovery n
    | _ =>
      if !d.pdTalks n then d
      else match a with
        | 0 => if d.swapAllowed n true then d.askSwap n true else d.swapFail n true stNotPermitted
        | 1 => if d.swapAllowed n false then d.askSwap n false else d.swapFail n false stNotPermitted
        | 2 => d.softResetAct n
        | 3 => d.hardResetAct n false
        | 4 => d.resendCaps n
        | 5 => d.askRequest n
        | _ => if (d.eng n).ams = .idle then d.sendGetSinkCap n else d.updEng n fun e => { e with getSnkWaits := true }

/-! ## Coupler data roles (R342) -/

/-- The USB roles of a coupler port have changed: its relay link goes DOWN, the port leaves ENABLED or the function device
detaches, and both form again in the new roles. -/
def Dev.couplerTurn (d : Dev) (n : Nat) : Dev :=
  if d.isCoupler n then
    let d1 := (d.linkDown n).setFunc n UsbFunction.reset
    let d2 := if (d1.port n).state = .notPresent then d1 else d1.detachPort n .notPresent
    if (d2.port n).present then d2.presentTo n else d2
  else d

/-- A DR_Swap completes. -/
def Dev.drDone (d : Dev) (n : Nat) : Dev :=
  let d1 := d.updEng n fun e => { e with dfp := !e.dfp, swapWaits := 0 }
  ((d1.couplerTurn n).pdTell n evSwapDone).endActions n [1] stOk

/-! ## Type-C (R319 to R323) -/

def CcLevel.isRp (c : CcLevel) : Bool := c = .rpDefault || c = .rp15 || c = .rp30

/-- The pin on which a source sees exactly one Rd, or a sink exactly one Rp; a captive port watches CC1 alone. -/
def partnerPin (captive : Bool) (p : CcLevel → Bool) (cc1 cc2 : CcLevel) : Option Nat :=
  if captive then (if p cc1 then some 0 else none)
  else if p cc1 && !p cc2 then some 0 else if p cc2 && !p cc1 then some 1 else none

def Dev.srcPin (d : Dev) (n : Nat) : Option Nat := partnerPin (d.captive n) (· = .rd) (d.eng n).cc1 (d.eng n).cc2
def Dev.snkPin (d : Dev) (n : Nat) : Option Nat := partnerPin (d.captive n) CcLevel.isRp (d.eng n).cc1 (d.eng n).cc2

/-- Whether cable discovery runs on a source with VCONN (R330). -/
def Dev.discovers (d : Dev) (n : Nat) : Bool :=
  d.fld (aPdCable n) 0 2 = 1 && d.fldBit (aPdCfg n) 1 && (d.srcPdos n).any fun p => 300 < pdoCurrent p

/-- Ra is seen on the second CC pin of an engine whose partner is on `orient`; a captive port leaves that pin open (R321, R322). -/
def Pd.seesRa (e : Pd) (captive : Bool) : Bool := (if e.orient = 0 then e.cc2 else e.cc1) = .ra && !captive

/-- The source sees Ra, and so supplies VCONN. -/
def Dev.seesRa (d : Dev) (n : Nat) : Bool := (d.eng n).seesRa (d.captive n)

/-- A PR_Swap completes in the role given. A new source supplies VCONN where it sees Ra; a discovery that has ended stands, and one
that has not run comes before the first Source_Capabilities (R322, R330). -/
def Dev.prDone (d : Dev) (n : Nat) (source : Bool) : Dev :=
  let e := d.eng n
  let v := source && d.seesRa n
  let done := e.discDone || (source && !(v && d.discovers n))
  let d1 := d.updEng n fun x =>
    { x with
      source := source, tc := if source then .attachedSrc else .attachedSnk, contract := none, swapWaits := 0, vconn := v
      discDone := done, discTries := if e.discDone then x.discTries else 0, sendCaps := source && done, ams := .idle }
  (((d1.pdTell n evSwapDone).endActions n [0] stOk).amsEnd n)

/-- ATTACHED_SRC: the gate turns on, VCONN goes to the pin that shows Ra. -/
def Dev.attachSrc (d : Dev) (n pin : Nat) : Dev :=
  let e := d.eng n
  let other := if pin = 0 then e.cc2 else e.cc1
  let v := other = .ra && !d.captive n
  let d1 := d.updEng n fun x =>
    { x.cleared with
      tc := .attachedSrc, orient := pin, source := true, dfp := true, vconn := v, discDone := !(v && d.discovers n) }
  (if n < 32 then d1.gateOn n else d1).pdTell n evAttach

/-- ATTACHED_SNK. -/
def Dev.attachSnk (d : Dev) (n pin : Nat) : Dev :=
  let d1 := d.updEng n fun x => { x.cleared with tc := .attachedSnk, orient := pin, source := false, dfp := false }
  (if n < 32 then d1.sinkPathOn n else d1).pdTell n evAttach

/-- A state in which the engine presents Rp. -/
def TcState.rp : TcState → Bool
  | .unattachedSrc | .attachWaitSrc | .trySrc | .tryWaitSrc | .attachedSrc => true
  | .unattachedSnk | .attachWaitSnk | .tryWaitSnk | .trySnk | .attachedSnk | .disabled | .errorRecovery | .safe | .hibernate =>
    false

/-- Moves an engine that is not Attached to another Type-C state; while Rp waits for vSafe0V (R368) a dual-role port stays
with Rd. -/
def Dev.toTc (d : Dev) (n : Nat) (s : TcState) : Dev :=
  d.updEng n fun e => { e with tc := if s.rp && d.rpWaits n then .unattachedSnk else s }

/-- The Unattached state that an attempt to attach falls back to: a dual-role port goes to that of the other role (PRESUMED: the
Type-C specification). -/
def Dev.fallBack (d : Dev) (n : Nat) (source : Bool) : TcState :=
  match d.pdRole n with
  | some 0 => .unattachedSrc
  | some 1 => .unattachedSnk
  | some 2 => if source then .unattachedSrc else .unattachedSnk
  | _ => .disabled

/-- CC_CHANGE (R320). -/
def Dev.ccChange (d : Dev) (n : Nat) (cc1 cc2 : CcLevel) : Dev :=
  let d1 := d.updEng n fun e => { e with cc1 := cc1, cc2 := cc2 }
  match (d.eng n).tc with
  | .unattachedSrc => if (d1.srcPin n).isSome then d1.toTc n .attachWaitSrc else d1
  | .unattachedSnk => if (d1.snkPin n).isSome then d1.toTc n .attachWaitSnk else d1
  | .attachWaitSrc => if (d1.srcPin n).isSome then d1 else d1.toTc n (d1.fallBack n false)
  | .attachWaitSnk => if (d1.snkPin n).isSome then d1 else d1.toTc n (d1.fallBack n true)
  | .attachedSrc =>
    if d1.seesRa n && !((d.eng n).seesRa (d.captive n)) then d1.updEng n fun e => { e with vconn := true } else d1
  | _ => d1

def execCcChange (n : Fin 33) (cc1 cc2 : CcLevel) (s : State) : Host.Outcome State Fault Refusal :=
  s.seen (s.dev.ccChange n.val cc1 cc2)

/-- CC_DEBOUNCE_END (R320): Try.SNK and Try.SRC come first where `TRY` asks for them. -/
def Dev.ccDebounceEnd (d : Dev) (n : Nat) : Dev :=
  let tryMode := if d.pdDual n then d.fld (aPdCfg n) 4 2 else 0
  match (d.eng n).tc with
  | .attachWaitSrc => match d.srcPin n with
    | some p => if tryMode = 2 then d.toTc n .trySnk else d.attachSrc n p
    | none => d
  | .attachWaitSnk => match d.snkPin n with
    | some p => if tryMode = 1 then d.toTc n .trySrc else d.attachSnk n p
    | none => d
  | _ => d

def execCcDebounceEnd (n : Fin 33) (s : State) : Host.Outcome State Fault Refusal := s.seen (s.dev.ccDebounceEnd n.val)

/-- DRP_TOGGLE (R320). -/
def Dev.drpToggle (d : Dev) (n : Nat) : Dev :=
  if !d.pdDual n then d
  else match (d.eng n).tc with
    | .unattachedSrc => d.toTc n .unattachedSnk
    | .unattachedSnk => d.toTc n .unattachedSrc
    | _ => d

def execDrpToggle (n : Fin 33) (s : State) : Host.Outcome State Fault Refusal := s.next (s.dev.drpToggle n.val)

/-- TRY_TIMER_EXPIRY: with the partner seen, tTryCCDebounce has passed and the port attaches; without, tDRPTry or
tTryTimeout has, and it goes on. -/
def Dev.tryTimer (d : Dev) (n : Nat) : Dev :=
  match (d.eng n).tc with
  | .trySrc => match d.srcPin n with | some p => d.attachSrc n p | none => d.toTc n .tryWaitSnk
  | .tryWaitSnk => match d.snkPin n with | some p => d.attachSnk n p | none => d.toTc n .unattachedSnk
  | .trySnk => match d.snkPin n with | some p => d.attachSnk n p | none => d.toTc n .tryWaitSrc
  | .tryWaitSrc => match d.srcPin n with | some p => d.attachSrc n p | none => d.toTc n .unattachedSnk
  | _ => d

def execTryTimerExpiry (n : Fin 33) (s : State) : Host.Outcome State Fault Refusal := s.next (s.dev.tryTimer n.val)

/-- A held port detaches: its hold ends, and it stays off until the next reset (R50); its converter goes to the 5 V standby
of the safe column (R49). -/
def Dev.heldDetach (d : Dev) (n : Nat) : Dev :=
  (((d.gateOff n).updFuse n fun f => { f with holdEnded := true }).pdSafe n).psbStandby n

/-- DETACH (R323, R343). -/
def Dev.pdDetach (d : Dev) (n : Nat) : Dev :=
  if d.isHeld n then d.heldDetach n
  else if d.tcAttached n then
    (((d.updEng n fun e => { e with cc1 := .open, cc2 := .open }).becomeUnattached n).pdTell n evDetach)
  else d

def execDetach (n : Fin 33) (s : State) : Host.Outcome State Fault Refusal := s.seen (s.dev.pdDetach n.val)

/-- VBUS_LOST (R323): outside a transition, a PR_Swap and a hard reset. Without messaging the event alone is set. -/
def Dev.vbusLost (d : Dev) (n : Nat) : Dev :=
  let e := d.eng n
  let out := match e.ams with
    | .snkTransition _ => true | .prToSnk => true | .prToSnkDischarge => true | .prToSnkWait => true
    | .prToSrcWait => true | .prToSrcPower => true | .hardSnk => true | _ => false
  if e.tc = .attachedSnk && !out then
    if d.pdTalks n then (d.pdEvt n evVbusLost).hardResetAct n false else d.pdEvt n evVbusLost
  else d

def execVbusLost (n : Fin 33) (s : State) : Host.Outcome State Fault Refusal := s.seen (s.dev.vbusLost n.val)

/-! ## Cable discovery (R330) -/

/-- Discovery ends: the first Source_Capabilities follow when power good is reported. -/
def Dev.discoveryEnd (d : Dev) (n : Nat) : Dev :=
  let d1 := (d.updEng n fun e => { e with discDone := true, ams := if e.ams = .discover then .idle else e.ams }).pdEvt n evCable
  if (d1.fuse n).pg && (d1.eng n).ams = .idle && (d1.eng n).contract.isNone then d1.sendSourceCaps n else d1

/-- Sends Discover Identity to SOP'. -/
def Dev.discoverSop1 (d : Dev) (n : Nat) : Dev :=
  (d.pdSay n .discoverIdentitySop1).updEng n fun e => { e with ams := .discover, discTries := e.discTries + 1 }

def Dev.vconnStable (d : Dev) (n : Nat) : Dev :=
  let e := d.eng n
  if d.pdTalks n && e.source && e.vconn && !e.discDone && (e.ams = .idle || e.ams = .hardSrcPower) && e.discTries = 0 then d.discoverSop1 n
  else d

def execVconnStable (n : Fin 33) (s : State) : Host.Outcome State Fault Refusal := s.next (s.dev.vconnStable n.val)

/-- VCONN_LIMIT (R454): VCONN is turned off, and the cable limit stays at 3.0 A. -/
def Dev.vconnLimit (d : Dev) (n : Nat) : Dev :=
  let e := d.eng n
  if !e.vconn then d
  else
    let d1 := d.updEng n fun x => { x with vconn := false, limit5A := false }
    if !e.discDone then d1.discoveryEnd n else if e.limit5A then d1.resendCaps n else d1

def execVconnLimit (n : Fin 33) (s : State) : Host.Outcome State Fault Refusal := s.next (s.dev.vconnLimit n.val)

/-- CABLE_IDENTITY: an ACK with its current handling, or a NAK or BUSY. -/
def Dev.cableIdentity (d : Dev) (n : Nat) (ack five : Bool) : Dev :=
  if (d.eng n).ams = .discover then
    (d.updEng n fun e =>
      { e with marker := ack, markerI := if ack then (if five then 2 else 1) else 0, limit5A := ack && five }).discoveryEnd n
  else d

def execCableIdentity (n : Fin 33) (ack fiveAmp : Bool) (s : State) : Host.Outcome State Fault Refusal :=
  s.next (s.dev.cableIdentity n.val ack fiveAmp)

def Dev.discoverRetry (d : Dev) (n : Nat) : Dev :=
  if (d.eng n).ams = .discover then (if (d.eng n).discTries < 6 then d.discoverSop1 n else d.discoveryEnd n) else d

def execDiscoverIdentityRetry (n : Fin 33) (s : State) : Host.Outcome State Fault Refusal := s.next (s.dev.discoverRetry n.val)

/-! ## Capabilities and requests -/

/-- SOURCE_CAPABILITIES: a sink stores them and sends its Request. -/
def Dev.sourceCapsIn (d : Dev) (n : Nat) (rev2 : Bool) (pdos : List W32) : Dev :=
  let e := d.eng n
  if !d.pdTalks n || e.source then d
  else
    let free := match e.ams with | .idle => true | .hardSnk => true | .snkRequest _ => true | .softReset => true | _ => false
    if !free then d
    else
      let d1 := (d.pdHeard n).updEng n fun x => { x with sourceCaps := pdos.take 7, rev := if rev2 then 1 else 2, ams := .idle }
      let d2 := forN 7 (fun k a => a.setReg (aPartnerPdo n k) (pdos.getD k 0)) d1
      d2.sendRequest n

def execSourceCapabilities (n : Fin 33) (rev2 : Bool) (pdos : List W32) (s : State) : Host.Outcome State Fault Refusal :=
  s.seen (s.dev.sourceCapsIn n.val rev2 pdos)

/-- SOURCE_CAP_REPEAT: up to nCapsCount attempts. A partner that has answered before then draws a hard reset. -/
def Dev.sourceCapRepeat (d : Dev) (n : Nat) : Dev :=
  let e := d.eng n
  if e.ams ≠ .srcCaps then d
  else if e.capsCount < 50 then d.sendSourceCaps n
  else if e.partnerPd then d.hardResetAct n false
  else (d.updEng n fun x => { x with ams := .idle, offered := [] }).endActions n [4] stTimeout

def execSourceCapRepeat (n : Fin 33) (s : State) : Host.Outcome State Fault Refusal := s.seen (s.dev.sourceCapRepeat n.val)

/-- The contract that a Request asks for among the offered objects; none when it must be rejected (R327). -/
def requested (offered : List W32) (rdo : W32) : Option Contract :=
  let pos := bits rdo 28 4
  if pos = 0 then none
  else match offered[pos - 1]? with
    | none => none
    | some p =>
      if bits p 30 2 = 0 then
        if bits rdo 10 10 ≤ bits p 0 10 ∧ bits rdo 0 10 ≤ bits p 0 10 then
          some ⟨pos, bits p 10 10 * 5 / 2, bits rdo 10 10, false, 0⟩
        else none
      else
        let v := bits rdo 9 12
        if bits rdo 0 7 ≤ bits p 0 7 ∧ 5 * bits p 8 8 ≤ v ∧ v ≤ 5 * bits p 17 8 then
          some ⟨pos, v, 5 * bits rdo 0 7, true, 5 * bits p 8 8⟩
        else none

/-- REQUEST. -/
def Dev.requestIn (d : Dev) (n : Nat) (rev2 : Bool) (rdo : W32) : Dev :=
  let e := d.eng n
  if !d.pdTalks n || !e.source || e.offered.isEmpty || !(e.ams = .idle || e.ams = .srcCaps) then d
  else
    let d1 := ((d.pdHeard n).updEng n fun x => { x with rev := if rev2 then 1 else 2 }).endActions n [4] stOk
    let d2 := if bit rdo 26 then d1.pdEvt n evMismatch else d1
    match requested e.offered rdo with
    | some c => (d2.pdSay n .accept).updEng n fun x => { x with ams := .srcTransition c }
    | none =>
      let d3 := d2.pdSay n .reject
      if e.contract.isNone then d3.sendSourceCaps n else d3.amsEnd n

def execRequest (n : Fin 33) (rev2 : Bool) (rdo : W32) (s : State) : Host.Outcome State Fault Refusal :=
  s.next (s.dev.requestIn n.val rev2 rdo)

/-- The source sends PS_RDY, and the contract stands. -/
def Dev.srcReady (d : Dev) (n : Nat) (c : Contract) : Dev := ((d.pdSay n .psRdy).makeContract n c).amsDone n

/-- SRC_TRANSITION_EXPIRY: VOUT_COMMAND when the voltage changes, else PS_RDY; in a PR_Swap the source turns off. -/
def Dev.srcTransitionEnd (d : Dev) (n : Nat) : Dev :=
  let e := d.eng n
  match e.ams with
  | .srcTransition c =>
    if c.volt = e.volt then d.srcReady n c
    else (d.updEng n fun x => { x with ams := .srcVout c }).psbPush n 2 (.vout c.volt) true
  | .prToSnk =>
    ((d.psbStandby n).gateOff n).updEng n fun x => { x with ams := .prToSnkDischarge, vconn := false, contract := none }
  | _ => d

def execSrcTransitionExpiry (n : Fin 33) (s : State) : Host.Outcome State Fault Refusal := s.next (s.dev.srcTransitionEnd n.val)

def Dev.windowHeld (d : Dev) (n : Nat) : Dev :=
  match (d.eng n).ams with
  | .srcWindow c => d.srcReady n c
  | _ => d

def execVbusWindowHeld (n : Fin 33) (s : State) : Host.Outcome State Fault Refusal := s.next (s.dev.windowHeld n.val)

def Dev.psrdyDeadline (d : Dev) (n : Nat) : Dev :=
  match (d.eng n).ams with
  | .srcTransition _ => d.psrdyLate n
  | .srcVout _ => d.psrdyLate n
  | .srcWindow _ => d.psrdyLate n
  | _ => d

def execPsrdyDeadline (n : Fin 33) (s : State) : Host.Outcome State Fault Refusal := s.seen (s.dev.psrdyDeadline n.val)

/-! ## Accept, Reject, Wait -/

/-- ACCEPT, for a Request, a swap or a Soft_Reset. -/
def Dev.acceptIn (d : Dev) (n : Nat) : Dev :=
  if !d.pdTalks n then d
  else
    let e := d.eng n
    match e.ams with
    | .snkRequest c =>
      let d1 := ((d.pdHeard n).updEng n fun x => { x with ams := .snkTransition c }).endActions n [5] stOk
      if c.volt ≠ e.volt && n < 32 then d1.sinkPathOff n else d1
    | .prSwapSent =>
      if e.source then (d.pdHeard n).updEng n fun x => { x with ams := .prToSnk }
      else ((d.pdHeard n).updEng n fun x => { x with ams := .prToSrcWait }).sinkPathOff n
    | .drSwapSent => ((d.pdHeard n).drDone n).amsEnd n
    | .softReset =>
      (((d.pdHeard n).updEng n fun x => { x with sendCaps := x.sendCaps || x.source }).endActions n [2] stOk).amsEnd n
    | _ => d

def execAccept (n : Fin 33) (s : State) : Host.Outcome State Fault Refusal := s.seen (s.dev.acceptIn n.val)

/-- A swap request of this end has drawn Reject or Not_Supported (R340). No row tells the two apart, and which of them it was
is open (DEDUCED); it decides the status of the waiting PD_ACTION only (R434). -/
def Dev.swapRefused (d : Dev) (n : Nat) (pr : Bool) : Dev :=
  let b := d.freeBit
  b.2.swapFail n pr (if b.1 then stUnsupported else stNotPermitted)

/-- REJECT. -/
def Dev.rejectIn (d : Dev) (n : Nat) : Dev :=
  if !d.pdTalks n then d
  else match (d.eng n).ams with
    | .snkRequest _ => ((d.pdHeard n).endActions n [5] stNotPermitted).amsEnd n
    | .prSwapSent => ((d.pdHeard n).swapRefused n true).amsEnd n
    | .drSwapSent => ((d.pdHeard n).swapRefused n false).amsEnd n
    | _ => d

def execReject (n : Fin 33) (s : State) : Host.Outcome State Fault Refusal := s.next (s.dev.rejectIn n.val)

/-- A swap request of this end has drawn Wait (R340). -/
def Dev.swapWait (d : Dev) (n : Nat) (pr : Bool) : Dev :=
  let w := (d.eng n).swapWaits + 1
  if 3 ≤ w then d.swapFail n pr stBusy else d.updEng n fun x => { x with swapWaits := w, retrySwap := some pr }

/-- WAIT, for a swap request or a Request. -/
def Dev.waitIn (d : Dev) (n : Nat) : Dev :=
  if !d.pdTalks n then d
  else match (d.eng n).ams with
    | .snkRequest _ => (d.pdHeard n).amsEnd n
    | .prSwapSent => ((d.pdHeard n).swapWait n true).amsEnd n
    | .drSwapSent => ((d.pdHeard n).swapWait n false).amsEnd n
    | _ => d

def execWait (n : Fin 33) (s : State) : Host.Outcome State Fault Refusal := s.next (s.dev.waitIn n.val)

def Dev.swapAgain (d : Dev) (n : Nat) : Dev :=
  match (d.eng n).retrySwap with
  | some pr =>
    if !d.swapAllowed n pr then d.swapFail n pr stNotPermitted
    else if (d.eng n).ams = .idle then d.askSwap n pr else d
  | none => d

def execSwapRetry (n : Fin 33) (s : State) : Host.Outcome State Fault Refusal := s.next (s.dev.swapAgain n.val)

/-- SINK_REQUEST_RETRY: tSinkRequest after a Wait. -/
def Dev.sinkRequestAgain (d : Dev) (n : Nat) : Dev :=
  let e := d.eng n
  if d.pdTalks n && !e.source && e.ams = .idle then d.sendRequest n else d

def execSinkRequestRetry (n : Fin 33) (s : State) : Host.Outcome State Fault Refusal := s.next (s.dev.sinkRequestAgain n.val)

/-- PS_RDY. -/
def Dev.psRdyIn (d : Dev) (n : Nat) : Dev :=
  if !d.pdTalks n then d
  else match (d.eng n).ams with
    | .snkTransition c => ((d.pdHeard n).makeContract n c).amsDone n
    | .prToSnkWait => (d.pdHeard n).prDone n false
    | .prToSrcWait =>
      (((d.pdHeard n).updEng n fun e => { e with ams := .prToSrcPower, contract := none }).psbPush n 2 (.vout fiveVolt)).gateOn n
    | _ => d

def execPsRdy (n : Fin 33) (s : State) : Host.Outcome State Fault Refusal := s.seen (s.dev.psRdyIn n.val)

def Dev.psTransitionTimeout (d : Dev) (n : Nat) : Dev :=
  match (d.eng n).ams with
  | .snkTransition _ => d.hardResetAct n false
  | _ => d

def execPsTransitionTimeout (n : Fin 33) (s : State) : Host.Outcome State Fault Refusal := s.seen (s.dev.psTransitionTimeout n.val)

def Dev.psSourceTimeout (d : Dev) (n : Nat) : Dev :=
  match (d.eng n).ams with
  | .prToSnkWait => d.hardResetAct n false
  | .prToSrcWait => d.hardResetAct n false
  | _ => d

def execPsSourceTimeout (n : Fin 33) (s : State) : Host.Outcome State Fault Refusal := s.seen (s.dev.psSourceTimeout n.val)

/-! ## Swaps asked for by the partner (R338 to R342) -/

/-- PR_SWAP: accepted where R317 and `PR_ACCEPT` permit, with the collision rule of R340. -/
def Dev.prSwapIn (d0 : Dev) (n : Nat) : Dev :=
  if !d0.pdTalks n then d0
  else
    let d := d0.pdHeard n
    let e := d.eng n
    let go (d : Dev) : Dev :=
      if d.pdDual n && n < 32 && d.fldBit (aPdCfg n) 10 then
        let d1 := d.pdSay n .accept
        if e.source then d1.updEng n fun x => { x with ams := .prToSnk }
        else (d1.updEng n fun x => { x with ams := .prToSrcWait }).sinkPathOff n
      else d.pdSay n .reject
    match e.ams with
    | .idle => go d
    | .srcCaps => go d
    | .prSwapSent => if e.source then d.pdSay n .wait else go ((d.swapWait n true).updEng n fun x => { x with ams := .idle })
    | .drSwapSent => if e.source then d.pdSay n .wait else go ((d.swapWait n false).updEng n fun x => { x with ams := .idle })
    | a => if a.transition then d.pdSay n .wait else d

def execPrSwap (n : Fin 33) (s : State) : Host.Outcome State Fault Refusal := s.seen (s.dev.prSwapIn n.val)

/-- DR_SWAP: an EMBEDDED or TRANSPARENT port never becomes UFP. -/
def Dev.drSwapIn (d0 : Dev) (n : Nat) : Dev :=
  if !d0.pdTalks n then d0
  else
    let d := d0.pdHeard n
    let e := d.eng n
    let may := d.fldBit (aPdCfg n) 9 && (d.isCoupler n || ((d.isEmbedded n || d.isTransparent n) && !e.dfp))
    let go (d : Dev) : Dev := if may then ((d.pdSay n .accept).drDone n).amsEnd n else d.pdSay n .reject
    match e.ams with
    | .idle => go d
    | .srcCaps => go d
    | .prSwapSent => if e.source then d.pdSay n .wait else go ((d.swapWait n true).updEng n fun x => { x with ams := .idle })
    | .drSwapSent => if e.source then d.pdSay n .wait else go ((d.swapWait n false).updEng n fun x => { x with ams := .idle })
    | a => if a.transition then d.pdSay n .wait else d

def execDrSwap (n : Fin 33) (s : State) : Host.Outcome State Fault Refusal := s.seen (s.dev.drSwapIn n.val)

/-- HELD_SWAP_START: re-evaluated against the roles of now, then sent or dropped. -/
def Dev.heldStart (d : Dev) (n : Nat) : Dev :=
  let e := d.eng n
  match e.heldSwaps with
  | pr :: rest =>
    if e.ams ≠ .idle || !e.sinkTxOk then d
    else if d.pdTalks n && d.swapAllowed n pr then (d.updEng n fun x => { x with heldSwaps := rest }).askSwap n pr
    else d.swapFail n pr stNotPermitted
  | [] => d

def execHeldSwapStart (n : Fin 33) (s : State) : Host.Outcome State Fault Refusal := s.seen (s.dev.heldStart n.val)

/-- A message answered with one reply. -/
def Dev.pdReply (d : Dev) (n : Nat) (m : PdMsg) : Dev := if d.pdTalks n then (d.pdHeard n).pdSay n m else d

/-- A message answered with Not_Supported (R324). -/
def Dev.notSupported (d : Dev) (n : Nat) : Dev := if d.pdTalks n then (d.pdReply n .notSupported).pdEvt n evNotSupported else d

def execVconnSwap (n : Fin 33) (s : State) : Host.Outcome State Fault Refusal := s.next (s.dev.pdReply n.val .reject)

/-! ## Resets -/

/-- SOFT_RESET received: the running AMS ends, the contract stands. -/
def Dev.softResetIn (d : Dev) (n : Nat) : Dev :=
  if !d.pdTalks n then d
  else
    let d1 := (d.pdHeard n).dropSwaps n stTimeout
    (((d1.pdSay n .accept).updEng n fun e => { e with sendCaps := e.sendCaps || e.source }).pdEvt n evSoftReset).amsEnd n

def execSoftReset (n : Fin 33) (s : State) : Host.Outcome State Fault Refusal := s.seen (s.dev.softResetIn n.val)

def execHardReset (n : Fin 33) (s : State) : Host.Outcome State Fault Refusal :=
  s.seen (if s.dev.pdTalks n.val then s.dev.hardResetAct n.val true else s.dev)

/-- SENDER_RESPONSE_TIMEOUT: the failure escalates. Whether the message of a PD_ACTION drew GoodCRC is open here. -/
def Dev.senderTimeout (d0 : Dev) (n : Nat) : Dev :=
  let e := d0.eng n
  if !d0.pdTalks n then d0
  else
    let f := d0.freeBit
    let acted (a : Nat) : Dev := f.2.endActions n [a] (if f.1 then stOk else stTimeout)
    match e.ams with
    | .srcCaps => if e.partnerPd then (acted 4).softResetAct n else d0
    | .snkRequest _ => (d0.endActions n [5] stTimeout).softResetAct n
    | .prSwapSent => (d0.swapFail n true stTimeout).softResetAct n
    | .drSwapSent => (d0.swapFail n false stTimeout).softResetAct n
    | .getSnkCap => (acted 6).softResetAct n
    | .softReset => (acted 2).hardResetAct n false
    | _ => d0

def execSenderResponseTimeout (n : Fin 33) (s : State) : Host.Outcome State Fault Refusal := s.seen (s.dev.senderTimeout n.val)

def Dev.psHardResetEnd (d : Dev) (n : Nat) : Dev :=
  if (d.eng n).ams = .hardSrcStart then (d.gateOff n).updEng n fun e => { e with ams := .hardSrcRecover } else d

def execPsHardResetExpiry (n : Fin 33) (s : State) : Host.Outcome State Fault Refusal := s.seen (s.dev.psHardResetEnd n.val)

/-- SRC_RECOVER_EXPIRY: the gate turns on, and VCONN with it where Ra is seen. A discovery that the reset cut short starts anew;
one that has answered stands (R322, R330, R333). -/
def Dev.srcRecoverEnd (d : Dev) (n : Nat) : Dev :=
  if (d.eng n).ams = .hardSrcRecover && n < 32 then
    (d.gateOn n).updEng n fun e =>
      { e with
        ams := .hardSrcPower, vconn := d.seesRa n, discDone := e.discDone || !d.seesRa n
        discTries := if e.discDone then e.discTries else 0 }
  else d

def execSrcRecoverExpiry (n : Fin 33) (s : State) : Host.Outcome State Fault Refusal := s.next (s.dev.srcRecoverEnd n.val)

def Dev.errorRecoveryEnd (d : Dev) (n : Nat) : Dev :=
  if (d.eng n).tc = .errorRecovery then (d.updEng n fun e => { e with erTimer := false }).pdRelease n else d

def execErrorRecoveryEnd (n : Fin 33) (s : State) : Host.Outcome State Fault Refusal := s.next (s.dev.errorRecoveryEnd n.val)

/-! ## PPS (R329) -/

def Dev.inPps (d : Dev) (n : Nat) : Bool := match (d.eng n).contract with | some c => c.pps | none => false

def execPpsTimeout (n : Fin 33) (s : State) : Host.Outcome State Fault Refusal :=
  s.seen (if s.dev.pdTalks n.val && (s.dev.eng n.val).source && s.dev.inPps n.val then s.dev.hardResetAct n.val false else s.dev)

def execPpsRequest (n : Fin 33) (s : State) : Host.Outcome State Fault Refusal :=
  s.next (if s.dev.inPps n.val then s.dev.askRequest n.val else s.dev)

/-! ## Questions of the partner (R324, R345, R347) -/

/-- Get_Source_Cap: a source sends its capabilities again; a dual-role sink tells what it would offer. -/
def Dev.getSourceCapIn (d : Dev) (n : Nat) : Dev :=
  if !d.pdTalks n then d
  else if (d.eng n).source then (if (d.eng n).ams = .idle || (d.eng n).ams = .srcCaps then (d.pdHeard n).sendSourceCaps n else d)
  else if d.pdDual n then d.pdReply n (.sourceCapabilities (d.offer n)) else d.notSupported n

def execGetSourceCap (n : Fin 33) (s : State) : Host.Outcome State Fault Refusal := s.next (s.dev.getSourceCapIn n.val)

def Dev.getSinkCapIn (d : Dev) (n : Nat) : Dev :=
  if !(d.eng n).source || d.pdDual n then d.pdReply n (.sinkCapabilities (d.snkPdos n)) else d.notSupported n

def execGetSinkCap (n : Fin 33) (s : State) : Host.Outcome State Fault Refusal := s.next (s.dev.getSinkCapIn n.val)

/-- Sink_Capabilities: stored. -/
def Dev.sinkCapsIn (d : Dev) (n : Nat) (pdos : List W32) : Dev :=
  if d.pdTalks n && (d.eng n).ams = .getSnkCap then
    let d1 := forN 7 (fun k a => a.setReg (aPartnerPdo n k) (pdos.getD k 0)) (d.pdHeard n)
    (d1.endActions n [6] stOk).amsEnd n
  else d

def execSinkCapabilities (n : Fin 33) (pdos : List W32) (s : State) : Host.Outcome State Fault Refusal :=
  s.next (s.dev.sinkCapsIn n.val pdos)

def execAlert (n : Fin 33) (s : State) : Host.Outcome State Fault Refusal :=
  s.next (if s.dev.pdTalks n.val then (s.dev.pdHeard n.val).pdTell n.val evAlertRx else s.dev)

/-- A question that only a source answers. -/
def Dev.sourceAnswers (d : Dev) (n : Nat) (m : PdMsg) : Dev :=
  if (d.eng n).source then d.pdReply n m else d.notSupported n

/-- Get_Status: Present Input bit 1 while `INPUT_WARN_N` is released. -/
def execGetStatus (n : Fin 33) (s : State) : Host.Outcome State Fault Refusal :=
  s.next (s.dev.sourceAnswers n.val (.status (if s.dev.vinLow then 0 else 2)))

def execGetSourceCapExtended (n : Fin 33) (s : State) : Host.Outcome State Fault Refusal :=
  s.next (s.dev.sourceAnswers n.val .sourceCapabilitiesExtended)

def execGetPpsStatus (n : Fin 33) (s : State) : Host.Outcome State Fault Refusal :=
  s.next (if s.dev.inPps n.val then s.dev.sourceAnswers n.val .ppsStatus else s.dev.notSupported n.val)

def execGetRevision (n : Fin 33) (s : State) : Host.Outcome State Fault Refusal := s.next (s.dev.pdReply n.val (.revision 3 1))

/-- The ID Header of R347: host and device capability, product type UFP (29:27) and DFP (25:23), vendor. -/
def Dev.idHeader (d : Dev) (n : Nat) : W32 :=
  let vid := bits (d.qword 0x050) 0 16
  let dfp := (d.eng n).dfp
  let f : Nat × Nat × Nat × Nat :=
    if n = 32 then (0, 1, 1, 0)
    else if d.isCoupler n then (if dfp then (1, 0, 0, 2) else (0, 1, 2, 0))
    else if d.isChargeOnly n then (0, 0, 0, 3)
    else if dfp then (1, 0, 0, 1) else (0, 0, 0, 0)
  at_ f.1 31 ||| at_ f.2.1 30 ||| at_ f.2.2.1 27 ||| at_ f.2.2.2 23 ||| at_ vid 0

def Dev.identity (d : Dev) (n : Nat) : PdMsg :=
  let pid := if d.isCoupler n then bits (d.qword 0x051) 0 16 else bits (d.qword 0x050) 16 16
  .discoverIdentityAck (d.idHeader n) (d.qword 0x052) (at_ pid 16)

def execDiscoverIdentity (n : Fin 33) (s : State) : Host.Outcome State Fault Refusal :=
  s.next (s.dev.pdReply n.val (s.dev.identity n.val))

/-- BIST: honoured at vSafe5V only. Test Data holds the engine until a hard reset. -/
def Dev.bistIn (d : Dev) (n : Nat) (carrier : Bool) : Dev :=
  if d.pdTalks n && (d.eng n).volt = fiveVolt then
    (if carrier then d.pdReply n .bistCarrier else d.updEng n fun e => { e with ams := .bist })
  else d

def execBist (n : Fin 33) (carrier : Bool) (s : State) : Host.Outcome State Fault Refusal := s.next (s.dev.bistIn n.val carrier)

def execNotSupportedMessage (n : Fin 33) (s : State) : Host.Outcome State Fault Refusal := s.next (s.dev.notSupported n.val)

/-! ## The port supply bus (R334 to R336) -/

/-- Takes the transaction off the bus and starts the next. -/
def Dev.psbNext (d : Dev) : Dev := ({ d with psb := { d.psb with current := none, failures := 0 } }).psbStart

/-- A port whose load-time check has failed (R336): its presentation follows its new role. -/
def Dev.psbMissingAt (d : Dev) (n : Nat) : Dev :=
  let d1 := d.updEng n fun e => { e with psbMissing := true }
  if d1.tcUnattached n then d1.pdStart n else d1

/-- A transaction has succeeded. -/
def Dev.psbOk (d : Dev) (t : PsbTx) (value : BitVec 16) (answering : BitVec 7) : Dev :=
  let n := t.port
  match t.cmd with
  | .readVoutMode =>
    let m := value.toNat % 256
    if m / 32 = 0 then { d with psb := { d.psb with exponent := put zeroDflt d.psb.exponent n (m % 32) } } else d.psbMissingAt n
  | .vout v =>
    let d1 := { d with psb := { d.psb with commanded := put zeroDflt d.psb.commanded n v } }
    (match (d1.eng n).ams with
     | .srcVout c =>
       if t.transition then
         (d1.updEng n fun e => { e with ams := .srcWindow c }).updFuse n fun f =>
           { f with dsch := f.dsch || decide (c.volt < (d.eng n).volt) }
       else d1
     | _ => d1)
  | .readAlert =>
    (match (List.range 32).find? fun m => d.maySource m && d.fld (0x180008 + m * 0x1000) 0 7 = answering.toNat with
     | some m => (d.setSrc (srcPort m 10) { d.src (srcPort m 10) with cause := true }).psbPush m 3 .readStatus
     | none => d)
  | .readStatus =>
    let d1 := d.assert (srcPort n 10) (at_ value.toNat 0)
    if value = 0 then d1 else d1.psbPush n 3 .clearFaults
  | _ => d

/-- A transaction has failed: it is repeated twice, and the third failure tells (R334). -/
def Dev.psbFail (d : Dev) (t : PsbTx) : Dev :=
  if d.psb.failures < 2 then { d with psb := { d.psb with failures := d.psb.failures + 1 } }
  else
    let n := t.port
    let d1 := ((d.psbNext.pdTell n evPsbNoack).pdFault n 9)
    let d2 := if t.transition && (match (d1.eng n).ams with | .srcVout _ => true | _ => false) then d1.psrdyLate n else d1
    match t.cmd with
    | .readVoutMode => d2.psbMissingAt n
    | .operation _ => d2.psbMissingAt n
    | .vout _ => if t.prio = 3 then d2.psbMissingAt n else d2
    | _ => d2

def Dev.psbDone (d : Dev) (ok : Bool) (value : BitVec 16) (answering : BitVec 7) : Dev :=
  match d.psb.current with
  | none => d
  | some t => if ok then (d.psbOk t value answering).psbNext else d.psbFail t

def execPsbTransactionDone (ok : Bool) (value : BitVec 16) (answering : BitVec 7) (s : State) : Host.Outcome State Fault Refusal :=
  s.seen (s.dev.psbDone ok value answering)

def execPsbTransactionTimeout (s : State) : Host.Outcome State Fault Refusal :=
  s.seen (match s.dev.psb.current with | none => s.dev | some t => s.dev.psbFail t)

/-- PSB_ALERT_N: the alert response address is read at the third priority. -/
def execPsbAlertN (s : State) : Host.Outcome State Fault Refusal :=
  s.next (({ s.dev with psb := { s.dev.psb with alertLow := true } }).psbPush 0 3 .readAlert)

/-! ## Input supply warning (R344, R369) -/

/-- Queues an Alert on every port where this end is source in an explicit revision 3.x contract. -/
def Dev.queueAlerts (d : Dev) : Dev :=
  forN 32 (fun n a =>
    let e := a.eng n
    if a.pdTalks n && e.source && e.contract.isSome && e.rev = 2 && a.fldBit (aPdCfg n) 8 && a.fldBit aPdGcfg 0 then
      if e.alertHold then a.updEng n fun x => { x with alertAgain := true }
      else if e.ams = .idle then a.sendAlert n
      else a.updEng n fun x => { x with alertWaiting := true }
    else a) d

/-- INPUT_WARN (R443). -/
def Dev.inputWarn (d : Dev) (low : Bool) : Dev := d.notify 3 none 0x8504 [BitVec.ofNat 8 (b2n low), 0, 0, 0]

def execVinMonFall (s : State) : Host.Outcome State Fault Refusal :=
  s.seen (if s.dev.vinLow then s.dev else
    (((({ s.dev with vinLow := true }).queueAlerts).inputWarn true).assert srcInputWarn 0).startWake .vinMon)

def execVinMonRise (s : State) : Host.Outcome State Fault Refusal :=
  s.next (if s.dev.vinLow then
    (((({ s.dev with vinLow := false }).queueAlerts).inputWarn false).startWake .vinMon) else s.dev)

def Dev.alertHoldEnd (d : Dev) (n : Nat) : Dev :=
  let e := d.eng n
  let d1 := d.updEng n fun x => { x with alertHold := false, alertAgain := false }
  if e.alertAgain && d.pdTalks n && e.source && e.contract.isSome then
    (if e.ams = .idle then d1.sendAlert n else d1.updEng n fun x => { x with alertWaiting := true })
  else d1

def execAlertHoldExpiry (n : Fin 33) (s : State) : Host.Outcome State Fault Refusal := s.next (s.dev.alertHoldEnd n.val)

/-! ## What the fuse tells the engine -/

/-- Power good is reported on port n. -/
def Dev.pdPowerGood (d : Dev) (n : Nat) : Dev :=
  let e := d.eng n
  if !d.pdTalks n then d
  else match e.ams with
    | .prToSrcPower => ((d.pdSay n .psRdy).prDone n true)
    | .hardSrcPower => if e.discDone then d.sendSourceCaps n else d.updEng n fun x => { x with ams := .idle }
    | .idle => if e.source && e.discDone && (e.contract.isNone || e.sendCaps) && e.capsCount = 0 then d.sendSourceCaps n else d
    | _ => d

/-- VBUS of port n has reached vSafe0V. -/
def Dev.pdVsafe0 (d : Dev) (n : Nat) : Dev :=
  let e := d.eng n
  if e.ams = .prToSnkDischarge && d.pdTalks n then
    (d.pdSay n .psRdy).updEng n fun x => { x with ams := .prToSnkWait, source := false, tc := .attachedSnk }
  else if e.loadWait then
    let d1 := d.updEng n fun x => { x with loadWait := false }
    if e.tc = .unattachedSnk then d1.pdStart n else d1.pdRelease n
  else d

end Sys2Proof.Machine
end

