-- ==== Sys2Proof/Machine/Fuses.lean ====
section
/-! DEFINITION. The electronic fuses and the Press dies (R355 to R374, R377, R378, R381): the meaning of each row. Port n
is on die n / 8. -/

namespace Sys2Proof.Machine

/-! ## Trips (R361 to R363) -/

/-- Backoff time in ms of the k-th consecutive trip. -/
def Dev.backoffTime (d : Dev) (n k : Nat) : Nat :=
  d.fld (aEfuseRetry n) 0 8 * 32 * 2 ^ min (k - 1) (d.fld (aEfuseRetry n) 8 3)

/-- A trip of port n: cause 1 FAST, 2 INRUSH, 3 LIMIT. A held port ends its hold; another goes to ERROR_RECOVERY. -/
def Dev.trip (d : Dev) (n cause : Nat) (peak : BitVec 12) (vbus : BitVec 11) : Dev :=
  let f := d.fuse n
  let held := f.state = .held
  let k := f.consec + 1
  let tries := d.fld (aEfuseRetry n) 16 4
  let latch := held || f.state = .sink || !d.fldBit (aEfuseCfg n) 7 || (tries ≠ 0 && decide (tries ≤ k))
  let d1 := d.updFuse n fun x =>
    { x with
      state := if latch then .latched else .backoff, gate := false, pg := false, limiting := false, pps := none
      dsch := !held && f.state ≠ .sink, consec := k, lastCause := cause, tripLine := true
      backoffMs := if latch then 0 else d.backoffTime n k, backoffDone := false, atZero := false, holdEnded := x.holdEnded || held
      trip := some ⟨cause, peak, vbus⟩ }
  let d2 := ((d1.flag (aEfuseEvent n) cause).count (selector 0x26 (cause - 1) n)).hubOver n true
  if held then (d2.psbStandby n).pdSafe n else d2.enterErrorRecovery n

def execFastTrip (n : Fin 32) (peak : BitVec 12) (vbus : BitVec 11) (s : State) : Host.Outcome State Fault Refusal :=
  s.seen (if (s.dev.fuse n.val).gate then s.dev.trip n.val 1 peak vbus else s.dev)

def execInrushExpiry (n : Fin 32) (peak : BitVec 12) (vbus : BitVec 11) (s : State) : Host.Outcome State Fault Refusal :=
  s.seen (if (s.dev.fuse n.val).state = .inrush then s.dev.trip n.val 2 peak vbus else s.dev)

def execLimitTimeExpiry (n : Fin 32) (peak : BitVec 12) (vbus : BitVec 11) (s : State) : Host.Outcome State Fault Refusal :=
  let st := (s.dev.fuse n.val).state
  s.seen (if st = .on || st = .held || st = .sink then s.dev.trip n.val 3 peak vbus else s.dev)

/-- The end of a backoff, once its time has passed and VBUS is at vSafe0V: OFF. CC is presented again, which is the retry,
unless the collector holds the port at PORT_ISOLATE or above (R364) or the Press link is down (R374). -/
def Dev.backoffEnd (d : Dev) (n : Nat) : Dev :=
  let f := d.fuse n
  if f.state = .backoff && f.backoffDone && f.atZero then
    let d1 := (d.updFuse n fun x => { x with state := .off, tripLine := false }).hubOver n false
    if 2 ≤ d1.portLevel n || !d1.mayPresent n then d1
    else ((d1.flag (aEfuseEvent n) 0).count (selector 0x26 3 n)).pdRelease n
  else d

def execBackoffExpiry (n : Fin 32) (s : State) : Host.Outcome State Fault Refusal :=
  s.next ((s.dev.updFuse n.val fun x => if x.state = .backoff then { x with backoffDone := true } else x).backoffEnd n.val)

/-- CONSEC_RESET: ten seconds of power good, or of Rp presented while Unattached. -/
def execConsecReset (n : Fin 32) (s : State) : Host.Outcome State Fault Refusal :=
  s.next (if (s.dev.fuse n.val).pg || (s.dev.eng n.val).tc = .unattachedSrc then
    s.dev.updFuse n.val fun x => { x with consec := 0 } else s.dev)

/-- The end of LATCHED (R362, R364): by `EFUSE_CTRL.CLEAR`, EFUSE_CLEAR or a load. CC stays open while the collector holds
the port at PORT_ISOLATE or above. -/
def Dev.latchClear (d : Dev) (n : Nat) : Dev :=
  if (d.fuse n).state = .latched then
    let d1 := (d.updFuse n fun x => { x with state := .off, tripLine := false }).hubOver n false
    if 2 ≤ d1.portLevel n then d1 else d1.pdRelease n
  else d

/-- `EFUSE_CTRL.ABORT_RETRY`: BACKOFF to LATCHED. -/
def Dev.abortRetry (d : Dev) (n : Nat) : Dev :=
  if (d.fuse n).state = .backoff then d.updFuse n fun x => { x with state := .latched, backoffMs := 0 } else d

/-! ## Power good and discharge (R365 to R368) -/

/-- POWER_GOOD: INRUSH becomes ON, and the engine goes on. -/
def Dev.powerGood (d : Dev) (n : Nat) : Dev :=
  let f := d.fuse n
  if f.state = .inrush || f.state = .on || f.state = .held then
    (d.updFuse n fun x => { x with state := if x.state = .inrush then .on else x.state, pg := true, limiting := false }).pdPowerGood n
  else d

def execPowerGood (n : Fin 32) (_vbus : BitVec 11) (s : State) : Host.Outcome State Fault Refusal :=
  s.next (s.dev.powerGood n.val)

/-- A voltage transition runs from the VOUT_COMMAND write until PS_RDY: power good stays as it was (R367). -/
def Dev.voutRuns (d : Dev) (n : Nat) : Bool :=
  match (d.eng n).ams with | .srcVout _ => true | .srcWindow _ => true | _ => false

def Dev.pgLost (d : Dev) (n : Nat) (vbus : BitVec 11) : Dev :=
  if (d.fuse n).pg && !d.voutRuns n then
    (((d.updFuse n fun x => { x with pg := false }).flag (aEfuseEvent n) 4).assert (srcPort n 3) (at_ vbus.toNat 0))
  else d

def execPgLost (n : Fin 32) (vbus : BitVec 11) (s : State) : Host.Outcome State Fault Refusal := s.seen (s.dev.pgLost n.val vbus)

/-- VSAFE0V_REACHED: the discharge switch opens; a backoff, a PR_Swap or a load that waited for it goes on. -/
def Dev.vsafe0v (d : Dev) (n : Nat) : Dev :=
  if (d.fuse n).gate then d
  else ((d.updFuse n fun x => { x with dsch := false, atZero := true }).backoffEnd n).pdVsafe0 n

def execVsafe0vReached (n : Fin 32) (_vbus : BitVec 11) (s : State) : Host.Outcome State Fault Refusal :=
  s.next (s.dev.vsafe0v n.val)

/-- DSCH_LATE: the switch stays closed, and Rp waits for vSafe0V. -/
def Dev.dschLate (d : Dev) (n : Nat) (vbus : BitVec 11) : Dev :=
  if (d.fuse n).dsch && !(d.fuse n).gate then ((d.flag (aEfuseEvent n) 5).zeroWait n).assert (srcPort n 4) (at_ vbus.toNat 0)
  else d

def execDschLate (n : Fin 32) (vbus : BitVec 11) (s : State) : Host.Outcome State Fault Refusal := s.seen (s.dev.dschLate n.val vbus)

/-! ## Press links and safe pairs (R12, R14, R381) -/

/-- PRESS_LINK_LOSS: protection stays armed; the main die raises PRESS_LINK. -/
def Dev.pressLinkLost (d : Dev) (x : Nat) : Dev :=
  if (d.die x).linkUp then (d.updDie x fun y => { y with linkUp := false }).assert (srcPress x 0) 0 else d

def execPressLinkLoss (d : Fin 4) (s : State) : Host.Outcome State Fault Refusal := s.seen (s.dev.pressLinkLost d.val)

def execPressLinkRestored (d : Fin 4) (s : State) : Host.Outcome State Fault Refusal :=
  s.next (if (s.dev.die d.val).powered && !(s.dev.die d.val).lost then
    s.dev.updDie d.val fun y => { y with linkUp := true } else s.dev)

/-- SAFE_PAIR_SAFE: the die takes its eight ports to the chip safe state on its own. -/
def execSafePairSafe (d : Fin 4) (s : State) : Host.Outcome State Fault Refusal :=
  s.seen (if (s.dev.die d.val).powered && !(s.dev.die d.val).safe then s.dev.dieSafe d.val else s.dev)

/-- SAFE_PAIR_RUN: outside CHIP_SAFE and with no source at PORT_OFF on the die, its ports restart from OFF and
Unattached. A latched fuse and a backoff stay. -/
def Dev.safeRun (d : Dev) (x : Nat) : Dev :=
  if (d.die x).safe && (d.die x).powered && (d.die x).armed && !d.fc.chipSafe && (List.range 8).all (fun j => d.portLevel (8 * x + j) < 3) then
    forN 8 (fun j a =>
      let n := 8 * x + j
      let a1 := if (a.fuse n).state = .held then a.gateOff n else a
      if a1.isDisabled n then a1 else a1.pdStart n) (d.updDie x fun y => { y with safe := false })
  else d

def execSafePairRun (d : Fin 4) (s : State) : Host.Outcome State Fault Refusal := s.next (s.dev.safeRun d.val)

/-! ## How a trip reaches the collector (R378) -/

/-- The collector listens to the trip lines of a die (R377). -/
def Dev.hearsTrips (d : Dev) (x : Nat) : Bool := (d.die x).linkUp && !(d.die x).lost && d.life ≠ .hibernate

def execTripLine (n : Fin 32) (s : State) : Host.Outcome State Fault Refusal :=
  s.next (if (s.dev.fuse n.val).tripLine && (s.dev.fuse n.val).trip.isSome && s.dev.hearsTrips (n.val / 8) then
    s.dev.updFuse n.val fun f => { f with pendingTrip := true } else s.dev)

/-- The context word of a trip: CAUSE, peak current, VBUS. -/
def TripInfo.context (t : TripInfo) : W32 := at_ t.cause 28 ||| at_ t.peak.toNat 16 ||| at_ t.vbus.toNat 0

/-- TRIP_EVENT: names the cause of the pending assertion. One that comes after the assertion asserts nothing. -/
def Dev.tripEvent (d : Dev) (n : Nat) : Dev :=
  let f := d.fuse n
  match f.trip with
  | none => d
  | some t =>
    if !(d.die (n / 8)).linkUp then d
    else
      let d1 := d.updFuse n fun x => { x with trip := none, pendingTrip := false }
      if f.pendingTrip then d1.assert (srcPort n (t.cause - 1)) t.context else d1

def execTripEvent (n : Fin 32) (s : State) : Host.Outcome State Fault Refusal := s.seen (s.dev.tripEvent n.val)

/-- TRIP_EVENT_TIMEOUT: taken as EFUSE_FAST with CAUSE 0. -/
def execTripEventTimeout (n : Fin 32) (s : State) : Host.Outcome State Fault Refusal :=
  s.seen (if (s.dev.fuse n.val).pendingTrip then
    (s.dev.updFuse n.val fun x => { x with pendingTrip := false }).assert (srcPort n.val 0) 0 else s.dev)

/-- PRESS_EVENT: another event of the Press link is decoded. -/
def Dev.pressEvt (d : Dev) (x : Nat) (e : PressEvt) : Dev :=
  if (d.die x).linkUp && (d.die x).powered && !(d.die x).lost then
    match e with
    | .temp => (d.setSrc (srcPress x 2) { d.src (srcPress x 2) with cause := true }).assert (srcPress x 2) 0
    | .cal => d.assert (srcPress x 3) 0
  else d

def execPressEvent (d : Fin 4) (e : PressEvt) (s : State) : Host.Outcome State Fault Refusal := s.seen (s.dev.pressEvt d.val e)

end Sys2Proof.Machine
end

