-- ==== Sys2Proof/Machine/Readout.lean ====
section
/-! DEFINITION. What reads return (R4, R192, R397, R399, R406, R407): every register, Quire word and wide-mailbox value.
A read changes nothing but the count of free values, and `WMB_CTRL.VALID` at a read of `WMB_D3`. -/

namespace Sys2Proof.Machine

/-! ## The Global block -/

/-- `STRAPS` (R43, R44). -/
def strapsWord (st : Straps) (dead : Bool) : W32 :=
  at_ st.cfg.toNat 0 ||| at_ (b2n st.u0Db) 4 ||| at_ (b2n st.cplDb) 5 ||| at_ (b2n dead) 6

/-- Codes of `BOOT_STATUS.STATE`. -/
def BootState.code : BootState → Nat
  | .booting => 0 | .normal => 1 | .partialState => 2 | .limp => 3 | .recovery => 4

/-- `BOOT_STATUS`. -/
def Dev.bootStatus (d : Dev) : W32 :=
  let b := d.boot
  let armed := (List.range 4).foldl (fun m x => m + b2n ((d.die x).armed && !(d.die x).lost) * 2 ^ x) 0
  at_ armed 28 ||| at_ (b2n b.reverted) 21 ||| at_ (b2n b.trial) 20 ||| at_ (b2n b.couchSlotB) 19 |||
    at_ (b2n b.millSlotB) 18 ||| at_ (d.slotResult 3) 15 ||| at_ (d.slotResult 2) 12 ||| at_ (d.slotResult 1) 9 |||
    at_ (d.slotResult 0) 6 ||| at_ b.state.code 0

/-- `MS_STATUS`: the stored event bits, `RSP_EMPTY`, and the room in the buffers, which reads 0 in DOZE (R310). -/
def Dev.msStatus (d : Dev) : W32 :=
  let room := if d.halted then 0 else 0x00100800
  (d.reg aMsStatus &&& 0x0FC00000) ||| at_ (b2n d.spi.rsp.isEmpty) 21 ||| room

/-- `MS_IRQ_N` is driven low (R93). -/
def Dev.msIrq (d : Dev) : Bool :=
  let en := d.reg aMsIrqEn
  (d.msStatus &&& en &&& 0x0FC00000) ≠ 0 || (bit en 21 && !d.spi.rsp.isEmpty)

/-- `LOCK_STATUS`. -/
def Dev.lockStatus (d : Dev) : W32 := (d.reg aLockStatus &&& 0x1FF00) ||| at_ (b2n (2 ≤ d.guard 0)) 0

/-- The groups that pending UPDATEs name. -/
def Dev.pendingGroups (d : Dev) : BitVec 8 := d.updates.foldl (fun m u => m ||| u.groups) 0

/-- `UPDATE_STATUS`. -/
def Dev.updateStatus (d : Dev) : W32 :=
  at_ d.updates.length 29 ||| at_ d.pendingGroups.toNat 16 ||| at_ d.updateLast.toNat 0

def Dev.readGlobal (d : Dev) (st : Straps) (o : Nat) : Option W32 :=
  match o with
  | 0x04 => some (strapsWord st d.dead)
  | 0x0C => some d.lockStatus
  | 0x10 => some (at_ d.boot.ready.toNat 0)
  | 0x14 => some d.bootStatus
  | 0x2C => some d.updateStatus
  | 0x34 => some (at_ (b2n d.mailbox.badSel) 1 ||| at_ (b2n d.mailbox.valid) 0)
  | 0x40 => some d.msStatus
  | 0x50 => some d.mailbox.d0
  | 0x54 => some d.mailbox.d1
  | 0x58 => some d.mailbox.d2
  | 0x5C => some d.mailbox.d3
  | 0x60 => some (d.reg aQuireStatus ||| at_ (b2n d.quire.busy.isSome) 31)
  | 0x108 => some d.pwrStatus
  | 0x110 => some d.pwrAvs
  | _ => none

/-! ## The other blocks: the registers that show state of their own -/

def Dev.readFault (d : Dev) (o : Nat) : Option W32 :=
  if o = 0 then some d.fcStatus
  else if o = 0x10 then some d.fc.result
  else if 0x40 ≤ o ∧ o < 0x50 then some (d.portLevels ((o - 0x40) / 4))
  else if 0x800 ≤ o ∧ o < 0x1000 then some (d.srcStat ((o - 0x800) / 4))
  else none

def Dev.readDeckle (d : Dev) (o : Nat) : Option W32 :=
  match o with
  | 0x08 => some d.dkStatus
  | 0x0C => some d.dkPos
  | 0x10 => some d.dkPhaseErr
  | 0x14 => some d.dkRate
  | 0x18 => some d.dkPlan
  | 0x1C => some d.dkLink
  | _ => none

def Dev.readVat (d : Dev) (o : Nat) : Option W32 :=
  match o with
  | 0x08 => some d.vatStatus
  | 0x0C => some d.vatBanks
  | 0x10 => some d.vatMap
  | 0x60 => some (if d.isReady 4 then at_ (d.freeAll % 2 ^ 17) 0 else 0)
  | 0x64 => some (if d.isReady 4 then at_ (d.shared % 2 ^ 17) 0 else 0)
  | 0x68 => some (d.reg aVatTally ||| at_ d.vat.lastDefer 0)
  | 0x6C => some d.vatMarch
  | 0x84 => some d.vatQinfo
  | 0x88 => some d.vatQowner
  | _ => if 0x40 ≤ o ∧ o < 0x60 then some (at_ (d.usage ((o - 0x40) / 4) % 2 ^ 17) 0) else none

def Dev.readHeadbox (d : Dev) (o : Nat) : Option W32 :=
  match o with
  | 0x04 => some d.hbStatus
  | 0x14 => some d.hbLoad
  | 0x24 => some d.hbSubInfo
  | 0x28 => some d.hbSubPer
  | _ => if 0x1000 ≤ o ∧ o % 0x10 = 8 then some (at_ (d.subr ((o - 0x1000) / 0x10)).tokens 0) else none

/-- `REAM_USE_Dn`. Zero, its reset value, before `READY.HOST` unless a Mill reset kept the Ream (DEDUCED). -/
def Dev.reamUse (d : Dev) (n : Nat) : W32 :=
  if !d.isReady 5 && !d.boot.millOnly then 0 else
  let b := d.reamBase n
  let used := (((d.ctxsWhere fun _ => true) ++ d.claimedCtxs).filter fun k => decide (b ≤ k ∧ k < b + d.reamCount n)).length
  at_ used 16 ||| at_ (d.reamCount n - used) 0

/-- `ADDR0_Dn`. -/
def Dev.addr0 (d : Dev) (n : Nat) : W32 :=
  match d.binding n with
  | none => 0
  | some b => at_ 1 31 ||| at_ b.parentHub 24 ||| at_ b.parentPort 16 ||| at_ b.speed 6 ||| at_ b.port 0

/-- The eight words of a context (R192). -/
def Ctx.word (c : Ctx) : Nat → W32
  | 0 => at_ c.state 28 ||| at_ c.type 26 ||| at_ (b2n c.dirIn) 25 ||| at_ (b2n c.cpl) 24 ||| at_ c.ep 20 |||
      at_ c.domain 18 ||| at_ c.speed 16 ||| at_ c.addr 8 ||| at_ c.port 0
  | 1 => at_ c.intf 24 ||| at_ c.interval 20 ||| at_ c.mult 18 ||| at_ c.burst 11 ||| at_ c.mps 0
  | 2 => at_ (b2n c.ttValid) 31 ||| at_ c.parentHub 24 ||| at_ (b2n c.ttMulti) 23 ||| at_ c.parentPort 16 |||
      at_ c.ttHub 8 ||| at_ c.ttPort 0
  | 3 => at_ c.route 0
  | 4 => at_ (b2n c.ping) 31 ||| at_ c.seq 16 ||| at_ c.queue 0
  | 5 => at_ (b2n c.owned) 26 ||| at_ c.owner 16 ||| at_ c.qslot 0
  | 6 => at_ c.dup 24 ||| at_ c.err 16 ||| at_ c.errRun 0
  | _ => at_ (b2n c.fenced) 31 ||| at_ c.lastStatus 0

def Dev.readReam (d : Dev) (o : Nat) : Option W32 :=
  if 0x20 ≤ o ∧ o < 0x30 then some (d.reamUse ((o - 0x20) / 4))
  else if 0x30 ≤ o ∧ o < 0x40 then some (d.addr0 ((o - 0x30) / 4))
  else if 0x10000 ≤ o ∧ o < 0x70000 then some ((d.ctx ((o - 0x10000) / 32)).word (o % 32 / 4))
  else none

/-- U0 data is connected (R49, R219). -/
def Dev.u0Up (d : Dev) : Bool := d.u0.speed ≠ 0

/-- The hub function is presented: not at full speed, and not in dead-battery service (R55, R219). -/
def Dev.hubPresented (d : Dev) : Bool := !d.dead && decide (2 ≤ d.u0.speed)

/-- Interface 1 of the function device on U0 is presented (R225, R291): `U0_RELAY_EN`, the Couch runs, and U0 is not at
full speed. -/
def Dev.u0Relay (d : Dev) : Bool := d.u0Up && d.u0.relayEn && d.couchRuns && d.u0.speed ≠ 1

/-- Ports allocated TRANSPARENT. -/
def Dev.transparentPorts (d : Dev) : List Nat := (List.range 32).filter d.isTransparent

/-- `U0_STATUS`. -/
def Dev.u0Status (d : Dev) : W32 :=
  let up := d.u0Up
  at_ (b2n d.hubPresented) 31 ||| at_ (b2n (up && (d.func 4).config = 1)) 30 ||| at_ (b2n d.u0Relay) 29 |||
    at_ (b2n (up && d.u0.suspended)) 28 ||| at_ d.u0.speed 26 ||| at_ (min 15 d.transparentPorts.length) 0

def Dev.readPort (d : Dev) (n o : Nat) : Option W32 :=
  match o with
  | 0x04 => some (if n = 32 then d.u0Status else d.portStatus n)
  | 0x18 => some (d.portPwr n)
  | _ => none

def Dev.readPd (d : Dev) (n o : Nat) : Option W32 :=
  match o with
  | 0x10 => some (d.pdStatus n)
  | 0x14 => some (d.pdContract n)
  | _ => none

def Dev.readCouch (d : Dev) (o : Nat) : Option W32 :=
  if 0x400 ≤ o ∧ o < 0x540 then
    let n := (o - 0x400) / 0x40
    match (o - 0x400) % 0x40 with
    | 0x10 => some (d.cplStatus n)
    | 0x14 => some (d.cplNbr n)
    | 0x20 => some (d.cplCredit n 0)
    | 0x24 => some (d.cplCredit n 1)
    | 0x28 => some (d.cplCredit n 2)
    | 0x2C => some (d.cplCredit n 3)
    | _ => none
  else none

/-- The registers that show state of their own. -/
def Dev.shown (d : Dev) (st : Straps) (a : Nat) : Option W32 :=
  if a < 0x010000 then d.readGlobal st a
  else if a < 0x020000 then d.readFault (a - 0x010000)
  else if a < 0x030000 then d.readDeckle (a - 0x020000)
  else if a < 0x040000 then d.readVat (a - 0x030000)
  else if a < 0x080000 then d.readHeadbox (a - 0x040000)
  else if a < 0x100000 then d.readReam (a - 0x080000)
  else if a < 0x121000 then d.readPort ((a - 0x100000) / 0x1000) (a % 0x1000)
  else if 0x140000 ≤ a ∧ a < 0x142000 then
    (if a % 0x100 = 0x0C then some (d.efuseStatus ((a - 0x140000) / 0x100)) else none)
  else if a = 0x142000 then some d.pressHold
  else if 0x180000 ≤ a ∧ a < 0x1A1000 then d.readPd ((a - 0x180000) / 0x1000) (a % 0x1000)
  else if 0x1E0000 ≤ a ∧ a < 0x1F0000 then d.readCouch (a - 0x1E0000)
  else none

/-! ## The Quire (R411, R414) -/

/-- The value that a Quire word reads as: key words and the words of ERASE read 0. -/
def Dev.readQuire (d : Dev) (w : Nat) : W32 :=
  match quireKind w with
  | .key _ _ => 0
  | .eraseRelay => 0
  | .reserved => 0
  | _ => d.qword w

/-- The Quire word at an address, when there is one. -/
def quireAt (a : Nat) : Option Nat := if 0x1C0000 ≤ a ∧ a < 0x1C4000 ∧ a % 4 = 0 then some ((a - 0x1C0000) / 4) else none

/-! ## One read -/

/-- A register or a Quire word lies at the address (R397). -/
def mapped (a : Nat) : Bool := (quireAt a).isSome || (regInfo a).isSome

/-- The stored value of a register that shows none of its own: an RWS register gives the shadow to the SPI while
`REG_CTRL.SHADOW_RD` is set. -/
def Dev.stored (d : Dev) (spi : Bool) (a : Nat) (i : RegInfo) : W32 :=
  if i.group.isSome && spi && d.fldBit aRegCtrl 0 then d.shadowOf a else d.reg a

/-- The value that a read returns. `EFUSE_MEAS` is a measurement, and open. -/
def Dev.readReg (d : Dev) (st : Straps) (spi : Bool) (a : Nat) : W32 × Dev :=
  match quireAt a with
  | some w => (d.readQuire w, d)
  | none =>
    match regInfo a with
    | none => (0, d)
    | some i =>
      match d.shown st a with
      | some v => (v, d)
      | none =>
        if 0x140000 ≤ a ∧ a < 0x142000 ∧ a % 0x100 = 0x14 then
          let w := d.freeWord
          (w.1 &&& 0x07FF0FFF, w.2)
        else if 0x180000 ≤ a ∧ a < 0x1A0000 ∧ a % 0x1000 = 4 then
          ((d.pdCable ((a - 0x180000) / 0x1000) &&& 0xFFFFFFFC) ||| (d.stored spi a i &&& 3), d)
        else (d.stored spi a i, d)

/-! ## The wide mailbox (R407) -/

/-- A 64-bit value in the first two words. -/
def wide64 (n : Nat) : List W32 := [BitVec.ofNat 32 n, BitVec.ofNat 32 (n / 2 ^ 32), 0, 0]

/-- Instances of the counters: how many a class and kind have; none when it is no counter. -/
def counterInstances (cls kind : Nat) : Option Nat :=
  match cls, kind with
  | 0x10, 0 => some 9 | 0x10, 1 => some 9 | 0x10, 2 => some 64 | 0x10, 3 => some 1024 | 0x10, 4 => some 1024
  | 0x10, 5 => some 1024 | 0x10, 6 => some 1 | 0x10, 7 => some 1
  | 0x20, 0 => some 9 | 0x20, 1 => some 1 | 0x20, 2 => some 4
  | 0x22, 0 => some 32 | 0x22, 1 => some 32
  | 0x23, 0 => some 33
  | 0x24, 1 => some 5 | 0x24, 2 => some 5 | 0x24, 3 => some 5 | 0x24, 4 => some 5 | 0x24, 5 => some 5 | 0x24, 6 => some 5
  | 0x24, 7 => some 5
  | 0x25, 0 => some 1 | 0x25, 1 => some 32 | 0x25, 2 => some 32
  | 0x26, 0 => some 32 | 0x26, 1 => some 32 | 0x26, 2 => some 32 | 0x26, 3 => some 32
  | 0x27, 3 => some 512
  | _, _ => none

/-- The endurance of a Quire word (R412). -/
def endurance : Nat := 1000000

/-- `QUIRE_WEAR` of a page. -/
def Dev.wearPage (d : Dev) (p : Nat) : List W32 :=
  let m := (List.range 64).foldl (fun m i => max m (d.wear (64 * p + i))) 0
  [BitVec.ofNat 32 m, at_ (b2n (endurance ≤ m)) 0, 0, 0]

/-- The Watermark as the mailbox shows it: the newer record of the Quire in dead-battery service, and after a power-on until
the first latch (R392). -/
def Dev.wmShown (d : Dev) : List W32 × List W32 :=
  if d.dead || d.fc.showRecord then
    match d.newerRec with
    | some r => (recInfo (d.safeRec r), recTime (d.safeRec r))
    | none => ([0, 0, 0, 0], [0, 0, 0, 0])
  else (d.watermark.info, d.watermark.time)

/-- `FC_SAFE_REC`: words 0 to 3 or 4 to 7 of the newer valid record, or of the older; zeros where there is none. -/
def Dev.safeRecShown (d : Dev) (i : Nat) : List W32 :=
  match d.newerRec with
  | none => [0, 0, 0, 0]
  | some r =>
    let ws := d.safeRec (if i < 2 then r else 1 - r)
    if recValid ws then (ws.drop (4 * (i % 2))).take 4 else [0, 0, 0, 0]

/-- A queue's broke record and its latency summary. -/
def Queue.brokeWords (q : Queue) : List W32 := [q.brokeOverflow, q.brokeReset, q.brokePoison, q.brokeFlush].map (BitVec.ofNat 32)
def Queue.latency (q : Queue) : List W32 := [q.latMaxDepth, q.latMeanDepth, q.latMaxAge, q.latMeanAge].map (BitVec.ofNat 32)

/-- The value that a selector names; none when it names none. -/
def Dev.wideValue (d : Dev) (sel : W32) : Option (List W32) × Dev :=
  let cls := bits sel 24 8
  let kind := bits sel 16 8
  let i := bits sel 0 16
  match counterInstances cls kind with
  | some n => (if i < n then some (wide64 (d.counter (selector cls kind i))) else none, d)
  | none =>
    match cls, kind with
    | 0x01, 0 => (if i = 0 then some (wide64 Config.chipUid.toNat) else none, d)
    | 0x02, 0 => (if i < 64 then some (d.wearPage i) else none, d)
    | 0x20, 3 => (if i < 16384 then some (d.queue i).brokeWords else none, d)
    | 0x21, 0 => if i = 0 then let t := d.dkTime; (some t.1, t.2) else (none, d)
    | 0x23, 1 => (if i < 16384 then some (d.queue i).latency else none, d)
    | 0x23, 2 => (if i < 12256 then some (d.subCounters i) else none, d)
    | 0x24, 0 => (if i < 5 then some (wide64 (d.link i).nbrUid.toNat) else none, d)
    | 0x24, 8 => (if i < 5 then some [at_ (d.link i).lastCause 0, 0, 0, 0] else none, d)
    | 0x27, 0 => (if i = 0 then some d.wmShown.1 else none, d)
    | 0x27, 1 => (if i = 0 then some d.wmShown.2 else none, d)
    | 0x27, 2 => (if i < 4 then some (d.safeRecShown i) else none, d)
    | _, _ => (none, d)

/-- A snapshot into the SPI's mailbox (R406). -/
def Dev.snapshot (d : Dev) (sel : W32) : Dev :=
  let v := d.wideValue sel
  let ws := v.1.getD [0, 0, 0, 0]
  { v.2 with mailbox :=
      { valid := true, badSel := v.1.isNone, d0 := ws.getD 0 0, d1 := ws.getD 1 0, d2 := ws.getD 2 0, d3 := ws.getD 3 0 } }

/-- A read of `WMB_D3` clears VALID. -/
def Dev.mailboxRead (d : Dev) : Dev := { d with mailbox := { d.mailbox with valid := false } }

end Sys2Proof.Machine
end

