-- ==== Sys2Proof/Machine/Registers.lean ====
section
/-! DEFINITION. Writes of registers and Quire words (R4 to R7, R396 to R415, R472): judgement, the key guard, shadows and
UPDATE, the Quire and its loads, and what a write starts. -/

namespace Sys2Proof.Machine

open Sys2Proof

/-! ## Resets of single queues (R138, R156) -/

/-- The queue feeds class SV0: responses, and relay frames of service SV0. -/
def sv0Queue (q : Nat) : Bool := decide (q < 36) || (decide (40 ≤ q ∧ q < 60) && q % 4 = 0) || (decide (64 ≤ q ∧ q < 184) && q % 4 = 0)

/-- The forwarded requests whose frames wait in a relay queue of link l. -/
def Dev.frameKeys (d : Dev) (q l : Nat) : List ReqKey :=
  ((d.qRecords q).filterMap fun r =>
    let p := frPayload r.payload
    if pkRsp p || pkNotify p then none else some ⟨BitVec.ofNat 10 (pkSub p), BitVec.ofNat 16 (pkTag p)⟩).filter fun k =>
      match d.findReq k with
      | some rq => (match rq.phase with | .forwarded m _ => m = l | _ => false)
      | none => false

/-- Every subscription of class c ends with a status. -/
def Dev.endClass (d : Dev) (c status : Nat) : Dev :=
  forEach (d.subscriptions.map Prod.fst) (fun x a =>
    match a.subscription x with
    | some s => if s.cls = c then a.endSubscription x (some status) else a
    | none => a) d

/-- The hub port whose TT owns queue q. -/
def ttOwner (q : Nat) : Option Nat := if 241 ≤ q ∧ q < 369 ∧ (q - 240) % 32 ≤ 16 then some ((q - 240) % 32) else none

/-- Resets a queue: every record is counted, and the owner's work ends with a status. -/
def Dev.resetQueueWork (d : Dev) (q status : Nat) : Dev :=
  if 40 ≤ q ∧ q < 60 then (d.resetQueue q).failAll (d.frameKeys q ((q - 40) / 4)) status
  else if 1024 ≤ q ∧ q < 13312 then
    let c := q - 1024
    ((d.resetQueue q).endTransfersOn [c] status).endSubscription c (some status)
  else if q = 33 ∨ q = 34 then (d.resetQueue q).updEth (q - 33) fun e => { e with rspTo := [] }
  else if q = sheetQueue 1 then (d.endClass 1 status).resetQueue q
  else if q = sheetQueue 2 then (d.endClass 2 status).resetQueue q
  else match ttOwner q with
    | some k => (d.resetQueue q).clearTtBuffers k
    | none => d.resetQueue q

/-- A queue reset is complete: its segments are back on their lists, those of a receive queue in its pool, and the queue is
IDLE. -/
def Dev.sweepDone (d : Dev) (q : Nat) : Dev :=
  if 64 ≤ q ∧ q < 184 then d.poolSwept ((q - 64) / 24) ((q - 64) % 24 / 4) (q % 4) else d.sweepQueue q

/-! ## Alarms of the Vat (R134, R137 to R139) -/

/-- A pointer fault in queue q stops and resets it. -/
def Dev.ptrFault (d : Dev) (q bank : Nat) : Dev :=
  (d.resetQueueWork q stPoisoned).assert srcVatPtr (at_ q 16 ||| at_ bank 0)

/-- A pointer fault in the free list of logical bank k quarantines it. -/
def Dev.listFault (d : Dev) (k : Nat) : Dev :=
  (d.updFreeList k fun f => { f with quarantined := true }).assert srcVatPtr (at_ 0x3FFF 16 ||| at_ (d.vat.slotBank k) 0)

/-- The comparisons of R137: queues whose pointers, links or state table entries disagree are reset, lists whose heads
disagree are quarantined. -/
def Dev.checkBooks (d : Dev) : Dev :=
  let d1 := forEach ((d.vat.queues.filter fun kq => kq.2.state = .active && !d.queueSound kq.1).map Prod.fst) (fun q a =>
    a.ptrFault q (a.vat.slotBank (segBank (a.vat.books.ptr q).1.seg))) d
  forN d1.allocBanks (fun k a => if a.vat.headOk k || (a.freeList k).quarantined then a else a.listFault k) d1

/-- What a row that reads the Vat leaves to the collector: the parity failures of its reads (VAT_PARITY), and the pointer
faults it met (VAT_PTR). -/
def Dev.vatAlarms (d : Dev) : Dev :=
  (forEach d.vat.parityDue (fun b a => a.assert srcVatParity (at_ b 0)) (d.updVat fun v => { v with parityDue := [] })).checkBooks

/-! ## The Vat's depth (R125, R147, R148, R308) -/

/-- The depth that the registers ask for: in TRIM the shallower of `TRIM_DEPTH` and `VAT_CFG.DEPTH`. -/
def Dev.depthTarget (d : Dev) : Nat := if d.power.state = .trim then d.trimDepth else d.fld aVatCfg 0 2

/-- Starts a change to the depth asked for. -/
def Dev.seekDepth (d : Dev) : Dev := d.seekTo d.depthTarget

/-! ## Rules that span registers (R129, R190, R254, R326) -/

/-- The value of a register under judgement: `v` at address `a`, what `f` gives elsewhere. -/
def withValue (f : Nat → W32) (a : Nat) (v : W32) (b : Nat) : W32 := if b = a then v else f b

/-- The reserves sum to at most 1,008. -/
def rsvOk (f : Nat → W32) : Bool := decide ((List.range 8).foldl (fun n i => n + bits (f (aVatRsv i)) 0 10) 0 ≤ 1008)

/-- The minima of output o sum to at most 64. -/
def minOk (f : Nat → W32) (o : Nat) : Bool :=
  decide ((List.range 5).foldl (fun n i => n + bits (f (aShare o (i + 3))) 8 7) 0 ≤ 64)

/-- The range of domain n ends within the carved contexts and overlaps no other. -/
def reamOk (f : Nat → W32) (n : Nat) : Bool :=
  let b := bits (f (aReam n)) 0 14
  let c := bits (f (aReam n)) 16 14
  decide (b + c ≤ 12256) && (List.range 4).all fun m =>
    m = n || (let x := bits (f (aReam m)) 0 14; let y := bits (f (aReam m)) 16 14
      decide (c = 0 ∨ y = 0 ∨ b + c ≤ x ∨ x + y ≤ b))

/-- The first object of the PDO list that holds an address. -/
def pdoList (a : Nat) : Option Nat :=
  if 0x180000 ≤ a ∧ a < 0x1A0000 then
    let o := a % 0x1000
    if 0x20 ≤ o ∧ o < 0x3C then some (a - o + 0x20) else if 0x40 ≤ o ∧ o < 0x5C then some (a - o + 0x40) else none
  else none

/-- The objects of a list stand in the order of R326. -/
def pdosOk (f : Nat → W32) (base : Nat) : Bool := pdoOrder (((List.range 7).map fun k => f (base + 4 * k)).filter (· ≠ 0))

/-- A write of `v` at `a` places no reserved encoding, judged with the shadows of the other PDOs of its list. -/
def Dev.encJudge (d : Dev) (a : Nat) (v : W32) : Bool :=
  encOk a v &&
    (match pdoList a with
     | some b => pdosOk (withValue d.shadowOf a v) b
     | none => true) &&
    !(a = aVatQreset && sv0Queue (bits v 0 14))

/-! ## UPDATE (R402 to R405) -/

/-- Check 2: the rules that span registers, on the shadows. -/
def Dev.spanOk (d : Dev) (groups : BitVec 8) : Bool :=
  (!bit groups 6 || rsvOk d.shadowOf) && (!bit groups 1 || (List.range 36).all fun o => minOk d.shadowOf o)

/-- A relay link is admitted or enabled. -/
def Dev.linkAdmitted (d : Dev) : Bool :=
  (List.range 5).any fun n => (d.link n).state = .admitted || (d.link n).state = .enabled

/-- Check 4: the conditions on the state; the status of the first that fails. -/
def Dev.stateCheck (d : Dev) (groups : BitVec 8) : Option Nat :=
  if bit groups 0 && bits (d.shadowOf aDkCfg) 8 4 ≠ d.fld aDkCfg 8 4 &&
      ((d.subscriptions.any fun kv => kv.2.isSome) || d.linkAdmitted) then some stBusy
  else if bit groups 2 && (List.range 32).any fun n =>
      bit (d.shadowOf (aPortCfg n)) 0 && !d.burst n && !d.burstOk n then some stNoBudget
  else if bit groups 6 && !d.depthOk (bits (d.shadowOf aVatCfg) 0 2) then some stNoResource
  else none

/-- The four checks on a request; the status of the first that fails (R403). -/
def Dev.updateCheck (d : Dev) (groups : BitVec 8) (whenSel : Nat) (atBeat : BeatNo) : Option Nat :=
  if groups = 0 || (whenSel = 3 && atBeat.toNat ≤ d.deckle.beat.toNat) || !d.spanOk groups then some stBadParam
  else if d.pendingGroups &&& groups ≠ 0 || 4 ≤ d.updates.length then some stBusy
  else d.stateCheck groups

/-- Requests an UPDATE: it is pending, and takes the device out of DOZE (R316), or it is refused. -/
def Dev.requestUpdate (d : Dev) (who : Option (SubId × BitVec 16)) (groups : BitVec 8) (whenSel : Nat) (atBeat : BeatNo) :
    Nat × Dev :=
  match d.updateCheck groups whenSel atBeat with
  | some st => (st, { d with updateLast := BitVec.ofNat 16 st })
  | none =>
    let u : PendingUpdate := { groups := groups, whenSel := whenSel, atBeat := atBeat, requester := who, born := d.now }
    (stOk, ({ d with updates := d.updates ++ [u] }).startWake .hostRequest)

/-- Ends with RESET_ABORTED every pending UPDATE that shares a group. -/
def Dev.cancelUpdates (d : Dev) (groups : BitVec 8) : Dev :=
  forEach (d.updates.filter fun u => u.groups &&& groups ≠ 0) (fun u a => a.updateDone u stResetAborted) d

/-- The moment that a pending UPDATE waits for has come (R402, R404). -/
def Dev.updateDue (d : Dev) (u : PendingUpdate) : Bool :=
  let later := decide (u.born < d.now)
  let moment := match u.whenSel with
    | 0 => true
    | 1 => d.atMf && later
    | 2 => d.atBeat && later
    | _ => d.atBeat && decide (u.atBeat.toNat ≤ d.deckle.beat.toNat)
  moment && (!bit u.groups 0 || d.atBeat)

/-- The group of the register at an address. -/
def groupAt (a : Nat) : Option Nat := (regInfo a).bind fun i => i.group

/-- The limits of a held fuse, which ignores every UPDATE (R373). -/
def Dev.heldLimits (d : Dev) (a : Nat) : Bool := decide (0x140000 ≤ a ∧ a < 0x142000) && d.isHeld ((a - 0x140000) / 0x100)

/-- The shadows of the groups become the values in effect. -/
def Dev.takeShadows (d : Dev) (groups : BitVec 8) : Dev :=
  forEach d.shadow (fun kv a => match groupAt kv.1, kv.2 with
    | some g, some v => if bit groups g && !d.heldLimits kv.1 then (a.setReg kv.1 v).setShadow kv.1 none else a
    | _, _ => a) d

/-- FN_OFFSET chosen again for another BEAT_LEN at a beat start: the SOF count goes on where it is a multiple of BEAT_LEN
there; elsewhere no offset lets it go on, and which multiple follows is open (R161). -/
def Dev.reoffset (d : Dev) (sof : Nat) : Dev :=
  let w := d.freeWord
  let d1 := if sof % d.beatLen = 0 then d else w.2
  let next := if sof % d.beatLen = 0 then sof else w.1.toNat * d.beatLen
  d1.updDk fun x => { x with fnOffset := (next % 16384 + 16384 - d.gPos % 16384) % 16384 }

/-- DECKLE applied: beat length and source (R169, R181, R183), then the number loaded (R174). -/
def Dev.deckleApplied (old d : Dev) : Dev :=
  let len := old.beatLen ≠ d.beatLen
  let src := old.dkSrc ≠ d.dkSrc || (d.dkSrc = 4 && old.dkPort ≠ d.dkPort)
  let again := (look shadowDflt old.shadow aDkCfg).isSome && old.srcAbsent && d.dkSrc ≠ 0
  let d1 := if len then (d.reoffset old.sofCount).updDk fun x => { x with f := clampI (24 * d.beatLen) x.f } else d
  let d2 := if src || again || (len && d.dkSrc ≠ 0) then d1.selectSource else d1
  let d3 := if len then
      let p := d2.plan
      d2.updDk fun x => { x with planQ := p.1, planR := p.2.1, planClamped := p.2.2 }
    else d2
  let hi := d3.reg aDkLoadHi
  if bit hi 31 then
    let d4 := d3.setReg aDkLoadHi (setBit hi 31 false)
    if d4.srcNumbered then d4 else d4.renumber (BitVec.ofNat 48 ((d3.reg aDkLoadLo).toNat + bits hi 0 16 * 2 ^ 32))
  else d3

/-- HEADBOX applied: a lower BURST clips the balance (R255). -/
def Dev.headboxApplied (d : Dev) : Dev :=
  forEach (d.subs.map Prod.fst) (fun s a =>
    a.updSubr s fun x => { x with tokens := min x.tokens (a.fld (aBurst s) 0 24) }) d

/-- The balance of a subscriber that has not used it follows BURST as well. -/
def Dev.clipTokens (old d : Dev) : Dev :=
  let ks := (old.shadow.map Prod.fst).filterMap fun a =>
    if 0x041000 ≤ a ∧ a < 0x045000 ∧ a % 16 = 4 then some ((a - 0x041000) / 16) else none
  forEach ks (fun s a => a.updSubr s fun x => { x with tokens := min x.tokens (a.fld (aBurst s) 0 24) }) d

/-- EFUSE applied: a LIMIT below the contract's current makes the source offer again (R373). -/
def Dev.efuseApplied (old d : Dev) : Dev :=
  forN 32 (fun n a => match (a.eng n).contract with
    | some c =>
      if (a.eng n).source && old.portLimit n ≠ a.portLimit n && a.portLimit n < c.current then a.resendCaps n else a
    | none => a) d

/-- PD applied (R351). -/
def Dev.pdApplied (old d : Dev) : Dev :=
  forN 32 (fun n a =>
    let changed (f : Nat → Nat) (k : Nat) : Bool := (List.range k).any fun i => old.reg (f i) ≠ a.reg (f i)
    let cfg := old.reg (aPdCfg n) ^^^ a.reg (aPdCfg n)
    let offers := changed (aSrcPdo n) 7 || bits cfg 13 3 ≠ 0 || bits cfg 6 2 ≠ 0 || old.fld (aPdCable n) 0 2 ≠ a.fld (aPdCable n) 0 2
    let sinks := changed (aSnkPdo n) 7 || bits cfg 16 3 ≠ 0
    let roles := bits cfg 2 4 ≠ 0
    let a1 := if offers && (a.eng n).tc = .attachedSrc then a.resendCaps n else a
    let a2 := if sinks && (a1.eng n).tc = .attachedSnk then a1.askRequest n else a1
    if roles && (a2.eng n).tc = .unattachedSrc then a2.toTc n (a2.fallBack n true)
    else if roles && (a2.eng n).tc = .unattachedSnk then a2.toTc n (a2.fallBack n false)
    else a2) d

/-- COUCH applied: `AUTO_EN` may let a link send ENABLE (R281). -/
def Dev.couchApplied (d : Dev) : Dev := forN 5 (fun n a => a.trySendEnable n) d

/-- The groups are applied together (R404). -/
def Dev.applyGroups (d : Dev) (groups : BitVec 8) : Dev :=
  let d1 := d.takeShadows groups
  let d2 := if bit groups 0 then d.deckleApplied d1 else d1
  let d3 := if bit groups 1 then d.clipTokens d2.headboxApplied else d2
  let d4 := if bit groups 3 then d.efuseApplied d3 else d3
  let d5 := if bit groups 4 then d.pdApplied d4 else d4
  let d6 := if bit groups 6 then d5.seekDepth else d5
  if bit groups 7 then d6.couchApplied else d6

/-- UPDATE_APPLY: the pending UPDATE of these groups, at its moment, after the recheck of step 4. -/
def Dev.updateApply (d : Dev) (groups : BitVec 8) : Dev :=
  match d.updates.find? fun u => u.groups = groups with
  | none => d
  | some u =>
    if !d.updateDue u then d
    else match d.stateCheck groups with
      | some st => d.updateDone u st
      | none => (d.applyGroups groups).updateDone u stOk

def execUpdateApply (groups : BitVec 8) (s : State) : Host.Outcome State Fault Refusal := s.next (s.dev.updateApply groups)

/-! ## Writes of the Quire (R408 to R412) -/

/-- The acknowledgement of a Quire write. -/
def Dev.quireAck (d : Dev) : Dev := { d with quire := { d.quire with busy := none } }

def execQuireAck (s : State) : Host.Outcome State Fault Refusal := s.next s.dev.quireAck

/-- Counts a write to word w and stores v. The answer is whether the word was worn. -/
def Dev.storeWord (d : Dev) (w : Nat) (v : W32) : Bool × Dev :=
  let worn := decide (endurance ≤ d.wear w)
  let old := d.qword w
  let d1 := d.setQword w v
  let d2 := { d1 with quire := { d1.quire with wear := put zeroDflt d1.quire.wear w (d1.wear w + 1), busy := some (w, old) } }
  if worn then
    (true, ((d2.setReg aQuireStatus (setBits (d2.reg aQuireStatus ||| at_ 1 30) 0 12 w))).assert srcWear 0)
  else (false, d2)

/-- The word and bit of a key in `KEY_VALID` and `RELAY_KEY_VALID`, and its first word. -/
def keyValidWord (k : Nat) : Nat := if k < 64 then 0x098 + k / 32 else 0x09A
def keyFirst (k : Nat) : Nat := if k < 64 then 0x0C0 + 4 * k else 0x090 + 4 * (k - 64)

/-- Marks key k valid or empty. -/
def Dev.markKey (d : Dev) (k : Nat) (b : Bool) : Dev :=
  d.setQword (keyValidWord k) (setBit (d.qword (keyValidWord k)) (k % 32) b)

/-- A key word: word 0 marks the key empty, word 3 valid when words 0 to 2 have been written since (R411). -/
def Dev.keyWordDone (d : Dev) (k i : Nat) : Dev :=
  match i with
  | 0 => (d.markKey k false).setKeyPart k 1
  | 3 => if d.keyPart k = 7 then d.markKey k true else d
  | _ => if bit (d.keyPart k) 0 then d.setKeyPart k (d.keyPart k ||| BitVec.ofNat 4 (2 ^ i)) else d

/-- ERASE of a key: its four words are zeroed and it is empty; a slot's range and PERM become 0. -/
def Dev.eraseKey (d : Dev) (k : Nat) : Dev :=
  let d1 := ((forN 4 (fun i a => a.setQword (keyFirst k + i) 0) d).markKey k false).setKeyPart k 0
  if k < 64 then (d1.setQword (0x1C0 + 2 * k) 0).setQword (0x1C1 + 2 * k) 0 else d1

/-- The value that a write of v leaves in word w: the bits stored, the others at their default. -/
def quireMerge (w : Nat) (v : W32) : W32 := (quireDefault w &&& ~~~ (quireMask w)) ||| (v &&& quireMask w)

/-- Makes a write to word w. -/
def Dev.makeQuire (d : Dev) (w : Nat) (v : W32) : Bool × Dev :=
  match quireKind w with
  | .key k i => let r := d.storeWord w v; (r.1, r.2.keyWordDone k i)
  | .eraseRelay =>
    let r := d.storeWord w 0
    let d1 := if bit v 0 then r.2.eraseKey 64 else r.2
    (r.1, if bit v 1 then d1.eraseKey 65 else d1)
  | .perm k =>
    if bit v 31 then let r := d.storeWord w 0; (r.1, r.2.eraseKey k)
    else d.storeWord w (quireMerge w v)
  | _ => d.storeWord w (quireMerge w v)

/-- The word that supplies a register, by search among those of a rule that spans several. -/
def Dev.quireSpanOk (d : Dev) (w : Nat) (v : W32) : Bool :=
  let q (x : Nat) : W32 := if x = w then v else d.qword x
  if 0x010 ≤ w ∧ w < 0x018 then rsvOk fun a => q (0x010 + (a - aVatRsv 0) / 4)
  else if 0x018 ≤ w ∧ w < 0x01C then reamOk (fun a => q (0x018 + (a - aReam 0) / 4)) (w - 0x018)
  else if 0x030 ≤ w ∧ w < 0x050 then
    bits v 0 3 ≠ 2 || decide (((List.range 32).filter fun n => bits (q (0x030 + n)) 0 3 = 2).length ≤ 15)
  else if 0x300 ≤ w ∧ w < 0x3B4 then
    let o := (w - 0x300) / 5
    minOk (fun a => q (0x300 + 5 * o + (a - aShare o 3) / 4)) o
  else if 0x3C0 ≤ w ∧ w < 0x3C0 + 544 then
    let n := (w - 0x3C0) / 17
    let j := (w - 0x3C0) % 17
    if j < 3 then true
    else
      let b := if j < 10 then 3 else 10
      pdoOrder (((List.range 7).map fun k => q (0x3C0 + 17 * n + b + k)).filter (· ≠ 0))
  else true

/-- Whether a write of v to word w holds no reserved encoding (R408). -/
def Dev.quireJudge (d : Dev) (w : Nat) (v : W32) : Bool :=
  (match quireKind w with
   | .reserved => false
   | .supplies a => encOk a v
   | .perm _ => true
   | .field _ => quireFieldOk w v
   | _ => true) && d.quireSpanOk w v

/-- A Quire word that no path writes. -/
def quireRo (w : Nat) : Bool := match quireKind w with | .readOnly => true | _ => false

/-! ## Loads of defaults (R408, R472) -/

/-- Puts a default in its register; the bits that the register fixes stay. -/
def Dev.setDefault (d : Dev) (a : Nat) (v : W32) : Dev :=
  match regInfo a with
  | none => d
  | some i => if i.rw = 0 then d else d.setReg a ((i.reset &&& ~~~ i.rw) ||| (v &&& i.rw))

/-- Loads one default, or the reset value with QUIRE_DEFAULT raised. -/
def Dev.loadWord (d : Dev) (w : Nat) : Dev :=
  match quireKind w with
  | .supplies a => if encOk a (d.qword w) then d.setDefault a (d.qword w) else (d.setReg a (resetValue a)).assert srcQuireDefault (at_ w 0)
  | _ => d

/-- Loads n words from w on, which one rule spans: all of them take their reset values when the rule fails. -/
def Dev.loadSpan (d : Dev) (w n : Nat) (ok : Bool) : Dev :=
  if ok then forN n (fun i a => a.loadWord (w + i)) d
  else (forN n (fun i a => match quireKind (w + i) with
    | .supplies r => a.setReg r (resetValue r)
    | _ => a) d).assert srcQuireDefault (at_ w 0)

/-- The default of word x as loaded: the reset value when it is refused on its own. -/
def Dev.loadable (d : Dev) (x : Nat) : W32 :=
  match quireKind x with
  | .supplies a => if encOk a (d.qword x) then d.qword x else resetValue a
  | _ => 0

/-- `VAT_CFG`, `VAT_ROT` and the reserves, at `READY.VAT`. -/
def Dev.loadVat (d : Dev) : Dev :=
  ((d.loadWord 0x00B).loadWord 0x00C).loadSpan 0x010 8 (rsvOk fun a => d.loadable (0x010 + (a - aVatRsv 0) / 4))

/-- The carving, at `READY.HOST`. -/
def Dev.loadReam (d : Dev) : Dev :=
  let f (a : Nat) := d.loadable (0x018 + (a - aReam 0) / 4)
  d.loadSpan 0x018 4 ((List.range 4).all fun n => reamOk f n)

/-- `HB_CFG`, the shares of every output and the buckets. -/
def Dev.loadHeadbox (d : Dev) : Dev :=
  let d1 := forN 36 (fun o a =>
    a.loadSpan (0x300 + 5 * o) 5 (minOk (fun r => a.loadable (0x300 + 5 * o + (r - aShare o 3) / 4)) o)) (d.loadWord 0x008)
  forEach ((d.quire.words.map Prod.fst).filter fun w => decide (0x800 ≤ w ∧ w < 0x1000)) (fun w a => a.loadWord w) d1

/-- The PDO list of engine n whose first word is w. -/
def Dev.loadPdos (d : Dev) (w : Nat) : Dev :=
  d.loadSpan w 7 (pdoOrder (((List.range 7).map fun k => d.loadable (w + k)).filter (· ≠ 0)))

/-- The defaults of port n (R30): `PORT_CFG`, `PORT_LPM`, `PORT_SS_LPM`, the fuse and the engine; for 32 those of U0. -/
def Dev.loadPortRegs (d : Dev) (n : Nat) : Dev :=
  let d1 := forN 5 (fun j a => a.loadWord (0x240 + 5 * n + j)) d
  let d2 := forN 3 (fun j a => a.loadWord (0x3C0 + 17 * n + j)) d1
  if n < 32 then (d2.loadPdos (0x3C0 + 17 * n + 3)).loadPdos (0x3C0 + 17 * n + 10) else d2

/-! ## The key guard (R400) -/

/-- The guard of a path. -/
def guardKey : Option (SubId × BitVec 16) → Nat
  | none => 0
  | some (s, _) => 1 + s.toNat

/-- A write to `UNLOCK`. -/
def Dev.unlock (d : Dev) (g : Nat) (v : W32) : Dev :=
  if bits v 0 16 = 0x5AC3 then d.setGuard g 9
  else
    let r := d.reg aLockStatus
    (d.setGuard g 0).setReg aLockStatus (setBits r 8 8 (min 255 (bits r 8 8 + 1)))

/-- The guard of a path re-arms at the eighth microframe start after its unlock. -/
def Dev.guardRearm (d : Dev) (g : Nat) : Dev := if d.guard g = 1 then d.setGuard g 0 else d

/-! ## What a write starts -/

/-- `REAM_Dn` (R190): the range rules, and no context in use that the new range gives up. -/
def Dev.reamWrite (d : Dev) (n : Nat) (v : W32) : Bool × Dev :=
  let b := bits v 0 14
  let c := bits v 16 14
  let keeps := ((d.ctxsWhere fun _ => true) ++ d.claimedCtxs).all fun k =>
    decide (k < d.reamBase n ∨ d.reamBase n + d.reamCount n ≤ k ∨ (b ≤ k ∧ k < b + c))
  if reamOk (withValue d.reg (aReam n) v) n && keeps then (true, d.setReg (aReam n) (v &&& 0x3FFF3FFF))
  else (false, d.flag aHostStatus 31)

/-- `FC_CLEAR`: ALL and SOURCE are kept, and GO clears; it reads 0. -/
def Dev.fcClear (d0 : Dev) (v : W32) : Dev :=
  let d := d0.setReg aFcClear (v &&& 0x400001FF)
  if !bit v 31 then d
  else if bit v 30 then
    let r := d.clearAll
    if r.1 = 0 then r.2 else r.2.flag aFcStatus 26
  else
    let r := d.clearSource (bits v 0 9)
    if r.1 then r.2.flag aFcStatus 26 else r.2

/-- `FC_FORCE`: REHEARSE and SOURCE are kept, and GO asserts; it reads 0. -/
def Dev.fcForce (d0 : Dev) (v : W32) : Dev :=
  let d := d0.setReg aFcForce (v &&& 0x400001FF)
  if !bit v 31 then d else if bit v 30 then d.rehearse (bits v 0 9) else d.force (bits v 0 9)

/-- `VAT_QRESET`: QUEUE is kept, and GO resets; it reads 0. -/
def Dev.vatQreset (d0 : Dev) (v : W32) : Dev :=
  let d := d0.setReg aVatQreset (v &&& 0x3FFF)
  if bit v 31 then d.resetQueueWork (bits v 0 14) stResetAborted else d

/-- `EFUSE_CTRL`. -/
def Dev.efuseCtrl (d : Dev) (n : Nat) (v : W32) : Dev :=
  let d1 := if bit v 0 then d.latchClear n else d
  if bit v 1 then d1.abortRetry n else d1

/-- `PD_CTRL`: the acts asked for, from the one that overrides the rest. -/
def Dev.pdCtrl (d : Dev) (n : Nat) (v : W32) : Dev :=
  forEach ([(7, 7), (3, 3), (2, 2), (6, 4), (5, 6), (4, 5), (1, 1), (0, 0)] : List (Nat × Nat))
    (fun ba a => if bit v ba.1 then a.pdAct n ba.2 else a) d

/-- `CPL_CTRL`: the host enable is stored; RETRY and LINK_RESET act. -/
def Dev.cplCtrl (d : Dev) (n : Nat) (v : W32) : Dev :=
  let d1 := d.setReg (aCplCtrl n) (setBit (d.reg (aCplCtrl n)) 0 (bit v 0))
  let d2 := if bit v 2 && (d1.link n).state = .authFailed then d1.authAgain n else d1
  let d3 := if bit v 1 then d2.relayReset n 5 else d2
  d3.trySendEnable n

/-- `CHAIN_POS` (R264): every lively link undergoes a relay link reset. -/
def Dev.chainPos (d : Dev) (v : W32) : Dev :=
  forN 5 (fun n a => if (a.link n).state.lively then a.relayReset n 4 else a) (d.setReg aChainPos (v &&& 0x8000003F))

/-- `PWR_CFG` and `PWR_SLEEP`: the counts restart at the next beat start; TRIM follows its depth. -/
def Dev.pwrWrite (d : Dev) (a : Nat) (v : W32) (rw : W32) : Dev :=
  let d1 := (d.setReg a (v &&& rw)).updPower fun p => { p with restart := true }
  if d1.power.state = .trim then d1.seekDepth.trimUsage else d1

/-- `UPDATE` (R402): CANCEL, or GO. A request that fails is shown in `UPDATE_STATUS.LAST`. -/
def Dev.updateWrite (d : Dev) (who : Option (SubId × BitVec 16)) (v : W32) : Dev :=
  let g := BitVec.ofNat 8 (bits v 0 8)
  if bit v 30 then d.cancelUpdates g
  else if bit v 31 then
    (d.requestUpdate who g (bits v 16 2)
      (BitVec.ofNat 48 ((d.reg aUpdateLo).toNat + d.fld aUpdateHi 0 16 * 2 ^ 32))).2
  else d

/-- A write of a register of its kind: RW bits at once, W1C bits cleared, RWS bits to the shadow. -/
def Dev.plainWrite (d : Dev) (a : Nat) (v : W32) (i : RegInfo) : Dev :=
  match i.group with
  | some _ => if i.rw = 0 then d else d.setShadow a (some ((i.reset &&& ~~~ i.rw) ||| (v &&& i.rw)))
  | none =>
    let r := d.reg a
    d.setReg a (((r &&& ~~~ i.rw) ||| (v &&& i.rw)) &&& ~~~ (v &&& i.w1c))

/-- Makes a write that R398 has let through. The answer is whether it took effect. -/
def Dev.makeWrite (d : Dev) (who : Option (SubId × BitVec 16)) (a : Nat) (v : W32) (i : RegInfo) : Bool × Dev :=
  if a = aUnlock then (true, d.unlock (guardKey who) v)
  else if a = aUpdate then (true, d.updateWrite who v)
  else if a = aWmbSel then (true, (d.setReg a v).snapshot v)
  else if a = aPwrCfg ∨ a = aPwrSleep then (true, d.pwrWrite a v i.rw)
  else if a = aFcClear then (true, d.fcClear v)
  else if a = aFcForce then (true, d.fcForce v)
  else if a = aFcWmCtrl then (true, if bit v 0 then d.clearWatermark else d)
  else if a = aVatQreset then (true, d.vatQreset v)
  else if 0x080010 ≤ a ∧ a < 0x080020 then d.reamWrite ((a - 0x080010) / 4) v
  else if 0x140000 ≤ a ∧ a < 0x142000 ∧ a % 0x100 = 8 then (true, d.efuseCtrl ((a - 0x140000) / 0x100) v)
  else if 0x180000 ≤ a ∧ a < 0x1A1000 ∧ a % 0x1000 = 0xC then (true, d.pdCtrl ((a - 0x180000) / 0x1000) v)
  else if a = aChainPos then (true, d.chainPos v)
  else if 0x1E0400 ≤ a ∧ a < 0x1E0540 ∧ (a - 0x1E0400) % 0x40 = 4 then (true, d.cplCtrl ((a - 0x1E0400) / 0x40) v)
  else if i.acts then (true, d)
  else (true, d.plainWrite a v i)

/-! ## One write (R398) -/

/-- A refused access: over the SPI it sets a bit of `REG_ERR` and records the address. -/
def Dev.regErr (d : Dev) (who : Option (SubId × BitVec 16)) (a b : Nat) : Dev :=
  if who.isNone then d.setReg aRegErr ((d.reg aRegErr &&& 0xFC000000) ||| at_ 1 b ||| at_ (a % 2 ^ 24) 0) else d

/-- The guard refuses: the path's guard is armed and the write is not one of R401. -/
def Dev.guardShut (d : Dev) (who : Option (SubId × BitVec 16)) (opened : Bool) : Bool := !opened && decide (d.guard (guardKey who) < 2)

/-- The guard re-arms as its one write is made. -/
def Dev.useGuard (d : Dev) (who : Option (SubId × BitVec 16)) (opened : Bool) : Dev :=
  if opened then d else d.setGuard (guardKey who) 0

/-- The mailbox registers, which REG_READ and REG_WRITE may not touch (R406). -/
def isMailbox (a : Nat) : Bool := a = aWmbSel || a = 0x34 || a = 0x50 || a = 0x54 || a = 0x58 || a = 0x5C

/-- A write of a Quire word. -/
def Dev.writeQuire (d : Dev) (who : Option (SubId × BitVec 16)) (opened : Bool) (a w : Nat) (v : W32) : Nat × Dev :=
  if quireRo w then (stNotPermitted, d.regErr who a 30)
  else if !d.quireJudge w v then (stBadParam, d.regErr who a 29)
  else if d.guardShut who opened then (stNotPermitted, (d.regErr who a 28).flag aLockStatus 16)
  else
    let r := (d.useGuard who opened).makeQuire w v
    let d1 := if who.isSome then r.2.quireAck else r.2
    if r.1 then (stWearFlagged, d1.regErr who a 26) else (stOk, d1)

/-- A write of `v` at address `a`: by the SPI when `who` is none, else by a request of a subscriber; `opened` marks the
opcodes of R401. The answer is the status of R398. A write still awaiting its acknowledgement ends first (R409). -/
def Dev.writeReg (d : Dev) (who : Option (SubId × BitVec 16)) (opened : Bool) (a : Nat) (v : W32) : Nat × Dev :=
  let d0 := d.quireAck
  if d0.fc.chipSafe then (stNotPermitted, d0.flag aFcStatus 24)
  else match quireAt a with
    | some w => d0.writeQuire who opened a w v
    | none =>
      match regInfo a with
      | none => (stBadParam, d0.regErr who a 31)
      | some i =>
        if who.isSome && isMailbox a then (stNotPermitted, d0)
        else if i.rw = 0 && i.w1c = 0 && !i.acts then (stNotPermitted, d0.regErr who a 30)
        else if !d0.encJudge a v then (stBadParam, d0.regErr who a 29)
        else if i.guarded && d0.guardShut who opened then (stNotPermitted, (d0.regErr who a 28).flag aLockStatus 16)
        else if i.group.any fun g => bit d0.pendingGroups g then (stBusy, d0.regErr who a 27)
        else
          let r := (if i.guarded then d0.useGuard who opened else d0).makeWrite who a v i
          if r.1 then (stOk, r.2) else (stBadParam, r.2.regErr who a 29)

/-! ## The rows that write a register -/

/-- Who writes on a path: the SPI, or the subscriber's REG_WRITE with its TAG; a tag that no request names is open. -/
def Dev.writer (d : Dev) (p : Path) : Option (SubId × BitVec 16) × Dev :=
  match p with
  | .spi => (none, d)
  | .sub s =>
    match d.requests.find? fun r => r.sub = s && r.opcode = 0x0102 with
    | some r => (some (s, r.tag), d)
    | none => let w := d.freeWord; (some (s, BitVec.ofNat 16 w.1.toNat), w.2)

/-- The path is served: out of reset from `READY.QUIRE`, requests from `READY.MILL` (R63). -/
def Dev.pathServed (d : Dev) (p : Path) : Bool :=
  d.up && d.isReady 3 && (match p with | .spi => true | .sub _ => d.isReady 8)

/-- A write over a path. In DOZE the SPI's writes are discarded (R310). -/
def Dev.pathWrite (d : Dev) (p : Path) (a : Nat) (v : W32) : Dev :=
  if !d.pathServed p then d
  else if p = .spi && d.halted then d.flag aMsStatus 25
  else
    let w := d.writer p
    (w.2.writeReg w.1 false a v).2

def execRegisterWrite (path : Path) (addr : BitVec 24) (value : W32) (s : State) : Host.Outcome State Fault Refusal :=
  s.seen (s.dev.pathWrite path addr.toNat value)

def execFcClearGo (path : Path) (source : BitVec 9) (s : State) : Host.Outcome State Fault Refusal :=
  s.next (s.dev.pathWrite path aFcClear (at_ 1 31 ||| at_ source.toNat 0))

def execFcClearAll (path : Path) (s : State) : Host.Outcome State Fault Refusal :=
  s.next (s.dev.pathWrite path aFcClear (at_ 3 30))

def execFcForceGo (path : Path) (source : BitVec 9) (s : State) : Host.Outcome State Fault Refusal :=
  s.seen (s.dev.pathWrite path aFcForce (at_ 1 31 ||| at_ source.toNat 0))

def execFcForceRehearse (path : Path) (source : BitVec 9) (s : State) : Host.Outcome State Fault Refusal :=
  s.next (s.dev.pathWrite path aFcForce (at_ 3 30 ||| at_ source.toNat 0))

def execFcWmCtrlClear (path : Path) (s : State) : Host.Outcome State Fault Refusal := s.next (s.dev.pathWrite path aFcWmCtrl 1)

def execVatQresetGo (path : Path) (queue : Fin 16384) (s : State) : Host.Outcome State Fault Refusal :=
  s.next (s.dev.pathWrite path aVatQreset (at_ 1 31 ||| at_ queue.val 0))

def execEfuseCtrlClear (path : Path) (n : Fin 32) (s : State) : Host.Outcome State Fault Refusal :=
  s.next (s.dev.pathWrite path (aEfuseCtrl n.val) 1)

def execEfuseCtrlAbortRetry (path : Path) (n : Fin 32) (s : State) : Host.Outcome State Fault Refusal :=
  s.next (s.dev.pathWrite path (aEfuseCtrl n.val) 2)

def execPdCtrlErrorRecovery (path : Path) (n : Fin 33) (s : State) : Host.Outcome State Fault Refusal :=
  s.seen (s.dev.pathWrite path (aPdCtrl n.val) 0x80)

def execPdCtrlSrcCap (path : Path) (n : Fin 33) (s : State) : Host.Outcome State Fault Refusal :=
  s.next (s.dev.pathWrite path (aPdCtrl n.val) 0x40)

def execPdCtrlGetSnkCap (path : Path) (n : Fin 33) (s : State) : Host.Outcome State Fault Refusal :=
  s.next (s.dev.pathWrite path (aPdCtrl n.val) 0x20)

def execPdCtrlRequest (path : Path) (n : Fin 33) (s : State) : Host.Outcome State Fault Refusal :=
  s.next (s.dev.pathWrite path (aPdCtrl n.val) 0x10)

def execPdCtrlHardReset (path : Path) (n : Fin 33) (s : State) : Host.Outcome State Fault Refusal :=
  s.seen (s.dev.pathWrite path (aPdCtrl n.val) 8)

def execPdCtrlSoftReset (path : Path) (n : Fin 33) (s : State) : Host.Outcome State Fault Refusal :=
  s.next (s.dev.pathWrite path (aPdCtrl n.val) 4)

def execPdCtrlDrSwap (path : Path) (n : Fin 33) (s : State) : Host.Outcome State Fault Refusal :=
  s.next (s.dev.pathWrite path (aPdCtrl n.val) 2)

def execPdCtrlPrSwap (path : Path) (n : Fin 33) (s : State) : Host.Outcome State Fault Refusal :=
  s.next (s.dev.pathWrite path (aPdCtrl n.val) 1)

/-- RETRY and LINK_RESET are written beside the present value of ENABLE. -/
def execCplCtrlRetry (path : Path) (link : Fin 5) (s : State) : Host.Outcome State Fault Refusal :=
  s.next (s.dev.pathWrite path (aCplCtrl link.val) (s.dev.reg (aCplCtrl link.val) ||| 4))

def execCplCtrlLinkReset (path : Path) (link : Fin 5) (s : State) : Host.Outcome State Fault Refusal :=
  s.next (s.dev.pathWrite path (aCplCtrl link.val) (s.dev.reg (aCplCtrl link.val) ||| 2))

def execCplCtrlEnable (path : Path) (link : Fin 5) (s : State) : Host.Outcome State Fault Refusal :=
  s.next (s.dev.pathWrite path (aCplCtrl link.val) 1)

def execChainPosWrite (path : Path) (value : W32) (s : State) : Host.Outcome State Fault Refusal :=
  s.next (s.dev.pathWrite path aChainPos value)

def execReamDnWrite (path : Path) (domain : Fin 4) (value : W32) (s : State) : Host.Outcome State Fault Refusal :=
  s.next (s.dev.pathWrite path (aReam domain.val) value)

def execUnlock (path : Path) (value : W32) (s : State) : Host.Outcome State Fault Refusal :=
  s.next (s.dev.pathWrite path aUnlock value)

def execGuardRearm (path : Path) (s : State) : Host.Outcome State Fault Refusal :=
  s.next (s.dev.guardRearm (match path with | .spi => 0 | .sub x => 1 + x.toNat))

def execUpdateGo (path : Path) (whenSel : BitVec 2) (groups : BitVec 8) (s : State) : Host.Outcome State Fault Refusal :=
  s.next (s.dev.pathWrite path aUpdate (at_ 1 31 ||| at_ whenSel.toNat 16 ||| at_ groups.toNat 0))

def execCancel (path : Path) (groups : BitVec 8) (s : State) : Host.Outcome State Fault Refusal :=
  s.next (s.dev.pathWrite path aUpdate (at_ 1 30 ||| at_ groups.toNat 0))

def execWmbSelWrite (value : W32) (s : State) : Host.Outcome State Fault Refusal := s.next (s.dev.pathWrite .spi aWmbSel value)

def execWmbD3Read (s : State) : Host.Outcome State Fault Refusal :=
  s.next (if s.dev.pathServed .spi then s.dev.quireAck.mailboxRead else s.dev)

def execPwrCfgWrite (path : Path) (sleep : Bool) (value : W32) (s : State) : Host.Outcome State Fault Refusal :=
  s.next (s.dev.pathWrite path (if sleep then aPwrSleep else aPwrCfg) value)

def execQuireWordWrite (path : Path) (word : Fin 4096) (value : W32) (s : State) : Host.Outcome State Fault Refusal :=
  s.next (s.dev.pathWrite path (aQuire word.val) value)

/-- The number of a key: 0 to 63 the slots, 64 and 65 the relay keys. -/
def keyNumber : KeyName → Nat
  | .slot k => k.val
  | .relay k => 64 + k.val

def execKeyWordWrite (path : Path) (key : KeyName) (index : Fin 4) (value : W32) (s : State) : Host.Outcome State Fault Refusal :=
  s.next (s.dev.pathWrite path (aQuire (keyFirst (keyNumber key) + index.val)) value)

def execKeySlotErase (path : Path) (key : KeyName) (s : State) : Host.Outcome State Fault Refusal :=
  s.next (match key with
    | .slot k => s.dev.pathWrite path (aQuire (0x1C1 + 2 * k.val)) (at_ 1 31)
    | .relay k => s.dev.pathWrite path (aQuire 0x09B) (at_ 1 k.val))

end Sys2Proof.Machine
end

