-- ==== Sys2Proof/Machine/Grid.lean ====
section
/-! DEFINITION. The rows of the grid (R159 to R183, R234, R248 to R256): microframe starts, slot strobes, the plan of the
next beat, the end of a beat, the tally, heartbeats and the edges of the beat source. -/

namespace Sys2Proof.Machine

open Sys2Proof

/-! ## The start of a microframe -/

/-- Whether this end of port n drives SOFs: an EMBEDDED port, or a coupler port that is DFP. -/
def Dev.drivesSof (d : Dev) (n : Nat) : Bool := d.isEmbedded n || (d.isCoupler n && !(d.link n).ufp)

/-- A SOF leaves on port n (R159, R161, R199): at HS and SuperSpeed in every microframe, at FS in the first of a frame; an
LS port gets its keep-alive, an end of packet that carries no byte. None leaves in L1, U1, U2 or suspend, or on a port that
R18 has withdrawn. -/
def Dev.sendSof (d : Dev) (n : Nat) : Dev :=
  let p := d.port n
  if d.drivesSof n && d.served n && ((p.state = .enabled && p.link = 0) || p.resumeRecovery) &&
      (p.ss || 2 ≤ p.speed || d.sofCount % 8 = 0) then
    d.sendUnit n (if p.speed = 0 && !p.ss then [] else 0xA5 :: leBytes 2 d.sofCount) false
  else d

/-- The key guards count down (R400); each re-arms at its own row. -/
def Dev.tickGuards (d : Dev) : Dev :=
  forEach (d.guards.map Prod.fst) (fun g a => if 2 ≤ a.guard g then a.setGuard g (a.guard g - 1) else a) d

/-- The BEAT frame of R272. -/
def Dev.beatPayload (d : Dev) (n : Nat) : List Byte :=
  let l := d.link n
  [5, BitVec.ofNat 8 d.dkHops] ++ leBytes 6 d.deckle.beat.toNat ++ leBytes 2 (l.delay.getD 0) ++
    [BitVec.ofNat 8 (b2n l.delay.isSome), 0] ++ ([0, 1, 2, 3] : List Nat).flatMap (fun v => leBytes 4 (l.svc v).sent.toNat) ++
    ([0, 1, 2, 3] : List Nat).flatMap (fun v => leBytes 4 (l.svc v).released.toNat)

/-- The DFP ends send their BEAT frames, in microframe 2 (R271). -/
def Dev.sendBeats (d : Dev) : Dev :=
  forN 4 (fun n a =>
    if !(a.link n).ufp && (a.link n).state.lively then a.sendFrame n false (controlFrame (a.beatPayload n)) else a) d

/-- One port at a beat start: its idle beats and those of the subtrees below it (R298, R300). -/
def Dev.portBeat (d : Dev) (n : Nat) : Dev :=
  let idle := d.idleBeat n
  let below := d.subtreeBeats n
  d.updPort n fun p =>
    { p with idleBeats := if idle then p.idleBeats + 1 else 0, busyBeat := false, busyCtxs := [], subIdle := below }

/-- What counts beats counts one more at a beat start (R141, R145, R166, R281, R298, R308 to R311). -/
def Dev.beatStarts (d : Dev) : Dev :=
  let d1 := forN 32 (fun n a => a.portBeat n) d.countBeats
  let d2 := forN 5 (fun n a => a.updLink n fun x => { x with beatsSince := x.beatsSince + 1 }) d1
  { d2 with vat := { d2.vat with beatsSinceRot := d2.vat.beatsSinceRot + 1, beatParity := [] } }

/-- What every microframe start does: SOFs, guards, buckets, the shares in use, and the BEAT frames of microframe 2. -/
def Dev.mfStarts (d : Dev) : Dev :=
  let d1 := { (forN 32 (fun n a => a.sendSof n) d).tickGuards.refill with used := [] }
  if d1.deckle.mf = 2 && d1.power.state ≠ .doze then d1.sendBeats else d1

/-- The beat in progress ends if its end strobe has not come. -/
def Dev.closeBeat (d : Dev) : Dev := if d.deckle.mf + 1 = d.beatLen && !d.deckle.beatEnded then d.beatEnd else d

/-- MICROFRAME_START. A beat whose end strobe has not come ends first. -/
def Dev.microframe (d : Dev) : Dev :=
  if !d.deckle.running then d
  else
    let d1 := d.closeBeat.advanceMf
    (if d1.deckle.mf = 0 then d1.takeAdopted.beatStarts else d1).mfStarts

def execMicroframeStart (s : State) : Host.Outcome State Fault Refusal := s.next s.dev.microframe.vatAlarms

/-! ## Slots, the plan and the end of a beat -/

/-- The token of the report poll on link n, at slot 0 of microframe 1, once the record it brings has its SV0 claim (R132,
R176, R261). A poll whose data never came has ended by then, and its times pair with none. -/
def Dev.pollReport (d : Dev) (n : Nat) : Dev :=
  let l := d.link n
  let d0 := if l.polled then (d.dropClaim 0 (recSegs 64)).updLink n fun x => { x with polled := false, t1 := none } else d
  if l.ufp || !(l.state.lively || l.state = .resetting) || !d.served n then d0
  else match d0.takeClaim 0 (recSegs 64) with
    | some d1 => (d1.sendUnit n [0x69] false).updLink n fun x => { x with polled := true }
    | none => d0

/-- SLOT_STROBE: the polls placed in the slot, the report polls of microframe 1, the samples of R256 at slot 0, and the
returns of R285. -/
def Dev.slotStrobe (d : Dev) : Dev :=
  match d.advanceSlot with
  | none => d
  | some d1 =>
    if d1.halted then d1
    else
      let d2 := d1.strobePolls
      let d3 := if d2.deckle.slot = 0 then d2.sampleLatency else d2
      let d4 := if d3.deckle.slot = 0 && d3.deckle.mf = 1 && d3.couchRuns then forN 4 (fun n a => a.pollReport n) d3 else d3
      forN 5 (fun n a => a.creditReturn n) d4

def execSlotStrobe (s : State) : Host.Outcome State Fault Refusal := s.next s.dev.slotStrobe.vatAlarms

/-- PLAN_NEXT_BEAT: in the last microframe of a beat. -/
def Dev.planNext (d : Dev) : Dev :=
  if d.deckle.running ∧ d.deckle.mf + 1 = d.beatLen then
    let p := d.plan
    d.updDk fun x => { x with nextQ := p.1, nextR := p.2.1, nextClamped := p.2.2 }
  else d

def execPlanNextBeat (s : State) : Host.Outcome State Fault Refusal := s.next s.dev.planNext

/-- BEAT_END_STROBE: in the last microframe of a beat, once. The Vat and the cores stand still in DOZE. -/
def Dev.beatEndStrobe (d : Dev) : Dev :=
  if d.deckle.running ∧ d.deckle.mf + 1 = d.beatLen ∧ d.deckle.beatEnded = false then
    if d.halted then d.foldedEvents.updDk fun x => { x with beatEnded := true } else d.beatEnd
  else d

def execBeatEndStrobe (s : State) : Host.Outcome State Fault Refusal := s.next s.dev.beatEndStrobe.vatAlarms

/-! ## The tally (R150) -/

/-- A window ran past its bound; the context word of that assertion is open. -/
def Dev.tallyOverrun (d : Dev) : Dev :=
  let w := d.freeWord
  (w.2.flag aVatTally 30).assert srcVatTally w.1

/-- TALLY_DEFERRED_CHECK. -/
def Dev.tallyDeferred (d : Dev) (cycles : Nat) : Dev :=
  if d.vat.tallyDue && !d.windowOpen then
    ({ d with vat := { d.vat with tallyDue := false, lastDefer := min cycles 8192 } }).tallyCheck
  else d

def execTallyDeferredCheck (cycles : Nat) (s : State) : Host.Outcome State Fault Refusal := s.next (s.dev.tallyDeferred cycles)

/-- TALLY_SKIP, after 8,192 core cycles. Whether one window ran past its 4,096, which raises VAT_TALLY, or several followed each
other is open. -/
def Dev.tallySkip (d : Dev) : Dev :=
  if d.vat.tallyDue then
    let d1 := (({ d with vat := { d.vat with tallyDue := false, lastDefer := 8192 } }).flag aVatTally 29).count (selector 0x20 1 0)
    let b := d1.freeBit
    if b.1 then b.2.tallyOverrun else b.2
  else d

def execTallySkip (s : State) : Host.Outcome State Fault Refusal := s.next s.dev.tallySkip

/-! ## Heartbeats and edges -/

/-- HEARTBEAT of the subscription on context c (R234). -/
def Dev.heartbeatRow (d : Dev) (c : Nat) : Dev :=
  match d.subscription c with
  | none => d
  | some x => if d.deckle.running && !d.deckle.beatEnded && x.heartbeatDue then d.heartbeatEntry c x else d

def execHeartbeat (ctx : Nat) (s : State) : Host.Outcome State Fault Refusal := s.next (s.dev.heartbeatRow ctx).vatAlarms

/-- BEAT_IN_EDGE: high for 48 Deckle cycles, less `DK_BEATIN.DELAY` (R163, R165). -/
def Dev.beatInEdge (d : Dev) (time high : Nat) : Dev :=
  if 48 ≤ high ∧ d.dkSrc = 1 then d.edge ((time : Int) - signed 12 (d.fld aDkBeatin 0 12)).toNat none else d

def execBeatInEdge (time highCycles : Nat) (s : State) : Host.Outcome State Fault Refusal :=
  s.next (s.dev.beatInEdge time highCycles)

/-- The edge of a COUPLER source. A UFP timestamps the SOF whose low count bits are 0 and takes off the link delay that its
neighbour has sent (R175); its number is one more than that of the beat before. A DFP takes the start that the exchange found
(R176). Without a delay, or before a first exchange completes, the edge is missing. -/
def Dev.couplerEdge (d : Dev) (time : Nat) : Dev :=
  let n := d.dkPort
  let l := d.link n
  if l.ufp then
    match d.deckle.linkDelay with
    | some x =>
      let number := d.deckle.neighbourBeat.map (· + 1)
      (d.edge (time - x) number).updDk fun k => { k with neighbourBeat := number }
    | none => d
  else match l.found with
    | some f => (d.edge f.1 (some f.2)).updLink n fun x => { x with found := none }
    | none => d

/-- SOURCE_EDGE of a source other than `BEAT_IN`: a COUPLER edge, or the moment of a PTP or U0 edge. -/
def Dev.sourceEdge (d : Dev) (time : Nat) (number : Option BeatNo) : Dev :=
  if d.dkSrc = 1 then d else if d.dkSrc = 4 then d.couplerEdge time else d.edge time number

def execSourceEdge (time : Nat) (number : Option BeatNo) (s : State) : Host.Outcome State Fault Refusal :=
  s.next (s.dev.sourceEdge time number)

def execMissingEdge (s : State) : Host.Outcome State Fault Refusal := s.next s.dev.missEdge

end Sys2Proof.Machine
end

