-- ==== Sys2Proof/Machine/Banks.lean ====
section
/-! DEFINITION. The rows of the Vat (R137 to R148, R157): the rotating spare, march passes and retired banks, pointer
faults and queue resets, growth and drain, and the grant of a unit at an output. -/

namespace Sys2Proof.Machine

open Sys2Proof

/-- The Vat works: self-tested, and its clock runs. -/
def Dev.vatRuns (d : Dev) : Bool := d.up && d.isReady 4 && !d.halted

/-! ## Rotation (R141, R142, R145) -/

/-- Beats between rotations; AUTO is the whole number of beats nearest to 60 s. -/
def Dev.rotBeats (d : Dev) : Nat :=
  let r := d.fld aVatRot 0 24
  if r = 0 then (480000 + d.beatLen / 2) / d.beatLen else r

/-- A rotation starts at this beat start. -/
def Dev.rotationDue (d : Dev) : Bool :=
  d.vatRuns && d.atBeat && d.vat.spare.isSome && d.vat.sparePassed && d.vat.change = .stable && d.fldBit aVatCfg 4 &&
    d.vat.migrating.isNone && (decide (d.rotBeats ≤ d.vat.beatsSinceRot) || !d.vat.front.isEmpty)

/-- Step 1 of R142: the march test of the spare stops, and the slot and the spare become one arbitration unit. -/
def Dev.rotationStart (d : Dev) : Dev :=
  if d.rotationDue then
    d.updVat fun v =>
      let v1 := match v.spare with | some b => v.bankLost b | none => v
      { v1 with migrating := some ⟨v.front.headD v.rotSlot, 0, none⟩, beatsSinceRot := 0 }
  else d

def execRotationStart (s : State) : Host.Outcome State Fault Refusal := s.next s.dev.rotationStart

/-- Steps 4 to 6 of R142: every row is in the spare, which fills the slot, and the source becomes the spare. The slot in rotation
advances when its own turn has come; a depth change that waited starts (R157). -/
def Dev.rotationDone (d : Dev) : Dev :=
  match d.vat.migrating, d.vat.spare with
  | some m, some sp =>
    (d.updVat fun v =>
      let v1 := v.copyRest
      { v1 with
        slots := v.slots.set m.slot sp, spare := some (v.slotBank m.slot), sparePassed := false, migrating := none
        front := v.front.filter (· ≠ m.slot)
        rotSlot := if m.slot = v.rotSlot then (v.rotSlot + 1) % max 1 v.slots.length else v.rotSlot }).seekDepth
  | _, _ => d

def execRotationCopyDone (s : State) : Host.Outcome State Fault Refusal := s.next s.dev.rotationDone

/-! ## March passes (R140, R144, R147) -/

/-- Retires bank b (R144): its bit in the Quire is set, and VAT_BANK_FAIL is raised. -/
def Dev.retireBank (d : Dev) (b : Nat) : Dev :=
  let r := (d.updVat fun v => { v with retired := v.retired ||| BitVec.ofNat 9 (2 ^ b) }).storeWord 3
    (d.qword 3 ||| at_ 1 b)
  r.2.quireAck.assert srcBankFail (at_ b 0)

/-- The banks that join in a growth, those that have passed included. -/
def Vat.joiners (v : Vat) : List Nat := match v.change with | .growing _ j p => j ++ p | _ => []

/-- Gated banks that do not join. -/
def Dev.idleBanks (d : Dev) : List Nat := d.gatedBanks.filter fun b => !d.vat.joiners.contains b

/-- The device is left without a spare. -/
def Dev.noSpareLeft (d : Dev) : Dev :=
  (d.updVat fun v => { v with spare := none, coming := none, sparePassed := false, noSpare := true }).assert srcNoSpare 0

/-- A bank is powered up to become the spare, the lowest of those gated (DESIGN CHOICE), or none is left (R144). -/
def Dev.replaceSpare (d : Dev) : Dev :=
  match d.idleBanks with
  | b :: _ => d.updVat fun v => { v.bankLost b with spare := none, coming := some b, sparePassed := false }
  | [] => d.noSpareLeft

/-- Ends the requests that wait for a march pass of the spare (R439). -/
def Dev.endSelftests (d : Dev) (pass : Bool) : Dev :=
  let ks := (d.requests.filter fun r => match r.phase with | .selftest => true | _ => false).map Request.name
  forEach ks (fun k a => a.answer k stOk ([BitVec.ofNat 8 (b2n !pass), 0, 0, 0] ++ wordBytes a.vatMarch)) d

/-- A passing pass counts (`VAT_MARCH.PASSES`). -/
def Dev.passCounted (d : Dev) : Dev := d.updVat fun v => { v with marchPasses := min 65535 (v.marchPasses + 1) }

/-- A joining bank fails: another bank joins in its place, or the growth stops. -/
def Dev.rejoin (d : Dev) (t b : Nat) (joining passed : List Nat) : Dev :=
  let rest := joining.erase b
  let taken := rest ++ passed
  let pool := (d.gatedBanks ++ d.vat.coming.toList ++ d.vat.spare.toList).filter fun x => x ≠ b && !taken.contains x
  match pool with
  | x :: _ => d.updVat fun v => { v with change := .growing t (rest ++ [x]) passed }
  | [] => d.updVat fun v => { v with change := .stable }

/-- The end of a pass on the spare, or on the bank that is to become the spare. -/
def Dev.sparePassEnd (d : Dev) (b : Nat) (pass : Bool) : Dev :=
  if d.vat.spare = some b ∧ d.vat.migrating = none then
    let d1 := d.updVat fun v => { v with marchLastOk := pass, sparePassed := pass }
    if pass then d1.passCounted.endSelftests true
    else ((if d1.vat.retired.getLsbD b then d1 else d1.retireBank b).endSelftests false).replaceSpare
  else if d.vat.coming = some b then
    if pass then d.passCounted.updVat fun v => { v with spare := some b, coming := none, noSpare := false, sparePassed := false }
    else (if d.vat.retired.getLsbD b then d else d.retireBank b).replaceSpare
  else d

/-- What the end of a pass means for the books: a joining bank first, then the spare's own. -/
def Dev.passEnd (d : Dev) (b : Nat) (pass : Bool) : Dev :=
  match d.vat.change with
  | .growing t j p =>
    if j.contains b then
      let d1 := if pass then
          (if d.vat.spare = some b ∨ d.vat.coming = some b then d else d.passCounted).updVat fun v =>
            { v with change := .growing t (j.erase b) (p ++ [b]) }
        else (d.retireBank b).rejoin t b j p
      d1.sparePassEnd b pass
    else d.sparePassEnd b pass
  | _ => d.sparePassEnd b pass

/-- Bank b runs a march pass: it is the spare and no rotation uses it, is to become the spare, or joins. -/
def Vat.marches (v : Vat) (b : Nat) : Bool :=
  (v.spare = some b && v.migrating.isNone) || v.coming = some b ||
    (match v.change with | .growing _ j _ => j.contains b | _ => false)

/-- MARCH_PASS_END: the pass has run through the bank's rows, and its result is judged. -/
def Dev.marchPass (d : Dev) (b : Nat) (pass : Bool) : Dev :=
  if d.vatRuns && d.vat.marches b then (d.updVat fun v => v.marched b pass).passEnd b pass else d

def execMarchPassEnd (bank : Fin 9) (pass : Bool) (s : State) : Host.Outcome State Fault Refusal :=
  s.next (s.dev.marchPass bank.val pass)

/-! ## Pointer faults and queue resets (R138, R139) -/

/-- The queues that own segments of logical bank k. -/
def Dev.queuesIn (d : Dev) (k : Nat) : List Nat :=
  ((d.vat.books.sst.filter fun e => e.2.state = .linked && segBank e.1 = k).map fun e => e.2.owner).dedup

/-- POINTER_FAULT: in a queue, or in the state table entry that names it; in the free list of the slot that a bank fills; or in
an entry of the state table whose parity fails, which strikes every queue with segments in that bank (R139). -/
def Dev.pointerFault (d : Dev) (queue : Option Nat) (bank : Nat) (table : Bool) : Dev :=
  if !d.vatRuns then d
  else match queue with
    | some q => d.ptrFault q bank
    | none =>
      match d.vat.slots.findIdx? (· = bank) with
      | some k => if table then forEach (d.queuesIn k) (fun q a => a.ptrFault q bank) d else d.listFault k
      | none => d

def execPointerFault (queue : Option (Fin 16384)) (book : BankBook) (s : State) : Host.Outcome State Fault Refusal :=
  s.next (s.dev.pointerFault (queue.map Fin.val) book.bank.val book.table)

/-- The queue in which a response on a route waits. -/
def Dev.responseQueue (d : Dev) (r : Route) : Option Nat :=
  match r with
  | .relay p => (d.routeLink p).map fun l => relayQueue l 0
  | _ => d.routeOutput r

/-- The response of a request stands in the SPI's response FIFO. -/
def Spi.holds (s : Spi) (r : Request) : Bool :=
  s.rsp.any fun p => pkRsp p && pkSub p = r.sub.toNat && pkTag p = r.tag.toNat

/-- Whether a sweep ran past its bound of 4,096 core cycles is open; one that did raises VAT_TALLY (R150). -/
def Dev.sweepWatch (d : Dev) : Dev := let b := d.freeBit; if b.1 then b.2.tallyOverrun else b.2

/-- QUEUE_RESET_DONE: the queue is IDLE. A command whose response was lost in it ends with POISONED. -/
def Dev.queueIdle (d : Dev) (q : Nat) : Dev :=
  if (d.queue q).state = .resetting then
    forEach (d.requests.filter fun r => r.phase = .answered && d.responseQueue r.route = some q && !d.spi.holds r)
      (fun r a => a.respondAs r stPoisoned []) (d.sweepDone q).sweepWatch
  else d

def execQueueResetDone (queue : Fin 16384) (s : State) : Host.Outcome State Fault Refusal := s.next (s.dev.queueIdle queue.val)

/-- FREE_LIST_REBUILT: the list holds the FREE entries of the state table again. -/
def Dev.listRebuilt (d : Dev) (k : Nat) : Dev :=
  if (d.freeList k).quarantined then (d.rebuildList k).sweepWatch else d

def execFreeListRebuilt (bank : Fin 8) (s : State) : Host.Outcome State Fault Refusal := s.next (s.dev.listRebuilt bank.val)

/-! ## Growth and drain (R147, R148) -/

/-- GROWTH_COMPLETE: the banks that passed fill the new slots. A spare that joins leaves the Vat without one. -/
def Dev.growthDone (d : Dev) : Dev :=
  match d.vat.change with
  | .growing t [] p =>
    let lost := d.vat.spare.any p.contains || d.vat.coming.any p.contains
    let d1 := d.updVat fun v =>
      { v with
        depth := t, change := .stable, slots := v.slots ++ p
        coming := if v.coming.any p.contains then none else v.coming }
    (if lost then d1.noSpareLeft else d1).seekDepth
  | _ => d

def execGrowthComplete (s : State) : Host.Outcome State Fault Refusal := s.next s.dev.growthDone

/-- Moves what it can out of the leaving banks. -/
def Dev.relocateAll (d : Dev) (banks : Nat) : Dev :=
  ((forEach ((d.vat.queues.filter fun kq => kq.2.ownerKind ≠ 4).map Prod.fst) (fun q a => a.relocate banks q) d).relocateSheets
    banks 1).relocateSheets banks 2

/-- Relocates, and resets whole data queues while that does not suffice; in TRIM no queue is reset (R308). The sweep of a queue
that is reset here ends within the step (DESIGN CHOICE). -/
def Dev.emptyBanks (d : Dev) (banks : Nat) : Nat → Dev
  | 0 => d
  | n + 1 =>
    let d1 := d.relocateAll banks
    if d1.straddling banks && d1.power.state ≠ .trim then
      match d1.drainVictim with
      | some q => ((d1.resetQueueWork q stNoResource).sweepDone q).emptyBanks banks n
      | none => d1
    else d1

/-- DRAIN_COMPLETE: the leaving banks are power-gated as the shallower depth takes effect. A device without a spare powers
one of them up to become it. -/
def Dev.drainDone (d : Dev) : Dev :=
  match d.vat.change with
  | .draining t =>
    let n := depthBanks t
    let d1 := d.emptyBanks n (d.vat.queues.length + 1)
    if d1.straddling n then d1
    else
      let d2 := (forN d1.vat.slots.length (fun b a => if n ≤ b then a.gateSlot b else a) d1).updVat fun v =>
        { v with
          depth := t, change := .stable, slots := v.slots.take n, rotSlot := v.rotSlot % n
          front := v.front.filter (· < n) }
      let d3 := if d2.vat.spare.isNone && d2.vat.coming.isNone && !d2.idleBanks.isEmpty then d2.replaceSpare else d2
      d3.seekDepth
  | _ => d

def execDrainComplete (s : State) : Host.Outcome State Fault Refusal := s.next s.dev.drainDone

/-! ## A unit at an output -/

def execHeadboxGrant (output : Fin 36) (badCells : List Nat) (s : State) : Host.Outcome State Fault Refusal :=
  s.next (if s.dev.vatRuns then (s.dev.headboxGrant output.val badCells).vatAlarms else s.dev)

end Sys2Proof.Machine
end

