-- ==== Sys2Proof/Machine/Engine.lean ====
section
/-! DEFINITION. The rows of the host engine (R18, R187 to R212, R259): answers to transactions, timeouts, and the states of
a root port from its presentation to ENABLED. -/

namespace Sys2Proof.Machine

open Sys2Proof

/-! ## Answers to transactions (R202, R204, R205) -/

/-- A transaction of port n is over but for the wait for its next complete-split. -/
def Xact.onBus (y : Xact) : Bool := y.part ≠ 1 && y.part ≠ 11 && y.part ≠ 12

/-- The oldest buffer of a TT whose transaction is on the port. -/
def ttOpen (l : List TtBuffer) : Option TtBuffer := l.find? fun b => b.sent && b.result.isNone

/-- The first buffer of a list that is `b` becomes `c`. -/
def ttPut (b c : TtBuffer) : List TtBuffer → List TtBuffer
  | [] => []
  | x :: t => if x = b then c :: t else x :: ttPut b c t

/-- The TT keeps an answer that has no bytes; the buffer's claim returns. -/
def Dev.ttResult (d : Dev) (k : Nat) (b : TtBuffer) (r : XactResult) : Dev :=
  (d.dropClaim b.cls b.claim).updHubPort k fun p => { p with ttBuffers := ttPut b { b with result := some r, claim := 0 } p.ttBuffers }

/-- A device on a TRANSPARENT port answers the split of its TT that is on the port. IN data is linked under the buffer's claim
as a TT buffer record and waits for its complete-split (R223); without room it is lost as an error. -/
def Dev.ttResponse (d : Dev) (n : Nat) (r : XactResult) : Dev :=
  let k := (d.port n).hubPort
  match ttOpen (d.hubPort k).ttBuffers with
  | none => d
  | some b =>
    match r with
    | .data pid seq bytes =>
      let q := ttQueue k b.periodic true
      let d1 := (d.dropClaim b.cls b.claim).openQueue q b.cls 1 n 32 0
      match d1.enqueue (rqHs n) q ⟨5, false, true, 0, bytes⟩ with
      | some d2 => d2.updHubPort k fun p =>
          { p with ttBuffers := ttPut b { b with result := some (.data pid seq []), claim := 0 } p.ttBuffers }
      | none => d1.updHubPort k fun p => { p with ttBuffers := ttPut b { b with result := some .error, claim := 0 } p.ttBuffers }
    | _ => d.ttResult k b r

/-- The transaction of a relay pipe of a coupler link has ended. The row names no pipe: the errors of the link's pipes are
counted together, on the context of endpoint 0x82 (DESIGN CHOICE). -/
def Dev.pipeResponse (d : Dev) (n : Nat) (r : XactResult) : Dev :=
  if d.isCoupler n && !(d.link n).ufp && (d.link n).state.lively then
    let c := couplerEp0 n + 2
    if r = .error then
      let d1 := d.xactError c
      if 3 ≤ (d1.ctx c).errRun then (d1.updCtx c fun x => { x with errRun := 0 }).relayReset n 9 else d1
    else d.updCtx c fun x => { x with errRun := 0 }
  else d

/-- A DFP coupler port that leaves ENABLED takes its link DOWN (R275). -/
def Dev.leftEnabled (d : Dev) (n : Nat) : Dev := if d.isCoupler n && !(d.link n).ufp then d.linkDown n else d

/-- A transfer whose timeout passed while its transaction was in progress ends now (R204). -/
def Dev.lateTransfer (d : Dev) (c : Nat) : Dev :=
  match d.headOn c with
  | some t =>
    if t.started && (t.deadline.any fun x => decide (x ≤ d.now)) && !d.onWire c then d.complete t stTimeout else d
  | none => d

/-- Closes context c (R195); the close of endpoint 0 at address 0 ends the domain's binding (R188). -/
def Dev.closeCtx (d : Dev) (c : Nat) : Dev :=
  let x := d.ctx c
  let d1 := d.freeContexts [c] stDetached
  if x.ep = 0 && x.addr = 0 && !x.cpl then d1.unbind x.domain else d1

/-- A context that ENDPOINT_CLOSE waits for is closed once its transaction has ended (R195). -/
def Dev.closeLate (d : Dev) (c : Nat) : Dev :=
  if d.isClosing c && !d.onWire c && (d.ctx c).state ≠ 0 then d.closeCtx c else d

/-- TRANSACTION_RESPONSE on port n. -/
def Dev.response (d : Dev) (n : Nat) (r : XactResult) (past : Bool) : Dev :=
  match r with
  | .erdy c => d.updCtx c fun x => if x.port = n then { x with flow := false } else x
  | _ =>
  match (d.port n).inflight.find? Xact.onBus with
  | none => if d.isTransparent n then d.ttResponse n r else d.pipeResponse n r
  | some y =>
    let d1 := d.updPort n fun p => { p with inflight := p.inflight.erase y }
    if past then (((d1.pollUnclaim y).xactError y.ctx).babblePort n).leftEnabled n
    else
      let d2 := if y.poll then d1.pollAnswer n y r
        else match d1.headOn y.ctx with
          | some t => if t.started then d1.attemptAnswer t y r else d1.pollUnclaim y
          | none => d1.pollUnclaim y
      (d2.lateTransfer y.ctx).closeLate y.ctx

/-- Cells that have changed in their banks stay so whether or not the row finds its transaction. -/
def execTransactionResponse (port : Fin 32) (r : Heard) (pastMicroframe : Bool) (s : State) : Host.Outcome State Fault Refusal :=
  s.next ((s.dev.upset r.upsets).response port.val r.result pastMicroframe).vatAlarms

/-- BABBLE: the transaction in progress is an error, and the port enters ERROR. -/
def Dev.babble (d : Dev) (n : Nat) : Dev :=
  if (d.port n).state = .enabled || (d.port n).state = .suspended then
    let d1 := match (d.port n).inflight.find? Xact.onBus with
      | some y => d.xactError y.ctx
      | none => d
    (d1.babblePort n).leftEnabled n
  else d

def execBabble (port : Fin 32) (s : State) : Host.Outcome State Fault Refusal := s.next (s.dev.babble port.val)

/-- TRANSFER_TIMEOUT of the transfer in progress on a context. -/
def execTransferTimeout (ctx : Nat) (s : State) : Host.Outcome State Fault Refusal := s.next (s.dev.lateTransfer ctx)

/-- ADDRESS_HOLD_END (R189). -/
def Dev.holdEnd (d : Dev) (dom addr : Nat) : Dev :=
  { d with holds := d.holds.filter fun h => !(h.1 = dom && h.2.1 = addr && decide (h.2.2 ≤ d.now)) }

def execAddressHoldEnd (domain : Fin 4) (addr : BitVec 7) (s : State) : Host.Outcome State Fault Refusal :=
  s.next (s.dev.holdEnd domain.val addr.toNat)

/-! ## The root port states (R198, R199) -/

def Dev.connectSeen (d : Dev) (n : Nat) : Dev :=
  if d.isRoot n && (d.port n).state = .disconnected && !(d.port n).ssTraining then
    (d.toState n .debounce).startWake .connect
  else d

def execConnectSeen (port : Fin 32) (s : State) : Host.Outcome State Fault Refusal := s.next (s.dev.connectSeen port.val)

/-- CONNECT_DROP: what was found of the device is forgotten. -/
def Dev.connectDrop (d : Dev) (n : Nat) : Dev :=
  if (d.port n).state = .debounce then
    ((d.updPort n fun p => { p with state := .disconnected, speed := 0, ss := false }).portEvt n 2).portChange n
  else d

def execConnectDrop (port : Fin 32) (s : State) : Host.Outcome State Fault Refusal := s.next (s.dev.connectDrop port.val)

/-- DEBOUNCE_END. In Limp the port stays in CONNECTED (R74). A coupler port is in no domain and waits for no binding. -/
def Dev.debounceEnd (d : Dev) (n : Nat) : Dev :=
  if (d.port n).state ≠ .debounce then d
  else if d.limp || !d.fldBit (aPortCfg n) 1 then ((d.toState n .connected).portEvt n 1).portChange n
  else if d.isEmbedded n && (d.binding (d.port n).domain).any fun b => b.port ≠ n then
    let w := d.nextWaiting
    (((d.toState n .connected).updPort n fun p => { p with waiting := w }).portEvt n 1).portChange n
  else ((d.enterResetting n).portEvt n 1).portChange n

def execDebounceEnd (port : Fin 32) (s : State) : Host.Outcome State Fault Refusal := s.next (s.dev.debounceEnd port.val)

/-- The port of a domain that has waited longest for the binding. -/
def Dev.firstWaiting (d : Dev) (dom : Nat) : Option Nat :=
  (d.ports.foldl (fun (best : Option (Nat × Nat)) kp =>
    let p := kp.2
    if p.alloc = 1 ∧ p.domain = dom ∧ p.state = .connected ∧ 0 < p.waiting then
      match best with
      | some (_, w) => if p.waiting < w then some (kp.1, p.waiting) else best
      | none => some (kp.1, p.waiting)
    else best) none).map Prod.fst

/-- BINDING_RELEASE_RESET: the first port that waits takes the binding. -/
def Dev.bindingFreed (d : Dev) (dom : Nat) : Dev :=
  match d.binding dom, d.firstWaiting dom with
  | none, some n => d.enterResetting n
  | _, _ => d

def execBindingReleaseReset (domain : Fin 4) (s : State) : Host.Outcome State Fault Refusal :=
  s.next (s.dev.bindingFreed domain.val)

/-- The reset that a hub request started on a TRANSPARENT port has ended: the port is enabled, at the speed found (R222). -/
def Dev.hubResetDone (d : Dev) (n sp : Nat) : Dev :=
  let k := (d.port n).hubPort
  if bit (d.hubPort k).status 4 then
    (d.updHubPort k fun p =>
      { p with
        status := BitVec.ofNat 16 (bits p.status 0 1 + 2 + bits p.status 3 1 * 8 + 0x100 + b2n (sp = 0) * 0x200 + b2n (sp = 2) * 0x400)
        change := p.change ||| (if p.warm then 0x30 else 0x10), warm := false }).updPort n fun x => { x with speed := sp, link := 0 }
  else d

/-- The reset of port n has succeeded at a speed: RECOVERY, and the binding takes the speed. -/
def Dev.resetTaken (d : Dev) (n v : Nat) : Dev :=
  let d1 := d.updPort n fun p => { p with state := .recovery, speed := v, warmReset := false }
  match d.binding (d.port n).domain with
  | some b => if d.isEmbedded n && b.port = n then d1.bind (d.port n).domain { b with speed := v } else d1
  | none => d1

/-- RESET_SIGNALLING_END with the speed found. On a SuperSpeed port it is the end of the hot reset, or of the warm reset that
follows one that failed (R200): any speed but 3 says that it failed. Where the warm reset fails too, the link has not trained:
the port falls back to USB 2.0 (DESIGN CHOICE). -/
def Dev.resetSignalled (d : Dev) (n sp : Nat) : Dev :=
  let p := d.port n
  if d.isTransparent n then d.hubResetDone n sp
  else if p.state ≠ .resetting then d
  else if !p.ss then d.resetTaken n (min sp 2)
  else if sp = 3 then d.resetTaken n 3
  else if !p.warmReset then d.updPort n fun x => { x with warmReset := true }
  else (d.portEvt n 5).detachPort n .disconnected

def execResetSignallingEnd (port : Fin 32) (speed : BitVec 2) (s : State) : Host.Outcome State Fault Refusal :=
  s.next (s.dev.resetSignalled port.val speed.toNat)

/-- Ends the PORT_RESET requests of port n with the speed reached (R427). -/
def Dev.resetsDone (d : Dev) (n : Nat) : Dev :=
  forEach ((d.requests.filter fun r => match r.phase with | .portReset m _ => m = n | _ => false).map Request.name)
    (fun k a => a.answer k stOk [BitVec.ofNat 8 (a.port n).speed, 0, 0, 0]) d

/-- Ends the PORT_RESUME requests of port n (R427). -/
def Dev.resumesDone (d : Dev) (n : Nat) : Dev :=
  d.failAll ((d.requests.filter fun r => match r.phase with | .portResume m => m = n | _ => false).map Request.name) stOk

/-- An EMBEDDED SuperSpeed port tells its device the U2 inactivity timeout (R297), in a link management packet (PRESUMED: its
form in USB 3.2). -/
def Dev.sendU2Timeout (d : Dev) (n : Nat) : Dev :=
  if d.isEmbedded n && (d.port n).ss then d.sendUnit n (leBytes 4 (64 + 512 * d.fld (aSsLpm n) 16 8) ++ zeros 8) false else d

/-- RECOVERY_END: ENABLED; the Couch enumerates a DFP coupler neighbour. -/
def Dev.recovered (d : Dev) (n : Nat) : Dev :=
  if (d.port n).state ≠ .recovery then d
  else
    let d1 := (((d.updPort n fun p => { p with state := .enabled, idleBeats := 0, lastWork := d.now }).portEvt n 3).portChange
      n).resetsDone n |>.resumesDone n |>.sendU2Timeout n
    if d1.isCoupler n && (d1.link n).state = .enumerating && !(d1.link n).ufp then d1.enumStart n else d1

def execRecoveryEnd (port : Fin 32) (s : State) : Host.Outcome State Fault Refusal := s.next (s.dev.recovered port.val)

/-- DISCONNECT_SEEN from DEBOUNCE onwards (R201). A DFP coupler port that was past ENUMERATING's wait for ENABLED takes its
link DOWN. -/
def Dev.disconnectSeen (d : Dev) (n : Nat) : Dev :=
  let st := (d.port n).state
  if st = .notPresent || st = .disconnected then d
  else
    let d1 := d.detachPort n .disconnected
    if st = .enabled || st = .suspended then d1.leftEnabled n else d1

def execDisconnectSeen (port : Fin 32) (s : State) : Host.Outcome State Fault Refusal := s.next (s.dev.disconnectSeen port.val)

/-! ## SuperSpeed training (R200) -/

/-- A resumed port is ENABLED again (R299); the PORT_RESUME that waits for it ends. -/
def Dev.enabledAgain (d : Dev) (n : Nat) : Dev :=
  (((d.updPort n fun x =>
    { x with
      state := .enabled, link := 0, wakeResume := false, resumeRecovery := false, idleBeats := 0
      lastWork := d.now }).portEvt n 3).portChange n).resumesDone n

/-- SS_LINK_U0: a link that trains runs at SuperSpeed and is debounced as a connect (DESIGN CHOICE); one that resumes is
ENABLED (R299). -/
def Dev.ssUp (d : Dev) (n : Nat) : Dev :=
  let p := d.port n
  if p.ssTraining && p.state = .disconnected then
    d.updPort n fun x => { x with ss := true, speed := 3, ssTraining := false, state := .debounce }
  else if p.ss && p.state = .suspended && p.link = 5 then
    d.enabledAgain n
  else d

def execSsLinkU0 (port : Fin 8) (s : State) : Host.Outcome State Fault Refusal := s.next (s.dev.ssUp port.val)

def Dev.ssFailed (d : Dev) (n : Nat) : Dev :=
  if (d.port n).ssTraining then (d.updPort n fun p => { p with ssTraining := false }).portEvt n 5 else d

def execSsTrainingTimeout (port : Fin 8) (s : State) : Host.Outcome State Fault Refusal := s.next (s.dev.ssFailed port.val)

def execPresentChange (port : Fin 32) (s : State) : Host.Outcome State Fault Refusal := s.next (s.dev.presentJudged port.val)

end Sys2Proof.Machine
end

