-- ==== Sys2Proof/Machine/LinkPower.lean ====
section
/-! DEFINITION. The rows of link power (R293 to R305) and of the device power states (R306 to R316), but for the warm
start. -/

namespace Sys2Proof.Machine

open Sys2Proof

/-! ## L1, U1 and U2 (R294 to R297) -/

/-- A poll is planned on port n in the microframe k ahead; of the microframe in progress, in a slot still to come. -/
def Dev.plannedAt (d : Dev) (n k : Nat) : Bool :=
  let m := d.deckle.mf + k
  let beat := d.deckle.beat.toNat + m / d.beatLen
  (d.portSubs n).any fun cs =>
    !cs.2.ended && (k ≠ 0 || decide (d.deckle.slot < cs.2.slot)) && cs.2.tokens.any fun t => t.mf = m % d.beatLen && tokenDueIn beat cs.2 t

/-- The LPM token of port n (R294): L1, `PORT_LPM.BESL` and bRemoteWake as `L1_RWE` (PRESUMED: the layout of the USB 2.0 LPM
addendum, without its check field). -/
def Dev.lpmToken (d : Dev) (n : Nat) : List Byte :=
  [0xF0, 0xC3] ++ leBytes 2 (1 + 16 * d.fld (aPortLpm n) 24 4 + 256 * d.fld (aPortLpm n) 30 1)

/-- L1_ENTRY: the conditions of R294 hold, and an LPM token is sent. -/
def Dev.l1Entry (d : Dev) (n : Nat) : Dev :=
  let p := d.port n
  if d.isEmbedded n && p.state = .enabled && p.speed = 2 && p.link = 0 && d.fldBit (aPortLpm n) 31 && !p.lpmRefused &&
      !p.lpmSent && !d.workBehind n (fun _ => true) && decide (p.lastWork + d.fld (aPortLpm n) 16 8 ≤ d.now) &&
      (List.range (d.lx n + 1)).all (fun k => !d.plannedAt n k) then
    (d.updPort n fun x => { x with lpmSent := true }).sendUnit n (d.lpmToken n) false
  else d

def execL1Entry (port : Fin 32) (s : State) : Host.Outcome State Fault Refusal := s.next (s.dev.l1Entry port.val)

/-- Counts an unanswered LPM token under R205, on the endpoint 0 context of the device attached directly. -/
def Dev.lpmError (d : Dev) (n : Nat) : Dev :=
  match (d.ctxsWhere fun c => c.port = n && c.ep = 0 && c.parentHub = 0 && !c.cpl).head? with
  | some c => d.xactError c
  | none => d.count (selector 0x22 1 n)

/-- L1_EXIT (R296). -/
def Dev.l1Exit (d : Dev) (n : Nat) : Dev :=
  if (d.port n).link = 1 then d.updPort n fun p => { p with link := 0 } else d

/-- LPM_RESPONSE (R295, R316). A refused token may be repeated after a further `L1_IDLE` microframes; work that has arrived
meanwhile ends L1 at once. -/
def Dev.lpmAnswered (d : Dev) (n : Nat) (a : LpmAnswer) : Dev :=
  if !(d.port n).lpmSent then d
  else
    let d1 := d.updPort n fun p => { p with lpmSent := false }
    match a with
    | .ack =>
      let d2 := (d1.updPort n fun p => { p with link := 1 }).count (selector 0x25 1 n)
      if d.workBehind n (fun _ => true) then d2.l1Exit n else d2
    | .nyet => d1.updPort n fun p => { p with lastWork := d.now }
    | .stall => d1.updPort n fun p => { p with lpmRefused := true }
    | .none => (d1.updPort n fun p => { p with lastWork := d.now }).lpmError n

def execLpmResponse (port : Fin 32) (a : LpmAnswer) (s : State) : Host.Outcome State Fault Refusal :=
  s.next (s.dev.lpmAnswered port.val a)

def execL1Exit (port : Fin 32) (s : State) : Host.Outcome State Fault Refusal := s.next (s.dev.l1Exit port.val)

/-- U1_TIMEOUT: the port initiates U1. One that comes in U1 stands for the further inactivity of `U2_TIMEOUT` and leads to
U2 (DESIGN CHOICE: the table has no row of its own for it). -/
def Dev.u1Timeout (d : Dev) (n : Nat) : Dev :=
  let p := d.port n
  if d.isEmbedded n && p.ss && p.state = .enabled &&
      (List.range (d.fld (aSsLpm n) 0 4 + 1)).all (fun k => !d.plannedAt n k) then
    if p.link = 0 && d.fld (aSsLpm n) 8 8 ≠ 0 then d.updPort n fun x => { x with link := 2 }
    else if p.link = 2 && d.fld (aSsLpm n) 16 8 ≠ 0 then d.updPort n fun x => { x with link := 3 }
    else d
  else d

def execU1Timeout (port : Fin 8) (s : State) : Host.Outcome State Fault Refusal := s.next (s.dev.u1Timeout port.val)

def Dev.u1u2Exit (d : Dev) (n : Nat) : Dev :=
  if (d.port n).link = 2 || (d.port n).link = 3 then d.updPort n fun p => { p with link := 0 } else d

def execU1u2Exit (port : Fin 8) (s : State) : Host.Outcome State Fault Refusal := s.next (s.dev.u1u2Exit port.val)

/-! ## Suspend and resume (R298 to R302) -/

/-- SUSPEND_TIMER: `SUSP_BEATS` idle beats have passed. -/
def Dev.suspendTimer (d : Dev) (n : Nat) : Dev :=
  let k := d.fld (aPortLpm n) 0 16
  if d.isEmbedded n && (d.port n).state = .enabled && d.atBeat && k ≠ 0 && decide (k ≤ (d.port n).idleBeats) && d.idleBeat n then
    d.suspendPort n
  else d

def execSuspendTimer (port : Fin 32) (s : State) : Host.Outcome State Fault Refusal := s.next (s.dev.suspendTimer port.val)

/-- A request of the device's own for port hp of the hub on context h waits or runs. -/
def Dev.ownQueued (d : Dev) (h hp : Nat) (p : Purpose) : Bool :=
  d.transfers.any fun t => t.ctx = h && t.purpose = p && bits t.setup.wIndex 0 8 = hp

/-- SELECTIVE_SUSPEND: SET_FEATURE(PORT_SUSPEND) is queued, at a beat start, once the subtree has been idle for
`SUSP_BEATS`. -/
def Dev.selectiveSuspend (d : Dev) (n hub hp : Nat) : Dev :=
  let p := d.port n
  let k := d.fld (aPortLpm n) 0 16
  match d.ep0 p.domain hub with
  | none => d
  | some h =>
    if d.isEmbedded n && p.state = .enabled && k ≠ 0 && p.idleBeats < k && (d.ctx h).port = n && (d.ctx h).state = 1 &&
        (d.ctx h).speed ≠ 3 && p.knownHubs.contains hub && !p.selSusp.contains (hub, hp) && !p.selWait.contains (hub, hp) &&
        (d.subscriptions.any fun kv => kv.2.isSome && (d.ctx kv.1).addr = hub && (d.ctx kv.1).port = n && d.isHubInt kv.1) &&
        d.subtreeIdle n hub hp && decide (k ≤ p.idleOf hub hp) && d.atBeat && !d.ownQueued h hp (.selSuspend n) then
      d.hubRequest h (.selSuspend n) (hubPortRequest 0x23 3 2 hp 0)
    else d

def execSelectiveSuspend (port : Fin 32) (hub hubPort : BitVec 7) (s : State) : Host.Outcome State Fault Refusal :=
  s.next (s.dev.selectiveSuspend port.val hub.toNat hubPort.toNat)

/-- Work has arrived for context c: the subtrees that hold its device suspended are resumed with CLEAR_FEATURE (R301). -/
def Dev.wakeBelow (d : Dev) (c : Nat) : Dev :=
  let x := d.ctx c
  forEach ((d.port x.port).selSusp.filter fun hp => (d.below x.domain hp.1 hp.2 6).contains c) (fun hp a =>
    match a.ep0 x.domain hp.1 with
    | some h =>
      if a.ownQueued h hp.2 (.selResume x.port) then a
      else a.hubRequest h (.selResume x.port) (hubPortRequest 0x23 1 2 hp.2 0)
    | none => a) d

def execResumeStart (port : Fin 32) (s : State) : Host.Outcome State Fault Refusal := s.next (s.dev.resumePort port.val false)

/-- RESUME_END: EOP, SOF restarts, and recovery begins. At SuperSpeed the U3 exit ends with the link in U0 (SS_LINK_U0). -/
def Dev.resumeEnd (d : Dev) (n : Nat) : Dev :=
  if (d.port n).state = .suspended && (d.port n).link = 5 && !(d.port n).ss then
    d.updPort n fun p => { p with resumeRecovery := true }
  else d

def execResumeEnd (port : Fin 32) (s : State) : Host.Outcome State Fault Refusal := s.next (s.dev.resumeEnd port.val)

def execResumeRecoveryEnd (port : Fin 32) (s : State) : Host.Outcome State Fault Refusal :=
  s.next (if (s.dev.port port.val).state = .suspended && (s.dev.port port.val).resumeRecovery then s.dev.enabledAgain port.val
    else s.dev)

/-- SUBTREE_RESUME_WAIT_END: the work held for the subtree is released. -/
def execSubtreeResumeWaitEnd (port : Fin 32) (hub hubPort : BitVec 7) (s : State) : Host.Outcome State Fault Refusal :=
  s.next (s.dev.updPort port.val fun p => { p with selWait := p.selWait.erase (hub.toNat, hubPort.toNat) })

/-! ## Remote wake (R303, R316) -/

/-- A wake that meets the device's own resume: one resume, flagged merged. -/
def Dev.mergedWake (d : Dev) (n hub hp : Nat) : Dev :=
  ((((d.flag aPwrEvent 0).flag (aPortPwr n) 1).flag (aPortPwr n) 0).remoteWakeSent n hub hp true).startWake .remoteWake

/-- REMOTE_WAKE of an EMBEDDED root port, or of a subtree. From L1 the port is resumed at once (R296); an ENABLED SuperSpeed
port brings a function wake notification (R303). -/
def Dev.remoteWakeRow (d : Dev) (n : Nat) (sub : Option (Nat × Nat)) : Dev :=
  let p := d.port n
  if !d.isEmbedded n then d
  else match sub with
    | none =>
      if p.link = 1 then d.l1Exit n
      else if p.state = .suspended && p.link = 4 then
        (((d.resumePort n true).flag (aPortPwr n) 0).remoteWakeSent n 0 0 false).startWake .remoteWake
      else if p.state = .suspended && p.link = 5 && !p.wakeResume then d.mergedWake n 0 0
      else if p.state = .enabled && p.ss then
        (((d.u1u2Exit n).flag (aPortPwr n) 0).remoteWakeSent n 0 0 false).startWake .remoteWake
      else d
    | some (h, hp) =>
      match d.ep0 p.domain h with
      | none => d
      | some c =>
        if p.selWait.contains (h, hp) || (p.selSusp.contains (h, hp) && d.ownQueued c hp (.selResume n)) then d.mergedWake n h hp
        else d.subtreeWake n h hp

def execRemoteWake (port : Fin 32) (subtree : Option (BitVec 7 × BitVec 7)) (s : State) : Host.Outcome State Fault Refusal :=
  s.next (s.dev.remoteWakeRow port.val (subtree.map fun x => (x.1.toNat, x.2.toNat)))

/-! ## The chip's power states -/

/-- TRIM_ENTRY (R308). -/
def Dev.trimEntry (d : Dev) : Dev :=
  let k := d.fld aPwrCfg 16 8
  if d.vatRuns && d.power.state = .active && d.power.avs = .idle && !d.fc.chipSafe && d.atBeat && k ≠ 0 &&
      decide (k ≤ d.power.trimBeats) then
    (d.updPower fun p => { p with state := .trim, trimBeats := 0 }).seekDepth
  else d

def execTrimEntry (s : State) : Host.Outcome State Fault Refusal := s.next s.dev.trimEntry

/-- The device may go to DOZE because PWR_STATE asked for it: its own request does not count against it. -/
def Dev.mayDozeNow (d : Dev) : Bool := (d.updPower fun p => { p with reqInBeat := false }).mayDoze

/-- DOZE_ENTRY: the device quiesces and writes 650 mV (R309, R315). A request for DOZE lapses with the conditions. -/
def Dev.dozeEntry (d : Dev) : Dev :=
  let k := d.fld aPwrSleep 0 16
  if !d.up || d.power.state = .doze || d.power.avs ≠ .idle then d
  else if d.power.dozeNow then
    let d1 := d.updPower fun p => { p with dozeNow := false }
    if d.mayDozeNow then d1.updPower fun p => { p with avs := .lowering } else d1
  else if d.atBeat && k ≠ 0 && decide (k ≤ d.power.dozeBeats) && d.mayDoze then d.updPower fun p => { p with avs := .lowering }
  else d

def execDozeEntry (s : State) : Host.Outcome State Fault Refusal := s.next s.dev.dozeEntry

/-- AVS_ACK (R315, R316). -/
def Dev.avsAck (d : Dev) (ok : Bool) : Dev :=
  let d1 := d.updPower fun p => { p with coreOk := ok }
  match d.power.avs with
  | .idle => d
  | .lowering => d1.updPower fun p => { p with state := .doze, avs := .idle, lowered := true, dozeBeats := 0, hibBeats := 0 }
  | .loweringAbandoned => d1.updPower fun p => { p with avs := .raising }
  | .raising => if ok then d1.clocksRestart else d1

def execAvsAck (coreOk : Bool) (s : State) : Host.Outcome State Fault Refusal := s.next (s.dev.avsAck coreOk)

/-- AVS_NOACK (R315): the write that failed, then the event and its source. -/
def Dev.avsNoack (d : Dev) (ok : Bool) : Dev :=
  let d1 := d.updPower fun p => { p with coreOk := ok }
  let d2 := match d.power.avs with
    | .lowering => d1.updPower fun p => { p with avs := .raising, holdoff := d.fld aPwrSleep 0 16 }
    | .loweringAbandoned => d1.updPower fun p => { p with avs := .raising }
    | .raising => if ok then d1.clocksRestart else d1
    | .idle => d
  if d.power.avs = .idle then d else (d2.flag aPwrEvent 1).assert srcAvsNoack 0

def execAvsNoack (coreOk : Bool) (s : State) : Host.Outcome State Fault Refusal := s.next (s.dev.avsNoack coreOk)

/-- WAKE by a source of R307; an edge on `BEAT_IN` wakes from HIBERNATE only. -/
def execWake (src : WakeSrc) (s : State) : Host.Outcome State Fault Refusal :=
  s.next (if src = .beatIn || !s.dev.up then s.dev else s.dev.startWake src)

/-- The engine of a port that hibernates (R312). -/
def Dev.pdHibernate (d : Dev) (n : Nat) : Dev :=
  if d.isDisabled n then d else d.updEng n fun e => { e.cleared with tc := .hibernate }

/-- HIBERNATE_ENTRY (R311, R312, R314): the dies hibernate, the safe pairs read Safe, no grid runs, E0, E1 and U0 are down. -/
def Dev.hibernateEntry (d : Dev) : Dev :=
  let k := d.fld aPwrSleep 16 16
  if d.up && d.power.state = .doze && d.power.avs = .idle && d.atBeat && k ≠ 0 && decide (k ≤ d.power.hibBeats) && d.mayHibernate then
    let d1 := forN 4 (fun x a => a.updDie x fun y => { y with hibernating := true, safe := true }) d
    let d2 := forN 33 (fun n a => a.pdHibernate n) d1
    let d3 := forN 2 (fun e a => a.updEth e fun x => { x with linkUp := false, configured := false }) d2
    { d3 with
      life := .hibernate, power := { d3.power with state := .hibernate }, deckle := { d3.deckle with running := false }
      u0 := { d3.u0 with speed := 0, suspended := false } }
  else d

def execHibernateEntry (s : State) : Host.Outcome State Fault Refusal := s.next s.dev.hibernateEntry

end Sys2Proof.Machine
end

