-- ==== Sys2Proof/Machine/Links.lean ====
section
/-! DEFINITION. The rows of the relay links that carry link control (R259, R264, R270 to R290): HELLO, the challenge
exchange, ENABLE, beat messages and reports, resets and credits, claims that are tried again, and the timers. -/

namespace Sys2Proof.Machine

open Sys2Proof

/-! ## HELLO (R271, R275, R277) -/

/-- What HELLO tells of the neighbour. -/
def Dev.noteHello (d : Dev) (n : Nat) (p : List Byte) : Dev :=
  let valid := decide (128 ≤ byteAt p 4)
  let pos := byteAt p 4 % 64
  let own := d.position
  let posValid := d.posValid
  d.updLink n fun x =>
    { x with
      nbrEpoch := BitVec.ofNat 16 (leAt p 2 2), nbrPosValid := valid, nbrPos := pos, nbrUid := BitVec.ofNat 64 (leAt p 8 8)
      helloSeen := true, posClash := valid && posValid && pos = own, svc0 := { x.svc0 with pool := leAt p 6 2 } }

/-- HELLO: an end in HELLO goes on to AUTH, or to QUARANTINE without a common epoch. -/
def Dev.hello (d : Dev) (n : Nat) (f : List Byte) : Dev :=
  d.rxControl n f 1 fun a =>
    let b := a.noteHello n (frPayload f)
    if (a.link n).state ≠ .hello then b
    else match commonEpoch b.couchEpoch (b.link n).nbrEpoch.toNat with
      | some e => (b.updLink n fun x => { x with epoch := BitVec.ofNat 16 e }).enterAuth n
      | none => ((b.flag (aCplEvent n) 1).linkTo n .quarantine).linkSource n 4

def execHello (link : Fin 5) (frame : List Byte) (s : State) : Host.Outcome State Fault Refusal :=
  s.next (s.dev.hello link.val frame)

def Dev.helloRepeat (d : Dev) (n : Nat) : Dev :=
  let l := d.link n
  if l.state = .hello && !l.helloSeen && decide (l.helloAt + 8 ≤ d.now) then d.sendHello n else d

def execHelloRepeat (link : Fin 5) (s : State) : Host.Outcome State Fault Refusal := s.next (s.dev.helloRepeat link.val)

/-! ## The challenge exchange (R279, R280) -/

/-- CHAL. The UFP answers with its own nonce and its MAC, all zeros when the key named is empty. A UFP in AUTH_FAILED takes
the DFP's CHAL as the start of the next attempt (DEDUCED). -/
def Dev.chal (d : Dev) (n : Nat) (f : List Byte) : Dev :=
  d.rxControl n f 2 fun a =>
    let p := frPayload f
    let l := a.link n
    let nonce : Key := BitVec.ofNat 128 (leAt p 4 16)
    if l.ufp then
      if l.state = .auth || (l.state = .authFailed && l.authTries < 3) then
        let b := ((if l.state = .auth then a else a.enterAuth n).updLink n fun x =>
          { x with keyId := byteAt p 1 % 2, nonceNbr := some nonce }).sendChal n
        b.sendResp n ((b.linkMac n true).getD (zeros 16))
      else a
    else if l.state = .auth then a.updLink n fun x => { x with nonceNbr := some nonce }
    else a

def execChal (link : Fin 5) (frame : List Byte) (s : State) : Host.Outcome State Fault Refusal :=
  s.next (s.dev.chal link.val frame)

/-- RESP: the other end's MAC is checked; the DFP answers with its own. -/
def Dev.resp (d : Dev) (n : Nat) (f : List Byte) : Dev :=
  d.rxControl n f 3 fun a =>
    let l := a.link n
    let mac := ((frPayload f).drop 4).take 16
    if l.state ≠ .auth then a
    else if a.linkMac n (!l.ufp) ≠ some mac then a.authFail n
    else
      let b := a.updLink n fun x => { x with macOk := true }
      if l.ufp then (if l.macSent then b.enterAdmitted n else b)
      else (b.sendResp n ((b.linkMac n false).getD (zeros 16))).enterAdmitted n

def execResp (link : Fin 5) (frame : List Byte) (s : State) : Host.Outcome State Fault Refusal :=
  s.next (s.dev.resp link.val frame)

def Dev.authTimeout (d : Dev) (n : Nat) : Dev :=
  if (d.link n).state = .auth && decide ((d.link n).authAt + 800 ≤ d.now) then d.authFail n else d

def execAuthTimeout (link : Fin 5) (s : State) : Host.Outcome State Fault Refusal := s.next (s.dev.authTimeout link.val)

def Dev.authRetry (d : Dev) (n : Nat) : Dev :=
  let l := d.link n
  if l.state = .authFailed && decide (l.authTries < 3) && decide (l.authAt + 8000 ≤ d.now) then d.authAgain n else d

def execAuthRetry (link : Fin 5) (s : State) : Host.Outcome State Fault Refusal := s.next (s.dev.authRetry link.val)

/-! ## ENABLE (R281) -/

/-- ENABLE, with the neighbour's pools. -/
def Dev.enableSeen (d : Dev) (n : Nat) (f : List Byte) : Dev :=
  d.rxControl n f 4 fun a =>
    let p := frPayload f
    if (a.link n).state ≠ .admitted then a
    else
      (a.updLink n fun x =>
        { x with
          enableSeen := true, svc1 := { x.svc1 with pool := leAt p 2 2 }, svc2 := { x.svc2 with pool := leAt p 4 2 }
          svc3 := { x.svc3 with pool := leAt p 6 2 } }).enterEnabled n

def execEnable (link : Fin 5) (frame : List Byte) (s : State) : Host.Outcome State Fault Refusal :=
  s.next (s.dev.enableSeen link.val frame)

def execEnableSend (link : Fin 5) (s : State) : Host.Outcome State Fault Refusal := s.next (s.dev.trySendEnable link.val)

/-! ## Beat messages and reports (R175, R176, R272, R273, R286) -/

/-- Four little-endian 32-bit totals from an offset on. -/
def totalsAt (p : List Byte) (i : Nat) : List Nat := (List.range 4).map fun v => leAt p (i + 4 * v) 4

/-- A message of the neighbour with its hop count and the number of the beat that its last edge started, for the source that
`DK_CFG` names. -/
def Dev.noteBeat (d : Dev) (n hops beat : Nat) : Dev :=
  if n < 4 && d.dkPort = n then
    d.updDk fun x =>
      { x with beatMsgAt := some d.now, neighbourHops := hops % 64, neighbourBeat := some (BitVec.ofNat 48 beat) }
  else d

/-- The one-way delay of link n is known. -/
def Dev.noteDelay (d : Dev) (n : Nat) (x : Option Nat) : Dev :=
  match x with
  | none => d
  | some v =>
    let d1 := d.updLink n fun l => { l with delay := some v }
    if n < 4 && d.dkPort = n then d1.updDk fun k => { k with linkDelay := some v } else d1

/-- BEAT_FRAME at a UFP end. -/
def Dev.beatFrame (d : Dev) (n : Nat) (f : List Byte) : Dev :=
  d.rxControl n f 5 fun a =>
    let p := frPayload f
    if !(a.link n).ufp then a
    else
      ((a.noteBeat n (byteAt p 1) (leAt p 2 6)).noteDelay n (if byteAt p 10 % 2 = 1 then some (leAt p 8 2) else none)).creditCheck n
        (totalsAt p 28)

def execBeatFrame (link : Fin 5) (frame : List Byte) (s : State) : Host.Outcome State Fault Refusal :=
  s.next (s.dev.beatFrame link.val frame)

/-- The delay that the exchange of the previous poll gives: ((t4 − t1) − (T3 − T2)) / 2, from 0 up. -/
def exchangeDelay (t : Nat × Nat) (p : List Byte) : Nat :=
  ((((t.2 : Int) - t.1) - ((leAt p 16 4 : Int) - leAt p 12 4)) / 2).toNat

/-- The local time at which the UFP's beat TBEAT16 started. T2 and T3 count from there, so that the offset of the UFP's grid
o = ((t2 − t1) − (t4 − t3)) / 2 is its start with the sign turned (R176). -/
def exchangeStart (t : Nat × Nat) (p : List Byte) : Int :=
  -((((leAt p 12 4 : Int) - t.1) - ((t.2 : Int) - leAt p 16 4)) / 2)

/-- The number of the UFP's beat TBEAT16, the latest up to BEAT that ends in these 16 bits. -/
def exchangeBeat (p : List Byte) : Nat :=
  let beat := leAt p 2 6
  (beat + 2 ^ 48 - (beat + 65536 - leAt p 8 2) % 65536) % 2 ^ 48

/-- REPORT at a DFP end, the data of the poll of this beat: T2 and T3 are those of the previous poll. The record is in its SV0
queue for the Couch to take at once (R261). -/
def Dev.reportSeen (d : Dev) (n : Nat) (p : List Byte) (t1 t4 : Nat) : Dev :=
  let l := d.link n
  if l.ufp || !l.polled then d
  else
    let d0 := (d.dropClaim 0 (recSegs 64)).updLink n fun y => { y with polled := false }
    if !(l.state.lively || l.state = .resetting) || byteAt p 0 ≠ 1 then d0
    else
      let times := if byteAt p 10 % 2 = 1 then l.t1 else none
      let d1 := (d0.noteBeat n (byteAt p 1) (exchangeBeat p)).noteDelay n (times.map (exchangeDelay · p))
      let d2 := d1.updLink n fun y =>
        { y with t1 := some (t1, t4), found := times.map fun t => ((exchangeStart t p).toNat, BitVec.ofNat 48 (exchangeBeat p)) }
      d2.creditCheck n (totalsAt p 20)

def execReport (link : Fin 5) (data : List Byte) (t1 t4 : Nat) (s : State) : Host.Outcome State Fault Refusal :=
  s.next (s.dev.reportSeen link.val data t1 t4)

/-! ## RESET, CREDIT and unknown kinds (R271, R285, R290) -/

def execResetFrame (link : Fin 5) (frame : List Byte) (s : State) : Host.Outcome State Fault Refusal :=
  s.next (s.dev.rxControl link.val frame 6 fun a => a.relayReset link.val 6)

/-- CREDIT: its returns count as those of every frame do. -/
def execCreditFrame (link : Fin 5) (frame : List Byte) (s : State) : Host.Outcome State Fault Refusal :=
  s.next (s.dev.rxControl link.val frame 7 id)

/-- A frame of an unknown KIND is discarded; it counts among the frames received. -/
def execUnknownLinkFrame (link : Fin 5) (frame : List Byte) (s : State) : Host.Outcome State Fault Refusal :=
  s.next (s.dev.rxControl link.val frame (byteAt (frPayload frame) 0) id)

/-! ## Timers and claims (R259, R270, R282, R289) -/

/-- COUCH_ENUMERATION_TIMEOUT: 100 ms, 800 microframes, after ENABLED (R179, R259). -/
def Dev.enumTimeout (d : Dev) (n : Nat) : Dev :=
  let l := d.link n
  if l.state = .enumerating && !l.ufp && (d.port n).state = .enabled && l.enumStep < 4 && decide (l.enumAt + 800 ≤ d.now) then
    (d.endTransfersOn [couplerEp0 n] stTimeout).linkTo n .foreign
  else d

def execCouchEnumerationTimeout (link : Fin 5) (s : State) : Host.Outcome State Fault Refusal :=
  s.next (s.dev.enumTimeout link.val)

/-- The port of link n stands as R274 asks before the link leaves DOWN, and whether this end is UFP. -/
def Dev.linkStands (d : Dev) (n : Nat) : Bool :=
  if n < 4 then d.isCoupler n && (d.port n).present else d.u0.relayEn && decide (2 ≤ d.u0.speed)

/-- The end of enumeration has come. -/
def Dev.enumDone (d : Dev) (n : Nat) : Bool :=
  let l := d.link n
  if l.ufp then (d.func n).config = 1 else decide (4 ≤ l.enumStep)

/-- POOL_CLAIM_RETRY: at a beat start, what NO_POOL shows is tried again. -/
def Dev.claimRetry (d : Dev) (n : Nat) : Dev :=
  let l := d.link n
  if !l.noPool || !d.up || d.halted then d
  else if !l.allowance then
    let d1 := d.claimAllowance n
    if (d1.link n).allowance && d1.linkStands n then d1.linkStart n (decide (n = 4) || !(d1.eng n).dfp) else d1
  else match l.state with
    | .enumerating => if d.enumDone n then d.enterHello n else d
    | .resetting => d.enterHello n
    | .admitted => d.trySendEnable n
    | _ => d

def execPoolClaimRetry (link : Fin 5) (s : State) : Host.Outcome State Fault Refusal := s.next (s.dev.claimRetry link.val)

/-- GRACE_EXPIRY: the GRACE-th beat start, or the first, after the link left ENABLED. -/
def Dev.graceExpiry (d : Dev) (n : Nat) : Dev :=
  let l := d.link n
  if l.graceRuns && decide (max 1 (d.fld aChainCfg 0 8) ≤ l.beatsSince) then
    (d.endOver n).updLink n fun x => { x with graceRuns := false }
  else d

def execGraceExpiry (link : Fin 5) (s : State) : Host.Outcome State Fault Refusal := s.next (s.dev.graceExpiry link.val)

/-- FWD_TIMEOUT of a forwarded request (R114). -/
def Dev.fwdTimeout (d : Dev) (k : ReqKey) : Dev :=
  match d.findReq k with
  | some r => (match r.phase with
    | .forwarded _ t => if t ≤ d.now then (d.count (selector 0x10 6 0)).fail k stTimeout else d
    | _ => d)
  | none => d

def execFwdTimeout (k : ReqKey) (s : State) : Host.Outcome State Fault Refusal := s.next (s.dev.fwdTimeout k)

end Sys2Proof.Machine
end

