-- ==== Sys2Proof/Machine/Collect.lean ====
section
/-! DEFINITION. The rows of the fault collector (R377 to R392): line faults, assertions of sources that no other row
raises, FC_SELF, the copy of the Watermark into the Quire, and the end of a cause. -/

namespace Sys2Proof.Machine

/-- The source on which a line fault of source i counts: on a trip line EFUSE_FAST (R378). -/
def lineSource (i : Nat) : Nat :=
  match srcKind i with
  | some (2, n, k) => if k < 3 then srcPort n 0 else i
  | _ => i

/-- The trip line that source i is heard through, if it is one, is ignored (R377). -/
def Dev.deafTo (d : Dev) (i : Nat) : Bool :=
  match srcKind i with
  | some (2, n, k) => k < 3 && !d.hearsTrips (n / 8)
  | _ => false

/-- LINE_FAULT: one assertion with bit 31 of its context word; a pair that stays Invalid counts once. -/
def Dev.lineFault (d : Dev) (i : Nat) : Dev :=
  let j := lineSource i
  if !d.up || (d.src j).line || d.deafTo i then d else d.assert j (at_ 1 31) false true

def execLineFault (i : Fin 512) (s : State) : Host.Outcome State Fault Refusal := s.seen (s.dev.lineFault i.val)

/-- The signal of source i stays asserted already (R377): its pair is Invalid, or the condition it shows, an over-temperature
or a PLL out of lock, has not ended. -/
def Dev.staysAsserted (d : Dev) (i : Nat) : Bool :=
  (d.src i).line || ((d.src i).cause &&
    (match srcKind i with
     | some (0, _, k) => k = 13 || k = 14
     | some (1, _, k) => k = 2
     | _ => false))

/-- SOURCE_ASSERT: the cause of the source is present until FAULT_CAUSE_ENDS, where R376 gives it a length. A signal that
stays asserted counts once (R377). -/
def Dev.sourceAssert (d : Dev) (i : Nat) (ctx : W32) : Dev :=
  if !d.up || !srcUsed i || d.deafTo i || d.staysAsserted i then d
  else (d.setSrc i { d.src i with cause := true }).assert i ctx

def execSourceAssert (i : Fin 512) (context : W32) (s : State) : Host.Outcome State Fault Refusal :=
  s.seen (s.dev.sourceAssert i.val context)

def execFcSelf (s : State) : Host.Outcome State Fault Refusal := s.seen (if s.dev.up then s.dev.assert srcSelf 0 else s.dev)

/-- The copy of the Watermark (R391): the slot that does not hold the newer valid record, SEQ one higher; or A with SEQ 1. -/
def Dev.copyRecord (d : Dev) : Dev :=
  let r : Nat × Nat := match d.newerRec with
    | none => (0, 1)
    | some k => (1 - k, (bits ((d.safeRec k).getD 0 0) 0 16 + 1) % 65536)
  (d.recordWords r.2).zipIdx.foldl (fun a wi => (a.storeWord (0x080 + 8 * r.1 + wi.2) wi.1).2) d

/-- U0 data is disconnected (R49): the functions on U0 are unaddressed and the link on U0 goes DOWN. -/
def Dev.u0Off (d : Dev) : Dev :=
  let d1 := (d.linkDown 4).setFunc 4 UsbFunction.reset
  { d1 with u0 := { d1.u0 with speed := 0, suspended := false, hub := UsbFunction.reset } }

/-- WATERMARK_COPY, once a Quire write in progress has ended. The FAULT_EVENT of the entry into CHIP_SAFE follows (step 7 of
R382). By now the link on U0, whose data CHIP_SAFE has disconnected, is DOWN. -/
def Dev.watermarkCopy (d : Dev) : Dev :=
  if d.fc.copying then
    let d1 := d.u0Off.quireAck.copyRecord
    let d2 := { d1 with fc := { d1.fc with copying := false, event := none } }
    match d.fc.event with
    | some (i, f) => d2.sendFault i f false false
    | none => d2
  else d

def execWatermarkCopy (s : State) : Host.Outcome State Fault Refusal := s.next s.dev.watermarkCopy

/-- FAULT_CAUSE_ENDS: the condition ends, or the pair is valid again. -/
def Dev.causeEnds (d : Dev) (i : Nat) : Dev :=
  let d1 := d.setSrc i { d.src i with cause := false, line := false }
  match srcKind i with
  | some (2, _, 10) => { d1 with psb := { d1.psb with alertLow := false } }
  | _ => d1

def execFaultCauseEnds (i : Fin 512) (s : State) : Host.Outcome State Fault Refusal := s.next (s.dev.causeEnds i.val)

end Sys2Proof.Machine
end

