-- ==== Sys2Proof/Machine/Firmware.lean ====
section
/-! DEFINITION. The flash and the firmware images (R66 to R73, R79): the directory, the checks of a slot, and the boot ROM's
choice of the images. Slots are numbered 0 Mill A, 1 Mill B, 2 Couch A, 3 Couch B. -/

namespace Sys2Proof.Machine

open Sys2Proof

/-! ## The flash (R66) -/

/-- Number, first address and size of a slot. -/
def slotNo : FwSlot → Nat
  | .millA => 0 | .millB => 1 | .couchA => 2 | .couchB => 3

def slotBase (k : Nat) : Nat := [0x00100000, 0x00500000, 0x00900000, 0x00B00000].getD k 0
def slotSize (k : Nat) : Nat := if k < 2 then 0x400000 else 0x200000

/-- The slot with a number. -/
def slotAt (k : Nat) : FwSlot :=
  match k with
  | 0 => .millA | 1 => .millB | 2 => .couchA | _ => .couchB

/-- `n` bytes of the flash from address a. -/
def Dev.flashBytes (d : Dev) (a n : Nat) : List Byte := (List.range n).map fun i => d.cell (a + i)

/-- Erases `size` bytes from address a: they read 0xFF. -/
def Dev.eraseFlash (d : Dev) (a size : Nat) : Dev :=
  { d with flash := d.flash.filter fun kv => !(decide (a ≤ kv.1 ∧ kv.1 < a + size)) }

/-- Programs bytes from address a. -/
def Dev.programFlash (d : Dev) (a : Nat) : List Byte → Dev
  | [] => d
  | b :: t => (d.setCell a b).programFlash (a + 1) t

/-! ## The directory (R67, R68) -/

/-- A directory as the boot ROM uses it: the copy in use with its sequence number, and its fields. -/
structure Directory where
  copy : Nat
  dseq : Nat
  millPrefB : Bool
  couchPrefB : Bool
  millTrial : Bool
  millUsed : Bool
  couchTrial : Bool
  couchUsed : Bool
  deriving DecidableEq, Repr

/-- The twelve bytes that a directory copy's CRC covers, for a sequence number. -/
def Directory.record (x : Directory) (dseq : Nat) : List Byte :=
  leBytes 4 0x44495254 ++ leBytes 4 dseq ++
    ([b2n x.millPrefB, b2n x.couchPrefB,
      b2n x.millTrial + 2 * b2n x.millUsed + 4 * b2n x.couchTrial + 8 * b2n x.couchUsed, 0].map (BitVec.ofNat 8))

/-- Directory copy c, when it is valid (R68). -/
def Dev.dirCopy (d : Dev) (c : Nat) : Option Directory :=
  let r := d.flashBytes (0x10000 * c) 16
  if leAt r 0 4 = 0x44495254 && decide (byteAt r 8 ≤ 1 ∧ byteAt r 9 ≤ 1 ∧ byteAt r 10 < 16 ∧ byteAt r 11 = 0) &&
      leAt r 12 4 = crc32c (r.take 12) then
    let f := r.getD 10 0
    some { copy := c, dseq := leAt r 4 4, millPrefB := byteAt r 8 = 1, couchPrefB := byteAt r 9 = 1, millTrial := bit f 0,
           millUsed := bit f 1, couchTrial := bit f 2, couchUsed := bit f 3 }
  else none

/-- The directory in force: the valid copy with the higher DSEQ, copy 0 among equals. Without a valid copy slot A is
preferred and no flag is set; the copy in use then counts as copy 0 with DSEQ 0 (DESIGN CHOICE). -/
def Dev.directory (d : Dev) : Directory :=
  match d.dirCopy 0, d.dirCopy 1 with
  | some x, some y => if x.dseq < y.dseq then y else x
  | some x, none => x
  | none, some y => y
  | none, none =>
    { copy := 0, dseq := 0, millPrefB := false, couchPrefB := false, millTrial := false, millUsed := false,
      couchTrial := false, couchUsed := false }

/-- A directory update: the copy not in use is erased and written, with DSEQ one higher (R68). -/
def Dev.writeDirectory (d : Dev) (x : Directory) : Dev :=
  let c := 1 - x.copy
  let r := x.record ((x.dseq + 1) % 2 ^ 32)
  (d.eraseFlash (0x10000 * c) 0x10000).programFlash (0x10000 * c) (r ++ leBytes 4 (crc32c r))

/-- The preferred slot of an image. -/
def Directory.preferred (x : Directory) (couch : Bool) : Nat :=
  if couch then 2 + b2n x.couchPrefB else b2n x.millPrefB

/-- The trial flags of the Mill image as a boot leaves them (R72). -/
def Directory.bootMill (x : Directory) : Directory :=
  if x.millTrial && x.millUsed then { x with millPrefB := !x.millPrefB, millTrial := false, millUsed := false }
  else if x.millTrial then { x with millUsed := true } else x

/-- The same of the Couch image. -/
def Directory.bootCouch (x : Directory) : Directory :=
  if x.couchTrial && x.couchUsed then { x with couchPrefB := !x.couchPrefB, couchTrial := false, couchUsed := false }
  else if x.couchTrial then { x with couchUsed := true } else x

/-- The boot ROM reads the directory, processes the trial flags, of the Mill image alone after a Mill watchdog reset, and
writes the other copy when something changed (R72). -/
def Dev.bootDirectory (d : Dev) (millOnly : Bool) : Dev :=
  let x := d.directory
  let y := if millOnly then x.bootMill else x.bootMill.bootCouch
  let reverted := (x.millTrial && x.millUsed) || (!millOnly && x.couchTrial && x.couchUsed)
  let d1 := { d with boot := { d.boot with reverted := reverted } }
  if x = y then d1 else d1.writeDirectory y

/-! ## The image in a slot (R69, R70) -/

/-- The header of slot k. -/
def Dev.slotHeader (d : Dev) (k : Nat) : List Byte := d.flashBytes (slotBase k) 192

/-- Check 2 on a header. -/
def headerOk (couch : Bool) (h : List Byte) : Bool :=
  leAt h 0 4 = 0x32324D54 && decide (byteAt h 4 = 1) && decide (byteAt h 5 = (if couch then 2 else 1)) &&
    leAt h 6 2 = 0 && leAt h 22 2 = 0 &&
    ((h.drop 96).take 32).all (· = 0) &&
    decide (leAt h 24 4 ≤ (if couch then 0x200000 else 0x400000) - 192) && decide (leAt h 28 4 % 4 = 0) &&
    decide (leAt h 28 4 < leAt h 24 4)

/-- Check 3: the key's hash and the signature. Fuses not programmed read as zero, and every image fails. -/
def Dev.signatureOk (d : Dev) (k : Nat) (h : List Byte) : Bool :=
  let key := (h.drop 32).take 64
  decide (Config.keyHash ≠ 0) && decide (Config.sha256 key = Config.keyHash) &&
    Config.ecdsaVerifies key (h.take 128 ++ d.flashBytes (slotBase k + 192) (leAt h 24 4)) ((h.drop 128).take 64)

/-- The header fields that later steps use. -/
def imageOf (h : List Byte) : ImageHdr :=
  { version := BitVec.ofNat 32 (leAt h 8 4), avvEpoch := BitVec.ofNat 16 (leAt h 12 2)
    relayEpoch := BitVec.ofNat 16 (leAt h 14 2), ownEpoch := BitVec.ofNat 16 (leAt h 18 2)
    partnerEpoch := BitVec.ofNat 16 (leAt h 20 2) }

/-- A Mill and a Couch image agree (R71). -/
def agree (mill couch : ImageHdr) : Bool := mill.partnerEpoch = couch.ownEpoch && couch.partnerEpoch = mill.ownEpoch

/-- The result of the checks of R70 on slot k, but for the flash's answers: 1 ACCEPTED, 2 NO_IMAGE, 3 BAD_SIGNATURE,
4 STEPPING, 5 EPOCH. Check 5 is judged against the running Mill image, and left out without one (R438). The device is
stepping 0xB1. -/
def Dev.checkSlot (d : Dev) (k : Nat) : Nat :=
  let h := d.slotHeader k
  if !headerOk (decide (2 ≤ k)) h then 2
  else if !d.signatureOk k h then 3
  else if byteAt h 16 ≤ 0xB1 ∧ 0xB1 ≤ byteAt h 17 then
    match d.boot.mill with
    | some m => if 2 ≤ k && !agree m (imageOf h) then 5 else 1
    | none => 1
  else 4

/-! ## The choice of the images (R72, R73) -/

/-- The boot counter is written (R79). -/
def Dev.countBoot (d : Dev) : Dev := (d.storeWord 0 (d.qword 0 + 1)).2

/-- At a new boot epoch the replay windows, the counters of packets sent and the routes start again (R104 to R108). -/
def Dev.newEpoch (d : Dev) : Dev :=
  forEach (d.subs.map Prod.fst) (fun s a => a.updSubr s fun x =>
    { x with high := 0, mask := 1, txSeq := 1, notifTag := 1, route := none }) d.countBoot

/-- A running image is on trial: the image's flags are set and it runs from its preferred slot. -/
def Dev.noteTrial (d : Dev) : Dev :=
  let x := d.directory
  let m := x.millTrial && x.millUsed && d.boot.mill.isSome && d.boot.millSlotB = x.millPrefB
  let c := x.couchTrial && x.couchUsed && d.boot.couch.isSome && d.boot.couchSlotB = x.couchPrefB
  { d with boot := { d.boot with trial := m || c } }

/-- The Couch core is held in reset: every link is DOWN, and the coupler ports present and run nothing (R73, R74, R76). -/
def Dev.couchOff (d : Dev) : Dev :=
  let d1 := forN 5 (fun n a => a.linkDown n) d
  let d2 := forN 4 (fun n a => if a.isCoupler n && (a.port n).present then a.withdrawn n else a) d1
  let d3 := d2.setReady 9 false
  { d3 with boot := { d3.boot with checking := none, couch := none, couchChosen := false } }

/-- PARTIAL (R76). -/
def Dev.holdCouch (d : Dev) : Dev :=
  let d1 := d.couchOff
  { d1 with boot := { d1.boot with state := .partialState } }

/-- The bus traffic of a root port ends for Limp: a port past CONNECTED goes back to it, without a PORT_CHANGE (R74; DESIGN
CHOICE: R74 does not say what a port that was ENABLED shows). -/
def RootState.limped : RootState → RootState
  | .resetting => .connected
  | .recovery => .connected
  | .enabled => .connected
  | .suspended => .connected
  | s => s

/-- Limp or RECOVERY begins: the interpreter serves from here on (R63, R74). The Couch core is held in reset. -/
def Dev.enterLimp (d : Dev) (st : BootState) : Dev :=
  let d1 := (forN 32 (fun n a => a.updPort n fun p => { p with state := p.state.limped }) d.newEpoch).couchOff
  { d1 with boot := { d1.boot with state := st, mill := none, wdogArmed := false } }

/-- The check of an image's preferred slot starts. -/
def Dev.checkImage (d : Dev) (couch : Bool) : Dev :=
  let k := slotAt (d.directory.preferred couch)
  { d with boot := { d.boot with checking := some k, first := some k } }

/-- The Mill image in slot k is accepted: it is started at its ENTRY, which arms its watchdog (R77), and the boot counter is
written. The Couch steps follow, or a running Couch image is kept when it agrees (R72). -/
def Dev.acceptMill (d : Dev) (k : Nat) : Dev :=
  let m := imageOf (d.slotHeader k)
  let d1 := d.newEpoch
  let d2 := { d1 with boot := { d1.boot with mill := some m, millSlotB := k = 1, millChosen := true, wdogArmed := true, millFrom := d1.now } }
  let d3 := match d2.boot.couch with
    | some c => if agree m c then { d2 with boot := { d2.boot with state := .normal, checking := none } } else d2.holdCouch
    | none => d2.checkImage true
  d3.noteTrial

/-- The Couch image in slot k is accepted. -/
def Dev.acceptCouch (d : Dev) (k : Nat) : Dev :=
  ({ d with boot := { d.boot with
      state := .normal, checking := none, couch := some (imageOf (d.slotHeader k)), couchSlotB := k = 3
      couchChosen := true } }).noteTrial

/-- The check of slot k ends with a result: the image is taken, the other slot is tried, or no slot is left. -/
def Dev.slotDone (d : Dev) (k r : Nat) : Dev :=
  if d.up && d.boot.checking = some (slotAt k) then
    let d1 := (d.setSlotResult k r).setSlotVerified k (r = 1)
    let couch := decide (2 ≤ k)
    if r = 1 then (if couch then d1.acceptCouch k else d1.acceptMill k)
    else if d.boot.first = some (slotAt k) then
      { d1 with boot := { d1.boot with checking := some (slotAt (if k % 2 = 0 then k + 1 else k - 1)) } }
    else if couch then d1.holdCouch
    else d1.enterLimp .limp
  else d

def execSlotCheckDone (slot : FwSlot) (s : State) : Host.Outcome State Fault Refusal :=
  s.next (s.dev.slotDone (slotNo slot) (s.dev.checkSlot (slotNo slot)))

/-- FLASH_READ_TIMEOUT: the check of the slot ends with FLASH_ERROR. -/
def execFlashReadTimeout (slot : FwSlot) (s : State) : Host.Outcome State Fault Refusal :=
  s.next (s.dev.slotDone (slotNo slot) 6)

end Sys2Proof.Machine
end

