-- ==== Sys2Proof/Machine/Bringup.lean ====
section
/-! DEFINITION. Supplies, resets and bring-up (R30, R31, R43 to R61, R77 to R79, R146, R313): what each reset clears, the
steps of R60, the watchdogs and dead-battery service. -/

namespace Sys2Proof.Machine

open Sys2Proof

/-! ## Resets of the main die (R77, R78) -/

/-- The resets of the main die, and the warm start (R313). -/
inductive MainReset where
  | powerOn | resetN | chip | warm
  deriving DecidableEq, Repr

/-- A Quire write that loses its supply ends with the old or the new value, which is open (R59, R410). -/
def Dev.quireCut (d : Dev) : Dev :=
  match d.quire.busy with
  | none => d
  | some (w, old) =>
    let b := d.freeBit
    let d1 := if b.1 then b.2.setQword w old else b.2
    { d1 with quire := { d1.quire with busy := none } }

/-- The registers that a port load supplies; a warm start, which loads no port, keeps them (DEDUCED from R313). -/
def portSupplied : List Nat :=
  ((List.range 33).flatMap fun n =>
    ((List.range 5).map (0x240 + 5 * n + ·)) ++ (List.range 17).map (0x3C0 + 17 * n + ·)).filterMap fun w =>
      match quireKind w with | .supplies a => some a | _ => none

/-- A fuse whose Press die has been reset (R48): gate off; the switch closes on a port that was sourcing. -/
def Fuse.afterReset (f : Fuse) : Fuse :=
  { Fuse.reset with dsch := f.dsch || (f.gate && f.state ≠ .sink), atZero := f.atZero }

/-- A Press die in reset. -/
def Die.afterReset (x : Die) : Die :=
  { powered := x.powered, armed := false, lost := false, linkUp := x.powered, safe := true, hibernating := false }

/-- A source after a reset: level and count cleared; a cause still present asserts again after it (R386). -/
def Dev.sourceReset (d : Dev) (i : Nat) : Source :=
  let s := d.src i
  { Source.reset with cause := s.cause || (d.causePresent i && decide (0 < s.level ∨ 0 < s.c)), line := s.line }

/-- The device with everything reset that no reset keeps. -/
def Dev.blank (d : Dev) (k : MainReset) : Dev :=
  { Dev.reset with
    life := d.life, flash := d.flash, vinLow := d.vinLow, jtag := d.jtag, scan := d.scan, jtagOut := d.jtagOut
    nonceCtr := d.nonceCtr, freeCtr := d.freeCtr
    quire := { d.quire with busy := none, keyPart := if k = .powerOn then [] else d.quire.keyPart }
    watermark := if k = .powerOn then Watermark.reset else d.watermark
    fc := { Fc.reset with showRecord := k = .powerOn || d.fc.showRecord }
    u0 := { U0.reset with vbus := d.u0.vbus }
    psb := if k = .powerOn then Psb.reset else { Psb.reset with exponent := d.psb.exponent, commanded := d.psb.commanded, alertLow := d.psb.alertLow } }

/-- What the warm start keeps besides (R313): the allocations, the fuses and engines, the counts of class 0x26. -/
def Dev.keepWarm (d b : Dev) : Dev :=
  let b1 := { b with
    counters := d.counters.filter fun kv => kv.1 / 2 ^ 24 = 0x26
    regs := d.regs.filter fun kv => portSupplied.contains kv.1
    fuses := d.fuses, pd := d.pd, maint := d.maint
    deckle := { Deckle.reset with beat := d.deckle.beat }
    boot := { Boot.reset with warm := true } }
  let b2 := forN 32 (fun n a => a.setPort n { Port.reset with
    alloc := (d.port n).alloc, domain := (d.port n).domain, hubPort := (d.port n).hubPort }) b1
  forN 4 (fun x a => a.setDie x { d.die x with armed := false, hibernating := false, safe := true }) b2

/-- What the Press dies and U0's pins show after a reset of the main die and the dies. U0's CC keeps Rd (R57). -/
def Dev.coldDies (d b : Dev) : Dev :=
  let b1 := forN 4 (fun x a => a.setDie x (d.die x).afterReset) b
  let b2 := forN 32 (fun n a => a.setFuse n (d.fuse n).afterReset) b1
  b2.setEng 32 { Pd.reset with cc1 := (d.eng 32).cc1, cc2 := (d.eng 32).cc2 }

/-- A reset of the main die. -/
def Dev.mainReset (d : Dev) (k : MainReset) : Dev :=
  let b := d.blank k
  let b1 := if k = .warm then d.keepWarm b else d.coldDies b
  if k = .powerOn then b1
  else forEach (d.fc.src.map Prod.fst) (fun i a => a.setSrc i (d.sourceReset i)) b1

/-- Causes still present assert in the first Control cycle after the reset (R386). -/
def Dev.causesAgain (d : Dev) : Dev :=
  forEach (d.fc.src.map Prod.fst) (fun i a =>
    if (a.src i).line then a.assert i (at_ 1 31) false true
    else if (a.src i).cause && a.causePresent i then a.assert i 0 else a) d

/-- Bring-up starts at step 1 of R60. -/
def Dev.bringUp (d : Dev) : Dev := ({ d with life := .running }).causesAgain

/-- The straps as just sampled: a reserved `CFG[3:2]` counts (R44). -/
def Dev.strapCheck (d : Dev) (st : Straps) : Dev := if bit st.cfg 3 then d else d.assert srcStrap 0

/-- The release of power-on reset or of `RESET_N`: `TEST_EN` holds the device in reset (R47). -/
def Dev.released (d : Dev) (st : Straps) : Dev :=
  if st.testEn then { d with life := .testHold } else d.bringUp.strapCheck st

/-- A transaction that is open on the SPI as a reset ends is ignored (R59). -/
def Dev.spiIgnores (d : Dev) (csLow : Bool) : Dev := { d with spi := { d.spi with ignore := csLow } }

/-- POWER_ON: the row's arrival says that power-on reset was held until now. -/
def Dev.powerOnRow (d : Dev) (st : Straps) (csLow : Bool) : Dev := ((d.quireCut.mainReset .powerOn).spiIgnores csLow).released st

def execPowerOn (p : PowerUp) (s : State) : Host.Outcome State Fault Refusal :=
  .next { s with straps := p.straps, dev := s.dev.powerOnRow p.straps p.csLow }

/-- RAIL_TRIP: power-on reset is entered again. In dead-battery service no rail is present. -/
def Dev.railTrip (d : Dev) : Dev :=
  if d.life = .unpowered || d.dead then d else { d.quireCut.mainReset .powerOn with life := .reset }

def execRailTrip (s : State) : Host.Outcome State Fault Refusal := s.next s.dev.railTrip

/-- RESET_N_ASSERT, while the board supplies stand. -/
def Dev.resetNAssert (d : Dev) : Dev :=
  if d.life = .unpowered || d.dead then d else { d.mainReset .resetN with life := .reset }

def execResetNAssert (s : State) : Host.Outcome State Fault Refusal := s.next s.dev.resetNAssert

/-- RESET_N_RELEASE. -/
def Dev.resetNRelease (d : Dev) (st : Straps) (csLow : Bool) : Dev := (d.spiIgnores csLow).released st

def execResetNRelease (st : Straps) (csLow : Bool) (s : State) : Host.Outcome State Fault Refusal :=
  if s.dev.life = .reset then .next { s with straps := st, dev := s.dev.resetNRelease st csLow } else .next s

/-- The response of a request has left the chip, or 10 ms have passed since it was queued (R423, R441). -/
def Dev.responseGone (d : Dev) (k : ReqKey) (t : Nat) : Bool := (d.findReq k).isNone || decide (t ≤ d.now)

/-- The reset of an accepted chip-scope RESET may start. -/
def Dev.resetReady (d : Dev) : Bool := match d.resetDue with | some (k, t) => d.responseGone k t | none => false

/-- CHIP_RESET_START: as `RESET_N`, without sampling the straps (R77, R423). Whether `MS_CS_N` is low as the reset ends (R59) is
a free bit. -/
def Dev.chipReset (d : Dev) : Dev :=
  let b := d.freeBit
  ((b.2.mainReset .chip).spiIgnores b.1).bringUp

def execChipResetStart (s : State) : Host.Outcome State Fault Refusal :=
  s.next (if s.dev.up && s.dev.resetReady then s.dev.chipReset else s.dev)

/-- WARM_START by a wake source of HIBERNATE (R312, R313). The row stands for the whole leaving: the core rail has been
raised to `ACTIVE_MV`, the write acknowledged and CORE_OK reported (R20, R315) when the bring-up starts. -/
def Dev.warmStart (d : Dev) (src : WakeSrc) : Dev :=
  if d.life = .hibernate && [WakeSrc.ccOrPd, .vinMon, .beatIn, .msCsN].contains src then
    let d1 := d.mainReset .warm
    ({ d1 with power := { Power.reset with lastHib := true, wakeSrc := wakeCode src } }).bringUp.flag aPwrEvent 3
  else d

def execWarmStart (src : WakeSrc) (s : State) : Host.Outcome State Fault Refusal := s.next (s.dev.warmStart src)

/-! ## Press die supplies and arming (R51, R60, R61) -/

/-- Port n takes the Unpowered column (R51, R61): gate and switch open, CC open. -/
def Dev.portUnpowered (d : Dev) (n : Nat) : Dev :=
  (d.setFuse n Fuse.reset).updEng n fun e => { e.cleared with tc := .disabled, source := false, dfp := false, loadWait := false }

/-- PRESS_SUPPLY_LOSS: the die's ports take the Unpowered column, held ones too (R50), and the link is lost. -/
def Dev.pressLoss (d : Dev) (x : Nat) : Dev :=
  if !(d.die x).powered then d
  else
    let d1 := d.updDie x fun y => { y with powered := false, armed := false, linkUp := false, safe := true }
    let d2 := if d.up && (d.die x).linkUp then d1.assert (srcPress x 0) 0 else d1
    forN 8 (fun j a => a.portUnpowered (8 * x + j)) d2

def execPressSupplyLoss (d : Fin 4) (s : State) : Host.Outcome State Fault Refusal := s.seen (s.dev.pressLoss d.val)

/-- PRESS_SUPPLY_RETURN: the die is out of its own reset; its link comes back by PRESS_LINK_RESTORED. -/
def execPressSupplyReturn (d : Fin 4) (s : State) : Host.Outcome State Fault Refusal :=
  s.next (if (s.dev.die d.val).powered then s.dev else s.dev.updDie d.val fun y => { y with powered := true, safe := true })

/-- `READY.PRESS` is set once every die has reported armed or is lost. -/
def Dev.pressSettled (d : Dev) : Dev :=
  if (List.range 4).all fun x => (d.die x).armed || (d.die x).lost then d.setReady 0 true else d

/-- PRESS_ARMED: the safe pair of the die turns to Run unless the collector holds it (DEDUCED from R53, R381). -/
def Dev.pressArmed (d : Dev) (x : Nat) : Dev :=
  let y := d.die x
  if d.up && y.powered && !y.armed && !y.lost then
    ((d.updDie x fun z => { z with armed := true }).safeRun x).pressSettled
  else d

def execPressArmed (d : Fin 4) (s : State) : Host.Outcome State Fault Refusal := s.next (s.dev.pressArmed d.val)

/-- PRESS_ARM_TIMEOUT: 200 µs after power good, before `READY.PRESS`. The die's ports stay in the Unpowered column. -/
def Dev.pressArmTimeout (d : Dev) (x : Nat) : Dev :=
  let y := d.die x
  if d.up && !y.armed && !y.lost && !d.isReady 0 then
    ((forN 8 (fun j a => a.portUnpowered (8 * x + j)) (d.updDie x fun z => { z with lost := true, linkUp := false })).assert
      (srcPress x 1) 0).pressSettled
  else d

def execPressArmTimeout (d : Fin 4) (s : State) : Host.Outcome State Fault Refusal := s.seen (s.dev.pressArmTimeout d.val)

/-! ## Quire and Deckle -/

/-- QUIRE_READY: the pin mask, `U0_RELAY_EN`, the collector's and the power defaults. -/
def Dev.quireReadyRow (d : Dev) : Dev :=
  if d.up && d.isReady 0 && !d.isReady 3 then
    let d1 := d.setReady 3 true
    let d2 := { d1 with
      boot := { d1.boot with pinMask := BitVec.ofNat 10 (bits (d1.qword 1) 0 10) }
      u0 := { d1.u0 with relayEn := bit (d1.qword 1) 16 } }
    let d3 := ((d2.loadWord 0x005).loadWord 0x00D).loadWord 0x00E
    forEach ((d3.quire.words.map Prod.fst).filter fun w => decide (0x600 ≤ w ∧ w < 0x800)) (fun w a => a.loadWord w) d3
  else d

def execQuireReady (s : State) : Host.Outcome State Fault Refusal := s.next s.dev.quireReadyRow

/-- The `READY` ball (R65). -/
def Dev.readyPin (d : Dev) : Bool :=
  let m := if d.boot.pinMask = 0 then 0x100 else d.boot.pinMask
  d.up && d.isReady 3 && !d.fc.chipSafe && decide (m &&& d.boot.ready = m)

/-- DECKLE_READY. After HIBERNATE the beat number is one higher than when the Deckle stopped (R182). -/
def Dev.deckleReadyRow (d : Dev) : Dev :=
  if d.up && d.isReady 3 && !d.isReady 1 then
    (((d.loadWord 0x009).loadWord 0x00A).setReady 1 true).startDeckle (if d.boot.warm then d.deckle.beat + 1 else 0)
  else d

def execDeckleReady (s : State) : Host.Outcome State Fault Refusal := s.next s.dev.deckleReadyRow

/-! ## Port loads (R30, R31, R221) -/

/-- The stored allocation of port n: its code and bus domain. -/
def Dev.storedAlloc (d : Dev) (n : Nat) : Nat × Nat := (bits (d.qword (0x030 + n)) 0 3, bits (d.qword (0x030 + n)) 4 2)

/-- A stored allocation is a reserved encoding for port n. -/
def allocReserved (n code : Nat) : Bool := decide (5 ≤ code) || (code = 3 && decide (4 ≤ n))

/-- The hub port that a load gives port n: the lowest free number. -/
def Dev.freeHubPort (d : Dev) (n : Nat) : Option Nat :=
  (List.range 15).findSome? fun i =>
    if (List.range 32).any fun m => m ≠ n && d.isTransparent m && (d.port m).hubPort = i + 1 then none else some (i + 1)

/-- The counts of trips by cause and of retries of port n (R78). -/
def Dev.clearTripCounts (d : Dev) (n : Nat) : Dev :=
  { d with counters := d.counters.filter fun kv => !(kv.1 / 2 ^ 24 = 0x26 && kv.1 % 2 ^ 16 = n) }

/-- Port n goes through DISABLED: data off, its link DOWN, its devices gone, gate off, CC open. -/
def Dev.portDown (d : Dev) (n : Nat) : Dev :=
  let d1 := if (d.port n).present then d.withdrawn n else d
  let d2 := if d1.isCoupler n then (d1.linkDown n).dropAllowance n else d1
  let d3 := (d2.gateOff n).endActions n [0, 1, 2, 3, 4, 5, 6, 7] stDetached
  ((d3.updFuse n fun f => { f.afterReset with hold := f.hold }).clearTripCounts n).updEng n fun e =>
    { Pd.reset with cc1 := e.cc1, cc2 := e.cc2, newEvents := e.newEvents }

/-- The load-time transactions of R336 on a port that may source. -/
def Dev.psbCheck (d : Dev) (n : Nat) : Dev :=
  if d.maySource n then ((d.psbPush n 3 .readVoutMode).psbPush n 3 (.vout fiveVolt)).psbPush n 3 (.operation true) else d

/-- The load of port n under R30 in ascending order: a refused allocation gives DISABLED (R31). The allocation holds its hub
port (R221) and, on a coupler port, the link-control allowance (R270). The hold mask bit is copied (R371). The engine starts
once VBUS is at vSafe0V. -/
def Dev.loadPort (d : Dev) (n : Nat) : Dev :=
  let a := d.storedAlloc n
  let d1 := d.portDown n
  let hub := if a.1 = 2 then d1.freeHubPort n else none
  let refused := allocReserved n a.1 || (a.1 = 2 && hub.isNone)
  let code := if refused then 0 else a.1
  let d2 := d1.setPort n { Port.reset with alloc := code, domain := a.2, hubPort := if refused then 0 else hub.getD 0 }
  let d3 := (d2.updFuse n fun f => { f with hold := bit (d2.qword 2) n }).loadPortRegs n
  let d4 := if d3.isCoupler n then d3.claimAllowance n else d3
  let d5 := d4.updEng n fun e => { e with loadWait := !(d4.fuse n).atZero }
  let d6 := (d5.psbCheck n).pdRelease n
  if refused then d6.assert srcAlloc 0 else d6

/-- The engine of a port starts again from Unattached with what its CC pins show: U0 after every reset (R57), and every
engine at a warm start (R313). -/
def Dev.pdRestart (d : Dev) (n : Nat) : Dev :=
  let e := d.eng n
  let d1 := d.pdStart n
  if (d1.eng n).tc = .disabled then d1 else d1.ccChange n e.cc1 e.cc2

/-- PD_READY: every port is loaded, or kept at a warm start; the boot ROM reads the directory (step 6 of R60). -/
def Dev.pdReadyRow (d : Dev) : Dev :=
  if d.up && d.isReady 1 && !d.isReady 2 then
    let d1 := if d.boot.warm then forN 33 (fun n a => a.pdRestart n) d
      else ((forN 32 (fun n a => a.loadPort n) (d.loadWord 0x006)).loadPortRegs 32).pdRestart 32
    ({ d1 with maint := d1.maint && d1.boot.warm }.setReady 2 true).bootDirectory false
  else d

def execPdReady (s : State) : Host.Outcome State Fault Refusal := s.next s.dev.pdReadyRow

/-! ## The Vat's self-test (R146) -/

/-- The largest depth that a count of good banks allows; none below two. -/
def depthFor (good : Nat) : Option Nat := if 8 ≤ good then some 2 else if 4 ≤ good then some 1 else if 2 ≤ good then some 0 else none

/-- RECOVERY, or the first Mill slot's check (R72). -/
def Dev.startImages (d : Dev) (st : Straps) : Dev :=
  if bits st.cfg 2 2 = 2 then d.enterLimp .recovery else d.checkImage false

/-- The self-test has ended with a set of banks that failed: they are retired, and a depth is chosen. The context word of a
depth below the default names the lowest retired bank (DESIGN CHOICE). -/
def Dev.selftestDone (d : Dev) (st : Straps) (failed : BitVec 9) : Dev :=
  if d.up && d.isReady 2 && !d.isReady 4 && !d.boot.stopped then
    let old := BitVec.ofNat 9 (bits (d.qword 3) 0 9)
    let d1 := { d with vat := { d.vat with retired := old } }
    let newly := (List.range 9).filter fun b => bit failed b && !bit old b
    let d2 := forEach newly (fun b a => a.retireBank b) d1
    let good := (List.range 9).filter fun b => !d2.vat.retired.getLsbD b
    match depthFor good.length with
    | none => { d2 with boot := { d2.boot with stopped := true } }
    | some most =>
      let d3 := (d2.loadVat).setReady 4 true
      let depth := min most (min 2 (d3.fld aVatCfg 0 2))
      let k := depthBanks depth
      let d4 := { d3 with vat := { d3.vat with
        depth := depth, slots := good.take k, spare := good[k]?, noSpare := decide (good.length ≤ k) } }
      let d5 := if newly.isEmpty && depth < d3.fld aVatCfg 0 2 then
          d4.assert srcBankFail (at_ (((List.range 9).find? fun b => d4.vat.retired.getLsbD b).getD 0) 0)
        else d4
      let d6 := if d5.vat.noSpare then d5.assert srcNoSpare 0 else d5
      d6.loadHeadbox.startImages st
  else d

def execVatSelftestDone (failed : BitVec 9) (s : State) : Host.Outcome State Fault Refusal :=
  s.next (s.dev.selftestDone s.straps failed)

/-! ## Steps 8 to 13 -/

/-- HUB_START: U0 data connects; its speed is known at U0_BUS_RESET. -/
def execHubStart (s : State) : Host.Outcome State Fault Refusal :=
  s.next (if s.dev.up && s.dev.isReady 4 && !s.dev.isReady 6 then s.dev.setReady 6 true else s.dev)

/-- The settings of E port e from the Quire (R94): a field stored as 0 takes its default. -/
def Dev.ethLoad (d : Dev) (e : Nat) : Dev :=
  let w := 0x060 + 16 * e
  let six := (List.range 4).foldl (fun n i => n + (d.qword (w + 2 + i)).toNat * 2 ^ (32 * i)) 0
  let x := d.qword (w + 6)
  let mtu := bits (d.qword (w + 7)) 0 14
  d.updEth e fun y => { y with
    configured := true, ip4Addr := d.qword w, ip4Mask := d.qword (w + 1), ip6Addr := BitVec.ofNat 128 six
    ip6Prefix := bits x 0 8, vlanId := bits x 16 12, mtu := if mtu = 0 then 1500 else mtu }

def execEthStart (s : State) : Host.Outcome State Fault Refusal :=
  s.next (if s.dev.up && s.dev.isReady 4 && !s.dev.isReady 7 then ((s.dev.ethLoad 0).ethLoad 1).setReady 7 true else s.dev)

/-- MILL_INIT_DONE. After a Mill watchdog reset `READY.HOST` is set together with `READY.MILL`, and the Ream is kept (R79);
when the watchdog fired before step 12, that step still follows. -/
def Dev.millInitDone (d : Dev) : Dev :=
  if d.up && d.boot.millChosen && !d.isReady 8 then
    let d1 := d.setReady 8 true
    let d2 := if d1.boot.millOnly then d1.setReady 5 true else d1
    { d2 with boot := { d2.boot with millChosen := false, millOnly := false } }
  else d

def execMillInitDone (s : State) : Host.Outcome State Fault Refusal := s.next s.dev.millInitDone

/-- HOST_START: the Ream is cleared and carved. -/
def Dev.hostStart (d : Dev) : Dev :=
  if d.up && d.isReady 8 && !d.isReady 5 then
    ((({ d with
        ctxs := [], bindings := [], holds := [], transfers := [], subscriptions := []
        boot := { d.boot with hostRuns := true } }).loadReam).setReady 5 true)
  else d

def execHostStart (s : State) : Host.Outcome State Fault Refusal := s.next s.dev.hostStart

/-- The Mill core hands over the relay keys (R278). -/
def Dev.handKeys (d : Dev) : Dev := (d.setCouchKey 0 (d.slotKey 64)).setCouchKey 1 (d.slotKey 65)

/-- COUCH_START: the Couch's defaults are loaded; link 4 claims its allowance and starts when U0 runs (R291). -/
def Dev.couchStart (d : Dev) : Dev :=
  if d.up && d.boot.couchChosen && d.isReady 5 && !d.isReady 9 then
    let d1 := forN 15 (fun i a => a.loadWord (0x01C + i)) (d.handKeys.loadWord 0x007)
    let d2 := ({ d1 with boot := { d1.boot with couchChosen := false, couchFrom := d1.now } }).setReady 9 true
    if d2.u0.relayEn then
      let d3 := d2.claimAllowance 4
      if d3.linkStands 4 then d3.linkStart 4 true else d3
    else d2.dropAllowance 4
  else d

def execCouchStart (s : State) : Host.Outcome State Fault Refusal := s.next s.dev.couchStart

/-! ## Watchdogs (R77 to R79) -/

/-- An erase that is cut off leaves a slot that fails its check (R82): it counts as erased. -/
def Dev.dropErases (d : Dev) : Dev :=
  forEach (d.boot.erasing.map Prod.fst) (fun k a => (a.eraseFlash (slotBase k) (slotSize k)).setSlotErasing k none) d

/-- The requests that the Mill core's reset drops (R79): a transfer that has started runs on without a response, and keeps what was
claimed for it until it ends; one that has not is not started. -/
def Dev.dropWork (d : Dev) : Dev :=
  let waiting := d.transfers.filter fun t => !t.started && (match t.purpose with | .request _ => true | _ => false)
  let runs := d.transfers.filterMap fun t => match t.purpose with | .request k => if t.started then some k else none | _ => none
  let d0 := { d with transfers := d.transfers.map fun (t : Transfer) =>
    match t.purpose with
    | .request k => { t with purpose := .orphan, dropped := if t.started then ((d.findReq k).map Request.claim).getD 0 else 0 }
    | _ => t }
  let d1 := forEach waiting (fun t a => a.endTransfer { t with purpose := .orphan } stResetAborted) d0
  let d2 := forEach d1.requests (fun r a => if runs.contains r.name then a else a.dropClaim 0 r.claim) d1
  { d2 with requests := [], resetDue := none, chainDue := none }

/-- Every SV0 queue is reset (R78). -/
def Dev.resetSv0 (d : Dev) : Dev :=
  forEach (d.vat.queues.map Prod.fst) (fun q a =>
    if sv0Queue q && (a.queue q).state = .active then a.resetQueueWork q stResetAborted else a) d

/-- Microframes of a watchdog: 100 ms (R77, R179). -/
def wdogMf : Nat := 800

/-- MILL_WATCHDOG, no sooner than 100 ms after the image was started, and not in DOZE, which pauses it (R306). The Couch check in progress is abandoned, and the Couch image is chosen again unless it runs (R72). -/
def Dev.millWatchdog (d : Dev) : Dev :=
  if d.up && !d.halted && d.boot.wdogArmed && decide (d.boot.millFrom + wdogMf ≤ d.now) then
    let d1 := ((d.assert srcMillWdog 0).dropWork.resetSv0).dropErases
    let runs := d1.isReady 9
    let d2 := { d1 with
      deckle := { d1.deckle with
        ptp0 := { d1.deckle.ptp0 with valid := false }, ptp1 := { d1.deckle.ptp1 with valid := false } }
      boot := { d1.boot with
        state := .booting, verified := [], position := [], millOnly := d1.boot.millOnly || d1.isReady 5, mill := none, wdogArmed := false
        millChosen := false, couch := if runs then d1.boot.couch else none
        couchChosen := false, reverted := false, trial := false } }
    (((d2.setReady 8 false).setReady 5 false).bootDirectory true).checkImage false
  else d

def execMillWatchdog (s : State) : Host.Outcome State Fault Refusal := s.next s.dev.millWatchdog

/-- COUCH_WATCHDOG, likewise: the image is started again from program memory; the relay queues and every link are reset. -/
def Dev.couchWatchdog (d : Dev) : Dev :=
  if d.up && !d.halted && d.isReady 9 && decide (d.boot.couchFrom + wdogMf ≤ d.now) then
    let d1 := d.assert srcCouchWdog 0
    let d2 := forEach (d1.vat.queues.map Prod.fst) (fun q a =>
      if decide ((40 ≤ q ∧ q < 60) ∨ (64 ≤ q ∧ q < 184)) && (a.queue q).state = .active then a.resetQueueWork q stLinkLost
      else a) d1
    let d3 := (forN 5 (fun n a => a.relayReset n 7) d2.handKeys).setReady 9 false
    { d3 with boot := { d3.boot with couchChosen := true } }
  else d

def execCouchWatchdog (s : State) : Host.Outcome State Fault Refusal := s.next s.dev.couchWatchdog

/-- CROSS_CORE_TIMEOUT (R21, R118, R179): a request that the other core has not answered 10 ms, 80 microframes, after it was
accepted ends with TIMEOUT. -/
def Dev.crossCore (d : Dev) (k : ReqKey) : Dev :=
  match d.findReq k with
  | some r =>
    if d.now < r.born + 80 then d
    else match r.phase with
      | .accepted => d.fail k stTimeout
      | .forwarded _ _ => d.fail k stTimeout
      | _ => d
  | none => d

def execCrossCoreTimeout (k : ReqKey) (s : State) : Host.Outcome State Fault Refusal := s.next (s.dev.crossCore k)

/-! ## Dead-battery service and U0's VBUS (R55 to R59) -/

/-- DEAD_BATTERY_ENTRY, with no rail present; a strap reads 0 when strapped. -/
def Dev.deadEntry (d : Dev) (u0Db : Bool) : Dev :=
  if (d.life = .unpowered || d.life = .reset) && !u0Db then
    { d.mainReset .powerOn with life := .deadBattery, u0 := { U0.reset with vbus := true } }
  else d

def execDeadBatteryEntry (u0Db : Bool) (s : State) : Host.Outcome State Fault Refusal := s.next (s.dev.deadEntry u0Db)

def Dev.deadLoss (d : Dev) : Dev :=
  if d.dead then { d.quireCut.mainReset .powerOn with life := .unpowered, u0 := U0.reset } else d

def execDeadBatteryVbusLoss (s : State) : Host.Outcome State Fault Refusal := s.next s.dev.deadLoss

/-- U0_VBUS_CHANGE on board supplies: U0 detaches as a sink when VBUS goes; it attaches by its CC rows. -/
def Dev.u0VbusChange (d : Dev) (present : Bool) : Dev :=
  if d.dead then d
  else
    let d1 := { d with u0 := { d.u0 with vbus := present } }
    if present || !d.up then d1 else (d1.u0Off).pdDetach 32

def execU0VbusChange (present : Bool) (s : State) : Host.Outcome State Fault Refusal := s.next (s.dev.u0VbusChange present)

end Sys2Proof.Machine
end

