-- ==== Sys2Proof/Machine/Params.lean ====
section
/-! DEFINITION. Check 15 of R100: the parameters of every opcode as R416 demands them (R418 to R442), and the bytes of
its full response, for which SV0 is claimed before the request is accepted. What depends on the state at the request's turn,
such as the allocation of the port that it names, is judged by its own row. -/

namespace Sys2Proof.Machine

open Sys2Proof

/-- n bytes from offset i are 0. -/
def zeroAt (p : List Byte) (i n : Nat) : Bool := ((p.drop i).take n).all (· = 0)

def Route.isRelay : Route → Bool
  | .relay _ => true
  | _ => false

/-! ## System and Registers -/

def resetChipOk (p : List Byte) : Bool := p.length = 4 && zeroAt p 0 4

def resetPortOk (p : List Byte) : Bool := p.length = 4 && byteAt p 0 = 1 && decide (byteAt p 1 < 32) && zeroAt p 2 2

/-- A MASK of 0 is a reserved encoding (R422). -/
def readyOk (p : List Byte) : Bool :=
  p.length = 8 && decide (0 < leAt p 0 2 ∧ leAt p 0 2 < 1024) && zeroAt p 2 2 && decide (leAt p 4 4 < 2 ^ 20)

def eventsOk (p : List Byte) : Bool := p.length = 16 && decide (leAt p 0 4 < 128) && decide (byteAt p 8 < 2) && zeroAt p 9 7

def regReadOk (p : List Byte) : Bool :=
  p.length = 8 && decide (leAt p 0 4 < 2 ^ 24) && decide (1 ≤ leAt p 4 2 ∧ leAt p 4 2 ≤ 1000) && decide (leAt p 6 2 < 2)

def regWriteOk (p : List Byte) : Bool :=
  p.length = 8 + 4 * leAt p 4 2 && decide (leAt p 0 4 < 2 ^ 24) && decide (1 ≤ leAt p 4 2 ∧ leAt p 4 2 ≤ 1000) && zeroAt p 6 2

/-- The parameters of UPDATE are well formed. -/
def updateOk (p : List Byte) : Bool :=
  p.length = 12 && decide (byteAt p 1 < 4) && decide (byteAt p 2 < 2) && byteAt p 3 = 0 &&
    (byteAt p 1 = 3 || leAt p 4 6 = 0) && zeroAt p 10 2

/-! ## Ports, Power and PD -/

/-- The PORT parameter. -/
def portParam (p : List Byte) : Nat := byteAt p 0

/-- A PORT byte and three reserved ones. -/
def portParamsOk (p : List Byte) : Bool := p.length = 4 && zeroAt p 1 3

/-- PORT of P0 to P31, an ACTION of EFUSE_CLEAR, two reserved bytes. -/
def efuseClearOk (p : List Byte) : Bool :=
  p.length = 4 && decide (byteAt p 0 < 32) && decide (byteAt p 1 < 2) && zeroAt p 2 2

def pwrStateOk (p : List Byte) : Bool := portParamsOk p && (byteAt p 0 = 0 || byteAt p 0 = 2)

/-- PORT 0 to 32, ACTION 0 to 7, two reserved bytes; U0 takes SOFT_RESET, HARD_RESET and REQUEST only. -/
def pdActionOk (p : List Byte) : Bool :=
  let act := byteAt p 1
  p.length = 4 && decide (portParam p ≤ 32) && decide (act < 8) && zeroAt p 2 2 &&
    (decide (portParam p < 32) || act = 2 || act = 3 || act = 5)

/-! ## Transfers and Periodic -/

/-- The request's DEST is a TDI. -/
def Request.byTdi (rq : Request) : Bool := decide (rq.dest.toNat < 4096)

/-- TGT: its reserved bits are 0, DIR is 0 for endpoint 0, and a TDI DEST leaves DOMAIN and ADDR 0. -/
def Request.tgtOk (rq : Request) : Bool :=
  let p := rq.params
  let ep := byteAt p 2
  decide (4 ≤ p.length) && decide (byteAt p 0 < 4) && decide (byteAt p 1 < 128) && decide (ep % 128 < 16) && byteAt p 3 = 0 &&
    ep ≠ 128 && (!rq.byTdi || zeroAt p 0 2)

/-- Bus domain and address of the device that the request names, as check 14 resolved them. -/
def Request.dom (rq : Request) : Nat := (rq.target - 1) / 128
def Request.addr (rq : Request) : Nat := (rq.target - 1) % 128

/-- Endpoint and direction of TGT. -/
def Request.ep (rq : Request) : Nat := byteAt rq.params 2 % 16
def Request.dirIn (rq : Request) : Bool := decide (128 ≤ byteAt rq.params 2)

/-- The context of the endpoint that TGT names. -/
def Dev.target (d : Dev) (rq : Request) : Option Nat := d.epCtx rq.dom rq.addr rq.ep rq.dirIn

/-- The setup packet at an offset. -/
def setupAt (p : List Byte) (i : Nat) : Setup :=
  { bmRequestType := p.getD i 0, bRequest := p.getD (i + 1) 0, wValue := BitVec.ofNat 16 (leAt p (i + 2) 2)
    wIndex := BitVec.ofNat 16 (leAt p (i + 4) 2), wLength := BitVec.ofNat 16 (leAt p (i + 6) 2) }

/-- An IN request: bmRequestType bit 7. -/
def setupIn (s : Setup) : Bool := bit s.bmRequestType 7

def Request.controlOk (rq : Request) : Bool :=
  let p := rq.params
  let s := setupAt p 8
  let n := s.wLength.toNat
  rq.tgtOk && byteAt p 2 = 0 && decide (leAt p 4 4 < 2 ^ 20) && decide (16 ≤ p.length) &&
    (if setupIn s then decide (n ≤ 4096) && p.length = 16 else decide (n ≤ 4032) && p.length = 16 + n)

/-- Bytes of the full response of CONTROL_XFER. -/
def Request.controlReply (rq : Request) : Nat :=
  let s := setupAt rq.params 8
  4 + (if setupIn s then s.wLength.toNat else 0)

def Request.bulkOutOk (rq : Request) : Bool :=
  let p := rq.params
  rq.tgtOk && decide (leAt p 4 4 < 2 ^ 20) && decide (12 ≤ p.length ∧ p.length ≤ 12 + 4036) && decide (leAt p 8 2 < 2) &&
    zeroAt p 10 2

def Request.bulkInOk (rq : Request) : Bool :=
  let p := rq.params
  rq.tgtOk && decide (leAt p 4 4 < 2 ^ 20) && p.length = 12 && decide (1 ≤ leAt p 8 4 ∧ leAt p 8 4 ≤ 65536)

/-- The parameters of ENDPOINT_OPEN. -/
structure OpenParams where
  type : Nat
  intf : Nat
  mps : Nat
  bInterval : Nat
  mult : Nat
  burst : Nat
  route : Binding
  deriving DecidableEq, Repr

def openParams (p : List Byte) : OpenParams :=
  { type := byteAt p 4, intf := byteAt p 5, mps := leAt p 6 2, bInterval := byteAt p 8, mult := byteAt p 9, burst := byteAt p 10
    route :=
      { port := byteAt p 12, speed := byteAt p 13, parentHub := byteAt p 14, parentPort := byteAt p 15, ttHub := byteAt p 16
        ttPort := byteAt p 17, ttValid := byteAt p 18 % 2 = 1, ttMulti := byteAt p 18 / 2 % 2 = 1, route := leAt p 20 4 } }

/-- What the layout alone demands (R431): TYPE, reserved bits, endpoint 0 as a control endpoint of interface 0, the route
block used for endpoint 0 at ADDR 0 only. -/
def Request.openOk (rq : Request) : Bool :=
  let p := rq.params
  let o := openParams p
  rq.tgtOk && p.length = 24 && decide (o.type < 4) && decide (o.mps < 2048) && decide (o.mult < 4) && decide (o.burst < 16) &&
    zeroAt p 11 1 && (rq.ep ≠ 0 || (o.type = 0 && o.intf = 0)) &&
    (if rq.ep = 0 && rq.addr = 0 then
      decide (byteAt p 13 < 4) && decide (byteAt p 14 < 128) && decide (byteAt p 15 < 128) && decide (byteAt p 16 < 128) &&
        decide (byteAt p 17 < 128) && decide (byteAt p 18 < 4) && zeroAt p 19 1 && decide (leAt p 20 4 < 2 ^ 20)
    else zeroAt p 12 12)

def Request.closeOk (rq : Request) : Bool :=
  rq.tgtOk && rq.params.length = 8 && decide (byteAt rq.params 4 < 2) && zeroAt rq.params 5 3

/-- The parameters of SUBSCRIBE. -/
structure SubParams where
  delivery : Nat
  cls : Nat
  unit : Nat
  period : Nat
  phase : Nat
  mf : Nat
  slot : Nat
  maxChg : Nat
  heartbeat : Nat
  outMode : Nat
  mask : List Byte
  deriving DecidableEq, Repr

def subParams (p : List Byte) : SubParams :=
  { delivery := byteAt p 4, cls := byteAt p 5, unit := byteAt p 6, period := byteAt p 7, phase := leAt p 8 2, mf := leAt p 10 2
    slot := byteAt p 12, maxChg := byteAt p 13, heartbeat := leAt p 14 2, outMode := byteAt p 16, mask := p.drop 20 }

/-- AUTO of PHASE and MF. -/
def auto16 : Nat := 0xFFFF

/-- The ranges of R227 that need no context. -/
def SubParams.ok (x : SubParams) (blLog2 : Nat) : Bool :=
  let change := x.delivery = 1
  decide (x.delivery < 3) && decide (1 ≤ x.cls ∧ x.cls ≤ 2) && decide (x.unit < 2) && decide (x.slot ≤ 8) &&
    decide (x.outMode < 2) &&
    (if x.unit = 0 then
      decide (x.period ≤ blLog2) && (x.phase = auto16 || decide (x.phase < 2 ^ x.period)) && x.mf = 0
    else (x.phase = auto16 || decide (x.phase ≤ x.period)) && (x.mf = auto16 || decide (x.mf < 2 ^ blLog2))) &&
    (if change then decide (1 ≤ x.maxChg) else x.maxChg = 0 && x.heartbeat = 0 && x.mask.isEmpty)

def Dev.subscribeOk (d : Dev) (rq : Request) : Bool :=
  rq.tgtOk && decide (20 ≤ rq.params.length ∧ rq.params.length ≤ 20 + 2047) && zeroAt rq.params 17 3 &&
    (subParams rq.params).ok (d.fld aDkCfg 8 4)

/-- Bytes of the full response of SHEET_READ: the sheet at its longest. The endpoint of a request ahead may not be open yet; its
sheet has 1,024 bytes at most (R230). -/
def Dev.sheetReply (d : Dev) (rq : Request) : Nat :=
  12 + (match d.target rq with | some c => (d.ctx c).payload | none => 1024)

/-! ## Faults, Quire and keys -/

/-- FLAGS of FAULT_CLEAR: bit 0 ALL, bit 1 WATERMARK. -/
def clearFlags (p : List Byte) : Nat := leAt p 2 2

def clearParamsOk (p : List Byte) : Bool :=
  p.length = 4 && decide (leAt p 0 2 < 512) && decide (clearFlags p < 4) && (decide (clearFlags p < 2) || leAt p 0 2 = 0) &&
    clearFlags p ≠ 3

/-- FAULT_FORCE names a source of the table; REHEARSE needs one with a level (R387, R388). -/
def forceOk (p : List Byte) : Bool :=
  let i := leAt p 0 2
  p.length = 4 && srcUsed i && (leAt p 2 2 = 0 || (leAt p 2 2 = 1 && (srcKind i).any fun x => decide (x.1 ≠ 0)))

def quireWriteOk (p : List Byte) : Bool :=
  p.length = 4 + 4 * leAt p 2 2 && decide (1 ≤ leAt p 2 2 ∧ leAt p 2 2 ≤ 64) && decide (leAt p 0 2 + leAt p 2 2 ≤ 4096)

/-- The number of the key that a SLOT byte names. -/
def keyOfByte (b : Nat) : Option Nat :=
  if b < 64 then some b else if b = 0x80 then some 64 else if b = 0x81 then some 65 else none

/-- `SUB_LO` above `SUB_HI` is a reserved encoding (R414). -/
def keyWriteOk (p : List Byte) : Bool :=
  p.length = 28 && (keyOfByte (byteAt p 0)).isSome && zeroAt p 1 3 && decide (leAt p 20 2 ≤ leAt p 22 2 ∧ leAt p 22 2 < 1024) &&
    decide (leAt p 24 2 < 4096) && zeroAt p 26 2 && (decide (byteAt p 0 < 64) || zeroAt p 20 6)

def keyEraseOk (p : List Byte) : Bool := p.length = 4 && (keyOfByte (byteAt p 0)).isSome && zeroAt p 1 3

/-! ## Firmware, Self-test, Train chain and Statistics -/

/-- The slot that IMAGE and SLOT name. -/
def slotNamed (p : List Byte) : Option Nat :=
  let i := byteAt p 0
  let x := byteAt p 1
  if (i = 1 || i = 2) && decide (x < 2) then some (2 * (i - 1) + x) else none

def fwWriteOk (p : List Byte) : Bool := decide (9 ≤ p.length ∧ p.length ≤ 4048) && (slotNamed p).isSome && zeroAt p 2 2

def fwVerifyOk (p : List Byte) : Bool := p.length = 4 && (slotNamed p).isSome && zeroAt p 2 2

def fwActivateOk (p : List Byte) : Bool := p.length = 4 && (slotNamed p).isSome && decide (byteAt p 2 < 2) && byteAt p 3 = 0

/-- SELFTEST: PORT is a port, a die for ADC, and 0 for the others. -/
def selftestOk (p : List Byte) : Bool :=
  p.length = 4 && decide (byteAt p 0 < 5) && decide (byteAt p 1 < [1, 4, 32, 32, 1].getD (byteAt p 0) 0) && zeroAt p 2 2

def maintOk (p : List Byte) : Bool := p.length = 4 && decide (byteAt p 0 < 2) && zeroAt p 1 3

def chainSetOk (p : List Byte) : Bool := p.length = 4 && decide (byteAt p 0 / 64 % 2 = 0) && zeroAt p 1 3

/-- The register value of a route entry byte. -/
def routeValue (b : Byte) : W32 := at_ (bits b 7 1) 31 ||| at_ (bits b 0 3) 0

/-- Every value is one that its register takes. -/
def Dev.encAll (d : Dev) (a : Nat) (vs : List W32) : Bool := vs.zipIdx.all fun vi => d.encJudge (a + 4 * vi.2) vi.1

def Dev.routeWriteOk (d : Dev) (p : List Byte) : Bool :=
  let first := byteAt p 0
  let n := byteAt p 1
  p.length = 4 + n && decide (1 ≤ n ∧ n ≤ 64 ∧ first + n ≤ 64) && zeroAt p 2 2 && (p.drop 4).all (fun b => bits b 3 4 = 0) &&
    d.encAll (aRoute first) ((p.drop 4).map routeValue)

def Dev.tdiWriteOk (d : Dev) (p : List Byte) : Bool :=
  let first := leAt p 0 2
  let n := leAt p 2 2
  let vs := toWords n (p.drop 4)
  p.length = 4 + 4 * n && decide (1 ≤ n ∧ n ≤ 1000 ∧ first + n ≤ 4096) && vs.all (fun v => v &&& 0x7FC0FC80 = 0) &&
    d.encAll (aTdi first) vs

def tdiReadOk (p : List Byte) : Bool := p.length = 4 && decide (leAt p 0 2 + leAt p 2 2 ≤ 4096)

def linkEnableOk (p : List Byte) : Bool := p.length = 4 && decide (byteAt p 0 < 5) && decide (byteAt p 1 < 3) && zeroAt p 2 2

def statsReadOk (p : List Byte) : Bool :=
  p.length = 4 + 4 * leAt p 0 2 && decide (1 ≤ leAt p 0 2 ∧ leAt p 0 2 ≤ 252) && zeroAt p 2 2

/-! ## Check 15 -/

/-- Whether the parameters are as the reference states, and the bytes of the full response: that of OK or of an error
layout, the longer. -/
def Dev.params15 (d : Dev) (rq : Request) : Bool × Nat :=
  let p := rq.params
  match rq.opcode.toNat with
  | 0x0001 => (p.isEmpty, 40)
  | 0x0002 => (p.isEmpty, 32)
  | 0x0003 => (resetChipOk p || resetPortOk p, 0)
  | 0x0004 => (readyOk p, 4)
  | 0x0005 => (eventsOk p, 0)
  | 0x0101 => (regReadOk p, 4 * leAt p 4 2)
  | 0x0102 => (regWriteOk p, 4)
  | 0x0103 => (p.length = 4, 16)
  | 0x0104 => (updateOk p, 0)
  | 0x0201 => (portParamsOk p, 4)
  | 0x0202 => (portParamsOk p, 0)
  | 0x0203 => (portParamsOk p, 0)
  | 0x0204 => (portParamsOk p, 0)
  | 0x0205 => (portParamsOk p && decide (portParam p ≤ 32), 24)
  | 0x0206 => (efuseClearOk p, 0)
  | 0x0301 => (rq.controlOk, rq.controlReply)
  | 0x0302 => (rq.bulkOutOk, 4)
  | 0x0303 => (rq.bulkInOk, 4 + leAt p 8 4)
  | 0x0304 => (rq.openOk, 4)
  | 0x0305 => (rq.closeOk, 0)
  | 0x0401 => (d.subscribeOk rq, 16)
  | 0x0402 => (rq.tgtOk && p.length = 4, 0)
  | 0x0403 => (rq.tgtOk && p.length = 4, d.sheetReply rq)
  | 0x0404 => (rq.tgtOk && decide (5 ≤ p.length), 0)
  | 0x0501 => (pwrStateOk p, 4)
  | 0x0502 => (portParamsOk p && decide (portParam p ≤ 32), 44)
  | 0x0503 => (pdActionOk p, 4)
  | 0x0601 => (p.length = 4 && decide (leAt p 0 2 + leAt p 2 2 ≤ 512), 8 + 8 * leAt p 2 2)
  | 0x0602 => (clearParamsOk p, 4)
  | 0x0603 => (forceOk p, 4)
  | 0x0701 => (quireWriteOk p, 4)
  | 0x0702 => (keyWriteOk p, 0)
  | 0x0703 => (keyEraseOk p, 0)
  | 0x0801 => (p.isEmpty, 104)
  | 0x0802 => (fwWriteOk p, 4)
  | 0x0803 => (fwVerifyOk p, 4)
  | 0x0804 => (fwActivateOk p, 0)
  | 0x0805 => (p.isEmpty, 0)
  | 0x0901 => (selftestOk p, 8)
  | 0x0902 => (maintOk p, 0)
  | 0x0A01 => (chainSetOk p, 0)
  | 0x0A02 => (d.routeWriteOk p, 0)
  | 0x0A03 => (d.tdiWriteOk p, 0)
  | 0x0A04 => (tdiReadOk p, 4 * leAt p 2 2)
  | 0x0A05 => (linkEnableOk p, 4)
  | 0x0A06 => (p.isEmpty, 84)
  | 0x0B01 => (statsReadOk p, 16 * leAt p 0 2)
  | _ => (false, 0)

/-- Segments of a response with n parameter bytes, packet by packet (R107, R132). -/
def Dev.replySegs (d : Dev) (rq : Request) (n : Nat) : Nat :=
  let head := 32 + (if rq.key.isSome then 16 else 0)
  let room := max 1 (paramRoom (d.limitOf rq.route) rq.key.isSome)
  let extra := 4 + head + (if rq.route.isRelay then 16 else 0)
  let full := (n - 1) / room
  full * ceilDiv (extra + room) 128 + ceilDiv (extra + (n - full * room)) 128

end Sys2Proof.Machine
end

