-- ==== Sys2Proof/Machine/Ingress.lean ====
section
/-! DEFINITION. The checks at ingress (R100 to R104, R111, R112, R115): a packet that has arrived whole is discarded,
refused, accepted here, or forwarded over a relay link. -/

namespace Sys2Proof.Machine

/-! ## The transport that brought the packet (R87) -/

/-- The transport's number in the counters of R407. -/
def Route.transport : Route → Nat
  | .spi => 0
  | .udp e _ _ _ _ _ _ _ => 1 + e
  | .usb l => if l < 4 then 4 + l else 3
  | .relay _ => 8

/-- A packet's way in: its return address, whether the transport makes authentication mandatory, and whether its bytes were read
poisoned. -/
structure Entry where
  route : Route
  mustAuth : Bool
  poison : Bool
  deriving DecidableEq, Repr

/-- The command path serves a transport (R56, R63, R75): all of them from `READY.MILL`, in Limp all but the relay and the
coupler ports, in dead-battery service U0 only. -/
def Dev.servesRoute (d : Dev) (r : Route) : Bool :=
  match d.life with
  | .running => d.isReady 8 || (d.limp && (match r with | .relay _ => false | .usb l => l = 4 | _ => true))
  | .deadBattery => r = .usb 4
  | _ => false

/-! ## Checks 1 to 4 -/

/-- Bytes of the packet that a header announces (R83). -/
def packetLen (p : List Byte) : Nat := 32 + pkPlen p + (if pkAuth p then 16 else 0)

/-- The counter in which checks 1 to 4 count a discarded packet: 0 `AVV_FRAME_DROP`, 1 `AVV_HCRC_DROP`. -/
def Dev.frameFault (d : Dev) (e : Entry) (p : List Byte) : Option Nat :=
  if p.length < 32 || p.length ≠ packetLen p || 4048 < pkPlen p || d.limitOf e.route < p.length then some 0
  else if byteAt p 0 ≠ 3 then some 0
  else if pkHcrc p ≠ hcrcOf p then some 1
  else if pkRsp p || pkNotify p || (pkFwd p && !e.route.isRelay) then some 0
  else none

/-! ## Checks 5 and 6 (R102) -/

/-- The slot's range holds the subscriber; an empty slot has the range 0 to 0. -/
def Dev.inRange (d : Dev) (slot sub : Nat) : Bool := if (d.slotKey slot).isSome then d.slotHolds slot sub else sub = 0

/-- None when authentication fails; else the key that verified the packet, none for an unsigned one. -/
def Dev.verify (d : Dev) (e : Entry) (p : List Byte) : Option (Option Key) :=
  if pkAuth p then
    match d.slotKey (pkSlot p) with
    | some k => if d.inRange (pkSlot p) (pkSub p) && (p.drop (32 + pkPlen p) == tagOf k p) then some (some k) else none
    | none => none
  else if !e.mustAuth && pkSlot p = 0 && d.inRange 0 (pkSub p) then some none
  else none

/-! ## Check 7 (R104) -/

/-- The replay rule: none is REPLAY, else the window with this counter recorded. -/
def Subscriber.replay (x : Subscriber) (epoch sq : Nat) : Option Subscriber :=
  let n := sq % 2 ^ 48
  if sq / 2 ^ 48 ≠ epoch then none
  else if x.high < n then
    some { x with high := n, mask := if 64 ≤ n - x.high then 1 else (x.mask <<< (n - x.high)) ||| 1 }
  else if 64 ≤ x.high - n || x.mask.getLsbD (x.high - n) then none
  else some { x with mask := x.mask ||| (1 <<< (x.high - n)) }

/-! ## Check 8 (R115) -/

/-- Bytes charged; the System group is not charged, nor is a packet that another chip has policed. -/
def chargeOf (e : Entry) (p : List Byte) : Nat :=
  if e.route.isRelay || pkOpcode p / 256 = 0 then 0
  else 32 + pkPlen p + (if pkOpcode p = 0x0303 then leAt (pkParams p) 8 4 else 0)

/-- The subscriber's bucket holds the charge, or is unlimited (R255). -/
def Dev.affords (d : Dev) (sub n : Nat) : Bool := d.fldBit (aRate sub) 31 || decide (n ≤ (d.subr sub).tokens)

/-- Takes the charge of an accepted request. -/
def Dev.spend (d : Dev) (sub n : Nat) : Dev :=
  if d.fldBit (aRate sub) 31 then d else d.updSubr sub fun x => { x with tokens := x.tokens - n }

/-! ## Check 9 (R111) -/

def destOk (dest : Nat) : Bool := decide (dest < 0x1000) || dest = 0x7FFF || decide (0x8000 ≤ dest ∧ dest ≤ 0x803F)

def fieldsOk (p : List Byte) : Bool :=
  decide (pkFlags p < 32) && !pkMore p && pkStatus p = 0 && leAt p 24 4 = 0 && destOk (pkDest p)

/-! ## Check 10 (R420) -/

/-- The opcodes of the reference; every other is reserved. -/
def isOpcode (o : Nat) : Bool :=
  let last := [5, 4, 6, 5, 4, 3, 3, 3, 5, 2, 6, 1]
  decide (1 ≤ o % 256) && decide (o % 256 ≤ last.getD (o / 256) 0)

/-- Dead-battery service (R56). -/
def deadServes (p : List Byte) : Bool :=
  let o := pkOpcode p
  let ps := pkParams p
  o = 1 || o = 2 ||
    (o = 0x0101 && decide (0x1C0000 ≤ leAt ps 0 4 ∧ leAt ps 0 4 + 4 * leAt ps 4 2 ≤ 0x1C4000)) ||
    (o = 0x0103 && (leAt ps 0 4 = 0x27000000 || leAt ps 0 4 = 0x27010000))

/-- Limp and RECOVERY (R75). -/
def limpServes (o : Nat) : Bool := o = 1 || o = 2 || o = 3 || o / 256 = 8

/-- CHIP_SAFE (R383). -/
def safeServes (o : Nat) (ps : List Byte) : Bool :=
  [1, 2, 4, 0x0101, 0x0103, 0x0601, 0x0801, 0x0B01].contains o || (o = 3 && byteAt ps 0 = 0)

/-- The maintenance state (R440). -/
def maintServes (o : Nat) (ps : List Byte) : Bool :=
  !([0x0201, 0x0304, 0x0401].contains o || (o = 0x0A05 && byteAt ps 1 = 0) || (o = 3 && byteAt ps 0 = 1))

/-- The status with which CHIP_SAFE or the maintenance state refuses an opcode (R383, R440). -/
def Dev.heldStatus (d : Dev) (o : Nat) (ps : List Byte) : Option Nat :=
  if d.fc.chipSafe && !safeServes o ps then some stNotPermitted
  else if d.maint && !maintServes o ps then some stBusy
  else none

/-- The status with which check 10 refuses a request. -/
def Dev.stateStatus (d : Dev) (p : List Byte) : Option Nat :=
  let o := pkOpcode p
  if d.dead then (if deadServes p then none else some stNotPermitted)
  else if !isOpcode o then some (if d.limp then stLimp else stUnsupported)
  else if d.limp && !limpServes o then some stLimp
  else d.heldStatus o (pkParams p)

/-! ## Check 13 (R116) -/

def Dev.tagRoom (d : Dev) (sub : Nat) (r : Route) : Bool :=
  decide ((d.requests.filter fun x => x.sub.toNat = sub).length < 32) && decide (d.requests.length < 512) &&
    !(d.limp && d.requests.any fun x => x.route.transport = r.transport)

/-! ## Check 14 (R112) -/

/-- Where DEST leads. -/
inductive Place where
  /-- this chip, with the target of R117 -/
  | here (target : Nat)
  /-- the chip at a position -/
  | away (position : Nat)
  /-- nowhere -/
  | nowhere (status : Nat)
  deriving DecidableEq, Repr

/-- The target code of a USB device. -/
def deviceCode (dom addr : Nat) : Nat := 1 + 128 * dom + addr

/-- The position is the chip's own. -/
def Dev.ownPosition (d : Dev) (pos : Nat) : Bool := d.posValid && d.position = pos

/-- Resolves DEST, by the TDI map or the target block (R111, R112, R418). -/
def Dev.destPlace (d : Dev) (p : List Byte) : Place :=
  let dest := pkDest p
  let device := namesDevice (pkOpcode p)
  if dest < 4096 then
    let t := d.reg (aTdi dest)
    if !device || !bit t 31 then .nowhere stBadParam
    else if d.ownPosition (bits t 16 6) then .here (deviceCode (bits t 8 2) (bits t 0 7))
    else .away (bits t 16 6)
  else if dest = 0x7FFF || d.ownPosition (dest % 64) then
    .here (if device then deviceCode (byteAt (pkParams p) 0 % 4) (byteAt (pkParams p) 1 % 128) else 0)
  else .away (dest % 64)

/-- The named device is attached: its endpoint 0 context is OPEN (R197). The opening of endpoint 0 at
address 0 makes the binding and needs none (R431). Where the address has no such context, ENDPOINT_OPEN goes on to the
BAD_PARAM of R194 (DESIGN CHOICE: R112 and R194 both cover this case). -/
def Dev.attachedAt (d : Dev) (p : List Byte) (target : Nat) : Bool :=
  target = 0 ||
    (pkOpcode p = 0x0304 && (target - 1) % 128 = 0 && byteAt (pkParams p) 2 % 16 = 0) ||
    (match d.ep0 ((target - 1) / 128) ((target - 1) % 128) with
     | some c => (d.ctx c).state = 1
     | none => pkOpcode p = 0x0304)

/-! ## The checks in order -/

/-- The request that a packet makes. -/
def Dev.requestOf (d : Dev) (e : Entry) (p : List Byte) (key : Option Key) : Request :=
  { sub := BitVec.ofNat 10 (pkSub p), tag := BitVec.ofNat 16 (pkTag p), opcode := BitVec.ofNat 16 (pkOpcode p)
    keyslot := pkSlot p, key := key, route := e.route, dest := BitVec.ofNat 16 (pkDest p), params := pkParams p
    target := 0, claim := 0, born := d.now, lastSeq := none, poison := e.poison, bad := [], phase := .accepted }

/-- Accepted: the tokens are taken and the tag is outstanding. -/
def Dev.accept (d : Dev) (n : Nat) (rq : Request) : Dev :=
  let d1 := d.spend rq.sub.toNat n
  { d1 with requests := d1.requests ++ [rq], power := { d1.power with reqInBeat := true } }

/-- Check 15: the parameters, then the claim of the full response in SV0 (R132). A request that it refuses takes no tag, no tokens
and no place. -/
def Dev.check15 (d : Dev) (n : Nat) (rq : Request) : Dev :=
  let w := d.params15 rq
  if !w.1 then d.refuse rq stBadParam
  else
    let segs := d.replySegs rq w.2
    match d.takeClaim 0 segs with
    | none => d.refuse rq stBusy
    | some d1 => d1.accept n { rq with claim := segs }

/-- `FWD_TIMEOUT` in microframes: the stored seconds, 10 s for 0 (R94). -/
def Dev.fwdWait (d : Dev) : Nat :=
  let n := bits (d.qword 4) 16 6
  8000 * (if n = 0 then 10 else n)

/-- Forwards a request toward a position: FWD is set and the packet is queued in SV0 (R113). -/
def Dev.forward (d : Dev) (e : Entry) (p : List Byte) (n : Nat) (rq : Request) (pos : Nat) : Dev :=
  match d.routeLink pos with
  | none => d.refuse rq stLinkLost
  | some l =>
    if e.route.isRelay || !d.posValid || !d.couchRuns || 5 ≤ l then d.refuse rq stLinkLost
    else match d.carryStatus l (pkOpcode p) with
      | some st => d.refuse rq st
      | none =>
        let q := relayQueue l 0
        let r : Rec := ⟨3, false, true, 0, relayFrame pos d.position 0 0 false (withFwd true p)⟩
        let d1 := d.openQueue q 0 3 l (linkOutput l) 0
        if d1.canClaim 0 (d1.segsFor q (recCells r.payload.length)) then
          match d1.enqueue rqMill q r with
          | some d2 => d2.accept n
              { rq with target := 65536 + pkDest p, phase := .forwarded l (d.now + d.fwdWait) }
          | none => d.refuse rq stBusy
        else d.refuse rq stBusy

/-- Checks 9 to 15. -/
def Dev.judge (d : Dev) (e : Entry) (p : List Byte) (n : Nat) (rq : Request) : Dev :=
  if !fieldsOk p then d.refuse rq stBadParam
  else match d.stateStatus p with
    | some st => d.refuse rq st
    | none =>
      if !d.slotPermits rq.keyslot (pkOpcode p) then d.refuse rq stNotPermitted
      else if (d.findReq rq.name).isSome then d.refuse rq stBadParam
      else if !d.tagRoom (pkSub p) e.route then d.refuse rq stBusy
      else match d.destPlace p with
        | .nowhere st => d.refuse rq st
        | .away pos => d.forward e p n rq pos
        | .here target =>
          if d.attachedAt p target then d.check15 n { rq with target := target } else d.refuse rq stDetached

/-- Check 8, then the rest. -/
def Dev.police (d : Dev) (e : Entry) (p : List Byte) (rq : Request) : Dev :=
  let n := chargeOf e p
  if d.affords (pkSub p) n then d.judge e p n rq
  else (d.count (selector 0x10 4 (pkSub p))).refuse rq stThrottled

/-- The packet is for another chip: the replay rule is that chip's (R100). -/
def Dev.passesOn (d : Dev) (e : Entry) (p : List Byte) : Bool :=
  !e.route.isRelay && (match d.destPlace p with | .away _ => true | _ => false)

/-- Check 7, at the executing chip; the route follows the request (R106). -/
def Dev.replayCheck (d : Dev) (e : Entry) (p : List Byte) (rq : Request) : Dev :=
  if d.passesOn e p then d.police e p rq
  else match (d.subr (pkSub p)).replay d.epoch (pkSeq p) with
    | none => (d.count (selector 0x10 3 (pkSub p))).refuse rq stReplay
    | some x =>
      (d.setSubr (pkSub p) { x with route := some (e.route, pkSlot p, rq.key.isSome) }).police e p rq

/-- The checks of R100 on a packet that has arrived whole. -/
def Dev.ingress (d : Dev) (e : Entry) (p : List Byte) : Dev :=
  match d.frameFault e p with
  | some k => d.count (selector 0x10 k e.route.transport)
  | none =>
    match d.verify e p with
    | none => (d.count (selector 0x10 2 (pkSlot p))).refuse (d.requestOf e p none) stAuthFail
    | some key => d.replayCheck e p (d.requestOf e p key)

/-- A packet offered on a transport: one that the command path does not serve yet is discarded without a response (R63). -/
def Dev.arrive (d : Dev) (e : Entry) (p : List Byte) : Dev := if d.servesRoute e.route then d.ingress e p else d

end Sys2Proof.Machine
end

