-- ==== Sys2Proof/Machine/Transports.lean ====
section
/-! DEFINITION. The transports (R87 to R99): the management SPI, UDP on E0 and E1 with their IP layer, and the Management
function's bulk endpoints. -/

namespace Sys2Proof.Machine

open Sys2Proof

/-! ## The management SPI (R89 to R93) -/

/-- The SPI target answers: board supplies, out of reset. -/
def Dev.spiUp (d : Dev) : Bool := d.up

/-- A transaction that was open at a reset release is ignored; every other one is served (R59). Its falling edge on `MS_CS_N`
is a wake source in DOZE (R307); the transaction itself is served as in DOZE. -/
def Dev.spiStep (d : Dev) (act : Dev → Dev) : Dev :=
  if !d.spiUp then d
  else if d.spi.ignore then { d with spi := { d.spi with ignore := false } }
  else act (if d.halted then d.startWake .msCsN else d)

def Dev.setOut (d : Dev) (bytes : List Byte) : Dev := { d with spi := { d.spi with out := bytes } }

/-- REG_WR: words written at rising addresses, or discarded for lack of buffer space (R90, R310). -/
def Dev.spiWrite (d : Dev) (a : Nat) : List W32 → Dev
  | [] => d
  | w :: t => (d.pathWrite .spi a w).spiWrite ((a + 4) % 2 ^ 24) t

def Dev.regWr (d : Dev) (a : Nat) (ws : List W32) : Dev :=
  if d.halted || decide (16 < ws.length) then d.flag aMsStatus 25 else d.spiWrite a ws

def execRegWr (addr : BitVec 24) (words : List W32) (s : State) : Host.Outcome State Fault Refusal :=
  s.seen (s.dev.spiStep fun d => d.regWr addr.toNat words)

/-- The blocks that the SPI reads in DOZE (R310). -/
def dozeReads (a : Nat) : Bool :=
  decide (a < 0x030000) || decide (0x100000 ≤ a ∧ a < 0x121000) || decide (0x140000 ≤ a ∧ a < 0x1C4000)

/-- One word read over the SPI (R398, R399). -/
def Dev.spiReadWord (d : Dev) (st : Straps) (a : Nat) : W32 × Dev :=
  let d0 := d.quireAck
  if !mapped a then (0, d0.regErr none a 31)
  else
    let r := d0.readReg st true a
    (r.1, if a = 0x5C then r.2.mailboxRead else r.2)

/-- REG_RD: for each word wait bytes 0x00, whose number below 32 is open, a ready byte and the word. A word that is not
ready after 32 wait bytes gives 0x5A, and the rest is abandoned (R90). -/
def Dev.spiRead (d : Dev) (st : Straps) (notReady : Option Nat) (a i : Nat) : Nat → Dev
  | 0 => d
  | n + 1 =>
    if notReady = some i || (d.halted && !dozeReads a) then
      (d.setOut (d.spi.out ++ zeros 32 ++ [0x5A])).flag aMsStatus 26
    else
      let w := d.freeWord
      let r := w.2.spiReadWord st a
      (r.2.setOut (r.2.spi.out ++ zeros (bits w.1 0 5) ++ [0xA5] ++ wordBytes r.1)).spiRead st notReady ((a + 4) % 2 ^ 24) (i + 1) n

def execRegRd (addr : BitVec 24) (count : Nat) (notReady : Option Nat) (s : State) : Host.Outcome State Fault Refusal :=
  s.next (s.dev.spiStep fun d =>
    if d.isReady 3 then (d.setOut []).spiRead s.straps notReady addr.toNat 0 count else d)

/-- RD_STATUS: the status, repeated for the words that the host clocks, whose number is open. -/
def Dev.rdStatus (d : Dev) : Dev :=
  let w := d.freeWord
  w.2.setOut (wordsBytes (List.replicate w.1.toNat d.msStatus))

def execRdStatus (s : State) : Host.Outcome State Fault Refusal := s.next (s.dev.spiStep Dev.rdStatus)

/-- The SPI as a way in: `CFG[0]` reads 1 where authentication is mandatory (R44). -/
def spiEntry (st : Straps) : Entry := { route := .spi, mustAuth := st.cfg.getLsbD 0, poison := false }

/-- PKT_WR (R91). The model's request FIFO is empty between commands, so the space is 2,048 words, and 0 in DOZE. The packet
passes through the Vat to the Mill core (R25); without a free segment it is taken as past the space (DESIGN CHOICE). -/
def Dev.pktWr (d : Dev) (st : Straps) (bytes : List Byte) : Dev :=
  if d.halted || decide (8192 < bytes.length) then d.flag aMsStatus 23
  else if bytes.length ≠ 4 * ceilDiv (packetLen bytes) 4 then d.flag aMsStatus 24
  else match d.stage rqSpi rqMill 0 2 (bytes.take (packetLen bytes)) with
    | some (p, _, d1) => d1.arrive (spiEntry st) p
    | none => d.flag aMsStatus 23

def execPktWr (bytes : List Byte) (s : State) : Host.Outcome State Fault Refusal :=
  s.next (s.dev.spiStep fun d => d.pktWr s.straps bytes)

/-- The words of a PKT_RD: lead, packet padded with zeros, trail (R92). -/
def pktRdWords (p : List Byte) (poison : Bool) : List W32 :=
  (at_ 0xA55A 16 ||| at_ p.length 0) :: toWords (ceilDiv p.length 4) p ++ [at_ 0x5AA5 16 ||| at_ (b2n poison) 0]

/-- Words that are shifted out: those there are, then the last one again. -/
def shiftOut (n : Nat) (ws : List W32) (last : W32) : List W32 :=
  (ws.take n) ++ List.replicate (n - ws.length) (ws.getLastD last)

/-- PKT_RD of a number of words; `bad` lists packet words that fail their parity check in the FIFO. -/
def Dev.pktRd (d : Dev) (clocked : Nat) (bad : List Nat) : Dev :=
  match d.spi.rsp with
  | [] =>
    let out := shiftOut clocked [] d.spi.last
    let d1 := d.setOut (wordsBytes out)
    if 0 < clocked then d1.flag aMsStatus 22 else d1
  | p :: rest =>
    let ws := pktRdWords p (bad.any fun i => decide (i < ceilDiv p.length 4))
    let out := shiftOut clocked ws d.spi.last
    let d1 := { d with spi := { d.spi with out := wordsBytes out, last := out.getLastD d.spi.last } }
    let d2 := if ws.length < clocked then d1.flag aMsStatus 22 else d1
    if ws.length ≤ clocked then ({ d2 with spi := { d2.spi with rsp := rest } }).leaves p else d2

def execPktRd (clocked : Nat) (badCells : List Nat) (s : State) : Host.Outcome State Fault Refusal :=
  s.next (s.dev.spiStep fun d => d.pktRd clocked badCells)

/-- An instruction byte that R89 does not list. -/
def spiInstr (c : Byte) : Bool := c = 2 || c = 3 || c = 5 || c = 0x0A || c = 0x0B

def execBadInstr (code : Byte) (s : State) : Host.Outcome State Fault Refusal :=
  s.next (s.dev.spiStep fun d => if spiInstr code then d else d.flag aMsStatus 27)

/-! ## The IP layer of E0 and E1 (R94, R95). Addresses hold their first octet in bits 7:0 (R414). -/

/-- The E port runs: its link is up and `READY.ETH` has given it its settings. -/
def Dev.ethUp (d : Dev) (e : Nat) : Bool := d.up && (d.eth e).linkUp && (d.eth e).configured

/-- The IPv6 link-local address formed from the MAC address by modified EUI-64. -/
def linkLocal (e : Nat) : BitVec 128 :=
  let m := leBytes 6 (Config.mac e).toNat
  BitVec.ofNat 128 (leNat ([0xFE, 0x80] ++ zeros 6 ++ (match m with | b :: t => (b ^^^ 2) :: t.take 2 | [] => []) ++
    [0xFF, 0xFE] ++ m.drop 3))

/-- An address of E port e. -/
def Dev.ownAddr (d : Dev) (e : Nat) (v6 : Bool) (ip : BitVec 128) : Bool :=
  let x := d.eth e
  if v6 then ip = linkLocal e || (x.ip6Addr ≠ 0 && ip = x.ip6Addr)
  else x.ip4Addr ≠ 0 && ip.toNat = x.ip4Addr.toNat

/-- The frame's VLAN is the port's. -/
def Dev.vlanOk (d : Dev) (e : Nat) (v : Option (BitVec 16)) : Bool :=
  match v with
  | none => (d.eth e).vlanId = 0
  | some t => (d.eth e).vlanId ≠ 0 && t.toNat % 4096 = (d.eth e).vlanId

/-- A datagram that the IP layer accepts. -/
def Dev.acceptsUdp (d : Dev) (e : Nat) (g : Datagram) : Bool :=
  g.dstPort.toNat = d.udpPort && d.ownAddr e g.ipv6 g.dstIp && d.vlanOk e g.vlan && !g.fragmented && !g.extHeaders &&
    (if g.checksumZero then !g.ipv6 else g.checksumOk)

/-- A frame that the IP layer discards is counted. -/
def Dev.dropFrame (d : Dev) (e : Nat) : Dev := d.count (selector 0x10 0 (1 + e))

/-- In DOZE a frame that would be taken wakes the device and is discarded (R310). -/
def Dev.wakeDrop (d : Dev) : Dev := ((d.startWake .ethFrame).count (selector 0x25 0 0)).flag aPwrEvent 2

def Dev.udpIn (d : Dev) (e : Nat) (g : Datagram) : Dev :=
  if !d.ethUp e then d
  else if d.halted then (if d.acceptsUdp e g then d.wakeDrop else d.dropFrame e)
  else
    let w := d.freeWord
    match w.2.passFrame e (Datagram.frame g e w.1) with
    | (none, d1) => d1
    | (some f, d1) =>
      if !d1.acceptsUdp e g then d1.dropFrame e
      else d1.arrive { route := .udp e g.srcMac g.vlan g.ipv6 g.srcIp g.dstIp g.srcPort g.dscp, mustAuth := true, poison := false }
        ((f.drop (Datagram.lead g)).take g.payload.length)

def execUdpDatagram (e : Fin 2) (g : Datagram) (s : State) : Host.Outcome State Fault Refusal := s.next (s.dev.udpIn e.val g)

/-- The frame of an answer. -/
def Dev.netFrame (d : Dev) (k : NetAnswer) (e : Nat) (q : NetQuery) : List Byte × Dev :=
  let w := d.freeWord
  (k.frame e q w.1, w.2)

/-- A frame that has started: without room for its record it is discarded (R132). -/
def Dev.frameStarts (d : Dev) (e n : Nat) (act : Dev → Dev) : Dev :=
  if d.halted || d.rxRoom e n then act d else d.frameLost e (rxFrameQueue e)

/-- Answers a request for an address of the port; in DOZE the device wakes, and the answer waits for ACTIVE (R310). -/
def Dev.resolve (d : Dev) (e : Nat) (k : NetAnswer) (v6 : Bool) (q : NetQuery) : Dev :=
  if !d.ethUp e then d
  else d.frameStarts e (18 + q.length) fun a =>
    if q.ipv6 ≠ v6 || !a.ownAddr e v6 q.target || !a.vlanOk e q.vlan then a.dropFrame e
    else
      let f := a.netFrame k e q
      if a.halted then (f.2.startWake .ethFrame).updEth e fun x => { x with owed := x.owed ++ [f.1] }
      else f.2.queueNet e f.1

def execArpRequest (e : Fin 2) (q : NetQuery) (s : State) : Host.Outcome State Fault Refusal :=
  s.next (s.dev.resolve e.val .arp false q)

def execNeighbourSolicitation (e : Fin 2) (q : NetQuery) (s : State) : Host.Outcome State Fault Refusal :=
  s.next (s.dev.resolve e.val .neighbour true q)

/-- An echo request up to the MTU is answered. -/
def Dev.echo (d : Dev) (e : Nat) (q : NetQuery) : Dev :=
  if !d.ethUp e then d
  else d.frameStarts e (18 + q.length) fun a =>
    if !a.ownAddr e q.ipv6 q.target || !a.vlanOk e q.vlan || decide ((a.eth e).mtu < q.length) then a.dropFrame e
    else if a.halted then a.wakeDrop
    else
      let f := a.netFrame .echo e q
      f.2.queueNet e f.1

def execEchoRequest (e : Fin 2) (q : NetQuery) (s : State) : Host.Outcome State Fault Refusal := s.next (s.dev.echo e.val q)

def execOtherFrame (e : Fin 2) (s : State) : Host.Outcome State Fault Refusal :=
  s.next (if s.dev.ethUp e.val then s.dev.frameStarts e.val 0 fun a => a.dropFrame e.val else s.dev)

/-- What the ordinary clock of an E port learns (R163, R166). -/
def PtpClock.learn (c : PtpClock) : PtpEvent → PtpClock
  | .sync ns => { c with offsetNs := ns, valid := decide (-1000 ≤ ns ∧ ns ≤ 1000) }
  | .announce n => { c with syncInterval := n }
  | .syncTimeout => { c with valid := false }

/-- An IEEE 1588 message goes to the Deckle; the clock runs in the Mill core. -/
def Dev.ptpIn (d : Dev) (e : Nat) (m : PtpEvent) : Dev :=
  if d.up && d.isReady 8 && (d.eth e).linkUp then
    d.updDk fun k => if e = 0 then { k with ptp0 := k.ptp0.learn m } else { k with ptp1 := k.ptp1.learn m }
  else d

def execPtpMessage (e : Fin 2) (m : PtpEvent) (s : State) : Host.Outcome State Fault Refusal := s.next (s.dev.ptpIn e.val m)

/-- The link of an E port comes up or goes down (R166); without supply or in HIBERNATE it stays down (R311). -/
def Dev.ethLink (d : Dev) (e : Nat) (on : Bool) : Dev := if d.up then d.updEth e fun x => { x with linkUp := on } else d

def execEthLinkChange (e : Fin 2) (isUp : Bool) (s : State) : Host.Outcome State Fault Refusal :=
  s.next (s.dev.ethLink e.val isUp)

/-! ## Bulk endpoints of the Management function (R97) -/

/-- The function device of a link is configured and the external host runs its bus. -/
def Dev.mgmtOpen (d : Dev) (l : Nat) : Bool :=
  let f := d.func l
  let attached := if l = 4 then d.u0Up else d.up && (d.link l).ufp && (d.link l).state ≠ .down
  f.config = 1 && !f.suspended && attached && (l ≠ 4 || !d.u0.suspended)

/-- Largest packet of the Management function's bulk endpoints on link l, and whether its bus runs at SuperSpeed. -/
def Dev.mgmtSuper (d : Dev) (l : Nat) : Bool := (if l = 4 then d.u0.speed else (d.link l).speed) = 3

/-- The device engine does not take a packet: NAK, or NRDY at SuperSpeed. -/
def Dev.mgmtHold (d : Dev) (l : Nat) : Dev :=
  d.updFunc l fun f => { f with reply := if d.mgmtSuper l then .nrdy else .nak }

/-- A bulk OUT transfer: each packet needs the claim of a largest record (R132), and the bytes pass through the Vat to the Mill core
(R25). In DOZE it draws NAK (R310). -/
def Dev.bulkOutMgmt (d : Dev) (l : Nat) (bytes : List Byte) : Dev :=
  if !d.mgmtOpen l || (d.func l).halted.contains 1 then d
  else if d.halted || !d.canClaim 0 (recSegs (if d.mgmtSuper l then 1024 else 512)) then d.mgmtHold l
  else if bytes.length < 32 || 4096 < bytes.length || bytes.length ≠ packetLen bytes then
    d.count (selector 0x10 0 (Route.usb l).transport)
  else match d.stage (rqHs (linkOutput l)) rqMill 0 2 bytes with
    | some (p, _, d1) => d1.arrive { route := .usb l, mustAuth := true, poison := false } p
    | none => d.mgmtHold l

def execMgmtBulkOut (link : Fin 5) (bytes : List Byte) (s : State) : Host.Outcome State Fault Refusal :=
  s.next (s.dev.bulkOutMgmt link.val bytes)

/-- The queues whose packets leave on bulk IN of link l: the responses', and each subscriber's whose route it is, but for Limp
(R75). The member of the pair is none for responses. -/
def Dev.mgmtQueues (d : Dev) (l : Nat) : List (Nat × Option (Nat × Nat)) :=
  (linkOutput l, none) :: if d.limp then [] else ([1, 2, 3] : List Nat).flatMap fun c => d.subs.filterMap fun kv =>
    match kv.2.route with
    | some (.usb m, _, _) => if m = l then some (notifQueue c kv.1, some (c, kv.1)) else none
    | _ => none

/-- The next queued packet leaves on bulk IN, in the order of queueing. One whose header is poisoned is discarded (R110). -/
def Dev.bulkInMgmt (d : Dev) (l : Nat) (bad : List Nat) : Dev :=
  if !d.mgmtOpen l || d.halted || (d.func l).halted.contains 0x81 then d
  else match d.oldestOf (d.mgmtQueues l) with
    | none => d
    | some (q, who) =>
      let o := linkOutput l
      match d.takePacket (rqHs o) q bad false with
      | none => d
      | some (p, out, d1) =>
        let work : Work := match who with | some (_, s) => .notif s | none => .response
        let x : Cand := ⟨(who.map Prod.fst).getD 0, (who.map Prod.snd).getD 0, d.headLen q, work⟩
        let d2 := d1.grant o x
        match out with
        | none => d2
        | some (sent, corrupt) => (d2.sendUnit o (d1.outgoing work sent) corrupt).leaves p

def execMgmtBulkIn (link : Fin 5) (badCells : List Nat) (s : State) : Host.Outcome State Fault Refusal :=
  s.next (s.dev.bulkInMgmt link.val badCells).vatAlarms

end Sys2Proof.Machine
end

