-- ==== Sys2Proof/Machine/Service.lean ====
section
/-! DEFINITION. Service frames on the relay links (R113, R264, R266, R276, R283, R287): received, consumed or passed on,
and sent; and the report poll at a UFP end (R176, R273). -/

namespace Sys2Proof.Machine

open Sys2Proof

/-! ## Consumed frames (R266, R287) -/

/-- A response that returns: it leaves toward the request's own route, and the subscriber's route at this chip follows
(R88, R106, R113). None when SV0 has no room for it. -/
def Dev.responseIn (d : Dev) (p : List Byte) (poison : Bool) : Option Dev :=
  let k : ReqKey := ⟨BitVec.ofNat 10 (pkSub p), BitVec.ofNat 16 (pkTag p)⟩
  let held := match d.findReq k with
    | some rq => (match rq.phase with | .forwarded _ _ => some rq | _ => none)
    | none => none
  match held with
  | none => some (d.count (selector 0x10 7 0))
  | some rq =>
    if d.roomOnRoute rq.route p then
      let d1 := d.queueOnRoute rq.route (!pkMore p) p poison
      let d2 := if pkStatus p = stAuthFail || pkStatus p = stReplay then d1
        else d1.updSubr rq.sub.toNat fun x => { x with route := some (rq.route, rq.keyslot, rq.key.isSome) }
      some (if pkMore p then d2 else (d2.setReq k fun r => { r with phase := .answered }).release117)
    else none

/-- A notification of another chip: it joins the subscriber's queue of its service (R106, R108). None when its class has no
room. -/
def Dev.notifIn (d : Dev) (svc : Nat) (p : List Byte) (poison : Bool) : Option Dev :=
  let s := pkSub p
  let c := if svc = 0 then 3 else svc
  match (d.subr s).route with
  | none => some (d.count (selNotifDrop s))
  | some (r, _, _) =>
    let q := notifQueue c s
    let d0 := if 64 ≤ d.unsent s then d.dropOldest s else d
    let d1 := d0.openQueue q c 2 s 35 s
    if d1.canClaim c (d1.segsFor q (p.length + 4)) then
      match d1.enqueue rqCouch q ⟨2, poison, !pkMore p, 0, p⟩ with
      | some d2 => some (match r with | .usb l => d2.functionWake l | _ => d2)
      | none => some (d1.count (selNotifDrop s))
    else none

/-- A frame for this chip, read poisoned or not: a request meets the checks at once; a response or a notification is moved under its
claim. -/
def Dev.consume (d : Dev) (f : List Byte) (poison : Bool) : Option Dev :=
  let p := frPayload f
  if pkRsp p then d.responseIn p poison
  else if pkNotify p then d.notifIn (frSvc f) p poison
  else some (d.arrive { route := .relay (frSrc f), mustAuth := true, poison := poison } p)

/-- Whether the pool of link n still holds a frame of this length (R263, R282). -/
def Dev.poolRoom (d : Dev) (n : Nat) (f : List Byte) : Bool :=
  decide (d.poolInUse n (frSvc f) + frameCost (frLen f) ≤ ((d.link n).svc (frSvc f)).own)

/-- Moves the head of service v of the frames that wait for this chip on link n. -/
def Dev.moveConsumed (d : Dev) (n v : Nat) : Dev :=
  match d.poolTake n 5 v with
  | none => d
  | some (r, d1) => (d1.consume r.payload r.poison).getD d

/-- A service frame that has passed the frame checks (R264, R266, R276). One for this chip that none waits before is consumed at
once, if it can be. -/
def Dev.frameIn (d : Dev) (n : Nat) (f : List Byte) : Dev :=
  let v := frSvc f
  if !d.posValid || !d.carries n v (pkOpcode (frPayload f)) then (d.noRoute n).poolPass n f
  else if frDst f ≠ d.position then d.transit n f
  else
    let waits := !(d.queue (rxQueue n 5 v)).stamps.isEmpty
    let keep := d.poolStore n 5 v ⟨3, frPoison f, true, 0, f⟩
    if waits then keep else keep.moveConsumed n v

/-- SERVICE_FRAME. A frame for which the pool has no room is answered with NAK (R263). -/
def Dev.serviceFrame (d : Dev) (n : Nat) (low : Bool) (f : List Byte) : Dev :=
  if !d.couchRuns || !((d.link n).state.lively || (d.link n).state = .resetting) then d
  else if frameOk f && !frLink f && d.carries n (frSvc f) (pkOpcode (frPayload f)) && !d.poolRoom n f then d
  else
    let r := d.rxFrame n low f
    if r.1 && !frLink f then r.2.frameIn n f else r.2

def execServiceFrame (link : Fin 5) (low : Bool) (frame : List Byte) (s : State) : Host.Outcome State Fault Refusal :=
  s.next (s.dev.serviceFrame link.val low frame).vatAlarms

def execConsumedFrameMove (link : Fin 5) (s : State) : Host.Outcome State Fault Refusal :=
  s.next (forN 4 (fun v d => d.moveConsumed link.val v) s.dev).vatAlarms

/-! ## Sending (R283, R285, R287) -/

/-- A frame of service v starts on link n, when the Headbox chooses one of that service (R253, R287). -/
def Dev.sendService (d : Dev) (n v : Nat) : Dev :=
  match d.chooseUnit (linkOutput n) fun a => a.linkCands n (a.rivals n v) with
  | some (x, d1) => (match x.work with
    | .relay u q w => if u = v then d1.sendRelay n x u q w else d
    | _ => d)
  | none => d

/-- RELAY_FRAME_SEND. Link-control frames go first on the high pipe and need no credit (R270). -/
def Dev.relaySend (d : Dev) (n v : Nat) : Dev :=
  if !d.linkSends n then d
  else if v = 0 && !(d.link n).ctl.isEmpty then d.sendControl n
  else if d.posValid then d.sendService n v
  else d

def execRelayFrameSend (link : Fin 5) (svc : Fin 4) (s : State) : Host.Outcome State Fault Refusal :=
  s.next (s.dev.relaySend link.val svc.val).vatAlarms

/-! ## The report poll at a UFP end (R176, R273) -/

/-- The report: T2 and T3 are those of the previous poll. -/
def Dev.reportData (d : Dev) (n : Nat) : List Byte :=
  let l := d.link n
  let totals (g : Credit → BitVec 32) := (List.range 4).flatMap fun v => leBytes 4 (g (l.svc v)).toNat
  [1, BitVec.ofNat 8 d.dkHops] ++ leBytes 6 d.deckle.beat.toNat ++ leBytes 2 l.tBeat16.toNat ++
    [BitVec.ofNat 8 (b2n l.tValid), 0] ++ leBytes 4 l.t2 ++ leBytes 4 l.t3 ++ totals Credit.released ++
    totals Credit.sent ++ zeros 12

/-- REPORT_POLL: the report is returned, and this poll's times are kept for the next. -/
def Dev.reportPoll (d : Dev) (n t2 t3 : Nat) : Dev :=
  let l := d.link n
  if d.couchRuns && l.ufp && l.state.lively then
    let r := d.reportData n
    let b := BitVec.ofNat 16 d.beat16
    d.updLink n fun x => { x with report := r, t2 := t2, t3 := t3, tBeat16 := b, tValid := true }
  else d

def execReportPoll (link : Fin 5) (t2 t3 : Nat) (s : State) : Host.Outcome State Fault Refusal :=
  s.next (s.dev.reportPoll link.val t2 t3)

end Sys2Proof.Machine
end

