-- ==== Sys2Proof/Machine/SystemOps.lean ====
section
/-! DEFINITION. The execution of accepted requests: the turn of a request (R117), what a state of the part ends it with
(R383, R423, R440), and the opcodes of the System and Registers groups (R421 to R426). -/

namespace Sys2Proof.Machine

open Sys2Proof

/-! ## The start of a request -/

/-- The request may start: those before it from its subscriber for its target have started (R117); in Limp all before it
have (R75). -/
def Dev.mayStart (d : Dev) (rq : Request) : Bool :=
  rq.phase = .accepted && (d.before rq).all (fun x => x.phase ≠ .accepted) &&
    (!d.limp || (d.requests.takeWhile fun x => !x.isFor rq.name).all fun x => x.phase ≠ .accepted)

/-- A core, or dead-battery service, executes requests. -/
def Dev.executes (d : Dev) : Bool := d.dead || (d.up && (d.isReady 8 || d.limp))

/-- The row of an opcode: it acts on the request that the key names, when that is the row's and its turn has come. After a
chip-scope RESET has been accepted, it ends with RESET_ABORTED instead (R423); a request accepted before CHIP_SAFE or the
maintenance state, and not served there, with that state's status (R383, R440). -/
def Dev.opcodeRow (d : Dev) (k : ReqKey) (o : Nat) (mine : List Byte → Bool) (run : Request → Dev → Dev) : Dev :=
  match d.findReq k with
  | some rq =>
    if rq.opcode.toNat = o && mine rq.params && d.mayStart rq && d.executes then
      if d.resetDue.isSome then d.fail k stResetAborted
      else match d.heldStatus rq.opcode.toNat rq.params with
        | some st => d.fail k st
        | none => run rq d
    else d
  | none => d

/-- Every request of the opcode is the row's. -/
def anyParams (_ : List Byte) : Bool := true

/-- Ends with OK and these parameters. -/
def Dev.okWith (d : Dev) (rq : Request) (params : List Byte) : Dev := d.answer rq.name stOk params

/-! ## IDENTIFY and STATUS (R421) -/

/-- The STATE byte. -/
def Dev.stateByte (d : Dev) : Byte :=
  BitVec.ofNat 8 (d.boot.state.code + 8 * b2n d.dead + 16 * b2n d.fc.chipSafe)

def ImageHdr.fieldOf (h : Option ImageHdr) (f : ImageHdr → Nat) : Nat := match h with | some x => f x | none => 0

/-- The position as IDENTIFY and CHAIN_INFO show it. -/
def Dev.positionByte (d : Dev) : Byte := BitVec.ofNat 8 (b2n d.posValid * 128 + d.position)

def Dev.identifyBytes (d : Dev) : List Byte :=
  let m := if d.dead then none else d.boot.mill
  let c := if d.dead then none else d.boot.couch
  leBytes 8 Config.chipUid.toNat ++ leBytes 2 0x3232 ++ [0xB1, d.stateByte, d.positionByte, 0] ++ leBytes 2 d.epoch ++
    leBytes 4 (ImageHdr.fieldOf m fun x => x.version.toNat) ++ leBytes 4 (ImageHdr.fieldOf c fun x => x.version.toNat) ++
    leBytes 2 (ImageHdr.fieldOf m fun x => x.avvEpoch.toNat) ++ leBytes 2 (ImageHdr.fieldOf c fun x => x.relayEpoch.toNat) ++
    leBytes 2 (ImageHdr.fieldOf m fun x => x.ownEpoch.toNat) ++ leBytes 2 (ImageHdr.fieldOf c fun x => x.ownEpoch.toNat) ++
    leBytes 4 (if d.dead then 0 else d.boot.ready.toNat) ++ zeros 4

def execIdentify (k : ReqKey) (s : State) : Host.Outcome State Fault Refusal :=
  s.next (s.dev.opcodeRow k 0x0001 anyParams fun rq d =>
    d.okWith rq d.identifyBytes)

/-- A link's state in two bits of STATUS. -/
def LinkState.two : LinkState → Nat
  | .down => 0 | .enumerating => 1 | .hello => 1 | .auth => 1 | .admitted => 1 | .resetting => 1
  | .enabled => 2 | .quarantine => 3 | .authFailed => 3 | .foreign => 3

/-- Subscriptions in effect. -/
def Dev.subsInEffect (d : Dev) : Nat :=
  (d.subscriptions.filter fun kv => match kv.2 with | some s => !s.ended | none => false).length

def Dev.statusBytes (d : Dev) : List Byte :=
  if d.dead then d.stateByte :: zeros 31
  else
    [d.stateByte, BitVec.ofNat 8 d.power.state.code, BitVec.ofNat 8 d.deckle.state.code, 0] ++
      leBytes 6 d.deckle.beat.toNat ++ leBytes 2 d.deckle.mf ++ leBytes 4 d.boot.ready.toNat ++ wordBytes d.fcStatus ++
      leBytes 2 d.requests.length ++ leBytes 2 d.subsInEffect ++ leBytes 4 (d.shared % 2 ^ 17) ++
      [BitVec.ofNat 8 ((List.range 4).foldl (fun m n => m + (d.link n).state.two * 4 ^ n) 0),
       BitVec.ofNat 8 (b2n d.watermark.valid + 2 * (d.link 4).state.two)] ++ zeros 2

def execStatus (k : ReqKey) (s : State) : Host.Outcome State Fault Refusal :=
  s.next (s.dev.opcodeRow k 0x0002 anyParams fun rq d =>
    d.okWith rq d.statusBytes)

/-! ## RESET (R423) -/

/-- RESET with chip scope: every request that has not started ends with RESET_ABORTED, its own response is sent, and the
reset is due. -/
def Dev.chipScope (d : Dev) (rq : Request) : Dev :=
  let idle := (d.requests.filter fun r => r.phase = .accepted && !r.isFor rq.name).map Request.name
  { (d.failAll idle stResetAborted).okWith rq [] with resetDue := some (rq.name, d.now + 80) }

def execResetChip (k : ReqKey) (s : State) : Host.Outcome State Fault Refusal :=
  s.next (s.dev.opcodeRow k 0x0003 (fun p => byteAt p 0 = 0) fun rq d =>
    d.chipScope rq)

/-- The sources of a port are cleared with its reset; those whose cause is present assert again (R386). -/
def Dev.portSourcesReset (d : Dev) (n : Nat) : Dev :=
  let is := ((List.range 12).map (srcPort n ·)) ++ (if n < 4 then (List.range 8).map (srcLink n ·) else [])
  let d1 := forEach is (fun i a => a.setSrc i (a.sourceReset i)) d
  forEach is (fun i a =>
    if (a.src i).line then a.assert i (at_ 1 31) false true
    else if (a.src i).cause && a.causePresent i then a.assert i 0 else a) d1

/-- RESET with port scope: the port's load, its sources, and the notifications that follow (R30, R77, R78). -/
def Dev.portScope (d : Dev) (rq : Request) (n : Nat) : Dev :=
  let d1 := (((d.loadPort n).portSourcesReset n).portChange n)
  (if d.tcAttached n then d1.pdTell n evDetach else d1.pdChange n).okWith rq []

def execResetPort (k : ReqKey) (s : State) : Host.Outcome State Fault Refusal :=
  s.seen (s.dev.opcodeRow k 0x0003 (fun p => byteAt p 0 = 1) fun rq d =>
    let n := byteAt rq.params 1
    d.portScope rq n)

/-! ## READY (R422) -/

def Dev.readyBytes (d : Dev) : List Byte := leBytes 4 d.boot.ready.toNat

/-- Every bit of a mask is set in `READY`. -/
def Dev.hasReady (d : Dev) (m : BitVec 10) : Bool := d.boot.ready &&& m = m

def execReady (k : ReqKey) (s : State) : Host.Outcome State Fault Refusal :=
  s.next (s.dev.opcodeRow k 0x0004 anyParams fun rq d =>
    let m := leAt rq.params 0 2
    let wait := leAt rq.params 4 4
    let mask := BitVec.ofNat 10 m
    if d.hasReady mask then d.okWith rq d.readyBytes
    else if wait = 0 then d.answer k stTimeout d.readyBytes
    else d.setReq k fun r => { r with phase := .waitReady mask (d.now + wait) })

def execReadyAnswer (k : ReqKey) (s : State) : Host.Outcome State Fault Refusal :=
  s.next (match (s.dev.findReq k).map Request.phase with
    | some (.waitReady m _) => if s.dev.hasReady m then s.dev.answer k stOk s.dev.readyBytes else s.dev
    | _ => s.dev)

def execReadyWaitExpiry (k : ReqKey) (s : State) : Host.Outcome State Fault Refusal :=
  s.next (match (s.dev.findReq k).map Request.phase with
    | some (.waitReady m t) =>
      if t ≤ s.dev.now && !s.dev.hasReady m then s.dev.answer k stTimeout s.dev.readyBytes else s.dev
    | _ => s.dev)

/-! ## EVENTS (R424) -/

def execEvents (k : ReqKey) (s : State) : Host.Outcome State Fault Refusal :=
  s.next (s.dev.opcodeRow k 0x0005 anyParams fun rq d =>
    let p := rq.params
    (d.updSubr rq.sub.toNat fun x =>
      { x with classes := BitVec.ofNat 7 (leAt p 0 4), ports := BitVec.ofNat 32 (leAt p 4 4), u0 := byteAt p 8 = 1 }).okWith rq [])

/-! ## REG_READ, REG_WRITE and WIDE_READ (R398, R407, R425) -/

/-- A word as REG_READ gives it; with SHADOW, the fields of an RWS register that are written come from its shadow. -/
def Dev.readWord (d : Dev) (st : Straps) (shadow : Bool) (a : Nat) : W32 × Dev :=
  let r := d.readReg st false a
  match regInfo a with
  | some i =>
    (if shadow && i.group.isSome && (d.shown st a).isNone then (r.1 &&& ~~~ i.rw) ||| (d.shadowOf a &&& i.rw) else r.1, r.2)
  | none => r

def Dev.readWords (d : Dev) (st : Straps) (shadow : Bool) (a : Nat) : Nat → List Byte × Dev
  | 0 => ([], d)
  | n + 1 =>
    let r := d.readWord st shadow a
    let t := r.2.readWords st shadow (a + 4) n
    (wordBytes r.1 ++ t.1, t.2)

/-- The status with which REG_READ refuses its words: the first that R398 refuses decides. -/
def readStatus (a n : Nat) : Option Nat :=
  (List.range n).findSome? fun i =>
    if !mapped (a + 4 * i) then some stBadParam else if isMailbox (a + 4 * i) then some stNotPermitted else none

def execRegRead (k : ReqKey) (s : State) : Host.Outcome State Fault Refusal :=
  s.next (s.dev.opcodeRow k 0x0101 anyParams fun rq d =>
    let p := rq.params
    let a := leAt p 0 4
    let n := leAt p 4 2
    match readStatus a n with
    | some st => d.fail k st
    | none =>
      let r := d.quireAck.readWords s.straps (leAt p 6 2 = 1) a n
      r.2.okWith rq r.1)

/-- Words written in order until one is refused: how many were written, the status of the refusal or of wear. -/
def Dev.writeWords (d : Dev) (who : SubId × BitVec 16) (opened : Bool) (done st : Nat) (a : Nat) : List W32 → Nat × Nat × Dev
  | [] => (done, st, d)
  | w :: t =>
    let r := d.writeReg (some who) opened a w
    if r.1 = stOk then r.2.writeWords who opened (done + 1) st (a + 4) t
    else if r.1 = stWearFlagged then r.2.writeWords who opened (done + 1) stWearFlagged (a + 4) t
    else (done, r.1, r.2)

def execRegWrite (k : ReqKey) (s : State) : Host.Outcome State Fault Refusal :=
  s.seen (s.dev.opcodeRow k 0x0102 anyParams fun rq d =>
    let p := rq.params
    let a := leAt p 0 4
    let n := leAt p 4 2
    let r := d.writeWords (k.sub, k.tag) false 0 stOk a (toWords n (p.drop 8))
    r.2.2.answer k r.2.1 (leBytes 2 r.1 ++ zeros 2))

def execWideRead (k : ReqKey) (s : State) : Host.Outcome State Fault Refusal :=
  s.next (s.dev.opcodeRow k 0x0103 anyParams fun rq d =>
    let r := d.wideValue (BitVec.ofNat 32 (leAt rq.params 0 4))
    match r.1 with
    | none => r.2.fail k stBadParam
    | some ws => r.2.okWith rq (wordsBytes ws))

/-! ## UPDATE (R402 to R405, R426) -/

def execUpdate (k : ReqKey) (s : State) : Host.Outcome State Fault Refusal :=
  s.next (s.dev.opcodeRow k 0x0104 (fun p => byteAt p 2 ≠ 1) fun rq d =>
    let p := rq.params
    let r := d.requestUpdate (some (k.sub, k.tag)) (p.getD 0 0) (byteAt p 1) (BitVec.ofNat 48 (leAt p 4 6))
    r.2.fail k r.1)

def execUpdateCancel (k : ReqKey) (s : State) : Host.Outcome State Fault Refusal :=
  s.next (s.dev.opcodeRow k 0x0104 (fun p => byteAt p 2 = 1) fun rq d =>
    (d.cancelUpdates (rq.params.getD 0 0)).okWith rq [])

end Sys2Proof.Machine
end

