-- ==== Sys2Proof/Machine/AdminOps.lean ====
section
/-! DEFINITION. The opcodes of the Faults, Quire and keys, Firmware, Self-test, Train chain and Statistics groups (R435 to
R442). -/

namespace Sys2Proof.Machine

open Sys2Proof

/-! ## Faults (R385, R387, R388, R435) -/

def execFaultRead (k : ReqKey) (s : State) : Host.Outcome State Fault Refusal :=
  s.next (s.dev.opcodeRow k 0x0601 anyParams fun rq d =>
    let first := leAt rq.params 0 2
    let n := leAt rq.params 2 2
    d.okWith rq (wordBytes d.fcStatus ++ zeros 4 ++
      (List.range n).flatMap fun i => wordBytes (d.srcStat (first + i)) ++ wordBytes (d.reg (aSrcCfg (first + i)))))

/-- The bytes of REFUSED. -/
def refusedBytes (n : Nat) : List Byte := leBytes 2 n ++ zeros 2

def execFaultClear (k : ReqKey) (s : State) : Host.Outcome State Fault Refusal :=
  s.next (s.dev.opcodeRow k 0x0602 (fun p => clearFlags p % 4 = 0) fun rq d =>
    let i := leAt rq.params 0 2
    let r := d.clearSource i
    if (d.src i).level = 4 then d.fail k stNotPermitted
    else if r.1 then r.2.answer k stCausePresent (refusedBytes 1)
    else r.2.okWith rq (refusedBytes 0))

def execFaultClearAll (k : ReqKey) (s : State) : Host.Outcome State Fault Refusal :=
  s.next (s.dev.opcodeRow k 0x0602 (fun p => clearFlags p % 4 = 1) fun _ d =>
    let r := d.clearAll
    r.2.answer k (if r.1 = 0 then stOk else stCausePresent) (refusedBytes r.1))

def execFaultClearWatermark (k : ReqKey) (s : State) : Host.Outcome State Fault Refusal :=
  s.next (s.dev.opcodeRow k 0x0602 (fun p => decide (2 ≤ clearFlags p % 4)) fun rq d =>
    d.clearWatermark.okWith rq (refusedBytes 0))

/-- LEVEL and C of a force or a rehearsal, from `FC_FORCE_RESULT`. -/
def Dev.forceBytes (d : Dev) : List Byte :=
  [BitVec.ofNat 8 (bits d.fc.result 27 3), BitVec.ofNat 8 (bits d.fc.result 16 8), 0, 0]

def execFaultForce (k : ReqKey) (s : State) : Host.Outcome State Fault Refusal :=
  s.seen (s.dev.opcodeRow k 0x0603 (fun p => leAt p 2 2 ≠ 1) fun rq d =>
    let i := leAt rq.params 0 2
    let b := d.force i
    b.okWith rq b.forceBytes)

def execFaultForceRehearse (k : ReqKey) (s : State) : Host.Outcome State Fault Refusal :=
  s.next (s.dev.opcodeRow k 0x0603 (fun p => leAt p 2 2 = 1) fun rq d =>
    let i := leAt rq.params 0 2
    let b := d.rehearse i
    b.okWith rq b.forceBytes)

/-! ## Quire and keys (R401, R411, R436) -/

/-- A word that QUIRE_WRITE may not name: a key word, `KEY_VALID`, or an RO word. -/
def quireBarred (w : Nat) : Bool :=
  match quireKind w with
  | .key _ _ => true
  | .readOnly => true
  | _ => false

/-- Words written in order, each guarded write in one step with its unlock; barred words stop it with BAD_PARAM. -/
def Dev.writeQuireWords (d : Dev) (who : SubId × BitVec 16) (done st w : Nat) : List W32 → Nat × Nat × Dev
  | [] => (done, st, d)
  | v :: t =>
    if quireBarred w then (done, stBadParam, d)
    else
      let r := d.writeReg (some who) true (aQuire w) v
      if r.1 = stOk then r.2.writeQuireWords who (done + 1) st (w + 1) t
      else if r.1 = stWearFlagged then r.2.writeQuireWords who (done + 1) stWearFlagged (w + 1) t
      else (done, r.1, r.2)

def execQuireWrite (k : ReqKey) (s : State) : Host.Outcome State Fault Refusal :=
  s.next (s.dev.opcodeRow k 0x0701 anyParams fun rq d =>
    let p := rq.params
    let w := leAt p 0 2
    let n := leAt p 2 2
    let r := d.writeQuireWords (k.sub, k.tag) 0 stOk w (toWords n (p.drop 4))
    r.2.2.answer k r.2.1 (leBytes 2 r.1 ++ zeros 2))

/-- Writes given Quire words as single steps; whether one was worn. -/
def Dev.guardedWrites (d : Dev) (who : SubId × BitVec 16) (ws : List (Nat × W32)) : Bool × Dev :=
  ws.foldl (fun acc wv =>
    let r := acc.2.writeReg (some who) true (aQuire wv.1) wv.2
    (acc.1 || r.1 = stWearFlagged, r.2)) (false, d)

def execKeyWrite (k : ReqKey) (s : State) : Host.Outcome State Fault Refusal :=
  s.next (s.dev.opcodeRow k 0x0702 anyParams fun rq d =>
    let p := rq.params
    let n := (keyOfByte (byteAt p 0)).getD 0
    let key := (toWords 4 (p.drop 4)).zipIdx.map fun wi => (keyFirst n + wi.2, wi.1)
    let ctl := if n < 64 then
        [(0x1C0 + 2 * n, at_ (leAt p 22 2) 16 ||| at_ (leAt p 20 2) 0), (0x1C1 + 2 * n, at_ (leAt p 24 2) 0)]
      else []
    let r := d.guardedWrites (k.sub, k.tag) (key ++ ctl)
    r.2.fail k (if r.1 then stWearFlagged else stOk))

def execKeyErase (k : ReqKey) (s : State) : Host.Outcome State Fault Refusal :=
  s.next (s.dev.opcodeRow k 0x0703 anyParams fun rq d =>
    let p := rq.params
    let n := (keyOfByte (byteAt p 0)).getD 0
    let w := if n < 64 then (0x1C1 + 2 * n, at_ 1 31) else (0x09B, at_ 1 (n - 64))
    (d.guardedWrites (k.sub, k.tag) [w]).2.okWith rq [])

/-! ## Firmware (R68, R80, R81, R437, R438) -/

/-- The slot's image runs. -/
def Dev.slotRuns (d : Dev) (k : Nat) : Bool :=
  if k < 2 then d.boot.mill.isSome && decide (d.boot.millSlotB = (k = 1))
  else d.boot.couch.isSome && decide (d.boot.couchSlotB = (k = 3))

/-- One 24-byte slot entry of FW_INFO. -/
def Dev.slotEntry (d : Dev) (k : Nat) : List Byte :=
  let couch := decide (2 ≤ k)
  let h := d.slotHeader k
  let g := if headerOk couch h then h else []
  let x := d.directory
  let pref := decide (x.preferred couch = k)
  let flags := b2n pref + 2 * b2n (pref && (if couch then x.couchTrial else x.millTrial)) +
    4 * b2n (pref && (if couch then x.couchUsed else x.millUsed)) + 8 * b2n (d.slotRuns k) + 16 * b2n (d.slotVerified k)
  leBytes 4 (leAt g 8 4) ++ leBytes 2 (leAt g 12 2) ++ leBytes 2 (leAt g 14 2) ++ [g.getD 16 0, g.getD 17 0] ++
    leBytes 2 (leAt g 18 2) ++ leBytes 2 (leAt g 20 2) ++ [BitVec.ofNat 8 (d.slotResult k), BitVec.ofNat 8 flags] ++
    leBytes 4 (leAt g 24 4) ++ zeros 4

def execFwInfo (k : ReqKey) (s : State) : Host.Outcome State Fault Refusal :=
  s.next (s.dev.opcodeRow k 0x0801 anyParams fun rq d =>
    d.okWith rq (wordBytes d.bootStatus ++ zeros 4 ++ (List.range 4).flatMap d.slotEntry))

/-- FW_WRITE: at OFFSET 0 the erase starts, and the slot reads erased from then on, so that a reset that cuts the erase off
leaves no image (R82); a later chunk is programmed at the slot's POSITION. -/
def Dev.fwWrite (d : Dev) (rq : Request) (x : Nat) : Dev :=
  let off := leAt rq.params 4 4
  let data := rq.params.drop 8
  if d.slotRuns x then d.fail rq.name stNotPermitted
  else if (d.slotErasing x).isSome then d.fail rq.name stBusy
  else if off = 0 then
    (((d.setSlotVerified x false).eraseFlash (slotBase x) (slotSize x)).setSlotErasing x (some rq.name)).setReq rq.name fun r => { r with phase := .fwErase (slotAt x) }
  else if off ≠ d.slotPosition x || decide (slotSize x < off + data.length) then d.fail rq.name stBadParam
  else
    let pos := off + data.length
    (((d.setSlotVerified x false).programFlash (slotBase x + off) data).setSlotPosition x pos).okWith rq (leBytes 4 pos)

def execFwWrite (k : ReqKey) (s : State) : Host.Outcome State Fault Refusal :=
  s.next (s.dev.opcodeRow k 0x0802 anyParams fun rq d =>
    let p := rq.params
    d.fwWrite rq ((slotNamed p).getD 0))

/-- FW_ERASE_DONE: the whole slot is erased, and the chunk that waits is programmed. -/
def Dev.eraseDone (d : Dev) (k : ReqKey) : Dev :=
  match d.findReq k with
  | some rq =>
    (match rq.phase with
     | .fwErase slot =>
       let x := slotNo slot
       let data := rq.params.drop 8
       ((((d.eraseFlash (slotBase x) (slotSize x)).programFlash (slotBase x) data).setSlotErasing x none).setSlotPosition x
         data.length).okWith rq (leBytes 4 data.length)
     | _ => d)
  | none => d

def execFwEraseDone (k : ReqKey) (s : State) : Host.Outcome State Fault Refusal := s.next (s.dev.eraseDone k)

def execFwVerify (k : ReqKey) (s : State) : Host.Outcome State Fault Refusal :=
  s.next (s.dev.opcodeRow k 0x0803 anyParams fun rq d =>
    let p := rq.params
    let x := (slotNamed p).getD 0
    if (d.slotErasing x).isSome then d.fail k stBusy
    else
      let r := d.checkSlot x
      ((d.setSlotResult x r).setSlotVerified x (d.slotVerified x || r = 1)).okWith rq [BitVec.ofNat 8 r, 0, 0, 0])

/-- The directory after FW_ACTIVATE of slot x. -/
def Directory.activate (y : Directory) (x : Nat) (trial : Bool) : Directory :=
  if x < 2 then { y with millPrefB := x = 1, millTrial := trial, millUsed := false }
  else { y with couchPrefB := x = 3, couchTrial := trial, couchUsed := false }

def execFwActivate (k : ReqKey) (s : State) : Host.Outcome State Fault Refusal :=
  s.next (s.dev.opcodeRow k 0x0804 anyParams fun rq d =>
    let p := rq.params
    let x := (slotNamed p).getD 0
    if !d.slotVerified x || (d.slotErasing x).isSome then d.fail k stBadParam
    else (d.writeDirectory (d.directory.activate x (byteAt p 2 = 0))).okWith rq [])

/-- FW_CONFIRM: on a device booted on trial both trial flags are cleared in one update. -/
def Dev.fwConfirm (d : Dev) : Dev :=
  if d.boot.trial then
    let d1 := d.writeDirectory { d.directory with millTrial := false, couchTrial := false }
    { d1 with boot := { d1.boot with trial := false } }
  else d

def execFwConfirm (k : ReqKey) (s : State) : Host.Outcome State Fault Refusal :=
  s.next (s.dev.opcodeRow k 0x0805 anyParams fun rq d => d.fwConfirm.okWith rq [])

/-! ## Self-test and maintenance (R439, R440) -/

def selftestBytes (failed : Bool) (detail : W32) : List Byte := [BitVec.ofNat 8 (b2n failed), 0, 0, 0] ++ wordBytes detail

/-- VAT_SPARE waits for the spare's next complete march pass. -/
def execSelftestVatSpare (k : ReqKey) (s : State) : Host.Outcome State Fault Refusal :=
  s.next (s.dev.opcodeRow k 0x0901 (fun p => byteAt p 0 = 0) fun _ d =>
    if d.vat.spare.isNone then d.fail k stNoResource else d.setReq k fun r => { r with phase := .selftest })

def execSelftestAdc (k : ReqKey) (firstFail : Option (BitVec 8)) (s : State) : Host.Outcome State Fault Refusal :=
  s.next (s.dev.opcodeRow k 0x0901 (fun p => byteAt p 0 = 1) fun rq d =>
    d.okWith rq (match firstFail with
      | some c => selftestBytes true (at_ c.toNat 0)
      | none => selftestBytes false 0xFFFFFFFF))

def execSelftestPort (k : ReqKey) (failing : W32) (s : State) : Host.Outcome State Fault Refusal :=
  s.next (s.dev.opcodeRow k 0x0901 (fun p => byteAt p 0 = 2) fun rq d =>
    if d.isDisabled (byteAt rq.params 1) then d.okWith rq (selftestBytes (failing ≠ 0) failing) else d.fail k stBusy)

/-- EFUSE_TRIP: the trip time is reported; the time from which it counts as FAIL is not stated, and RESULT is open. -/
def execSelftestEfuseTrip (k : ReqKey) (tripNs : W32) (s : State) : Host.Outcome State Fault Refusal :=
  s.next (s.dev.opcodeRow k 0x0901 (fun p => byteAt p 0 = 3) fun rq d =>
    let n := byteAt rq.params 1
    let st := (d.fuse n).state
    if (st = .off || st = .latched || st = .backoff) && !d.isHeld n then
      let b := d.freeBit
      b.2.okWith rq (selftestBytes b.1 tripNs)
    else d.fail k stBusy)

def execSelftestFull (k : ReqKey) (failed : BitVec 4) (s : State) : Host.Outcome State Fault Refusal :=
  s.next (s.dev.opcodeRow k 0x0901 (fun p => decide (4 ≤ byteAt p 0)) fun rq d =>
    if d.maint then d.okWith rq (selftestBytes (failed ≠ 0) (at_ failed.toNat 0)) else d.fail k stNotPermitted)

/-- The maintenance state may be entered. -/
def Dev.mayMaintain (d : Dev) : Bool :=
  (List.range 32).all (fun n => d.isDisabled n) && !(d.subscriptions.any fun kv => kv.2.isSome) &&
    !(d.ctxs.any fun kv => decide (kv.2.state ≠ 0))

def execMaintEnter (k : ReqKey) (s : State) : Host.Outcome State Fault Refusal :=
  s.next (s.dev.opcodeRow k 0x0902 (fun p => byteAt p 0 = 1) fun rq d =>
    if d.mayMaintain then { d.okWith rq [] with maint := true } else d.fail k stBusy)

def execMaintLeave (k : ReqKey) (s : State) : Host.Outcome State Fault Refusal :=
  s.next (s.dev.opcodeRow k 0x0902 (fun p => byteAt p 0 ≠ 1) fun rq d =>
    { d.okWith rq [] with maint := false })

/-! ## Train chain and TDI map (R264, R265, R441) -/

/-- CHAIN_SET: the OK response first; `CHAIN_POS` is due. -/
def execChainSet (k : ReqKey) (s : State) : Host.Outcome State Fault Refusal :=
  s.next (s.dev.opcodeRow k 0x0A01 anyParams fun rq d =>
    let b := byteAt rq.params 0
    { d.okWith rq [] with chainDue := some (k, at_ (b / 128) 31 ||| at_ (b % 64) 0, d.now + 80) })

/-- CHAIN_SET_APPLY: the response has left, or 10 ms have passed. -/
def execChainSetApply (k : ReqKey) (s : State) : Host.Outcome State Fault Refusal :=
  s.next (match s.dev.chainDue with
    | some (k', v, t) => if k = k' && s.dev.responseGone k t then { s.dev with chainDue := none }.chainPos v else s.dev
    | none => s.dev)

/-- Writes the values to rising registers. -/
def Dev.setRegs (d : Dev) (a : Nat) : List W32 → Dev
  | [] => d
  | v :: t => (d.setReg a v).setRegs (a + 4) t

def execRouteWrite (k : ReqKey) (s : State) : Host.Outcome State Fault Refusal :=
  s.next (s.dev.opcodeRow k 0x0A02 anyParams fun rq d =>
    let p := rq.params
    let first := byteAt p 0
    let vs := (p.drop 4).map routeValue
    (d.setRegs (aRoute first) vs).okWith rq [])

def execTdiWrite (k : ReqKey) (s : State) : Host.Outcome State Fault Refusal :=
  s.next (s.dev.opcodeRow k 0x0A03 anyParams fun rq d =>
    let p := rq.params
    let first := leAt p 0 2
    let n := leAt p 2 2
    let vs := toWords n (p.drop 4)
    (d.setRegs (aTdi first) vs).okWith rq [])

def execTdiRead (k : ReqKey) (s : State) : Host.Outcome State Fault Refusal :=
  s.next (s.dev.opcodeRow k 0x0A04 anyParams fun rq d =>
    let first := leAt rq.params 0 2
    let n := leAt rq.params 2 2
    d.okWith rq ((List.range n).flatMap fun i => wordBytes (d.reg (aTdi (first + i)))))

/-- LINK_ENABLE with an action, as the bits of `CPL_CTRL` do. -/
def Dev.linkEnable (d : Dev) (rq : Request) (bit' : Nat) : Dev :=
  let n := byteAt rq.params 0
  if (n < 4 && !d.isCoupler n) || (n = 4 && !d.u0.relayEn) then d.fail rq.name stBadParam
    else
    let b := d.cplCtrl n (d.reg (aCplCtrl n) ||| at_ 1 bit')
    b.okWith rq [BitVec.ofNat 8 (b.link n).state.code, 0, 0, 0]

def execLinkEnable (k : ReqKey) (s : State) : Host.Outcome State Fault Refusal :=
  s.next (s.dev.opcodeRow k 0x0A05 (fun p => byteAt p 1 = 0) fun rq d => d.linkEnable rq 0)

def execLinkEnableRetry (k : ReqKey) (s : State) : Host.Outcome State Fault Refusal :=
  s.next (s.dev.opcodeRow k 0x0A05 (fun p => byteAt p 1 = 1) fun rq d => d.linkEnable rq 2)

def execLinkEnableLinkReset (k : ReqKey) (s : State) : Host.Outcome State Fault Refusal :=
  s.next (s.dev.opcodeRow k 0x0A05 (fun p => decide (2 ≤ byteAt p 1)) fun rq d => d.linkEnable rq 1)

def execChainInfo (k : ReqKey) (s : State) : Host.Outcome State Fault Refusal :=
  s.next (s.dev.opcodeRow k 0x0A06 anyParams fun rq d =>
    d.okWith rq ([d.positionByte, 0, 0, 0] ++ (List.range 5).flatMap fun n =>
      wordBytes (d.cplStatus n) ++ wordBytes (d.cplNbr n) ++ leBytes 8 (d.link n).nbrUid.toNat))

/-! ## Statistics (R442) -/

/-- The values of selectors in order; none when one names no value. -/
def Dev.wideValues (d : Dev) : List W32 → Option (List Byte) × Dev
  | [] => (some [], d)
  | x :: t =>
    let r := d.wideValue x
    let rest := r.2.wideValues t
    (match r.1, rest.1 with
     | some ws, some bs => some (wordsBytes ws ++ bs)
     | _, _ => none, rest.2)

def execStatsRead (k : ReqKey) (s : State) : Host.Outcome State Fault Refusal :=
  s.next (s.dev.opcodeRow k 0x0B01 anyParams fun rq d =>
    let p := rq.params
    let n := leAt p 0 2
    let r := d.wideValues (toWords n (p.drop 4))
    match r.1 with
    | none => r.2.fail k stBadParam
    | some bs => r.2.okWith rq bs)

/-- UNSUPPORTED_OPCODE: a packet with a reserved opcode arrives and meets the checks at ingress (R8). The row names no
transport: the packet is taken as one offered on the SPI (DESIGN CHOICE). -/
def execUnsupportedOpcode (packet : List Byte) (s : State) : Host.Outcome State Fault Refusal :=
  s.next (if isOpcode (pkOpcode packet) then s.dev else s.dev.arrive (spiEntry s.straps) packet)

end Sys2Proof.Machine
end

