-- ==== Sys2Proof/Machine/PortOps.lean ====
section
/-! DEFINITION. The opcodes of the Ports group (R427, R428) and of the Power and PD group (R433, R434). -/

namespace Sys2Proof.Machine

open Sys2Proof

/-! ## Ports -/

/-- PORT_RESET on an EMBEDDED root port (R199, R427). 500 ms are 4,000 microframes. -/
def Dev.portResetOp (d : Dev) (k : ReqKey) (n : Nat) : Dev :=
  let p := d.port n
  if p.state = .notPresent || p.state = .disconnected then d.fail k stDetached
  else if p.state = .debounce || p.state = .resetting || p.state = .recovery ||
      (d.binding p.domain).any fun b => b.port ≠ n then d.fail k stBusy
  else
    let t := d.now + 4000
    (d.setReq k fun r => { r with phase := .portReset n t }).enterResetting n

def execPortReset (k : ReqKey) (s : State) : Host.Outcome State Fault Refusal :=
  s.next (s.dev.opcodeRow k 0x0201 anyParams fun rq d =>
    let n := portParam rq.params
    if d.isEmbedded n then d.portResetOp k n else d.fail k stBadParam)

def execPortResetTimeout (k : ReqKey) (s : State) : Host.Outcome State Fault Refusal :=
  s.next (match (s.dev.findReq k).map Request.phase with
    | some (.portReset _ t) => if t ≤ s.dev.now then s.dev.fail k stTimeout else s.dev
    | _ => s.dev)

/-- PORT_DISABLE: ENABLED or SUSPENDED to ERROR (R199). What is on the wire is cut off. -/
def Dev.disablePort (d : Dev) (n : Nat) : Dev :=
  let st := (d.port n).state
  if st = .enabled || st = .suspended then (d.cutXacts n fun _ => true).enterError n else d

def execPortDisable (k : ReqKey) (s : State) : Host.Outcome State Fault Refusal :=
  s.next (s.dev.opcodeRow k 0x0202 anyParams fun rq d =>
    let n := portParam rq.params
    if d.isEmbedded n then (d.disablePort n).okWith rq [] else d.fail k stBadParam)

/-- Nothing behind the port keeps it from being suspended by request (R298). -/
def Dev.maySuspend (d : Dev) (n : Nat) : Bool :=
  (d.port n).state = .enabled && !d.workBehind n (fun _ => true) && !d.subsBehind n fun _ => true

/-- PORT_SUSPEND (R298, R305). A port that is in no state to be suspended gives BUSY (DESIGN CHOICE). -/
def Dev.portSuspendOp (d : Dev) (rq : Request) (n : Nat) : Dev :=
  if (d.port n).state = .suspended then d.okWith rq []
  else if d.isCoupler n then
    if (d.port n).state = .enabled then ((d.relayReset n 10).suspendPort n).okWith rq [] else d.fail rq.name stBusy
  else if d.maySuspend n then (d.suspendPort n).okWith rq []
  else d.fail rq.name stBusy

def execPortSuspend (k : ReqKey) (s : State) : Host.Outcome State Fault Refusal :=
  s.next (s.dev.opcodeRow k 0x0203 anyParams fun rq d =>
    let n := portParam rq.params
    if d.isRoot n then d.portSuspendOp rq n else d.fail k stBadParam)

def execPortResume (k : ReqKey) (s : State) : Host.Outcome State Fault Refusal :=
  s.next (s.dev.opcodeRow k 0x0204 anyParams fun rq d =>
    let n := portParam rq.params
    if !d.isRoot n then d.fail k stBadParam
    else if (d.port n).state = .suspended then (d.setReq k fun r => { r with phase := .portResume n }).resumePort n false
    else d.okWith rq [])

/-- The 24 bytes of PORT_INFO; U0 has no `PORT_EVENT`, `PORT_PWR`, fuse or port level. -/
def Dev.portInfoBytes (d : Dev) (n : Nat) : List Byte :=
  let own (w : W32) : W32 := if n = 32 then 0 else w
  wordBytes (if n = 32 then d.u0Status else d.portStatus n) ++ wordBytes (own (d.reg (aPortEvent n))) ++
    wordBytes (own (d.portPwr n)) ++ wordBytes (d.pdStatus n) ++ wordBytes (own (d.efuseStatus n)) ++
    [if n = 32 then 0 else BitVec.ofNat 8 (d.portLevel n + 8 * b2n (d.isHeld n)), 0, 0, 0]

def execPortInfo (k : ReqKey) (s : State) : Host.Outcome State Fault Refusal :=
  s.next (s.dev.opcodeRow k 0x0205 anyParams fun rq d =>
    let n := portParam rq.params
    d.okWith rq (d.portInfoBytes n))

def execEfuseClear (k : ReqKey) (s : State) : Host.Outcome State Fault Refusal :=
  s.next (s.dev.opcodeRow k 0x0206 (fun p => byteAt p 1 = 0) fun rq d =>
    (d.latchClear (portParam rq.params)).okWith rq [])

def execEfuseClearAbortRetry (k : ReqKey) (s : State) : Host.Outcome State Fault Refusal :=
  s.next (s.dev.opcodeRow k 0x0206 (fun p => byteAt p 1 ≠ 0) fun rq d =>
    (d.abortRetry (portParam rq.params)).okWith rq [])

/-! ## PWR_STATE (R433) -/

/-- The response of PWR_STATE. -/
def Dev.pwrReply (d : Dev) : List Byte := [BitVec.ofNat 8 d.power.state.code, 0, 0, 0]

/-- TARGET ACTIVE: TRIM ends, the idle counts restart, an asked DOZE is withdrawn. -/
def Dev.pwrActive (d : Dev) : Dev :=
  ((d.startWake .hostRequest).leaveTrim).updPower fun p => { p with trimBeats := 0, dozeBeats := 0, hibBeats := 0 }

def execPwrStateActive (k : ReqKey) (s : State) : Host.Outcome State Fault Refusal :=
  s.next (s.dev.opcodeRow k 0x0501 (fun p => byteAt p 0 = 0) fun rq d =>
    let b := d.pwrActive; b.okWith rq b.pwrReply)

/-- R309 as PWR_STATE judges it: without its own tag. Acceptances in the beat are not counted either, since its own was one
(DESIGN CHOICE). -/
def Dev.dozeAllowed (d : Dev) (k : ReqKey) : Bool := (d.dropReq k).mayDozeNow

/-- TARGET DOZE. With OK, DOZE is asked for as the response leaves (`Dev.leaves`). BUSY carries `PWR_STATUS` bits 12:0. -/
def execPwrStateDoze (k : ReqKey) (s : State) : Host.Outcome State Fault Refusal :=
  s.next (s.dev.opcodeRow k 0x0501 (fun p => byteAt p 0 ≠ 0) fun rq d =>
    if d.dozeAllowed k then d.okWith rq d.pwrReply else d.answer k stBusy (leBytes 4 d.powerBlock))

/-! ## PD_INFO and PD_ACTION (R434) -/

/-- The 44 bytes of PD_INFO. -/
def Dev.pdInfoBytes (d : Dev) (n : Nat) : List Byte :=
  wordsBytes ([d.pdStatus n, d.pdContract n, d.pdCable n, d.reg (aPdEvent n)] ++
    (List.range 7).map fun i => d.reg (aPartnerPdo n i))

def execPdInfo (k : ReqKey) (s : State) : Host.Outcome State Fault Refusal :=
  s.next (s.dev.opcodeRow k 0x0502 anyParams fun rq d =>
    let n := portParam rq.params
    d.okWith rq (d.pdInfoBytes n))

/-- The engine must wait for the end of its sequence before it can send this action's message. -/
def Dev.pdMustWait (d : Dev) (n act : Nat) : Bool :=
  (act = 5 || act = 6) && d.pdTalks n && (d.eng n).ams ≠ .idle

/-- A PD_ACTION: on an Unattached port it ends with DETACHED; on a port whose role cannot take it, with BAD_PARAM; where no
message can be sent, with TIMEOUT (DEDUCED); else it waits for the end of what the matching `PD_CTRL` bit does. -/
def Dev.pdAction (d : Dev) (k : ReqKey) (n act : Nat) : Dev :=
  if d.tcUnattached n then d.fail k stDetached
  else if !d.actionFits n act then d.fail k stBadParam
  else if act ≠ 7 && !d.pdTalks n then d.fail k stTimeout
  else (d.setReq k fun r => { r with phase := .pdAction n act }).pdAct n act

/-- The row of PD_ACTION with an action. A REQUEST or GET_SNK_CAP that meets a sequence in progress has not started yet. -/
def Dev.pdActionRow (d : Dev) (k : ReqKey) (act : Nat) (mine : List Byte → Bool) : Dev :=
  d.opcodeRow k 0x0503 mine fun rq d =>
    let n := portParam rq.params
    if d.actionFits n act && d.pdMustWait n act then d else d.pdAction k n act

/-- The request's ACTION byte. -/
def actionIs (act : Nat) (p : List Byte) : Bool := byteAt p 1 = act

def execPdActionPrSwap (k : ReqKey) (s : State) : Host.Outcome State Fault Refusal :=
  s.next (s.dev.pdActionRow k 0 (actionIs 0))

def execPdActionDrSwap (k : ReqKey) (s : State) : Host.Outcome State Fault Refusal :=
  s.next (s.dev.pdActionRow k 1 (actionIs 1))

def execPdActionSoftReset (k : ReqKey) (s : State) : Host.Outcome State Fault Refusal :=
  s.next (s.dev.pdActionRow k 2 (actionIs 2))

def execPdActionHardReset (k : ReqKey) (s : State) : Host.Outcome State Fault Refusal :=
  s.seen (s.dev.pdActionRow k 3 (actionIs 3))

def execPdActionSrcCap (k : ReqKey) (s : State) : Host.Outcome State Fault Refusal :=
  s.next (s.dev.pdActionRow k 4 (actionIs 4))

def execPdActionRequest (k : ReqKey) (s : State) : Host.Outcome State Fault Refusal :=
  s.next (s.dev.pdActionRow k 5 (actionIs 5))

def execPdActionGetSnkCap (k : ReqKey) (s : State) : Host.Outcome State Fault Refusal :=
  s.next (s.dev.pdActionRow k 6 (actionIs 6))

def execPdActionErrorRecovery (k : ReqKey) (s : State) : Host.Outcome State Fault Refusal :=
  s.seen (s.dev.pdActionRow k 7 (actionIs 7))

end Sys2Proof.Machine
end

