-- ==== Sys2Proof/Machine/HostOps.lean ====
section
/-! DEFINITION. The opcodes of the Transfers group (R203, R429 to R431) and of the Periodic group (R227 to R241, R432). -/

namespace Sys2Proof.Machine

open Sys2Proof

/-! ## The target block and the device (R194, R418) -/

/-- The endpoint 0 context of the device, while it is attached (R197). -/
def Dev.attached (d : Dev) (rq : Request) : Option Nat :=
  match d.ep0 rq.dom rq.addr with
  | some c => if (d.ctx c).state = 1 then some c else none
  | none => none

/-- The requester may use the context: it owns it, or it is endpoint 0 (R194). -/
def Dev.mayUse (d : Dev) (rq : Request) (c : Nat) : Bool :=
  (d.ctx c).ep = 0 || ((d.ctx c).owned && (d.ctx c).owner = rq.sub.toNat)

/-- The status with which a context's state refuses a transfer (R193). -/
def ctxStatus (state : Nat) : Option Nat :=
  match state with
  | 1 => none
  | 2 => some stStalled
  | 3 => some stToggleUnsure
  | 4 => some stTimeout
  | _ => some stResetAborted

/-- Work has arrived for a device: its port resumes, its subtree resumes (R299, R301). -/
def Dev.workFor (d : Dev) (c : Nat) : Dev := (d.resumePort (d.ctx c).port false).wakeBelow c

/-- Non-periodic work has arrived: the link leaves L1, U1 or U2 as well (R296, R297). -/
def Dev.transferFor (d : Dev) (c : Nat) : Dev :=
  let n := (d.ctx c).port
  ((d.workFor c).l1Exit n).u1u2Exit n

/-! ## Queueing a transfer (R203) -/

/-- Links the OUT data of a transfer as packet records of the context's queue, the first with a PID toggle. None when the class
has no room, or the queue cannot take them. -/
def Dev.linkOut (d : Dev) (c : Nat) (poison : Bool) (toggle : Nat) : List (List Byte) → Option Dev
  | [] => some d
  | x :: t =>
    if !d.canClaim (d.ctxClass c) (d.segsFor (epQueue c) (recCells x.length)) then none
    else match d.enqueue rqMill (epQueue c) ⟨0, poison, t.isEmpty, (d.ctx c).qslot * 2 + toggle % 2, x⟩ with
      | none => none
      | some d1 => d1.linkOut c poison (toggle + 1) t

/-- The toggle with which data linked now will leave: DATA1 in a control transfer (R211), else that of the context after the packets
which wait. -/
def Dev.nextToggle (d : Dev) (t : Transfer) : Nat :=
  if t.control then 1 else (d.ctx t.ctx).seq + (d.queue (epQueue t.ctx)).stamps.length

/-- OUT data cut into packets. -/
def packets (mps : Nat) (data : List Byte) : List (List Byte) :=
  if data.isEmpty then [] else cut (max mps 1) (data.length / max mps 1) data

/-- Takes the transfer up: its status record is claimed, its data is linked, and it waits behind those before it. A queue that is
being reset takes none (R157). -/
def Dev.startTransfer (d : Dev) (rq : Request) (t : Transfer) (data : List Byte) : Dev :=
  let c := t.ctx
  let d0 := d.openEpQueue c
  if (d0.queue (epQueue c)).state ≠ .active then d.fail rq.name stBusy
  else match d0.takeClaim (d0.ctxClass c) (b2n t.statusClaim) with
  | none => d.fail rq.name stBusy
  | some d1 =>
    match d1.linkOut c rq.poison (d0.nextToggle t) (packets (d.ctx c).mps data) with
    | none => d.fail rq.name stBusy
    | some d2 =>
      ((({ d2 with transfers := d2.transfers ++ [t] }).setReq rq.name fun r => { r with phase := .transfer }).headFence
        c).transferFor c

/-- TIMEOUT of a transfer; 0 asks for the default (R204). -/
def timeoutOf (control : Bool) (n : Nat) : Nat := if n = 0 then defaultTimeout control else n

/-! ## CONTROL_XFER (R189, R429) -/

/-- The context's route is the binding's. -/
def sameRoute (b : Binding) (x : Ctx) : Bool :=
  x.port = b.port && x.speed = b.speed && x.parentHub = b.parentHub && x.parentPort = b.parentPort && x.ttValid = b.ttValid &&
    x.ttMulti = b.ttMulti && x.ttHub = b.ttHub && x.ttPort = b.ttPort && x.route = b.route

/-- The checks of SET_ADDRESS before its SETUP (R189). -/
def Dev.addressOk (d : Dev) (rq : Request) (s : Setup) : Bool :=
  let a := s.wValue.toNat
  rq.addr = 0 && decide (1 ≤ a ∧ a ≤ 127) &&
    (match d.binding rq.dom with
     | none => false
     | some b => (d.ctxsWhere fun x => x.domain = rq.dom && x.addr = a && !x.cpl).all fun c =>
         (d.ctx c).state = 5 && sameRoute b (d.ctx c))

/-- CONTROL_XFER on endpoint 0 context c. A SET_ADDRESS claims the context of its new address (R189). -/
def Dev.controlOp (d : Dev) (rq : Request) (c : Nat) : Dev :=
  let p := rq.params
  let s := setupAt p 8
  let n := s.wLength.toNat
  let isIn := setupIn s
  let t := newTransfer (.request rq.name) c true s (if isIn then 0 else n) (if isIn then n else 0)
    (timeoutOf true (leAt p 4 4)) false
  if setsAddress s then
    if !d.addressOk rq s then d.fail rq.name stBadParam
    else match d.freeCtx rq.dom with
      | none => d.fail rq.name stNoResource
      | some k => d.startTransfer rq { t with claimed := some k } (p.drop 16)
  else d.startTransfer rq t (if isIn then [] else p.drop 16)

/-- An error layout with nothing done. -/
def controlNothing : List Byte := zeros 4

def execControlXfer (k : ReqKey) (s : State) : Host.Outcome State Fault Refusal :=
  s.next (s.dev.opcodeRow k 0x0301 anyParams fun rq d =>
    match d.attached rq with
    | none => d.answer k stDetached controlNothing
    | some c => d.controlOp rq c)

/-! ## BULK_OUT and BULK_IN (R430) -/

/-- The bulk context of a request: its type and direction, then its owner, then its state. -/
def Dev.bulkCtx (d : Dev) (rq : Request) (isIn : Bool) : Except Nat Nat :=
  match d.attached rq, d.target rq with
  | none, _ => .error stDetached
  | some _, none => .error stBadParam
  | some _, some c =>
    let x := d.ctx c
    if x.type ≠ 2 || x.dirIn ≠ isIn || rq.dirIn ≠ isIn then .error stBadParam
    else if !d.mayUse rq c then .error stNotPermitted
    else match ctxStatus x.state with
      | some st => .error st
      | none => .ok c

/-- BULK_OUT on context c. Without data and without a zero-length packet there is nothing to send. -/
def Dev.bulkOutOp (d : Dev) (rq : Request) (c : Nat) : Dev :=
  let p := rq.params
  let data := p.drop 12
  let zlp := leAt p 8 2 = 1
  if data.isEmpty && !zlp then d.okWith rq (zeros 4)
  else d.startTransfer rq (newTransfer (.request rq.name) c false (setupAt [] 0) data.length 0 (timeoutOf false (leAt p 4 4)) zlp) data

def execBulkOut (k : ReqKey) (s : State) : Host.Outcome State Fault Refusal :=
  s.next (s.dev.opcodeRow k 0x0302 anyParams fun rq d =>
    match d.bulkCtx rq false with
    | .error st => d.fail k st
    | .ok c => d.bulkOutOp rq c)

/-- BULK_IN on context c. -/
def Dev.bulkInOp (d : Dev) (rq : Request) (c : Nat) : Dev :=
  let p := rq.params
  d.startTransfer rq (newTransfer (.request rq.name) c false (setupAt [] 0) 0 (leAt p 8 4) (timeoutOf false (leAt p 4 4)) false) []

def execBulkIn (k : ReqKey) (s : State) : Host.Outcome State Fault Refusal :=
  s.next (s.dev.opcodeRow k 0x0303 anyParams fun rq d =>
    match d.bulkCtx rq true with
    | .error st => d.fail k st
    | .ok c => d.bulkInOp rq c)

/-! ## ENDPOINT_OPEN (R186, R188, R194, R431) -/

/-- Largest wMaxPacketSize that USB 2.0 and USB 3.2 permit for a type and a speed (PRESUMED: their tables). -/
def mpsLimit (type speed : Nat) : Nat :=
  match type with
  | 0 => [8, 64, 64, 512].getD speed 0
  | 2 => [0, 64, 512, 1024].getD speed 0
  | _ => [8, 64, 1024, 1024].getD speed 0

/-- Largest SuperSpeed bMaxBurst for a type (PRESUMED: USB 3.2). -/
def burstLimit (type speed : Nat) : Nat := if speed ≠ 3 then 0 else match type with | 0 => 0 | 2 => 15 | _ => 2

/-- bInterval of an interrupt endpoint: 1 to 16 from high speed on, 1 to 255 below (PRESUMED: USB 2.0 and 3.2). -/
def intervalOk (type speed b : Nat) : Bool :=
  if type ≠ 3 then b = 0 else decide (1 ≤ b) && (speed < 2 || decide (b ≤ 16))

/-- INTERVAL of R192. -/
def intervalOf (type speed b : Nat) : Nat :=
  if type ≠ 3 then 0
  else if 2 ≤ speed then b - 1
  else (8 * b).log2

/-- The limits of a speed (R194). -/
def OpenParams.fits (o : OpenParams) (speed : Nat) : Bool :=
  decide (o.mps ≤ mpsLimit o.type speed) && decide (o.mult ≤ if speed = 2 ∧ o.type = 3 then 2 else 0) &&
    decide (o.burst ≤ burstLimit o.type speed) && intervalOk o.type speed o.bInterval

/-- CTX of the response. -/
def ctxBytes (c : Nat) : List Byte := leBytes 2 c ++ zeros 2

/-- Endpoint 0 at ADDR 0: the binding (R188). The route names a port of the domain and a hub whose endpoint 0 is OPEN. -/
def Dev.openBinding (d : Dev) (rq : Request) (o : OpenParams) : Dev :=
  let r := o.route
  let hub := match d.ep0 rq.dom r.parentHub with | some h => (d.ctx h).state = 1 && r.parentHub ≠ 0 | none => false
  if (d.binding rq.dom).isSome then d.fail rq.name stBusy
  else if !d.isEmbedded r.port || (d.port r.port).domain ≠ rq.dom || !hub || !o.fits r.speed then d.fail rq.name stBadParam
  else if d.reamCount rq.dom = 0 then d.fail rq.name stNoResource
  else
    let d1 := d.bind rq.dom r
    (d1.workFor (d1.reamBase rq.dom)).okWith rq (ctxBytes (d1.reamBase rq.dom))

/-- The context of a new endpoint of the device whose endpoint 0 is x. -/
def newCtx (x : Ctx) (rq : Request) (o : OpenParams) (c : Nat) : Ctx :=
  { Ctx.reset with
    state := 1, type := o.type, dirIn := rq.dirIn && o.type ≠ 0, ep := rq.ep, domain := x.domain, speed := x.speed, addr := x.addr
    port := x.port, intf := o.intf, interval := intervalOf o.type x.speed o.bInterval, mult := o.mult, burst := o.burst
    mps := o.mps, ttValid := x.ttValid, parentHub := x.parentHub, ttMulti := x.ttMulti, parentPort := x.parentPort
    ttHub := x.ttHub, ttPort := x.ttPort, route := x.route, queue := epQueue c, owned := true, owner := rq.sub.toNat }

/-- ENDPOINT_OPEN on the device whose endpoint 0 context is c0. -/
def Dev.openOp (d : Dev) (rq : Request) (o : OpenParams) (c0 : Nat) : Dev :=
  let x := d.ctx c0
  if !o.fits x.speed then d.fail rq.name stBadParam
  else if rq.ep = 0 then
    ((d.updCtx c0 fun y => { y with mps := o.mps }).workFor c0).okWith rq (ctxBytes c0)
  else if (d.epCtx rq.dom rq.addr rq.ep (rq.dirIn && o.type ≠ 0)).isSome then d.fail rq.name stBadParam
  else match d.freeCtx rq.dom with
    | none => d.fail rq.name stNoResource
    | some c => ((d.setCtx c (newCtx x rq o c)).workFor c).okWith rq (ctxBytes c)

def execEndpointOpen (k : ReqKey) (s : State) : Host.Outcome State Fault Refusal :=
  s.next (s.dev.opcodeRow k 0x0304 anyParams fun rq d =>
    let o := openParams rq.params
    if o.type = 1 then d.fail k stUnsupported
    else if rq.ep = 0 && rq.addr = 0 then d.openBinding rq o
    else match d.attached rq with
      | none => d.fail k (if (d.ep0 rq.dom rq.addr).isSome then stDetached else stBadParam)
      | some c0 => d.openOp rq o c0)

/-! ## ENDPOINT_CLOSE (R195) -/

/-- Closes contexts: at once where no transaction is in progress, else as it ends. The request ends with the last. -/
def Dev.closeAll (d : Dev) (k : ReqKey) (cs : List Nat) : Dev :=
  forEach cs (fun c a => if a.onWire c then a else a.closeCtx c) (d.setReq k fun r => { r with phase := .closing cs })

/-- The row ends with SCOPE 0. -/
def execEndpointClose (k : ReqKey) (s : State) : Host.Outcome State Fault Refusal :=
  s.next (s.dev.opcodeRow k 0x0305 (fun p => byteAt p 4 = 0) fun rq d =>
    match d.attached rq, d.target rq with
    | none, _ => d.fail k stDetached
    | some _, none => d.fail k stBadParam
    | some _, some c => if d.mayUse rq c then d.closeAll k [c] else d.fail k stNotPermitted)

/-- Every context of the device (R195). -/
def Dev.deviceCtxs (d : Dev) (rq : Request) : List Nat :=
  d.ctxsWhere fun x => x.domain = rq.dom && x.addr = rq.addr && !x.cpl

def execEndpointCloseDevice (k : ReqKey) (s : State) : Host.Outcome State Fault Refusal :=
  s.next (s.dev.opcodeRow k 0x0305 (fun p => byteAt p 4 ≠ 0) fun rq d =>
    match d.attached rq with
    | none => d.fail k stDetached
    | some _ => d.closeAll k (d.deviceCtxs rq))

/-! ## SUBSCRIBE (R227 to R231, R236 to R241, R432) -/

/-- The status with which context c refuses a subscription (R228 to R230); none when it may be admitted. -/
def Dev.subRefusal (d : Dev) (rq : Request) (x : SubParams) (c : Nat) : Option Nat :=
  let y := d.ctx c
  let sub := d.subscription c
  let out := !y.dirIn
  if y.type ≠ 3 || (sub.any fun s => !s.ended) || (out && x.delivery ≠ 0) || (!out && x.outMode ≠ 0) ||
      (x.delivery = 1 && x.mask.length ≠ y.mps) then some stBadParam
  else if sub.isSome then some stBusy
  else if !d.mayUse rq c then some stNotPermitted
  else if y.state = 2 then some stStalled
  else if y.state = 4 then some stTimeout
  else if y.state = 5 then some stResetAborted
  else if x.unit = 0 && (decide (x.period < y.interval) || (decide (y.speed < 2) && decide (x.period < 3))) then some stBadParam
  else if x.delivery = 1 && (decide (64 < y.payload) || y.mult ≠ 0 || y.burst ≠ 0) then some stBadParam
  else if 1024 < y.payload then some stBadParam
  else none

/-- The order of admission on a port (R238). -/
def Dev.nextOrder (d : Dev) (n : Nat) : Nat := (d.portSubs n).foldl (fun m cs => max m cs.2.order) 0 + 1

/-- A subscription as it is admitted. -/
def newSubscription (rq : Request) (x : SubParams) (isOut : Bool) (phase mf slot : Nat) (tokens : List Token) (order : Nat)
    (place : List (Nat × Nat)) : Subscription :=
  { owner := rq.sub, delivery := x.delivery, cls := x.cls, unitBeats := x.unit = 1, period := x.period, phase := phase, mf := mf
    slot := slot, mask := x.mask, heartbeat := x.heartbeat, maxChg := x.maxChg, outRepeat := x.outMode = 1, isOut := isOut
    tokens := tokens, order := order, place := place, sheetLen := 0, empty := true, sheetPoison := false, updBeat := 0, updMf := 0, updSlot := 0
    pending := false, written := false, acked := false, gap := false, quietBeats := 0, beatDone := false, answered := 0
    entries := 0, nIssued := 0, nData := 0, nNak := 0, nSkipped := 0, ended := false }

/-- The 8 bytes with NO_BUDGET (R241). -/
def Dev.noBudgetBytes (d : Dev) (c order : Nat) (refused : Option Refused) : List Byte :=
  leBytes 4 (d.maxLoad (d.ctx c).port) ++
    [BitVec.ofNat 8 (match refused with | some r => d.latestSlot c order r | none => 255)] ++ zeros 3

/-- The 16 bytes with OK. -/
def Dev.subscribedBytes (d : Dev) (c : Nat) (s : Subscription) : List Byte :=
  leBytes 2 c ++ leBytes 2 s.phase ++ leBytes 2 s.mf ++ [BitVec.ofNat 8 s.slot, 0] ++ leBytes 4 (d.plannedStart c s) ++
    leBytes 4 (d.maxLoad (d.ctx c).port)

/-- Admission on context c: the placement, then the sheet. -/
def Dev.admitSub (d : Dev) (rq : Request) (x : SubParams) (c : Nat) : Dev :=
  let y := d.ctx c
  let order := d.nextOrder y.port
  let opt (v a : Nat) : Option Nat := if v = a then none else some v
  match d.place c order (x.unit = 1) x.period (opt x.phase auto16) (opt x.mf auto16) (opt x.slot 8) with
  | .error refused => d.answer rq.name stNoBudget (d.noBudgetBytes c order refused)
  | .ok (phase, mf, slot, tokens) =>
    match d.claimSheet x.cls y.payload with
    | none => d.fail rq.name stNoResource
    | some (place, d1) =>
      let s := newSubscription rq x (!y.dirIn) phase mf slot tokens order place
      let d2 := (d1.setSubscription c (some s)).workFor c
      d2.okWith rq (d2.subscribedBytes c s)

def execSubscribe (k : ReqKey) (s : State) : Host.Outcome State Fault Refusal :=
  s.next (s.dev.opcodeRow k 0x0401 anyParams fun rq d =>
    let x := subParams rq.params
    match d.attached rq, d.target rq with
    | none, _ => d.fail k stDetached
    | some _, none => d.fail k stBadParam
    | some _, some c =>
      match d.subRefusal rq x c with
      | some st => d.fail k st
      | none => d.admitSub rq x c)

/-! ## UNSUBSCRIBE, SHEET_READ and PERIODIC_WRITE (R232, R235, R251) -/

/-- The context and the subscription that a request names: subscribed, and the requester's. -/
def Dev.subscribed (d : Dev) (rq : Request) : Except Nat (Nat × Subscription) :=
  match d.attached rq, d.target rq with
  | none, _ => .error stDetached
  | some _, none => .error stBadParam
  | some _, some c =>
    if !d.mayUse rq c then .error stNotPermitted
    else match d.subscription c with
      | none => .error stBadParam
      | some s => if s.ended then .error stBadParam else .ok (c, s)

def execUnsubscribe (k : ReqKey) (s : State) : Host.Outcome State Fault Refusal :=
  s.next (s.dev.opcodeRow k 0x0402 anyParams fun rq d =>
    match d.subscribed rq with
    | .error st => d.fail k st
    | .ok (c, _) => (d.endSubscription c none).okWith rq [])

/-- The response of SHEET_READ with the sheet's bytes. -/
def Subscription.sheetBytes (s : Subscription) (v : List Byte) : List Byte :=
  leBytes 6 s.updBeat.toNat ++ leBytes 2 s.updMf ++ [BitVec.ofNat 8 s.updSlot, BitVec.ofNat 8 (b2n s.empty)] ++
    leBytes 2 v.length ++ v

def execSheetRead (k : ReqKey) (s : State) : Host.Outcome State Fault Refusal :=
  s.next (s.dev.opcodeRow k 0x0403 anyParams fun rq d =>
    match d.subscribed rq with
    | .error st => d.fail k st
    | .ok (_, x) =>
      let r := d.readSheet rqMill false x.place x.sheetLen
      if x.sheetPoison || r.2.1 then r.2.2.fail k stPoisoned else r.2.2.okWith rq (x.sheetBytes r.1)).vatAlarms

/-- PERIODIC_WRITE on subscription c: the sheet takes the value whole. -/
def Dev.sheetWritten (d : Dev) (c : Nat) (x : Subscription) (v : List Byte) (poison : Bool) : Dev :=
  (d.writeSheet rqMill x.place v).updSub c fun s =>
    { s with
      sheetLen := v.length, empty := false, sheetPoison := poison, pending := true, written := true, acked := false
      updBeat := d.deckle.beat, updMf := d.deckle.mf, updSlot := d.deckle.slot }

def execPeriodicWrite (k : ReqKey) (s : State) : Host.Outcome State Fault Refusal :=
  s.next (s.dev.opcodeRow k 0x0404 anyParams fun rq d =>
    let v := rq.params.drop 4
    match d.subscribed rq with
    | .error st => d.fail k st
    | .ok (c, x) =>
      if !x.isOut || decide ((d.ctx c).payload < v.length) then d.fail k stBadParam
      else (d.sheetWritten c x v rq.poison).okWith rq [])

end Sys2Proof.Machine
end

