-- ==== Sys2Proof/Machine/UsbDevice.lean ====
section
/-! DEFINITION. U0 and the coupler ports acting as UFP as an external host sees them (R98, R214, R219 to R225, R304): bus
resets, suspend and resume, control requests to the hub function and the function device, the hub's ports and transaction
translators. The requests and descriptors are those of USB 2.0 chapters 9 and 11 and USB 3.2 (PRESUMED) with the values of
R220 and R225; what neither gives is an opaque byte of Config. Boundary scan (R46). -/

namespace Sys2Proof.Machine

open Sys2Proof

/-! ## Descriptors (R220, R225) -/

/-- A device as the external host enumerates it. -/
inductive UsbKind where
  | hub2
  | hub3
  /-- the function device at a speed: 1 full, 2 high, 3 SuperSpeed; with interface 1 or without -/
  | function (speed : Nat) (relay : Bool)
  deriving DecidableEq, Repr

/-- Number of a device in `Config.descByte` and `Config.descriptor`. -/
def UsbKind.code : UsbKind → Nat
  | .hub2 => 0
  | .hub3 => 1
  | .function v _ => 1 + v

/-- An open byte: of the device descriptor (0), of the configuration (1), of its interfaces (2), of its endpoints (3), of the
hub descriptor (4). -/
def UsbKind.free (k : UsbKind) (part i : Nat) : Byte := Config.descByte k.code (part * 256 + i)

def UsbKind.isHub : UsbKind → Bool
  | .function _ _ => false
  | _ => true

/-- A device on a SuperSpeed bus. -/
def UsbKind.superSpeed (k : UsbKind) : Bool :=
  match k with
  | .hub2 => false
  | .hub3 => true
  | .function v _ => v = 3

/-- bDeviceProtocol of the hub; the rest of the class is open for the function device. -/
def UsbKind.deviceClass (k : UsbKind) : List Byte :=
  match k with
  | .hub2 => [9, 0, 2]
  | .hub3 => [9, 0, 3]
  | .function _ _ => [k.free 0 4, k.free 0 5, k.free 0 6]

/-- bMaxPacketSize0; at full speed the spec gives none. -/
def UsbKind.mps0Byte (k : UsbKind) : Byte :=
  match k with
  | .hub2 => 64
  | .hub3 => 9
  | .function v _ => if v = 3 then 9 else if v = 2 then 64 else k.free 0 7

/-- `USB_PID_HUB` or `USB_PID_FUNC`. -/
def Dev.usbPid (d : Dev) (k : UsbKind) : Nat := if k.isHub then bits (d.qword 0x050) 16 16 else bits (d.qword 0x051) 0 16

def Dev.deviceDescriptor (d : Dev) (k : UsbKind) : List Byte :=
  [18, 1, k.free 0 2, k.free 0 3] ++ k.deviceClass ++ [k.mps0Byte] ++ leBytes 2 (bits (d.qword 0x050) 0 16) ++
    leBytes 2 (d.usbPid k) ++ [k.free 0 12, k.free 0 13, k.free 0 14, k.free 0 15, k.free 0 16, 1]

/-- Endpoint descriptor, with its SuperSpeed companion: address, type, MPS, bInterval, bMaxBurst. -/
def UsbKind.endpoint (k : UsbKind) (addr type mps : Nat) (interval : Byte) (burst : Nat) : List Byte :=
  ([7, 5, addr, type].map (BitVec.ofNat 8)) ++ leBytes 2 mps ++ [interval] ++
    (match k with
     | .hub2 => []
     | .hub3 => [6, 0x30, BitVec.ofNat 8 burst, k.free 3 (4 * addr + 1), k.free 3 (4 * addr + 2), k.free 3 (4 * addr + 3)]
     | .function v _ =>
       if v = 3 then [6, 0x30, BitVec.ofNat 8 burst, k.free 3 (4 * addr + 1), k.free 3 (4 * addr + 2), k.free 3 (4 * addr + 3)]
       else [])

/-- A bulk endpoint of the function device (R225); the full-speed MPS and bInterval are open. -/
def UsbKind.bulk (k : UsbKind) (speed addr : Nat) : List Byte :=
  let mps := if speed = 3 then 1024 else if speed = 2 then 512 else (k.free 3 (4 * addr + 2)).toNat
  k.endpoint addr 2 mps (k.free 3 (4 * addr)) 3

def UsbKind.intf (k : UsbKind) (n alt eps cls sub proto : Nat) : List Byte :=
  ([9, 4, n, alt, eps, cls, sub, proto].map (BitVec.ofNat 8)) ++ [k.free 2 (2 * n + alt)]

/-- What follows the configuration descriptor, and the interfaces. -/
def UsbKind.configBody (k : UsbKind) : List Byte × Nat :=
  let status (k : UsbKind) : List Byte := k.endpoint 0x81 3 ((k.free 3 (4 * 0x81 + 2)).toNat) (k.free 3 (4 * 0x81)) 0
  match k with
  | .hub2 => (k.intf 0 0 1 9 0 1 ++ status k ++ k.intf 0 1 1 9 0 2 ++ status k, 1)
  | .hub3 => (k.intf 0 0 1 9 0 0 ++ status k, 1)
  | .function v relay =>
    let mgmt := k.intf 0 0 2 0xFF 0 1 ++ k.bulk v 0x01 ++ k.bulk v 0x81
    let rel := k.intf 1 0 5 0xFF 0 2 ++ k.bulk v 0x02 ++ k.bulk v 0x82 ++ k.bulk v 0x03 ++ k.bulk v 0x83 ++
      k.endpoint 0x84 3 64 16 0
    if relay then (mgmt ++ rel, 2) else (mgmt, 1)

/-- bmAttributes: remote wake is supported (R304); the hub is self-powered, the function device's bit is open. -/
def UsbKind.attributes (k : UsbKind) : Byte := if k.isHub then 0xE0 else 0xA0 ||| (k.free 1 7 &&& 0x40)

def UsbKind.configDescriptor (k : UsbKind) : List Byte :=
  let b := k.configBody
  [9, 2] ++ leBytes 2 (9 + b.1.length) ++ [BitVec.ofNat 8 b.2, 1, k.free 1 6, k.attributes, k.free 1 8] ++ b.1

/-- The hub descriptor: bNbrPorts, wHubCharacteristics and DeviceRemovable are R220's. -/
def UsbKind.hubDescriptor (k : UsbKind) : List Byte :=
  match k with
  | .hub3 => [12, 0x2A, 15, 0x0E, 0, k.free 4 5, k.free 4 6, k.free 4 7, k.free 4 8, k.free 4 9, 0, 0]
  | _ => [13, 0x29, 16, 0x0E, 0, k.free 4 5, k.free 4 6, 0, 0, 1, 0xFF, 0xFF, 0xFF]

/-- The serial number as UTF-16: `USB_SERIAL` up to its padding. -/
def Dev.serialDescriptor (d : Dev) : List Byte :=
  let chars := ((List.range 8).flatMap fun i => wordBytes (d.qword (0x058 + i))).takeWhile (· ≠ 0)
  [BitVec.ofNat 8 (2 + 2 * chars.length), 3] ++ chars.flatMap fun c => [c, 0]

/-- GET_DESCRIPTOR: type and index in wValue. -/
def Dev.descriptorOf (d : Dev) (k : UsbKind) (type index : Nat) : List Byte :=
  if type = 1 then d.deviceDescriptor k
  else if type = 2 then (if index = 0 then k.configDescriptor else [])
  else if type = 3 && index ≠ 0 && index = (k.free 0 16).toNat then d.serialDescriptor
  else Config.descriptor k.code type index

/-! ## Standard requests -/

/-- Endpoint addresses of the configuration. -/
def UsbKind.endpoints : UsbKind → List Nat
  | .function _ relay => [0x01, 0x81] ++ (if relay then [0x02, 0x82, 0x03, 0x83, 0x84] else [])
  | _ => [0x81]

/-- The endpoints of an interface. -/
def UsbKind.endpointsOf (k : UsbKind) (intf : Nat) : List Nat :=
  match k with
  | .function _ _ => k.endpoints.filter fun a => decide ((intf = 0) = (a % 16 = 1))
  | _ => k.endpoints

/-- A data reply of at most wLength bytes; no data is a STALL. -/
def dataReply (s : Setup) (l : List Byte) : UsbReply := if l.isEmpty then .stall else .data (l.take s.wLength.toNat)

def wordReply (s : Setup) (n : Nat) : UsbReply := .data ((leBytes 2 n).take s.wLength.toNat)

/-- The standard requests that write: the reply and the device after it. LTM_ENABLE is an option that the spec lists nowhere (R1):
it draws STALL. -/
def stdWrite (k : UsbKind) (f : UsbFunction) (s : Setup) : UsbReply × UsbFunction :=
  let r := s.bmRequestType.toNat
  let q := s.bRequest.toNat
  let v := s.wValue.toNat
  let ep := s.wIndex.toNat % 256
  let known := k.endpoints.contains ep
  if r = 0 ∧ q = 5 then (if v < 128 then (.ack, { f with addr := v }) else (.stall, f))
  else if r = 0 ∧ q = 9 then
    if v % 256 ≤ 1 then (.ack, { f with config := v % 256, u1Enable := false, u2Enable := false, halted := [], toggles := [], busReset := f.busReset && v % 256 ≠ 1 }) else (.stall, f)
  else if r = 0 ∧ (q = 1 ∨ q = 3) ∧ v = 1 ∧ !k.superSpeed then (.ack, { f with remoteWake := q = 3 })
  else if r = 0 ∧ (q = 1 ∨ q = 3) ∧ v = 48 ∧ k.superSpeed ∧ f.config = 1 then (.ack, { f with u1Enable := q = 3 })
  else if r = 0 ∧ (q = 1 ∨ q = 3) ∧ v = 49 ∧ k.superSpeed ∧ f.config = 1 then (.ack, { f with u2Enable := q = 3 })
  else if r = 0 ∧ (q = 0x30 ∨ q = 0x31) ∧ k.superSpeed then (.ack, f)
  else if r = 1 ∧ (q = 1 ∨ q = 3) ∧ v = 0 ∧ k.superSpeed then (.ack, { f with remoteWake := q = 3 && bit s.wIndex 9 })
  else if r = 1 ∧ q = 11 then
    let es := k.endpointsOf (s.wIndex.toNat % 256)
    if (v = 0 ∨ (v = 1 ∧ k = .hub2)) ∧ !es.isEmpty then
      (.ack, { f with halted := f.halted.filter fun e => !es.contains e, toggles := f.toggles.filter fun t => !es.contains t.1 })
    else (.stall, f)
  else if r = 2 ∧ q = 3 ∧ v = 0 ∧ known then (.ack, { f with halted := ep :: f.halted.filter (· ≠ ep) })
  else if r = 2 ∧ q = 1 ∧ v = 0 ∧ known then
    (.ack, { f with halted := f.halted.filter (· ≠ ep), toggles := f.toggles.filter fun t => t.1 ≠ ep })
  else (.stall, f)

/-- The standard requests that read. -/
def Dev.stdRead (d : Dev) (k : UsbKind) (f : UsbFunction) (s : Setup) : UsbReply :=
  let r := s.bmRequestType.toNat
  let q := s.bRequest.toNat
  let v := s.wValue.toNat
  let ep := s.wIndex.toNat % 256
  if r = 0x80 ∧ q = 6 then dataReply s (d.descriptorOf k (v / 256) (v % 256))
  else if r = 0x80 ∧ q = 8 then dataReply s [BitVec.ofNat 8 f.config]
  else if r = 0x80 ∧ q = 0 then wordReply s (b2n (bit k.attributes 6) +
    (if k.superSpeed then 4 * b2n f.u1Enable + 8 * b2n f.u2Enable else 2 * b2n f.remoteWake))
  else if r = 0x81 ∧ q = 0 then wordReply s (if k.superSpeed then 1 + 2 * b2n f.remoteWake else 0)
  else if r = 0x81 ∧ q = 10 then dataReply s [0]
  else if r = 0x82 ∧ q = 0 ∧ (ep % 128 = 0 ∨ k.endpoints.contains ep) then wordReply s (b2n (f.halted.contains ep))
  else .stall

/-- A standard request: bmRequestType bits 6:5 are 0. -/
def Dev.stdRequest (d : Dev) (k : UsbKind) (f : UsbFunction) (s : Setup) : UsbFunction :=
  if bit s.bmRequestType 7 then { f with reply := d.stdRead k f s }
  else
    let w := stdWrite k f s
    { w.2 with reply := w.1 }

/-! ## The function device -/

/-- SET_CONFIGURATION 1 ends the enumeration of the relay link that the function device carries (R275, R291). -/
def Dev.configuredLink (d : Dev) (l : Nat) : Dev :=
  if (d.func l).config = 1 && (d.link l).state = .enumerating && (d.link l).ufp then d.enterHello l else d

/-- Where a response that waited through a bus reset goes instead: the route of its subscriber, where that is now on
another transport, over an output that exists, and carries the packet whole (R98). -/
def Dev.movedRoute (d : Dev) (p : List Byte) : Option Route :=
  match (d.subr (pkSub p)).route with
  | some (.usb _, _, _) => none
  | some (r, _, _) => if (d.routeOutput r).isSome && decide (p.length ≤ d.limitOf r) then some r else none
  | none => none

/-- The head of a queue of responses is sent on the route it has moved to, or goes to the tail as it is. -/
def Dev.turnResponse (d : Dev) (q : Nat) : Dev :=
  match d.dequeue rqMill q with
  | none => d
  | some (r, cells, d1) =>
    let bad := poisonIn r cells
    match d.movedRoute r.payload with
    | some way => d1.queueOnRoute way r.last r.payload bad
    | none => ((d1.enqueue rqMill q { r with poison := bad }).map fun a => a.updQueue q fun x =>
        { x with stamps := (d1.queue q).stamps ++ (d.queue q).stamps.take 1 }).getD d

/-- The responses of link l that waited through a bus reset, once its function is configured again (R98). -/
def Dev.turnResponses (d : Dev) (l : Nat) : Dev :=
  forN (d.queue (linkOutput l)).stamps.length (fun _ a => a.turnResponse (linkOutput l)) d

/-- The function device answers a standard request. -/
def Dev.functionStd (d : Dev) (l : Nat) (k : UsbKind) (s : Setup) : Dev :=
  let d1 := d.updFunc l fun f => d.stdRequest k f s
  if (d.func l).busReset && !(d1.func l).busReset then d1.turnResponses l else d1

/-- A request to the function device of link l. -/
def Dev.functionRequest (d : Dev) (l : Nat) (k : UsbKind) (s : Setup) : Dev :=
  if bits s.bmRequestType 5 2 = 0 then (d.functionStd l k s).configuredLink l
  else d.updFunc l fun f => { f with reply := .stall }

/-- The bus of a function device is reset: it is at address 0, its toggles are 0, and what a control transfer had in
progress is abandoned (R214). Requests that came over it and have not started end with RESET_ABORTED (R98). -/
def Dev.functionReset (d : Dev) (l : Nat) : Dev :=
  let ks := (d.requests.filter fun r => r.route = .usb l && r.phase = .accepted).map Request.name
  (d.setFunc l { UsbFunction.reset with busReset := true }).failAll ks stResetAborted

/-! ## The hub function's ports (R221, R222) -/

def Dev.updHub (d : Dev) (f : UsbFunction → UsbFunction) : Dev := { d with u0 := { d.u0 with hub := f d.u0.hub } }

/-- The hub answers. -/
def Dev.hubSays (d : Dev) (r : UsbReply) : Dev := d.updHub fun f => { f with reply := r }

/-- The ports of the hub go to Disconnected: no change is shown, over-current stays as it is (R214). What the hub engine
holds is flushed. -/
def Dev.hubPortsReset (d : Dev) : Dev :=
  forN 16 (fun i a => (a.clearHubQueues (i + 1)).updHubPort (i + 1) fun p =>
    { HubPort.reset with status := 0x0100 ||| (p.status &&& 8) }) (d.flushQueue (ssQueue 32) 3)

/-- A configured hub shows the connections that R18 gives, and the function device on port 16. -/
def Dev.hubConnects (d : Dev) : Dev :=
  forN 16 (fun i a =>
    if i = 15 then a.hubBit 16 0 true
    else match a.portOfHub (i + 1) with
      | some n => if (a.port n).present then a.hubConnect (i + 1) n else a
      | none => a) d

/-- Ports of the hub that answers: 16 at high speed, 15 at SuperSpeed. -/
def UsbKind.ports (k : UsbKind) : Nat := if k = .hub3 then 15 else 16

/-- Codes of the link state of a SuperSpeed hub port (USB 3.2): the physical link, SS.Disabled, or Rx.Detect. -/
def Dev.linkCode (d : Dev) (p : Nat) : Nat :=
  let h := d.hubPort p
  if h.ssDisabled then 4
  else if !bit h.status 0 then 5
  else if bit h.status 2 then 3
  else match d.portOfHub p with
    | some n => (match (d.port n).link with | 2 => 1 | 3 => 2 | 4 => 3 | 5 => 15 | _ => 0)
    | none => 0

/-- `wPortStatus` as a SuperSpeed hub lays it out: link state in bits 8:5, power in bit 9 (PRESUMED: USB 3.2). -/
def Dev.status3 (d : Dev) (p : Nat) : Nat :=
  let s := (d.hubPort p).status
  bits s 0 2 + bits s 3 2 * 8 + d.linkCode p * 32 + bits s 8 1 * 512

/-- GET_STATUS of hub port p. -/
def Dev.portStatusReply (d : Dev) (k : UsbKind) (p : Nat) (s : Setup) : UsbReply :=
  let h := d.hubPort p
  .data ((leBytes 2 (if k = .hub3 then d.status3 p else h.status.toNat) ++ leBytes 2 h.change.toNat).take s.wLength.toNat)

/-- The physical port behind hub port p shows a link state (R293). -/
def Dev.hubLink (d : Dev) (p v : Nat) : Dev :=
  match d.portOfHub p with
  | some n => d.updPort n fun x => { x with link := v }
  | none => d

/-- The host suspends hub port p, or resumes it: the change bit is C_PORT_SUSPEND, or C_PORT_LINK_STATE at SuperSpeed. -/
def Dev.hubSuspend (d : Dev) (p : Nat) : Dev :=
  let h := d.hubPort p
  if bit h.status 1 && !bit h.status 2 then (d.updHubPort p fun x => { x with status := x.status ||| 4 }).hubLink p 4 else d
def Dev.hubResume (d : Dev) (p : Nat) : Dev :=
  if bit (d.hubPort p).status 2 then
    (d.updHubPort p fun x =>
      { x with status := x.status &&& 0xFFFB, change := x.change ||| (if d.u0.speed = 3 then 0x40 else 4) }).hubLink p 0
  else d

/-- SET_FEATURE(PORT_RESET) or (BH_PORT_RESET); the function device's port has no signalling and ends at once. -/
def Dev.hubPortReset (d : Dev) (p : Nat) (warm : Bool) : Dev :=
  let h := d.hubPort p
  if !bit h.status 0 then d
  else if p = 16 then d.updHubPort p fun x => { x with status := 0x0503, change := x.change ||| 0x10 }
  else (d.clearHubQueues p).updHubPort p fun x => { x with status := (x.status &&& 0x0109) ||| 0x10, warm := warm }

/-- SET_FEATURE(PORT_LINK_STATE) to a SuperSpeed hub port: U0, U1, U2, U3, SS.Disabled and Rx.Detect (PRESUMED: USB 3.2). -/
def Dev.setLinkState (d : Dev) (p v : Nat) : Dev :=
  let h := d.hubPort p
  let active : Bool := bit h.status 1 && !bit h.status 2
  if v = 0 then (if bit h.status 2 then d.hubResume p else if active then d.hubLink p 0 else d)
  else if v = 1 ∨ v = 2 then (if active then d.hubLink p (v + 1) else d)
  else if v = 3 then d.hubSuspend p
  else if v = 4 then
    (d.clearHubQueues p).updHubPort p fun x => { x with status := x.status &&& 0x0108, ssDisabled := true, warm := false }
  else if h.ssDisabled then
    let d1 := d.updHubPort p fun x => { x with ssDisabled := false }
    match d.portOfHub p with
    | some n => if (d.port n).present then d1.hubConnect p n else d1
    | none => d1
  else d

/-- SET_FEATURE of hub port p; `arg` is the high byte of wIndex. A reset ends with RESET_SIGNALLING_END of the port. -/
def Dev.setPortFeature (d : Dev) (k : UsbKind) (p v arg : Nat) : Dev :=
  let ack (a : Dev) : Dev := a.hubSays .ack
  if v = 4 then ack (d.hubPortReset p false)
  else if v = 8 then ack d
  else if k = .hub2 then (if v = 2 then ack (d.hubSuspend p) else d.hubSays .stall)
  else match v with
    | 5 => if arg ≤ 5 then ack (d.setLinkState p arg) else d.hubSays .stall
    | 23 => ack (d.updHubPort p fun x => { x with u1Timeout := BitVec.ofNat 8 arg })
    | 24 => ack (d.updHubPort p fun x => { x with u2Timeout := BitVec.ofNat 8 arg })
    | 27 => ack (d.updHubPort p fun x => { x with wakeMask := BitVec.ofNat 3 arg })
    | 28 => ack (d.hubPortReset p true)
    | 30 => ack d
    | _ => d.hubSays .stall

/-- CLEAR_FEATURE of hub port p. A hub request never switches VBUS: PORT_POWER changes nothing. -/
def Dev.clearPortFeature (d : Dev) (k : UsbKind) (p v : Nat) : Dev :=
  let ack (a : Dev) : Dev := a.hubSays .ack
  let clear (i : Nat) : Dev := ack (d.updHubPort p fun x => { x with change := x.change &&& ~~~ (BitVec.ofNat 16 (2 ^ i)) })
  if v = 8 then ack d
  else if v = 16 ∨ v = 19 ∨ v = 20 then clear (v - 16)
  else match k, v with
    | .hub2, 1 => ack ((d.clearTtBuffers p).updHubPort p fun x => { x with status := x.status &&& 0xFFF9 })
    | .hub2, 2 => ack (d.hubResume p)
    | .hub2, 17 => clear 1
    | .hub2, 18 => clear 2
    | .hub3, 25 => clear 6
    | .hub3, 26 => clear 7
    | .hub3, 29 => clear 5
    | .hub3, 30 => ack d
    | _, _ => d.hubSays .stall

/-- The records that buffer b of a TT has in the Vat leave their queues. -/
def Dev.dropTtRecord (d : Dev) (p : Nat) (b : TtBuffer) : Dev :=
  let held (q : Nat) : Dev := match d.dequeue (rqHs 32) q with | some (_, _, d1) => d1 | none => d
  if !b.sent then held (ttQueue p b.periodic false)
  else match b.result with
    | some (.data _ _ _) => held (ttQueue p b.periodic true)
    | _ => d

/-- CLEAR_TT_BUFFER: the split rows name no endpoint, so the oldest non-periodic buffer goes (DESIGN CHOICE). -/
def Dev.clearOneTt (d : Dev) (p : Nat) : Dev :=
  match (d.hubPort p).ttBuffers.find? fun b => !b.periodic with
  | some b => ((d.dropTtRecord p b).dropClaim b.cls b.claim).updHubPort p fun x => { x with ttBuffers := x.ttBuffers.erase b }
  | none => d

/-- A request to a port of the hub. -/
def Dev.hubPortRequestIn (d : Dev) (k : UsbKind) (s : Setup) : Dev :=
  let r := s.bmRequestType.toNat
  let q := s.bRequest.toNat
  let v := s.wValue.toNat
  let p := s.wIndex.toNat % 256
  if p = 0 ∨ k.ports < p then d.hubSays .stall
  else if r = 0xA3 then (if q = 0 then d.hubSays (d.portStatusReply k p s) else if q = 13 ∧ k = .hub3 then d.hubSays (wordReply s 0)
    else d.hubSays .stall)
  else if q = 3 then d.setPortFeature k p v (s.wIndex.toNat / 256)
  else if q = 1 then d.clearPortFeature k p v
  else if k = .hub2 ∧ q = 8 then (d.clearOneTt p).hubSays .ack
  else if k = .hub2 ∧ q = 9 then ((d.clearTtBuffers p).updHubPort p fun x => { x with ttStopped := false }).hubSays .ack
  else if k = .hub2 ∧ q = 11 then (d.updHubPort p fun x => { x with ttStopped := true }).hubSays .ack
  else d.hubSays .stall

/-- A hub-class request to the hub itself: its descriptor, its status, its change bits, SET_HUB_DEPTH. -/
def Dev.hubClassRequest (d : Dev) (k : UsbKind) (s : Setup) : Dev :=
  let r := s.bmRequestType.toNat
  let q := s.bRequest.toNat
  if r = 0xA0 ∧ q = 6 then d.hubSays (dataReply s k.hubDescriptor)
  else if r = 0xA0 ∧ q = 0 then d.hubSays (.data ((zeros 4).take s.wLength.toNat))
  else if r = 0x20 ∧ q = 1 ∧ s.wValue.toNat ≤ 1 then d.hubSays .ack
  else if r = 0x20 ∧ q = 12 ∧ k = .hub3 then d.hubSays .ack
  else d.hubSays .stall

/-- SET_CONFIGURATION of the hub: its ports start afresh. -/
def Dev.hubStd (d : Dev) (k : UsbKind) (s : Setup) : Dev :=
  let d1 := d.updHub fun f => d.stdRequest k f s
  if s.bmRequestType = 0 ∧ s.bRequest = 9 ∧ d1.u0.hub.reply = .ack then
    let d2 := d1.hubPortsReset
    if d1.u0.hub.config = 1 then d2.hubConnects else d2
  else d1

/-- A request to the hub function. While U0 runs at SuperSpeed it is taken as one to the SuperSpeed hub (DESIGN CHOICE: the row
does not say which of the two it is for). -/
def Dev.hubFunctionRequest (d : Dev) (s : Setup) : Dev :=
  let k := if d.u0.speed = 3 then UsbKind.hub3 else .hub2
  let type := bits s.bmRequestType 5 2
  let r := s.bmRequestType.toNat
  if type = 0 then d.hubStd k s
  else if r = 0x23 ∨ r = 0xA3 then (if d.u0.hub.config = 1 then d.hubPortRequestIn k s else d.hubSays .stall)
  else if type = 1 then d.hubClassRequest k s
  else d.hubSays .stall

/-! ## U0 (R98, R214, R219, R224, R316) -/

/-- U0 data is connected: from `READY.TRANSPARENT_HUB`, outside CHIP_SAFE, and in dead-battery service, while `U0_VBUS` is
present. It does not wait for the debounce of U0's Type-C engine (R49, R55, R57). -/
def Dev.u0Connects (d : Dev) : Bool := d.u0.vbus && (d.dead || (d.up && d.isReady 6 && !d.fc.chipSafe))


/-- The relay link on U0 after a reset of U0: cause 8, or DOWN at full speed; a link that is DOWN may start (R291). -/
def Dev.u0LinkReset (d : Dev) : Dev :=
  if !d.linkStands 4 then d.linkDown 4
  else if (d.link 4).state = .down then d.linkStart 4 true
  else d.relayReset 4 8

/-- U0_BUS_RESET: the external host runs U0 at a speed: 1 full, 2 high, 3 SuperSpeed. In dead-battery service only the USB 2.0
PHY is supplied (R55). -/
def Dev.u0Reset (d : Dev) (speed : Nat) : Dev :=
  if !d.u0Connects || speed = 0 || (d.dead && speed = 3) then d
  else
    let d1 := (d.functionReset 4).hubPortsReset
    let d2 := { d1 with u0 := { d1.u0 with speed := speed, suspended := false, hub := UsbFunction.reset } }
    (d2.u0LinkReset).startWake .u0

def execU0BusReset (speed : BitVec 2) (s : State) : Host.Outcome State Fault Refusal := s.next (s.dev.u0Reset speed.toNat)

/-- The TRANSPARENT ports that show a connection take a link state. -/
def Dev.transparentLinks (d : Dev) (v : Nat) : Dev :=
  forEach d.transparentPorts (fun n a =>
    if (a.port n).present && !bit (a.hubPort (a.port n).hubPort).status 2 then a.updPort n fun x => { x with link := v } else a) d

/-- U0_SUSPEND: the hub function suspends its ports, and the relay link on U0 is reset with cause 10. -/
def Dev.u0Suspended (d : Dev) : Dev :=
  if !d.u0Connects || d.u0.suspended then d
  else
    let d1 := (d.relayReset 4 10).transparentLinks 4
    ({ d1 with u0 := { d1.u0 with suspended := true, hub := { d1.u0.hub with suspended := true } } }).updFunc 4 fun f =>
      { f with suspended := true }

def execU0Suspend (s : State) : Host.Outcome State Fault Refusal := s.next s.dev.u0Suspended

/-- U0_RESUME. One that meets the function device's own remote wake is the host's resume, with `WAKE_MERGED` set (R316). -/
def Dev.u0Resumed (d : Dev) : Dev :=
  if !d.u0Connects || !d.u0.suspended then d
  else
    let d1 := if (d.func 4).waking then d.flag aPwrEvent 0 else d
    let d2 := d1.transparentLinks 0
    let d3 := { d2 with u0 := { d2.u0 with suspended := false, hub := { d2.u0.hub with suspended := false, waking := false } } }
    (d3.updFunc 4 fun f => { f with suspended := false, waking := false }).startWake .u0

def execU0Resume (s : State) : Host.Outcome State Fault Refusal := s.next s.dev.u0Resumed

/-- HUB_REQUEST, to the function device or to the hub function, on a bus that runs. -/
def Dev.u0Request (d : Dev) (function : Bool) (s : Setup) : Dev :=
  if !d.u0Up || d.u0.suspended then d
  else if function then d.functionRequest 4 (.function (if d.u0.speed = 1 then 1 else 2) d.u0Relay) s
  else if d.hubPresented then d.hubFunctionRequest s
  else d

def execHubRequest (function : Bool) (setup : Setup) (s : State) : Host.Outcome State Fault Refusal :=
  s.next (s.dev.u0Request function setup)

/-! ## Transaction translators and SuperSpeed packets (R132, R223) -/

/-- Segments claimed for what a device answers to an IN: at most 1,023 bytes at full speed. -/
def ttRoom (periodic : Bool) : Nat := recSegs (if periodic then 1023 else 64)

/-- The queue of what waits for the port behind hub port p, in a pipeline of its TT. -/
def Dev.openTt (d : Dev) (p n : Nat) (periodic : Bool) : Dev :=
  d.openQueue (ttQueue p periodic false) (ttClass periodic) 1 n n 0

/-- Starts a split: its TT buffer record is claimed and linked, or the split draws NAK (R132). Each TT has 4 non-periodic
buffers. HEADBOX_GRANT on the port sends it. -/
def Dev.splitStart (d : Dev) (p n : Nat) (periodic isIn : Bool) (out : List Byte) : Dev :=
  let c := ttClass periodic
  let d0 := d.openTt p n periodic
  let q := ttQueue p periodic false
  let need := d0.segsFor q (recCells out.length)
  let room := if isIn then ttRoom periodic else 0
  let full := !periodic && decide (4 ≤ ((d.hubPort p).ttBuffers.filter fun b => !b.periodic).length)
  let taken : Option Dev :=
    if full then none
    else (d0.takeClaim c (need + room)).bind fun a => (a.dropClaim c need).enqueue (rqHs 32) q ⟨5, false, true, 0, out⟩
  match taken with
  | none => d.hubSays .nak
  | some d1 =>
    let b : TtBuffer := { periodic := periodic, isIn := isIn, sent := false, result := none, cls := c, claim := room }
    (d1.updHubPort p fun x => { x with ttBuffers := x.ttBuffers ++ [b] }).hubSays (if periodic then .none else .ack)

/-- The handshake of a complete-split. A transaction that ended in an error or with a SuperSpeed handshake is reported as a
STALL. -/
def ttReply : XactResult → UsbReply
  | .data _ _ bytes => .data bytes
  | .ack => .ack
  | .nak => .nak
  | .nyet => .nyet
  | .nrdy => .stall
  | .erdy _ => .stall
  | .stall => .stall
  | .error => .stall

/-- The IN data of a split leaves at U0, its check field inverted when it is poisoned (R135). -/
def Dev.sendSplitData (d : Dev) (p : Nat) (periodic : Bool) : Dev :=
  let q := ttQueue p periodic true
  match d.headRecord q with
  | none => d.hubSays .stall
  | some r => (d.sendRecord (rqHs 32) q 32 ⟨ttClass periodic, 0, 120 + r.payload.length, .translated p periodic⟩ []).hubSays (.data r.payload)

/-- Completes the oldest split of the pipeline: NYET while the device has not answered. Without a buffer the hub answers STALL,
or NYET in the periodic pipeline (PRESUMED: USB 2.0). -/
def Dev.splitComplete (d : Dev) (p : Nat) (periodic : Bool) : Dev :=
  match (d.hubPort p).ttBuffers.find? fun b => b.periodic = periodic with
  | none => d.hubSays (if periodic then .nyet else .stall)
  | some b =>
    let free (a : Dev) : Dev := a.updHubPort p fun x => { x with ttBuffers := x.ttBuffers.erase b }
    match b.result with
    | none => d.hubSays .nyet
    | some (.data _ _ _) => free (d.sendSplitData p periodic)
    | some r => (free d).hubSays (ttReply r)

/-- The TT of hub port p serves splits: the hub is configured, the port enabled at full or low speed, the TT not stopped. -/
def Dev.ttServes (d : Dev) (p : Nat) : Bool :=
  let h := d.hubPort p
  d.hubPresented && !d.u0.suspended && d.u0.hub.config = 1 && bit h.status 1 && !bit h.status 2 && !bit h.status 10 &&
    !h.ttStopped && (d.portOfHub p).any d.served

/-- SPLIT_TRANSACTION; operand 0 is hub port 1. -/
def Dev.split (d : Dev) (p : Nat) (periodic : Bool) (kind : SplitKind) : Dev :=
  match d.portOfHub p with
  | none => d
  | some n =>
    if !d.ttServes p then d
    else match kind with
      | .startIn => d.splitStart p n periodic true []
      | .startOut bytes => d.splitStart p n periodic false bytes
      | .complete => d.splitComplete p periodic

def execSplitTransaction (hubPort : Fin 16) (periodic : Bool) (kind : SplitKind) (s : State) : Host.Outcome State Fault Refusal :=
  s.next (s.dev.split (hubPort.val + 1) periodic kind)

/-- SS_PACKET: the packet is claimed and stored, and HEADBOX_GRANT of the other side sends it; or NRDY when the claim fails. -/
def Dev.ssPacket (d : Dev) (p : Nat) (upstream : Bool) (bytes : List Byte) : Dev :=
  match d.portOfHub p with
  | none => d
  | some n =>
    let h := d.hubPort p
    if !d.hubPresented || d.u0.speed ≠ 3 || d.u0.suspended || d.u0.hub.config ≠ 1 || 8 ≤ n || !d.served n || !bit h.status 1 ||
        bit h.status 2 then d
    else
      let o := if upstream then 32 else n
      let q := ssQueue o
      let d1 := d.openQueue q 5 1 o o 0
      let linked := if d1.canClaim 5 (d1.segsFor q (recCells bytes.length)) then
          d1.enqueue (rqSs (if upstream then n else 8)) q ⟨0, false, true, 0, bytes⟩
        else none
      linked.getD (d.hubSays .nrdy)

def execSsPacket (hubPort : Fin 15) (upstream : Bool) (bytes : List Byte) (s : State) : Host.Outcome State Fault Refusal :=
  s.next (s.dev.ssPacket (hubPort.val + 1) upstream bytes)

/-- HUB_REMOTE_WAKE (R304, R307): upstream on a suspended U0 when the host has enabled it; on a port that the host has
suspended alone, the hub resumes the port and shows the change. -/
def Dev.hubWake (d : Dev) (p : Nat) : Dev :=
  match d.portOfHub p with
  | none => d
  | some n =>
    if !d.hubPresented || d.u0.hub.config ≠ 1 || !d.served n then d
    else
      let d1 := d.startWake .remoteWake
      if d.u0.suspended then (if d.u0.hub.remoteWake then d1.updHub fun f => { f with waking := true } else d1)
      else if bit (d.hubPort p).status 2 then d1.hubResume p
      else d

def execHubRemoteWake (hubPort : Fin 15) (s : State) : Host.Outcome State Fault Refusal := s.next (s.dev.hubWake (hubPort.val + 1))

/-! ## Coupler ports acting as UFP (R214, R225, R275, R290, R305) -/

/-- The function device is presented on coupler port n. -/
def Dev.ufpPresents (d : Dev) (n : Nat) : Bool := d.isCoupler n && !(d.eng n).dfp && (d.port n).present && d.couchRuns

def Dev.ufpControl (d : Dev) (n : Nat) (s : Setup) : Dev :=
  if d.ufpPresents n && !(d.func n).suspended then
    d.functionRequest n (.function (if (d.link n).speed = 3 then 3 else 2) true) s
  else d

def execUfpControlRequest (port : Fin 4) (setup : Setup) (s : State) : Host.Outcome State Fault Refusal :=
  s.next (s.dev.ufpControl port.val setup)

/-- UFP_BUS_RESET: as a reset of U0, with a relay link reset of cause 8. -/
def Dev.ufpReset (d : Dev) (n : Nat) (superSpeed : Bool) : Dev :=
  if d.ufpPresents n then
    ((d.functionReset n).updLink n fun x => { x with speed := if superSpeed then 3 else 2 }).relayReset n 8
  else d

def execUfpBusReset (port : Fin 4) (superSpeed : Bool) (s : State) : Host.Outcome State Fault Refusal :=
  s.next (s.dev.ufpReset port.val superSpeed)

def Dev.ufpSuspended (d : Dev) (n : Nat) : Dev :=
  if d.ufpPresents n && !(d.func n).suspended then (d.relayReset n 10).updFunc n fun f => { f with suspended := true } else d

def execUfpSuspend (port : Fin 4) (s : State) : Host.Outcome State Fault Refusal := s.next (s.dev.ufpSuspended port.val)

def Dev.ufpResumed (d : Dev) (n : Nat) : Dev :=
  if d.ufpPresents n && (d.func n).suspended then d.updFunc n fun f => { f with suspended := false, waking := false } else d

def execUfpResume (port : Fin 4) (s : State) : Host.Outcome State Fault Refusal := s.next (s.dev.ufpResumed port.val)

/-! ## Boundary scan (R46) -/

/-- The instruction that acts: EXTEST only while `RESET_N` holds the main die; codes of no instruction act as BYPASS
(PRESUMED: IEEE 1149.1). -/
def Dev.scanAs (d : Dev) (i : JtagInstr) : JtagInstr :=
  match i with
  | .extest => if d.life = .reset then .extest else .bypass
  | .other => .bypass
  | x => x

/-- A register of the port is shifted: what leaves, first bit first, and what it then holds. -/
def shifted (cells data : List Bool) : List Bool × List Bool :=
  ((cells ++ data).take data.length, (cells ++ data).drop data.length)

/-- BOUNDARY_SCAN: the register that the instruction selects captures, data is shifted in at TDI, first bit first, and as
many bits leave at TDO. BYPASS is one cell that captures 0; the 32 cells of IDCODE and the cells of the boundary-scan chain
capture what Config leaves open. Only the chain keeps what it holds: EXTEST drives the balls from it. -/
def Dev.boundaryScan (d : Dev) (i : JtagInstr) (data : List Bool) : Dev :=
  if d.life = .unpowered || d.life = .deadBattery then d
  else
    let chain := shifted ((List.range Config.scanCells).map (Config.scanSample d.freeCtr)) data
    match d.scanAs i with
    | .idcode => { d with jtag := i, jtagOut := (shifted ((List.range 32).map Config.idCode) data).1 }
    | .samplePreload => { d with jtag := i, scan := chain.2, jtagOut := chain.1, freeCtr := d.freeCtr + 1 }
    | .extest => { d with jtag := i, scan := chain.2, jtagOut := chain.1, freeCtr := d.freeCtr + 1 }
    | _ => { d with jtag := i, jtagOut := (shifted [false] data).1 }

def execBoundaryScan (instr : JtagInstr) (data : List Bool) (s : State) : Host.Outcome State Fault Refusal :=
  s.next (s.dev.boundaryScan instr data)

end Sys2Proof.Machine
end

