-- ==== Sys2Proof/Machine/Pins.lean ====
section
/-! DEFINITION. What the balls show in each state of the device (R41 to R59, R65, R93, R314, R321, R322): the signal levels
that follow from the rest of the state, and the boundary-scan chain that drives the digital balls in EXTEST (R46). -/

namespace Sys2Proof.Machine

open Sys2Proof

/-! ## The columns of R49 -/

/-- The Unpowered column: a rail of the main die is absent, in dead-battery service too (R49, R55). -/
def Dev.dark (d : Dev) : Bool := d.life = .unpowered || d.dead

/-- Port n takes the Unpowered column: with the main die, or with a Press die that has no supply or is lost (R51, R61). -/
def Dev.portDark (d : Dev) (n : Nat) : Bool := d.dark || !(d.die (n / 8)).powered || (d.die (n / 8)).lost

/-- Port n has had its first load since reset: the PD engines run (R30, R60). -/
def Dev.portLoaded (d : Dev) : Bool := d.isReady 2 || d.life = .hibernate

/-! ## CC (R49, R57, R58, R312, R319 to R322) -/

/-- What a CC pin shows. -/
inductive CcShow where
  | open | rd | rp | vconn
  deriving DecidableEq, Repr

/-- What a Type-C state shows on the pins it drives (R319); in HIBERNATE the allocation and role decide (R312). -/
def Dev.tcShow (d : Dev) (n : Nat) : CcShow :=
  match (d.eng n).tc with
  | .disabled => .open
  | .errorRecovery => .open
  | .safe => .rd
  | .hibernate => if d.pdRole n = some 0 then .rp else .rd
  | .unattachedSnk => .rd
  | .attachWaitSnk => .rd
  | .tryWaitSnk => .rd
  | .trySnk => .rd
  | .attachedSnk => .rd
  | _ => .rp

/-- The dead-battery Rd of the ports of the coupler while `CPL_DB` is strapped (R58); a strap reads 0 when strapped. -/
def deadCc (cplDb : Bool) (n : Nat) : CcShow := if n < 4 && !cplDb then .rd else .open

/-- Pin CC1 (false) or CC2 (true) of port n. An Attached source gives VCONN to an Ra on its second pin; a captive port leaves
CC2 open. -/
def State.portCc (s : State) (n : Nat) (second : Bool) : CcShow :=
  let d := s.dev
  let e := d.eng n
  if d.portDark n || !d.portLoaded then deadCc s.straps.cplDb n
  else if d.captive n && second then .open
  else if e.vconn && decide (e.orient ≠ b2n second) then .vconn
  else d.tcShow n

/-- `U0_CC1` and `U0_CC2`: Rd without interruption, and unpowered while `U0_DB` is strapped (R55, R57). -/
def State.u0Cc (s : State) : CcShow :=
  if s.dev.life = .unpowered && s.straps.u0Db then .open else .rd

/-! ## Power switching and USB data of a port (R32, R49, R314) -/

/-- `Px_GATE` is driven on; off means driven off, or pulled to `Px_SRC`. -/
def Dev.gateBall (d : Dev) (n : Nat) : Bool := !d.portDark n && d.life ≠ .hibernate && (d.fuse n).gate

/-- `Px_DSCH` is closed. -/
def Dev.dschBall (d : Dev) (n : Nat) : Bool := !d.portDark n && d.life ≠ .hibernate && (d.fuse n).dsch

/-- What D+ and D− of a port show. -/
inductive DataShow where
  | highZ
  /-- the 15 kΩ downstream pull-downs alone -/
  | pulldowns
  /-- the BC 1.2 emulation of a CHARGE_ONLY port -/
  | bcTie
  /-- a port of the hub function, of the host engine, or of the Couch -/
  | hubPort | host | coupler
  deriving DecidableEq, Repr

/-- `Px_DP` and `Px_DN`. -/
def Dev.usb2Ball (d : Dev) (n : Nat) : DataShow :=
  if d.portDark n || !d.portLoaded then .highZ
  else if d.isChargeOnly n then .bcTie
  else if d.life = .hibernate then (if d.isEmbedded n then .pulldowns else .highZ)
  else if d.fc.chipSafe then .highZ
  else if d.isTransparent n then (if d.isReady 6 then .hubPort else .highZ)
  else if d.isEmbedded n then (if d.limp then .pulldowns else if d.boot.hostRuns then .host else .highZ)
  else if d.isCoupler n then (if d.couchRuns then .coupler else .highZ)
  else .highZ

/-- The SuperSpeed pairs of P0 to P7 transmit and are terminated. -/
def Dev.ssBall (d : Dev) (n : Nat) : Bool :=
  decide (n < 8) && d.up && match d.usb2Ball n with
    | .hubPort => true
    | .host => true
    | .coupler => true
    | _ => false

/-- What U0's data pairs show. -/
inductive U0Show where
  | highZ | disconnected
  /-- the USB 2.0 pair alone, in dead-battery service; or all of U0 -/
  | usb2 | presented
  deriving DecidableEq, Repr

def Dev.u0Data (d : Dev) : U0Show :=
  if d.life = .unpowered then .highZ
  else if !d.u0Connects then (if d.dead then .highZ else .disconnected)
  else if d.dead then .usb2
  else .presented

/-- The lanes of E0 and E1 are active. -/
def Dev.ethLanes (d : Dev) : Bool := d.up && d.isReady 7

/-! ## Digital balls -/

/-- The class F and class P digital balls, which the boundary-scan chain covers, but for those of the JTAG port itself
(R40, R46). -/
inductive DigitalBall where
  | ethMdc | ethMdio
  | phyRst (e : Fin 2)
  | msSck | msCsN | msMosi | msMiso | msIrqN
  | flSck | flCsN
  | flIo (i : Fin 4)
  | avsClk | avsMdata | avsSdata
  | psbScl | psbSda | psbAlertN
  | beatIn | beatOut | inputWarnN | safeN | ready | resetN
  | cfg (i : Fin 4)
  | u0Db | cplDb | testEn
  deriving DecidableEq, Repr

/-- What the device puts on a ball: nothing (an input, a released or a high-impedance ball), a level, or the traffic of its
bus. -/
inductive Drive where
  | none | low | high | bus
  deriving DecidableEq, Repr

/-- A level driven. -/
def Drive.level (b : Bool) : Drive := if b then .high else .low

/-- `SAFE_N`: high only out of reset, with READY.PRESS, and not in CHIP_SAFE (R47, R53, R314). -/
def Dev.safePin (d : Dev) : Bool := d.up && d.isReady 0 && !d.fc.chipSafe

/-- `BEAT_OUT`: high in slots 0 to 3 of microframe 0 of each beat (R54). -/
def Dev.beatPin (d : Dev) : Bool := d.up && d.deckle.running && decide (d.deckle.mf = 0 ∧ d.deckle.slot < 4)

/-- `INPUT_WARN_N` is driven low: in every state with its two supplies (R52). -/
def Dev.warnPin (d : Dev) : Bool := d.vinLow && !d.dark

/-- What the device itself drives on a digital ball. `csLow` says whether `MS_CS_N` is low now. -/
def Dev.ballDrive (d : Dev) (csLow : Bool) (b : DigitalBall) : Drive :=
  match b with
  | .ethMdc => if d.dark then .none else if d.ethLanes then .bus else .low
  | .ethMdio => if d.ethLanes then .bus else .none
  | .phyRst _ => .level d.ethLanes
  | .msMiso => if d.up && d.isReady 3 && csLow && !d.spi.ignore then .bus else .none
  | .msIrqN => if d.up && d.isReady 3 && d.msIrq then .low else .none
  | .flSck => if d.up && !d.fc.chipSafe then .bus else .none
  | .flCsN => if d.dark then .none else if d.up && !d.fc.chipSafe then .bus else .high
  | .flIo _ => if d.up && !d.fc.chipSafe then .bus else .none
  | .avsClk => if d.up then .bus else .none
  | .avsMdata => if d.up then .bus else .none
  | .psbScl => if d.up then .bus else .none
  | .psbSda => if d.up then .bus else .none
  | .beatOut => .level d.beatPin
  | .inputWarnN => if d.warnPin then .low else .none
  | .safeN => .level d.safePin
  | .ready => .level d.readyPin
  | _ => .none

/-- The number of a ball in the order of R38. -/
def DigitalBall.number : DigitalBall → Nat
  | .ethMdc => 0 | .ethMdio => 1 | .phyRst e => 2 + e.val | .msSck => 4 | .msCsN => 5 | .msMosi => 6 | .msMiso => 7
  | .msIrqN => 8 | .flSck => 9 | .flCsN => 10 | .flIo i => 11 + i.val | .avsClk => 15 | .avsMdata => 16
  | .avsSdata => 17 | .psbScl => 18 | .psbSda => 19 | .psbAlertN => 20 | .beatIn => 21 | .beatOut => 22
  | .inputWarnN => 23 | .safeN => 24 | .ready => 25 | .resetN => 26 | .cfg i => 27 + i.val | .u0Db => 31 | .cplDb => 32
  | .testEn => 33

/-- Whether a ball is an input alone. -/
def DigitalBall.input : DigitalBall → Bool
  | .msSck => true | .msCsN => true | .msMosi => true | .avsSdata => true | .psbAlertN => true | .beatIn => true
  | .resetN => true | .cfg _ => true | .u0Db => true | .cplDb => true | .testEn => true
  | _ => false

/-- An open-drain ball (R40). -/
def DigitalBall.openDrain : DigitalBall → Bool
  | .msIrqN => true | .inputWarnN => true | .psbScl => true | .psbSda => true
  | _ => false

/-- A digital ball: in EXTEST, while `RESET_N` holds the main die, what its cell of the chain says; else what the device
drives (R46). -/
def Dev.ball (d : Dev) (csLow : Bool) (b : DigitalBall) : Drive :=
  if d.jtag = .extest && d.life = .reset && !b.input then
    let v := d.scan.getD (Config.scanCell b.number) false
    if b.openDrain && v then .none else .level v
  else d.ballDrive csLow b

/-- The 25 MHz and the 32.768 kHz crystal run (R49, R314). -/
def Dev.xtal25 (d : Dev) : Bool := !d.dark && d.life ≠ .hibernate
def Dev.xtal32 (d : Dev) : Bool := d.life ≠ .unpowered

end Sys2Proof.Machine
end

