-- ==== Sys2Proof/Machine/Dispatch.lean ====
section
/-! DEFINITION. The dispatch: one arm for each row of opcode_table.json, each a direct call of that row's meaning. -/

namespace Sys2Proof.Machine

open Sys2Proof

/-- The effect of a command on everything but the queue, and its outcome. -/
def exec (i : Instr) (s : State) : Host.Outcome State Fault Refusal :=
  match i with
  -- supplies, resets and bring-up
  | .powerOn p => Sys2Proof.Machine.execPowerOn p s
  | .railTrip => Sys2Proof.Machine.execRailTrip s
  | .resetNAssert => Sys2Proof.Machine.execResetNAssert s
  | .resetNRelease st csLow => Sys2Proof.Machine.execResetNRelease st csLow s
  | .pressSupplyLoss d => Sys2Proof.Machine.execPressSupplyLoss d s
  | .pressSupplyReturn d => Sys2Proof.Machine.execPressSupplyReturn d s
  | .pressArmed d => Sys2Proof.Machine.execPressArmed d s
  | .pressArmTimeout d => Sys2Proof.Machine.execPressArmTimeout d s
  | .quireReady => Sys2Proof.Machine.execQuireReady s
  | .deckleReady => Sys2Proof.Machine.execDeckleReady s
  | .pdReady => Sys2Proof.Machine.execPdReady s
  | .vatSelftestDone failed => Sys2Proof.Machine.execVatSelftestDone failed s
  | .hubStart => Sys2Proof.Machine.execHubStart s
  | .ethStart => Sys2Proof.Machine.execEthStart s
  | .slotCheckDone slot => Sys2Proof.Machine.execSlotCheckDone slot s
  | .flashReadTimeout slot => Sys2Proof.Machine.execFlashReadTimeout slot s
  | .millInitDone => Sys2Proof.Machine.execMillInitDone s
  | .hostStart => Sys2Proof.Machine.execHostStart s
  | .couchStart => Sys2Proof.Machine.execCouchStart s
  | .millWatchdog => Sys2Proof.Machine.execMillWatchdog s
  | .couchWatchdog => Sys2Proof.Machine.execCouchWatchdog s
  | .crossCoreTimeout k => Sys2Proof.Machine.execCrossCoreTimeout k s
  | .deadBatteryEntry u0Db => Sys2Proof.Machine.execDeadBatteryEntry u0Db s
  | .deadBatteryVbusLoss => Sys2Proof.Machine.execDeadBatteryVbusLoss s
  | .u0VbusChange present => Sys2Proof.Machine.execU0VbusChange present s
  -- Avvoset opcodes: the execution of an accepted request
  | .identify k => Sys2Proof.Machine.execIdentify k s
  | .status k => Sys2Proof.Machine.execStatus k s
  | .resetChip k => Sys2Proof.Machine.execResetChip k s
  | .chipResetStart => Sys2Proof.Machine.execChipResetStart s
  | .resetPort k => Sys2Proof.Machine.execResetPort k s
  | .ready k => Sys2Proof.Machine.execReady k s
  | .readyAnswer k => Sys2Proof.Machine.execReadyAnswer k s
  | .readyWaitExpiry k => Sys2Proof.Machine.execReadyWaitExpiry k s
  | .events k => Sys2Proof.Machine.execEvents k s
  | .regRead k => Sys2Proof.Machine.execRegRead k s
  | .regWrite k => Sys2Proof.Machine.execRegWrite k s
  | .wideRead k => Sys2Proof.Machine.execWideRead k s
  | .update k => Sys2Proof.Machine.execUpdate k s
  | .updateCancel k => Sys2Proof.Machine.execUpdateCancel k s
  | .portReset k => Sys2Proof.Machine.execPortReset k s
  | .portResetTimeout k => Sys2Proof.Machine.execPortResetTimeout k s
  | .portDisable k => Sys2Proof.Machine.execPortDisable k s
  | .portSuspend k => Sys2Proof.Machine.execPortSuspend k s
  | .portResume k => Sys2Proof.Machine.execPortResume k s
  | .portInfo k => Sys2Proof.Machine.execPortInfo k s
  | .efuseClear k => Sys2Proof.Machine.execEfuseClear k s
  | .efuseClearAbortRetry k => Sys2Proof.Machine.execEfuseClearAbortRetry k s
  | .controlXfer k => Sys2Proof.Machine.execControlXfer k s
  | .bulkOut k => Sys2Proof.Machine.execBulkOut k s
  | .bulkIn k => Sys2Proof.Machine.execBulkIn k s
  | .endpointOpen k => Sys2Proof.Machine.execEndpointOpen k s
  | .endpointClose k => Sys2Proof.Machine.execEndpointClose k s
  | .endpointCloseDevice k => Sys2Proof.Machine.execEndpointCloseDevice k s
  | .subscribe k => Sys2Proof.Machine.execSubscribe k s
  | .unsubscribe k => Sys2Proof.Machine.execUnsubscribe k s
  | .sheetRead k => Sys2Proof.Machine.execSheetRead k s
  | .periodicWrite k => Sys2Proof.Machine.execPeriodicWrite k s
  | .pwrStateActive k => Sys2Proof.Machine.execPwrStateActive k s
  | .pwrStateDoze k => Sys2Proof.Machine.execPwrStateDoze k s
  | .pdInfo k => Sys2Proof.Machine.execPdInfo k s
  | .pdActionPrSwap k => Sys2Proof.Machine.execPdActionPrSwap k s
  | .pdActionDrSwap k => Sys2Proof.Machine.execPdActionDrSwap k s
  | .pdActionSoftReset k => Sys2Proof.Machine.execPdActionSoftReset k s
  | .pdActionHardReset k => Sys2Proof.Machine.execPdActionHardReset k s
  | .pdActionSrcCap k => Sys2Proof.Machine.execPdActionSrcCap k s
  | .pdActionRequest k => Sys2Proof.Machine.execPdActionRequest k s
  | .pdActionGetSnkCap k => Sys2Proof.Machine.execPdActionGetSnkCap k s
  | .pdActionErrorRecovery k => Sys2Proof.Machine.execPdActionErrorRecovery k s
  | .faultRead k => Sys2Proof.Machine.execFaultRead k s
  | .faultClear k => Sys2Proof.Machine.execFaultClear k s
  | .faultClearAll k => Sys2Proof.Machine.execFaultClearAll k s
  | .faultClearWatermark k => Sys2Proof.Machine.execFaultClearWatermark k s
  | .faultForce k => Sys2Proof.Machine.execFaultForce k s
  | .faultForceRehearse k => Sys2Proof.Machine.execFaultForceRehearse k s
  | .quireWrite k => Sys2Proof.Machine.execQuireWrite k s
  | .keyWrite k => Sys2Proof.Machine.execKeyWrite k s
  | .keyErase k => Sys2Proof.Machine.execKeyErase k s
  | .fwInfo k => Sys2Proof.Machine.execFwInfo k s
  | .fwWrite k => Sys2Proof.Machine.execFwWrite k s
  | .fwEraseDone k => Sys2Proof.Machine.execFwEraseDone k s
  | .fwVerify k => Sys2Proof.Machine.execFwVerify k s
  | .fwActivate k => Sys2Proof.Machine.execFwActivate k s
  | .fwConfirm k => Sys2Proof.Machine.execFwConfirm k s
  | .selftestVatSpare k => Sys2Proof.Machine.execSelftestVatSpare k s
  | .selftestAdc k firstFail => Sys2Proof.Machine.execSelftestAdc k firstFail s
  | .selftestPort k failing => Sys2Proof.Machine.execSelftestPort k failing s
  | .selftestEfuseTrip k tripNs => Sys2Proof.Machine.execSelftestEfuseTrip k tripNs s
  | .selftestFull k failed => Sys2Proof.Machine.execSelftestFull k failed s
  | .maintEnter k => Sys2Proof.Machine.execMaintEnter k s
  | .maintLeave k => Sys2Proof.Machine.execMaintLeave k s
  | .chainSet k => Sys2Proof.Machine.execChainSet k s
  | .chainSetApply k => Sys2Proof.Machine.execChainSetApply k s
  | .routeWrite k => Sys2Proof.Machine.execRouteWrite k s
  | .tdiWrite k => Sys2Proof.Machine.execTdiWrite k s
  | .tdiRead k => Sys2Proof.Machine.execTdiRead k s
  | .linkEnable k => Sys2Proof.Machine.execLinkEnable k s
  | .linkEnableRetry k => Sys2Proof.Machine.execLinkEnableRetry k s
  | .linkEnableLinkReset k => Sys2Proof.Machine.execLinkEnableLinkReset k s
  | .chainInfo k => Sys2Proof.Machine.execChainInfo k s
  | .statsRead k => Sys2Proof.Machine.execStatsRead k s
  | .unsupportedOpcode packet => Sys2Proof.Machine.execUnsupportedOpcode packet s
  -- transports
  | .regWr addr words => Sys2Proof.Machine.execRegWr addr words s
  | .regRd addr count notReady => Sys2Proof.Machine.execRegRd addr count notReady s
  | .rdStatus => Sys2Proof.Machine.execRdStatus s
  | .pktWr bytes => Sys2Proof.Machine.execPktWr bytes s
  | .pktRd clocked badCells => Sys2Proof.Machine.execPktRd clocked badCells s
  | .badInstr code => Sys2Proof.Machine.execBadInstr code s
  | .udpDatagram e d => Sys2Proof.Machine.execUdpDatagram e d s
  | .arpRequest e q => Sys2Proof.Machine.execArpRequest e q s
  | .neighbourSolicitation e q => Sys2Proof.Machine.execNeighbourSolicitation e q s
  | .echoRequest e q => Sys2Proof.Machine.execEchoRequest e q s
  | .otherFrame e => Sys2Proof.Machine.execOtherFrame e s
  | .ptpMessage e m => Sys2Proof.Machine.execPtpMessage e m s
  | .mgmtBulkOut link bytes => Sys2Proof.Machine.execMgmtBulkOut link bytes s
  | .mgmtBulkIn link badCells => Sys2Proof.Machine.execMgmtBulkIn link badCells s
  | .u0BusReset speed => Sys2Proof.Machine.execU0BusReset speed s
  | .u0Suspend => Sys2Proof.Machine.execU0Suspend s
  | .u0Resume => Sys2Proof.Machine.execU0Resume s
  | .hubRequest function setup => Sys2Proof.Machine.execHubRequest function setup s
  | .splitTransaction hubPort periodic kind => Sys2Proof.Machine.execSplitTransaction hubPort periodic kind s
  -- the grid
  | .microframeStart => Sys2Proof.Machine.execMicroframeStart s
  | .slotStrobe => Sys2Proof.Machine.execSlotStrobe s
  | .planNextBeat => Sys2Proof.Machine.execPlanNextBeat s
  | .beatEndStrobe => Sys2Proof.Machine.execBeatEndStrobe s
  | .tallyDeferredCheck cycles => Sys2Proof.Machine.execTallyDeferredCheck cycles s
  | .tallySkip => Sys2Proof.Machine.execTallySkip s
  | .heartbeat ctx => Sys2Proof.Machine.execHeartbeat ctx s
  | .beatInEdge time highCycles => Sys2Proof.Machine.execBeatInEdge time highCycles s
  | .sourceEdge time number => Sys2Proof.Machine.execSourceEdge time number s
  | .missingEdge => Sys2Proof.Machine.execMissingEdge s
  | .updateApply groups => Sys2Proof.Machine.execUpdateApply groups s
  -- the Vat
  | .rotationStart => Sys2Proof.Machine.execRotationStart s
  | .rotationCopyDone => Sys2Proof.Machine.execRotationCopyDone s
  | .marchPassEnd bank pass => Sys2Proof.Machine.execMarchPassEnd bank pass s
  | .pointerFault queue book => Sys2Proof.Machine.execPointerFault queue book s
  | .queueResetDone queue => Sys2Proof.Machine.execQueueResetDone queue s
  | .freeListRebuilt bank => Sys2Proof.Machine.execFreeListRebuilt bank s
  | .growthComplete => Sys2Proof.Machine.execGrowthComplete s
  | .drainComplete => Sys2Proof.Machine.execDrainComplete s
  | .vatQresetGo path queue => Sys2Proof.Machine.execVatQresetGo path queue s
  | .headboxGrant output badCells => Sys2Proof.Machine.execHeadboxGrant output badCells s
  -- the host engine
  | .transactionResponse port r past => Sys2Proof.Machine.execTransactionResponse port r past s
  | .babble port => Sys2Proof.Machine.execBabble port s
  | .transferTimeout ctx => Sys2Proof.Machine.execTransferTimeout ctx s
  | .addressHoldEnd domain addr => Sys2Proof.Machine.execAddressHoldEnd domain addr s
  | .connectSeen port => Sys2Proof.Machine.execConnectSeen port s
  | .connectDrop port => Sys2Proof.Machine.execConnectDrop port s
  | .debounceEnd port => Sys2Proof.Machine.execDebounceEnd port s
  | .bindingReleaseReset domain => Sys2Proof.Machine.execBindingReleaseReset domain s
  | .resetSignallingEnd port speed => Sys2Proof.Machine.execResetSignallingEnd port speed s
  | .recoveryEnd port => Sys2Proof.Machine.execRecoveryEnd port s
  | .disconnectSeen port => Sys2Proof.Machine.execDisconnectSeen port s
  | .ssLinkU0 port => Sys2Proof.Machine.execSsLinkU0 port s
  | .ssTrainingTimeout port => Sys2Proof.Machine.execSsTrainingTimeout port s
  | .presentChange port => Sys2Proof.Machine.execPresentChange port s
  -- link power
  | .l1Entry port => Sys2Proof.Machine.execL1Entry port s
  | .lpmResponse port a => Sys2Proof.Machine.execLpmResponse port a s
  | .l1Exit port => Sys2Proof.Machine.execL1Exit port s
  | .u1Timeout port => Sys2Proof.Machine.execU1Timeout port s
  | .u1u2Exit port => Sys2Proof.Machine.execU1u2Exit port s
  | .suspendTimer port => Sys2Proof.Machine.execSuspendTimer port s
  | .selectiveSuspend port hub hubPort => Sys2Proof.Machine.execSelectiveSuspend port hub hubPort s
  | .resumeStart port => Sys2Proof.Machine.execResumeStart port s
  | .resumeEnd port => Sys2Proof.Machine.execResumeEnd port s
  | .resumeRecoveryEnd port => Sys2Proof.Machine.execResumeRecoveryEnd port s
  | .subtreeResumeWaitEnd port hub hubPort => Sys2Proof.Machine.execSubtreeResumeWaitEnd port hub hubPort s
  | .remoteWake port subtree => Sys2Proof.Machine.execRemoteWake port subtree s
  -- chip power
  | .trimEntry => Sys2Proof.Machine.execTrimEntry s
  | .dozeEntry => Sys2Proof.Machine.execDozeEntry s
  | .avsAck coreOk => Sys2Proof.Machine.execAvsAck coreOk s
  | .avsNoack coreOk => Sys2Proof.Machine.execAvsNoack coreOk s
  | .wake src => Sys2Proof.Machine.execWake src s
  | .hibernateEntry => Sys2Proof.Machine.execHibernateEntry s
  | .warmStart src => Sys2Proof.Machine.execWarmStart src s
  -- the relay links
  | .hello link frame => Sys2Proof.Machine.execHello link frame s
  | .helloRepeat link => Sys2Proof.Machine.execHelloRepeat link s
  | .chal link frame => Sys2Proof.Machine.execChal link frame s
  | .resp link frame => Sys2Proof.Machine.execResp link frame s
  | .authTimeout link => Sys2Proof.Machine.execAuthTimeout link s
  | .authRetry link => Sys2Proof.Machine.execAuthRetry link s
  | .enable link frame => Sys2Proof.Machine.execEnable link frame s
  | .enableSend link => Sys2Proof.Machine.execEnableSend link s
  | .beatFrame link frame => Sys2Proof.Machine.execBeatFrame link frame s
  | .report link data t1 t4 => Sys2Proof.Machine.execReport link data t1 t4 s
  | .resetFrame link frame => Sys2Proof.Machine.execResetFrame link frame s
  | .creditFrame link frame => Sys2Proof.Machine.execCreditFrame link frame s
  | .unknownLinkFrame link frame => Sys2Proof.Machine.execUnknownLinkFrame link frame s
  | .serviceFrame link low frame => Sys2Proof.Machine.execServiceFrame link low frame s
  | .relayFrameSend link svc => Sys2Proof.Machine.execRelayFrameSend link svc s
  | .consumedFrameMove link => Sys2Proof.Machine.execConsumedFrameMove link s
  | .couchEnumerationTimeout link => Sys2Proof.Machine.execCouchEnumerationTimeout link s
  | .poolClaimRetry link => Sys2Proof.Machine.execPoolClaimRetry link s
  | .graceExpiry link => Sys2Proof.Machine.execGraceExpiry link s
  | .fwdTimeout k => Sys2Proof.Machine.execFwdTimeout k s
  -- Type-C and PD
  | .ccChange n cc1 cc2 => Sys2Proof.Machine.execCcChange n cc1 cc2 s
  | .ccDebounceEnd n => Sys2Proof.Machine.execCcDebounceEnd n s
  | .drpToggle n => Sys2Proof.Machine.execDrpToggle n s
  | .tryTimerExpiry n => Sys2Proof.Machine.execTryTimerExpiry n s
  | .detach n => Sys2Proof.Machine.execDetach n s
  | .vbusLost n => Sys2Proof.Machine.execVbusLost n s
  | .vconnStable n => Sys2Proof.Machine.execVconnStable n s
  | .vconnLimit n => Sys2Proof.Machine.execVconnLimit n s
  | .sourceCapabilities n rev2 pdos => Sys2Proof.Machine.execSourceCapabilities n rev2 pdos s
  | .sourceCapRepeat n => Sys2Proof.Machine.execSourceCapRepeat n s
  | .request n rev2 rdo => Sys2Proof.Machine.execRequest n rev2 rdo s
  | .srcTransitionExpiry n => Sys2Proof.Machine.execSrcTransitionExpiry n s
  | .vbusWindowHeld n => Sys2Proof.Machine.execVbusWindowHeld n s
  | .psrdyDeadline n => Sys2Proof.Machine.execPsrdyDeadline n s
  | .accept n => Sys2Proof.Machine.execAccept n s
  | .reject n => Sys2Proof.Machine.execReject n s
  | .wait n => Sys2Proof.Machine.execWait n s
  | .swapRetry n => Sys2Proof.Machine.execSwapRetry n s
  | .sinkRequestRetry n => Sys2Proof.Machine.execSinkRequestRetry n s
  | .psRdy n => Sys2Proof.Machine.execPsRdy n s
  | .psTransitionTimeout n => Sys2Proof.Machine.execPsTransitionTimeout n s
  | .psSourceTimeout n => Sys2Proof.Machine.execPsSourceTimeout n s
  | .prSwap n => Sys2Proof.Machine.execPrSwap n s
  | .drSwap n => Sys2Proof.Machine.execDrSwap n s
  | .heldSwapStart n => Sys2Proof.Machine.execHeldSwapStart n s
  | .vconnSwap n => Sys2Proof.Machine.execVconnSwap n s
  | .softReset n => Sys2Proof.Machine.execSoftReset n s
  | .hardReset n => Sys2Proof.Machine.execHardReset n s
  | .senderResponseTimeout n => Sys2Proof.Machine.execSenderResponseTimeout n s
  | .psHardResetExpiry n => Sys2Proof.Machine.execPsHardResetExpiry n s
  | .srcRecoverExpiry n => Sys2Proof.Machine.execSrcRecoverExpiry n s
  | .errorRecoveryEnd n => Sys2Proof.Machine.execErrorRecoveryEnd n s
  | .ppsTimeout n => Sys2Proof.Machine.execPpsTimeout n s
  | .ppsRequest n => Sys2Proof.Machine.execPpsRequest n s
  | .getSourceCap n => Sys2Proof.Machine.execGetSourceCap n s
  | .getSinkCap n => Sys2Proof.Machine.execGetSinkCap n s
  | .sinkCapabilities n pdos => Sys2Proof.Machine.execSinkCapabilities n pdos s
  | .alert n => Sys2Proof.Machine.execAlert n s
  | .getStatus n => Sys2Proof.Machine.execGetStatus n s
  | .getSourceCapExtended n => Sys2Proof.Machine.execGetSourceCapExtended n s
  | .getPpsStatus n => Sys2Proof.Machine.execGetPpsStatus n s
  | .getRevision n => Sys2Proof.Machine.execGetRevision n s
  | .discoverIdentity n => Sys2Proof.Machine.execDiscoverIdentity n s
  | .cableIdentity n ack fiveAmp => Sys2Proof.Machine.execCableIdentity n ack fiveAmp s
  | .discoverIdentityRetry n => Sys2Proof.Machine.execDiscoverIdentityRetry n s
  | .bist n carrier => Sys2Proof.Machine.execBist n carrier s
  | .notSupportedMessage n => Sys2Proof.Machine.execNotSupportedMessage n s
  | .psbTransactionDone ok value answering => Sys2Proof.Machine.execPsbTransactionDone ok value answering s
  | .psbTransactionTimeout => Sys2Proof.Machine.execPsbTransactionTimeout s
  | .psbAlertN => Sys2Proof.Machine.execPsbAlertN s
  | .vinMonFall => Sys2Proof.Machine.execVinMonFall s
  | .vinMonRise => Sys2Proof.Machine.execVinMonRise s
  | .alertHoldExpiry n => Sys2Proof.Machine.execAlertHoldExpiry n s
  -- the fuses and Press dies
  | .fastTrip n peak vbus => Sys2Proof.Machine.execFastTrip n peak vbus s
  | .inrushExpiry n peak vbus => Sys2Proof.Machine.execInrushExpiry n peak vbus s
  | .limitTimeExpiry n peak vbus => Sys2Proof.Machine.execLimitTimeExpiry n peak vbus s
  | .backoffExpiry n => Sys2Proof.Machine.execBackoffExpiry n s
  | .consecReset n => Sys2Proof.Machine.execConsecReset n s
  | .powerGood n vbus => Sys2Proof.Machine.execPowerGood n vbus s
  | .pgLost n vbus => Sys2Proof.Machine.execPgLost n vbus s
  | .vsafe0vReached n vbus => Sys2Proof.Machine.execVsafe0vReached n vbus s
  | .dschLate n vbus => Sys2Proof.Machine.execDschLate n vbus s
  | .pressLinkLoss d => Sys2Proof.Machine.execPressLinkLoss d s
  | .safePairSafe d => Sys2Proof.Machine.execSafePairSafe d s
  | .safePairRun d => Sys2Proof.Machine.execSafePairRun d s
  | .tripLine n => Sys2Proof.Machine.execTripLine n s
  | .tripEvent n => Sys2Proof.Machine.execTripEvent n s
  | .tripEventTimeout n => Sys2Proof.Machine.execTripEventTimeout n s
  | .pressEvent d e => Sys2Proof.Machine.execPressEvent d e s
  -- the fault collector
  | .lineFault n => Sys2Proof.Machine.execLineFault n s
  | .sourceAssert n context => Sys2Proof.Machine.execSourceAssert n context s
  | .fcSelf => Sys2Proof.Machine.execFcSelf s
  | .watermarkCopy => Sys2Proof.Machine.execWatermarkCopy s
  | .fcClearGo path source => Sys2Proof.Machine.execFcClearGo path source s
  | .fcClearAll path => Sys2Proof.Machine.execFcClearAll path s
  | .fcForceGo path source => Sys2Proof.Machine.execFcForceGo path source s
  | .fcForceRehearse path source => Sys2Proof.Machine.execFcForceRehearse path source s
  | .fcWmCtrlClear path => Sys2Proof.Machine.execFcWmCtrlClear path s
  -- register writes with a row of their own
  | .efuseCtrlClear path n => Sys2Proof.Machine.execEfuseCtrlClear path n s
  | .efuseCtrlAbortRetry path n => Sys2Proof.Machine.execEfuseCtrlAbortRetry path n s
  | .pdCtrlErrorRecovery path n => Sys2Proof.Machine.execPdCtrlErrorRecovery path n s
  | .pdCtrlSrcCap path n => Sys2Proof.Machine.execPdCtrlSrcCap path n s
  | .pdCtrlGetSnkCap path n => Sys2Proof.Machine.execPdCtrlGetSnkCap path n s
  | .pdCtrlRequest path n => Sys2Proof.Machine.execPdCtrlRequest path n s
  | .pdCtrlHardReset path n => Sys2Proof.Machine.execPdCtrlHardReset path n s
  | .pdCtrlSoftReset path n => Sys2Proof.Machine.execPdCtrlSoftReset path n s
  | .pdCtrlDrSwap path n => Sys2Proof.Machine.execPdCtrlDrSwap path n s
  | .pdCtrlPrSwap path n => Sys2Proof.Machine.execPdCtrlPrSwap path n s
  | .cplCtrlRetry path link => Sys2Proof.Machine.execCplCtrlRetry path link s
  | .cplCtrlLinkReset path link => Sys2Proof.Machine.execCplCtrlLinkReset path link s
  | .cplCtrlEnable path link => Sys2Proof.Machine.execCplCtrlEnable path link s
  | .chainPosWrite path value => Sys2Proof.Machine.execChainPosWrite path value s
  | .reamDnWrite path domain value => Sys2Proof.Machine.execReamDnWrite path domain value s
  | .unlock path value => Sys2Proof.Machine.execUnlock path value s
  | .guardRearm path => Sys2Proof.Machine.execGuardRearm path s
  | .updateGo path whenSel groups => Sys2Proof.Machine.execUpdateGo path whenSel groups s
  | .cancel path groups => Sys2Proof.Machine.execCancel path groups s
  | .wmbSelWrite value => Sys2Proof.Machine.execWmbSelWrite value s
  | .wmbD3Read => Sys2Proof.Machine.execWmbD3Read s
  | .pwrCfgWrite path sleep value => Sys2Proof.Machine.execPwrCfgWrite path sleep value s
  | .quireWordWrite path word value => Sys2Proof.Machine.execQuireWordWrite path word value s
  | .quireAck => Sys2Proof.Machine.execQuireAck s
  | .keyWordWrite path key index value => Sys2Proof.Machine.execKeyWordWrite path key index value s
  | .keySlotErase path key => Sys2Proof.Machine.execKeySlotErase path key s
  | .registerWrite path addr value => Sys2Proof.Machine.execRegisterWrite path addr value s
  -- UFP couplers, the transparent hub and the remaining pin events
  | .ufpControlRequest port setup => Sys2Proof.Machine.execUfpControlRequest port setup s
  | .ufpBusReset port superSpeed => Sys2Proof.Machine.execUfpBusReset port superSpeed s
  | .ufpSuspend port => Sys2Proof.Machine.execUfpSuspend port s
  | .ufpResume port => Sys2Proof.Machine.execUfpResume port s
  | .reportPoll link t2 t3 => Sys2Proof.Machine.execReportPoll link t2 t3 s
  | .ssPacket hubPort upstream bytes => Sys2Proof.Machine.execSsPacket hubPort upstream bytes s
  | .hubRemoteWake hubPort => Sys2Proof.Machine.execHubRemoteWake hubPort s
  | .ethLinkChange e up => Sys2Proof.Machine.execEthLinkChange e up s
  | .pressLinkRestored d => Sys2Proof.Machine.execPressLinkRestored d s
  | .faultCauseEnds n => Sys2Proof.Machine.execFaultCauseEnds n s
  | .boundaryScan instr data => Sys2Proof.Machine.execBoundaryScan instr data s

end Sys2Proof.Machine
end

