-- ==== Sys2Proof/WellFormed.lean ====
section
/-! DEFINITION. Which terms of `Instr` a row of the table can be: the ranges that the operand types leave open. -/

namespace Sys2Proof

/-- The instruction codes of the management SPI (R89). -/
def spiCodes : List Byte := [0x02, 0x03, 0x05, 0x0A, 0x0B]

/-- The ranges of a command's operands. -/
def Instr.wf : Instr → Bool
  | .regWr _ ws => decide (1 ≤ ws.length ∧ ws.length ≤ 16)               -- R89: 1 to 16 data words
  | .regRd _ n _ => decide (1 ≤ n)                                       -- a word is clocked
  | .badInstr c => !spiCodes.contains c                                  -- R89: any other instruction byte
  | .u0BusReset sp => decide (sp ≠ 0)                                    -- U0 runs at FS, HS or SuperSpeed
  | .resetSignallingEnd _ sp => decide (sp.toNat ≤ 2)                    -- R199: USB 2.0 speed detection
  | .sourceCapabilities _ _ p => decide (1 ≤ p.length ∧ p.length ≤ 7)    -- USB PD: 1 to 7 objects
  | .sinkCapabilities _ p => decide (1 ≤ p.length ∧ p.length ≤ 7)
  | .heartbeat c => decide (c < 12256)                                   -- R229: a subscription's context
  | .transferTimeout c => decide (c < 12288)                             -- R190: a context
  | .updateApply g => decide (g ≠ 0)                                     -- R403 check 1
  | _ => true

end Sys2Proof
end

