-- ==== Sys2Proof/Safety.lean ====
section
/-! DEFINITION. The terms that claims use: what a safe run is, when an accepted request may run, and what a command changes. -/

namespace Sys2Proof

open Sys2Proof.Machine

/-- Every waiting command is one that a row of the table can be. -/
def Safety.queueOk (s : State) : Prop := ∀ c ∈ s.pending, c.wf = true

/-- A step that neither faults nor is refused. -/
def Safety.goesOn (s : State) : Prop := ∃ t, step s = .next t

/-- The answer "the state with this device". -/
def Safety.gives (i : Instr) (s : State) (d : Dev) : Prop := exec i s = .next { s with dev := d }

/-- The answer of a row after which R18 is judged anew: the state with this device, the ports that have lost a condition of R18
withdrawn. -/
def Safety.sees (i : Instr) (s : State) (d : Dev) : Prop := exec i s = .next { s with dev := d.withdrawLost }

/-- The command answers a next state that keeps queue and straps, with a device of which P holds. -/
def Safety.does (i : Instr) (s : State) (P : Dev → Prop) : Prop := ∃ d, exec i s = .next { s with dev := d } ∧ P d

/-- The accepted request that `k` names is `rq`, of opcode `o`; its turn has come, a core executes, no chip reset is due, and
neither CHIP_SAFE nor the maintenance state refuses it (R100, R117, R383, R423, R440). -/
def Safety.turn (d : Dev) (k : ReqKey) (rq : Request) (o : Nat) : Prop :=
  d.findReq k = some rq ∧ rq.opcode.toNat = o ∧ d.mayStart rq = true ∧ d.executes = true ∧ d.resetDue = none ∧
    d.heldStatus o rq.params = none

end Sys2Proof
end

