-- ==== Sys2Proof/Certificates/Slice0/Obligations.lean ====
section
/-! DEFINITION. The statements for the provers. Completions say `Safety.gives` or `Safety.does`: the command answers a next
state that keeps the queue and the straps. A byte list written out is a layout of the spec. -/

open Sys2Proof Sys2Proof.Machine

/-! ## The block as a whole -/

/-- A step takes the command at the front of the queue and is its effect on the state with the queue's rest. -/
def Obligations.StepRunsHead : Prop :=
  ∀ (c : Instr) (rest : List Instr) (s : State), s.pending = c :: rest → step s = exec c { s with pending := rest }

/-- Every command completes, in every state, and leaves the queue alone: none of the 310 rows stops the block. With no command
waiting the block idles (the model's choice, log 1). Model's choices: log 1, 13. -/
def Obligations.CommandsComplete : Prop :=
  (∀ (i : Instr) (s : State), ∃ t, exec i s = .next t ∧ t.pending = s.pending) ∧ ∀ s : State, s.pending = [] → step s = .next s

/-- R43: the straps are sampled at the release of power-on reset and at each release of RESET_N; no other command changes them,
whatever it resets; and the STRAPS register shows them. -/
def Obligations.StrapsSampledAtReset : Prop :=
  (∀ st cs s, ∃ t, exec (.powerOn ⟨st, cs⟩) s = .next t ∧ t.straps = st) ∧
  (∀ st cs (s : State), s.dev.life = .reset → ∃ t, exec (.resetNRelease st cs) s = .next t ∧ t.straps = st) ∧
  (∀ (d : Dev) (st : Straps) (b : Bool), let v := (d.readReg st b 4).1
    bits v 0 4 = st.cfg.toNat ∧ v.getLsbD 4 = st.u0Db ∧ v.getLsbD 5 = st.cplDb) ∧
  (∀ (i : Instr) (s t : State), exec i s = .next t → t.straps ≠ s.straps →
    (∃ st cs, i = .powerOn ⟨st, cs⟩ ∧ t.straps = st) ∨ (∃ st cs, i = .resetNRelease st cs ∧ s.dev.life = .reset ∧ t.straps = st))

/-- The rows that may take the device into or out of reset, hibernation or dead-battery service. -/
def Safety.changesLife : Instr → Bool
  | .powerOn _ | .railTrip | .resetNAssert | .resetNRelease _ _ | .chipResetStart | .deadBatteryEntry _ | .deadBatteryVbusLoss
  | .hibernateEntry | .warmStart _ => true
  | _ => false

/-- No other command starts, stops or resets the device (R47 to R49, R55, R77, R311, R312). Model's choices: log 33. -/
def Obligations.LifeFrame : Prop :=
  ∀ (i : Instr) (s t : State), exec i s = .next t → Safety.changesLife i = false → t.dev.life = s.dev.life

/-- The rows that may write the flash: the firmware opcodes that write or name a preferred slot, and the boot ROM's directory. -/
def Safety.writesFlash : Instr → Bool
  | .fwWrite _ | .fwEraseDone _ | .fwActivate _ | .fwConfirm _ | .pdReady | .millWatchdog => true
  | _ => false

/-- Every byte of the flash is unchanged by every other command, resets included. Model's choices: log 6, 35. -/
def Obligations.FlashFrame : Prop :=
  ∀ (i : Instr) (s t : State), exec i s = .next t → Safety.writesFlash i = false → ∀ a, t.dev.cell a = s.dev.cell a

/-- Only BOUNDARY_SCAN touches the JTAG port's instruction, its register and what it shifted out (R46). -/
def Rows.ScanFrame : Prop :=
  ∀ (i : Instr) (s t : State), exec i s = .next t → (∀ c l, i ≠ .boundaryScan c l) →
    t.dev.jtag = s.dev.jtag ∧ t.dev.scan = s.dev.scan ∧ t.dev.jtagOut = s.dev.jtagOut

/-- The flash in canonical form: addresses rise, and no byte listed reads as an erased one. -/
def Safety.flashOk (s : State) : Prop := wfTab cellDflt s.dev.flash = true

/-- Every step keeps the flash in canonical form, and every waiting command well formed. Model's choices: log 6. -/
def Obligations.FlashCanonical : Prop :=
  ∀ s t : State, Safety.flashOk s ∧ Safety.queueOk s → step s = .next t → Safety.flashOk t ∧ Safety.queueOk t

/-- The state after reset has that form. Model's choices: log 5, 6. -/
def Obligations.ResetFlashCanonical : Prop := Safety.flashOk State.reset ∧ Safety.queueOk State.reset

/-! ## The opcodes (R416 to R442) -/

/-- IDENTIFY, STATUS, EVENTS and RESET: the responses are those of R421, the registration is that of R424, and R423's reset is
due once its OK response is queued. -/
def Rows.SystemOpcodes : Prop :=
  ∀ (k : ReqKey) (rq : Request) (s : State),
    (Safety.turn s.dev k rq 0x0001 → rq.params = [] → s.dev.dead = false →
      Safety.gives (.identify k) s (let a := s.dev
        a.okWith rq (leBytes 8 Config.chipUid.toNat ++ [0x32, 0x32, 0xB1, a.stateByte, a.positionByte, 0] ++ leBytes 2 a.epoch ++
          leBytes 4 (a.boot.mill.elim 0 (·.version.toNat)) ++ leBytes 4 (a.boot.couch.elim 0 (·.version.toNat)) ++
          leBytes 2 (a.boot.mill.elim 0 (·.avvEpoch.toNat)) ++ leBytes 2 (a.boot.couch.elim 0 (·.relayEpoch.toNat)) ++
          leBytes 2 (a.boot.mill.elim 0 (·.ownEpoch.toNat)) ++ leBytes 2 (a.boot.couch.elim 0 (·.ownEpoch.toNat)) ++
          leBytes 4 a.boot.ready.toNat ++ [0, 0, 0, 0]))) ∧
    (Safety.turn s.dev k rq 0x0001 → rq.params = [] → s.dev.dead = true →
      Safety.gives (.identify k) s (let a := s.dev
        a.okWith rq (leBytes 8 Config.chipUid.toNat ++ [0x32, 0x32, 0xB1, a.stateByte, a.positionByte, 0] ++ leBytes 2 a.epoch ++
          List.replicate 24 0))) ∧
    (Safety.turn s.dev k rq 0x0002 → rq.params = [] → s.dev.dead = false →
      Safety.gives (.status k) s (let a := s.dev
        a.okWith rq ([a.stateByte, BitVec.ofNat 8 a.power.state.code, BitVec.ofNat 8 a.deckle.state.code, 0] ++
          leBytes 6 a.deckle.beat.toNat ++ leBytes 2 a.deckle.mf ++ leBytes 4 a.boot.ready.toNat ++ wordBytes a.fcStatus ++
          leBytes 2 a.requests.length ++ leBytes 2 a.subsInEffect ++ leBytes 4 (a.shared % 2 ^ 17) ++
          [BitVec.ofNat 8 ((a.link 0).state.two + 4 * (a.link 1).state.two + 16 * (a.link 2).state.two +
             64 * (a.link 3).state.two),
           BitVec.ofNat 8 (b2n a.watermark.valid + 2 * (a.link 4).state.two), 0, 0]))) ∧
    (Safety.turn s.dev k rq 0x0005 → ∀ (c u : Byte) (p0 p1 p2 p3 : Byte), c.toNat < 128 → u.toNat < 2 →
      rq.params = [c, 0, 0, 0, p0, p1, p2, p3, u, 0, 0, 0, 0, 0, 0, 0] →
      Safety.gives (.events k) s ((s.dev.updSubr rq.sub.toNat fun x =>
        { x with classes := BitVec.ofNat 7 c.toNat, ports := p3 ++ p2 ++ p1 ++ p0, u0 := decide (u.toNat = 1) }).okWith rq [])) ∧
    (Safety.turn s.dev k rq 0x0003 → rq.params = [0, 0, 0, 0] →
      Safety.gives (.resetChip k) s (let a := s.dev
        { (a.failAll ((a.requests.filter fun r => r.phase = .accepted && !r.isFor rq.name).map Request.name)
            stResetAborted).okWith rq [] with resetDue := some (k, s.dev.deckle.mfCount + 80) })) ∧
    (Safety.turn s.dev k rq 0x0003 → ∀ n : Byte, n.toNat < 32 → rq.params = [1, n, 0, 0] →
      Safety.sees (.resetPort k) s
        ((let b := ((s.dev.loadPort n.toNat).portSourcesReset n.toNat).portChange n.toNat
          if s.dev.tcAttached n.toNat then b.pdTell n.toNat evDetach else b.pdChange n.toNat).okWith rq [])) ∧
    (∀ (j : ReqKey) (t : Nat), s.dev.up = true → s.dev.resetDue = some (j, t) →
      (s.dev.findReq j = none ∨ t ≤ s.dev.deckle.mfCount) →
      Safety.gives .chipResetStart s ((s.dev.freeBit.2.mainReset .chip).spiIgnores s.dev.freeBit.1).bringUp)

/-- READY (R422): it answers as soon as every bit of MASK is set; else at once with TIMEOUT when WAIT is 0; else it waits, and
answers when the bits are set or when WAIT microframes have passed. -/
def Rows.ReadyOpcode : Prop :=
  ∀ (k : ReqKey) (rq : Request) (s : State),
    (Safety.turn s.dev k rq 0x0004 → ∀ (m : BitVec 10) (w : BitVec 20), m ≠ 0 →
      rq.params = leBytes 2 m.toNat ++ [0, 0] ++ leBytes 4 w.toNat →
      Safety.gives (.ready k) s (let a := s.dev
        if s.dev.boot.ready &&& m = m then a.okWith rq (leBytes 4 s.dev.boot.ready.toNat)
        else if w = 0 then a.answer k stTimeout (leBytes 4 s.dev.boot.ready.toNat)
        else a.setReq k fun r => { r with phase := .waitReady m (s.dev.deckle.mfCount + w.toNat) })) ∧
    (∀ (m : BitVec 10) (t : Nat), s.dev.findReq k = some rq → rq.phase = .waitReady m t → s.dev.boot.ready &&& m = m →
      Safety.gives (.readyAnswer k) s (s.dev.okWith rq (leBytes 4 s.dev.boot.ready.toNat))) ∧
    (∀ (m : BitVec 10) (t : Nat), s.dev.findReq k = some rq → rq.phase = .waitReady m t → s.dev.boot.ready &&& m ≠ m →
      t ≤ s.dev.deckle.mfCount →
      Safety.gives (.readyWaitExpiry k) s (s.dev.answer k stTimeout (leBytes 4 s.dev.boot.ready.toNat)))

/-- The opcodes of group 0x00: IDENTIFY, STATUS, EVENTS, RESET and READY with the ends of its wait (R421 to R424).
Model's choices: log 14. -/
def Obligations.SystemOpcodes : Prop := Rows.SystemOpcodes ∧ Rows.ReadyOpcode

/-- REG_READ, REG_WRITE, WIDE_READ and UPDATE (R425, R426): words are read one by one; words are written in order until one is
refused, and DONE counts those written. Model's choices: log 14, 65. -/
def Obligations.RegisterOpcodes : Prop :=
  ∀ (k : ReqKey) (rq : Request) (s : State),
    (∀ (a n : Nat) (shadow : Bool), Safety.turn s.dev k rq 0x0101 → a < 2 ^ 24 → 1 ≤ n → n ≤ 1000 →
      rq.params = leBytes 4 a ++ leBytes 2 n ++ [if shadow then 1 else 0, 0] →
      (∀ i < n, mapped (a + 4 * i) = true ∧ isMailbox (a + 4 * i) = false) →
      Safety.gives (.regRead k) s (let r := s.dev.quireAck.readWords s.straps shadow a n
        r.2.okWith rq r.1)) ∧
    (∀ (a : Nat) (ws : List W32), Safety.turn s.dev k rq 0x0102 → a < 2 ^ 24 → 1 ≤ ws.length → ws.length ≤ 1000 →
      rq.params = leBytes 4 a ++ leBytes 2 ws.length ++ [0, 0] ++ wordsBytes ws →
      Safety.sees (.regWrite k) s (let r := s.dev.writeWords (k.sub, k.tag) false 0 stOk a ws
        r.2.2.answer k r.2.1 (leBytes 2 r.1 ++ [0, 0]))) ∧
    (∀ (x : W32) (ws : List W32), Safety.turn s.dev k rq 0x0103 → rq.params = wordBytes x →
      (s.dev.wideValue x).1 = some ws →
      Safety.gives (.wideRead k) s ((s.dev.wideValue x).2.okWith rq (wordsBytes ws))) ∧
    (∀ (g : Byte) (w : BitVec 2) (b : BeatNo), Safety.turn s.dev k rq 0x0104 → (w ≠ 3 → b = 0) →
      rq.params = [g, BitVec.ofNat 8 w.toNat, 0, 0] ++ leBytes 6 b.toNat ++ [0, 0] →
      Safety.gives (.update k) s (let r := s.dev.requestUpdate (some (k.sub, k.tag)) g w.toNat b
        r.2.fail k r.1)) ∧
    (∀ g : Byte, Safety.turn s.dev k rq 0x0104 → rq.params = [g, 0, 1, 0, 0, 0, 0, 0, 0, 0, 0, 0] →
      Safety.gives (.updateCancel k) s ((s.dev.cancelUpdates g).okWith rq []))

/-- PORT_RESET on a port in DEBOUNCE, RESETTING or RECOVERY gives BUSY; else it resets the port and waits for ENABLED, at most
500 ms; PORT_DISABLE takes ENABLED or SUSPENDED to ERROR; PORT_SUSPEND and PORT_RESUME; PORT_INFO; EFUSE_CLEAR (R427, R428).
Model's choices: log 14, 49, 109. -/
def Obligations.PortOpcodes : Prop :=
  ∀ (k : ReqKey) (rq : Request) (s : State) (n : Byte),
    (Safety.turn s.dev k rq 0x0201 → rq.params = [n, 0, 0, 0] → s.dev.isEmbedded n.toNat = true →
      ((s.dev.port n.toNat).state = .connected ∨ (s.dev.port n.toNat).state = .enabled ∨
        (s.dev.port n.toNat).state = .suspended ∨ (s.dev.port n.toNat).state = .error) →
      (∀ b, s.dev.binding (s.dev.port n.toNat).domain = some b → b.port = n.toNat) →
      Safety.gives (.portReset k) s ((s.dev.setReq k fun r =>
        { r with phase := .portReset n.toNat (s.dev.deckle.mfCount + 4000) }).enterResetting n.toNat)) ∧
    (∀ (p t : Nat), s.dev.findReq k = some rq → rq.phase = .portReset p t → t ≤ s.dev.deckle.mfCount →
      Safety.gives (.portResetTimeout k) s (s.dev.answer k stTimeout [])) ∧
    (Safety.turn s.dev k rq 0x0202 → rq.params = [n, 0, 0, 0] → s.dev.isEmbedded n.toNat = true →
      Safety.gives (.portDisable k) s (let a := s.dev
        (if (s.dev.port n.toNat).state = .enabled ∨ (s.dev.port n.toNat).state = .suspended then
          (a.cutXacts n.toNat fun _ => true).enterError n.toNat else a).okWith rq [])) ∧
    (Safety.turn s.dev k rq 0x0203 → rq.params = [n, 0, 0, 0] → s.dev.isRoot n.toNat = true → s.dev.isCoupler n.toNat = false →
      s.dev.maySuspend n.toNat = true →
      Safety.gives (.portSuspend k) s ((s.dev.suspendPort n.toNat).okWith rq [])) ∧
    (Safety.turn s.dev k rq 0x0204 → rq.params = [n, 0, 0, 0] → s.dev.isRoot n.toNat = true →
      (s.dev.port n.toNat).state = .suspended →
      Safety.gives (.portResume k) s ((s.dev.setReq k fun r =>
        { r with phase := .portResume n.toNat }).resumePort n.toNat false)) ∧
    (Safety.turn s.dev k rq 0x0205 → rq.params = [n, 0, 0, 0] → n.toNat < 32 →
      Safety.gives (.portInfo k) s (let a := s.dev
        a.okWith rq (wordBytes (a.portStatus n.toNat) ++ wordBytes (a.reg (0x100008 + 0x1000 * n.toNat)) ++
          wordBytes (a.portPwr n.toNat) ++ wordBytes (a.pdStatus n.toNat) ++ wordBytes (a.efuseStatus n.toNat) ++
          [BitVec.ofNat 8 (a.portLevel n.toNat + 8 * b2n (a.isHeld n.toNat)), 0, 0, 0]))) ∧
    (Safety.turn s.dev k rq 0x0205 → rq.params = [32, 0, 0, 0] →
      Safety.gives (.portInfo k) s (let a := s.dev
        a.okWith rq (wordBytes a.u0Status ++ List.replicate 8 0 ++ wordBytes (a.pdStatus 32) ++ List.replicate 8 0))) ∧
    (Safety.turn s.dev k rq 0x0206 → rq.params = [n, 0, 0, 0] → n.toNat < 32 →
      Safety.gives (.efuseClear k) s ((s.dev.latchClear n.toNat).okWith rq [])) ∧
    (Safety.turn s.dev k rq 0x0206 → rq.params = [n, 1, 0, 0] → n.toNat < 32 →
      Safety.gives (.efuseClearAbortRetry k) s ((s.dev.abortRetry n.toNat).okWith rq []))

/-- CONTROL_XFER, BULK_OUT and BULK_IN (R203, R204, R429, R430): a request on a device that is attached, for a context that takes
it, becomes a waiting transfer with its data, its length and its timeout. The default timeout applies for TIMEOUT 0. -/
def Rows.TransferOpcodes : Prop :=
  ∀ (k : ReqKey) (rq : Request) (s : State) (c : Nat) (dom adr ep : Byte) (w : BitVec 20),
    (dom.toNat < 4 ∧ adr.toNat < 128 ∧ rq.byTdi = false ∨ dom = 0 ∧ adr = 0) →
    s.dev.attached rq = some c →
    (∀ (su : Setup) (data : List Byte), Safety.turn s.dev k rq 0x0301 →
      rq.params = [dom, adr, 0, 0] ++ leBytes 4 w.toNat ++ [su.bmRequestType, su.bRequest] ++ leBytes 2 su.wValue.toNat ++
        leBytes 2 su.wIndex.toNat ++ leBytes 2 su.wLength.toNat ++ data →
      bit su.bmRequestType 7 = false → su.wLength.toNat = data.length → data.length ≤ 4032 → setsAddress su = false →
      Safety.gives (.controlXfer k) s (s.dev.startTransfer rq (newTransfer (.request rq.name) c true su
        data.length 0 (if w = 0 then 40000 else w.toNat) false) data)) ∧
    (∀ (su : Setup), Safety.turn s.dev k rq 0x0301 →
      rq.params = [dom, adr, 0, 0] ++ leBytes 4 w.toNat ++ [su.bmRequestType, su.bRequest] ++ leBytes 2 su.wValue.toNat ++
        leBytes 2 su.wIndex.toNat ++ leBytes 2 su.wLength.toNat →
      bit su.bmRequestType 7 = true → su.wLength.toNat ≤ 4096 →
      Safety.gives (.controlXfer k) s (s.dev.startTransfer rq (newTransfer
        (.request rq.name) c true su 0 su.wLength.toNat (if w = 0 then 40000 else w.toNat) false) [])) ∧
    (∀ (data : List Byte) (x : Nat), Safety.turn s.dev k rq 0x0302 → ep.toNat < 16 → data ≠ [] → data.length ≤ 4036 →
      rq.params = [dom, adr, ep, 0] ++ leBytes 4 w.toNat ++ [0, 0, 0, 0] ++ data →
      s.dev.target rq = some x → (s.dev.ctx x).type = 2 → (s.dev.ctx x).dirIn = false → (s.dev.ctx x).state = 1 →
      s.dev.mayUse rq x = true →
      Safety.gives (.bulkOut k) s (s.dev.startTransfer rq (newTransfer (.request rq.name) x false
        (setupAt [] 0) data.length 0 (if w = 0 then 80000 else w.toNat) false) data)) ∧
    (∀ (n x : Nat), Safety.turn s.dev k rq 0x0303 → 128 ≤ ep.toNat → ep.toNat % 128 < 16 → ep.toNat ≠ 128 → 1 ≤ n →
      n ≤ 65536 → rq.params = [dom, adr, ep, 0] ++ leBytes 4 w.toNat ++ leBytes 4 n →
      s.dev.target rq = some x → (s.dev.ctx x).type = 2 → (s.dev.ctx x).dirIn = true → (s.dev.ctx x).state = 1 →
      s.dev.mayUse rq x = true →
      Safety.gives (.bulkIn k) s (s.dev.startTransfer rq (newTransfer (.request rq.name) x false
        (setupAt [] 0) 0 n (if w = 0 then 80000 else w.toNat) false) []))

/-- ENDPOINT_OPEN and ENDPOINT_CLOSE (R194, R195, R431): a new endpoint of an attached device takes a FREE context of its
domain, owned by the requester; closing names one context, or every context of the device. -/
def Rows.EndpointOpcodes : Prop :=
  ∀ (k : ReqKey) (rq : Request) (s : State) (c : Nat),
    s.dev.attached rq = some c →
    (∀ x, Safety.turn s.dev k rq 0x0304 → rq.openOk = true → (openParams rq.params).type ≠ 1 → rq.ep ≠ 0 →
      (openParams rq.params).fits (s.dev.ctx c).speed = true →
      s.dev.epCtx rq.dom rq.addr rq.ep (rq.dirIn && (openParams rq.params).type ≠ 0) = none → s.dev.freeCtx rq.dom = some x →
      Safety.gives (.endpointOpen k) s
        (((s.dev.setCtx x (newCtx (s.dev.ctx c) rq (openParams rq.params) x)).workFor x).okWith rq
          (leBytes 2 x ++ [0, 0])) ∧
        (newCtx (s.dev.ctx c) rq (openParams rq.params) x).state = 1 ∧
        (newCtx (s.dev.ctx c) rq (openParams rq.params) x).owned = true ∧
        (newCtx (s.dev.ctx c) rq (openParams rq.params) x).owner = rq.sub.toNat ∧
        (newCtx (s.dev.ctx c) rq (openParams rq.params) x).mps = leAt rq.params 6 2) ∧
    (Safety.turn s.dev k rq 0x0304 → rq.openOk = true → (openParams rq.params).type = 1 →
      Safety.gives (.endpointOpen k) s (s.dev.fail k stUnsupported)) ∧
    (∀ x, Safety.turn s.dev k rq 0x0305 → rq.tgtOk = true → rq.params.drop 4 = [0, 0, 0, 0] → s.dev.target rq = some x →
      s.dev.mayUse rq x = true →
      Safety.gives (.endpointClose k) s (s.dev.closeAll k [x])) ∧
    (Safety.turn s.dev k rq 0x0305 → rq.tgtOk = true → rq.params.drop 4 = [1, 0, 0, 0] →
      Safety.gives (.endpointCloseDevice k) s (s.dev.closeAll k
        (s.dev.ctxsWhere fun x => x.domain = rq.dom && x.addr = rq.addr && !x.cpl)))

/-- The Transfer and Endpoint opcodes (R194, R195, R203, R204, R429 to R431). Model's choices: log 14, 54, 55, 91, 94. -/
def Obligations.TransferOpcodes : Prop := Rows.TransferOpcodes ∧ Rows.EndpointOpcodes

/-- SUBSCRIBE, UNSUBSCRIBE, SHEET_READ and PERIODIC_WRITE (R232, R235, R241, R432): an admitted subscription is recorded and
answered with its 16 bytes; the sheet is read with the moment of its last update, and written whole.
Model's choices: log 14, 55, 57, 100. -/
def Obligations.PeriodicOpcodes : Prop :=
  ∀ (k : ReqKey) (rq : Request) (s : State) (c0 c : Nat) (x : Subscription),
    s.dev.attached rq = some c0 → s.dev.target rq = some c → s.dev.mayUse rq c = true →
    (∀ (ph mf sl : Nat) (ts : List Token), Safety.turn s.dev k rq 0x0401 → s.dev.subscribeOk rq = true →
      s.dev.subRefusal rq (subParams rq.params) c = none →
      s.dev.place c (s.dev.nextOrder (s.dev.ctx c).port) ((subParams rq.params).unit = 1) (subParams rq.params).period
        (if leAt rq.params 8 2 = 0xFFFF then none else some (leAt rq.params 8 2))
        (if leAt rq.params 10 2 = 0xFFFF then none else some (leAt rq.params 10 2))
        (if byteAt rq.params 12 = 8 then none else some (byteAt rq.params 12)) = .ok (ph, mf, sl, ts) →
      s.dev.claimSheet (subParams rq.params).cls (s.dev.ctx c).payload ≠ none →
      Safety.does (.subscribe k) s fun d => ∃ y, d.subscription c = some y ∧ y.owner = rq.sub ∧ y.phase = ph ∧ y.mf = mf ∧
        y.slot = sl ∧ y.tokens = ts ∧ y.empty = true ∧ y.ended = false ∧ y.isOut = !(s.dev.ctx c).dirIn) ∧
    (s.dev.subscription c = some x → x.ended = false →
      (Safety.turn s.dev k rq 0x0402 → rq.params.length = 4 →
        Safety.gives (.unsubscribe k) s ((s.dev.endSubscription c none).okWith rq [])) ∧
      (Safety.turn s.dev k rq 0x0403 → ∀ (v : List Byte) (d : Dev), s.dev.readSheet rqMill false x.place x.sheetLen = (v, false, d) →
        x.sheetPoison = false →
        Safety.gives (.sheetRead k) s ((d.okWith rq
          (leBytes 6 x.updBeat.toNat ++ leBytes 2 x.updMf ++ [BitVec.ofNat 8 x.updSlot, BitVec.ofNat 8 (b2n x.empty)] ++
            leBytes 2 v.length ++ v)).vatAlarms)) ∧
      (Safety.turn s.dev k rq 0x0403 → ∀ (v : List Byte) (bad : Bool) (d : Dev),
        s.dev.readSheet rqMill false x.place x.sheetLen = (v, bad, d) → x.sheetPoison = true ∨ bad = true →
        Safety.gives (.sheetRead k) s ((d.fail k stPoisoned).vatAlarms)) ∧
      (Safety.turn s.dev k rq 0x0404 → x.isOut = true → 5 ≤ rq.params.length →
        rq.params.length - 4 ≤ (s.dev.ctx c).payload →
        Safety.gives (.periodicWrite k) s (((s.dev.writeSheet rqMill x.place (rq.params.drop 4)).updSub c fun y =>
          { y with sheetLen := rq.params.length - 4, empty := false, sheetPoison := rq.poison, pending := true, written := true,
                   acked := false, updBeat := s.dev.deckle.beat, updMf := s.dev.deckle.mf,
                   updSlot := s.dev.deckle.slot }).okWith rq [])))

/-- PWR_STATE and PD_INFO (R433, R434). DOZE is judged without the request's own tag. -/
def Rows.PowerOpcodes : Prop :=
  ∀ (k : ReqKey) (rq : Request) (s : State),
    (Safety.turn s.dev k rq 0x0501 → rq.params = [0, 0, 0, 0] →
      Safety.gives (.pwrStateActive k) s (let b := s.dev.pwrActive
        b.okWith rq [BitVec.ofNat 8 b.power.state.code, 0, 0, 0])) ∧
    (Safety.turn s.dev k rq 0x0501 → rq.params = [2, 0, 0, 0] →
      Safety.gives (.pwrStateDoze k) s (let a := s.dev
        if s.dev.dozeAllowed k then a.okWith rq [BitVec.ofNat 8 a.power.state.code, 0, 0, 0]
        else a.answer k stBusy (leBytes 4 s.dev.powerBlock))) ∧
    (∀ n : Byte, Safety.turn s.dev k rq 0x0502 → rq.params = [n, 0, 0, 0] → n.toNat ≤ 32 →
      Safety.gives (.pdInfo k) s (let a := s.dev
        a.okWith rq (wordBytes (a.pdStatus n.toNat) ++ wordBytes (a.pdContract n.toNat) ++ wordBytes (a.pdCable n.toNat) ++
          wordBytes (a.reg (0x180018 + 0x1000 * n.toNat)) ++
          ((List.range 7).flatMap fun i => wordBytes (a.reg (0x180060 + 0x1000 * n.toNat + 4 * i))))))

/-- The row of each ACTION of PD_ACTION. -/
def Safety.pdRow (k : ReqKey) (act : Nat) : Instr :=
  [.pdActionPrSwap k, .pdActionDrSwap k, .pdActionSoftReset k, .pdActionHardReset k, .pdActionSrcCap k, .pdActionRequest k,
    .pdActionGetSnkCap k].getD act (.pdActionErrorRecovery k)

/-- HARD_RESET and ERROR_RECOVERY may end R18 on a port: the ports that have lost a condition are withdrawn. -/
def Safety.pdJudged (act : Nat) (d : Dev) : Dev := if act = 3 ∨ act = 7 then d.withdrawLost else d

/-- PD_ACTION (R434): on an Attached port whose role takes the action, the request waits and the engine does what the matching
PD_CTRL bit does; on an Unattached port it ends with DETACHED. One clause per way, for each of the eight actions. -/
def Rows.PdActionOpcodes : Prop :=
  ∀ (k : ReqKey) (rq : Request) (s : State) (n act : Byte),
    Safety.turn s.dev k rq 0x0503 → act.toNat < 8 → rq.params = [n, act, 0, 0] →
    (n.toNat < 32 ∨ n.toNat = 32 ∧ (act.toNat = 2 ∨ act.toNat = 3 ∨ act.toNat = 5)) →
    (s.dev.tcUnattached n.toNat = false → s.dev.actionFits n.toNat act.toNat = true → s.dev.pdMustWait n.toNat act.toNat = false →
      (act.toNat = 7 ∨ s.dev.pdTalks n.toNat = true) →
      Safety.gives (Safety.pdRow k act.toNat) s (Safety.pdJudged act.toNat ((s.dev.setReq k fun r =>
        { r with phase := .pdAction n.toNat act.toNat }).pdAct n.toNat act.toNat))) ∧
    (s.dev.tcUnattached n.toNat = true → s.dev.pdMustWait n.toNat act.toNat = false →
      Safety.gives (Safety.pdRow k act.toNat) s (Safety.pdJudged act.toNat (s.dev.fail k stDetached)))

/-- The Power opcodes: PWR_STATE, PD_INFO, and the eight actions of PD_ACTION (R433, R434). Model's choices: log 14, 50, 51. -/
def Obligations.PowerOpcodes : Prop := Rows.PowerOpcodes ∧ Rows.PdActionOpcodes

/-- FAULT_READ, FAULT_CLEAR and FAULT_FORCE (R385, R387, R388, R435): the status block and the words of each source; a clear with
its count of refusals; a force and a rehearsal with LEVEL and C. Model's choices: log 14, 70, 108. -/
def Obligations.FaultOpcodes : Prop :=
  ∀ (k : ReqKey) (rq : Request) (s : State) (i : Nat), i < 512 →
    (∀ n, Safety.turn s.dev k rq 0x0601 → i + n ≤ 512 → rq.params = leBytes 2 i ++ leBytes 2 n →
      Safety.gives (.faultRead k) s (let a := s.dev
        a.okWith rq (wordBytes a.fcStatus ++ [0, 0, 0, 0] ++
          (List.range n).flatMap fun j => wordBytes (a.srcStat (i + j)) ++ wordBytes (a.reg (0x011000 + 4 * (i + j)))))) ∧
    (Safety.turn s.dev k rq 0x0602 → rq.params = leBytes 2 i ++ [0, 0] → (s.dev.src i).level ≠ 4 →
      Safety.gives (.faultClear k) s (let r := s.dev.clearSource i
        if r.1 then r.2.answer k stCausePresent [1, 0, 0, 0] else r.2.okWith rq [0, 0, 0, 0])) ∧
    (Safety.turn s.dev k rq 0x0602 → rq.params = leBytes 2 i ++ [0, 0] → (s.dev.src i).level = 4 →
      Safety.gives (.faultClear k) s (s.dev.answer k stNotPermitted [])) ∧
    (Safety.turn s.dev k rq 0x0602 → rq.params = leBytes 2 i ++ [1, 0] →
      Safety.gives (.faultClearAll k) s (let r := s.dev.clearAll
        r.2.answer k (if r.1 = 0 then stOk else stCausePresent) (leBytes 2 r.1 ++ [0, 0]))) ∧
    (Safety.turn s.dev k rq 0x0602 → rq.params = [0, 0, 2, 0] →
      Safety.gives (.faultClearWatermark k) s (s.dev.clearWatermark.okWith rq [0, 0, 0, 0])) ∧
    (Safety.turn s.dev k rq 0x0603 → srcUsed i = true → rq.params = leBytes 2 i ++ [0, 0] →
      Safety.sees (.faultForce k) s (let b := s.dev.force i
        b.okWith rq [BitVec.ofNat 8 (bits b.fc.result 27 3), BitVec.ofNat 8 (bits b.fc.result 16 8), 0, 0])) ∧
    (∀ x, Safety.turn s.dev k rq 0x0603 → srcUsed i = true → srcKind i = some x → x.1 ≠ 0 →
      rq.params = leBytes 2 i ++ [1, 0] →
      Safety.gives (.faultForceRehearse k) s (let b := s.dev.rehearse i
        b.okWith rq [BitVec.ofNat 8 (bits b.fc.result 27 3), BitVec.ofNat 8 (bits b.fc.result 16 8), 0, 0]))

/-- Key n stands in the Quire, and is valid (R411). -/
def Safety.holdsKey (d : Dev) (n : Nat) (k0 k1 k2 k3 : W32) : Prop :=
  d.qword (keyFirst n) = k0 ∧ d.qword (keyFirst n + 1) = k1 ∧ d.qword (keyFirst n + 2) = k2 ∧ d.qword (keyFirst n + 3) = k3 ∧
    (d.qword (keyValidWord n)).getLsbD (n % 32) = true

/-- QUIRE_WRITE, KEY_WRITE and KEY_ERASE (R401, R411, R436): QUIRE_WRITE writes its words in order with their unlock, and stops at one
that it may not write; a single word that it may write holds what its layout stores, and DONE is 1. KEY_WRITE leaves the four key
words and the key valid, and then the range and the permissions of a key slot; KEY_ERASE leaves the key zero and empty, and an erased
key slot no range and no permissions. Model's choices: log 14, 65, 111. -/
def Obligations.KeyOpcodes : Prop :=
  ∀ (k : ReqKey) (rq : Request) (s : State), wfTab quireDefault s.dev.quire.words = true →
    (∀ (w : Nat) (ws : List W32), Safety.turn s.dev k rq 0x0701 → 1 ≤ ws.length → ws.length ≤ 64 → w + ws.length ≤ 4096 →
      rq.params = leBytes 2 w ++ leBytes 2 ws.length ++ wordsBytes ws →
      Safety.gives (.quireWrite k) s (let r := s.dev.writeQuireWords (k.sub, k.tag) 0 stOk w ws
        r.2.2.answer k r.2.1 (leBytes 2 r.1 ++ [0, 0]))) ∧
    (∀ (w : Nat) (v : W32), Safety.turn s.dev k rq 0x0701 → w < 4096 → rq.params = leBytes 2 w ++ [1, 0] ++ wordBytes v →
      quireBarred w = false → s.dev.quireJudge w v = true → s.dev.wear w < 1000000 →
      let d := (s.dev.quireAck.makeQuire w v).2.quireAck
      Safety.gives (.quireWrite k) s (d.answer k stOk [1, 0, 0, 0]) ∧
        ((∃ m, quireKind w = .field m) ∨ (∃ a, quireKind w = .supplies a) → d.qword w = quireMerge w v)) ∧
    (∀ (d : Dev) who done st w v ws, quireBarred w = true → d.writeQuireWords who done st w (v :: ws) = (done, stBadParam, d)) ∧
    (∀ (n : Byte) (k0 k1 k2 k3 : W32) (lo hi : BitVec 10) (perm : BitVec 12), Safety.turn s.dev k rq 0x0702 → n.toNat < 64 →
      lo.toNat ≤ hi.toNat →
      rq.params = [n, 0, 0, 0] ++ wordBytes k0 ++ wordBytes k1 ++ wordBytes k2 ++ wordBytes k3 ++ leBytes 2 lo.toNat ++
        leBytes 2 hi.toNat ++ leBytes 2 perm.toNat ++ [0, 0] →
      let f := keyFirst n.toNat
      let r := s.dev.guardedWrites (k.sub, k.tag) [(f, k0), (f + 1, k1), (f + 2, k2), (f + 3, k3),
        (0x1C0 + 2 * n.toNat, at_ hi.toNat 16 ||| at_ lo.toNat 0), (0x1C1 + 2 * n.toNat, at_ perm.toNat 0)]
      Safety.gives (.keyWrite k) s (r.2.answer k (if r.1 then stWearFlagged else stOk) []) ∧
        ((∀ w < 4096, s.dev.wear w < 1000000) → r.1 = false ∧ Safety.holdsKey r.2 n.toNat k0 k1 k2 k3 ∧
          r.2.qword (0x1C0 + 2 * n.toNat) = at_ hi.toNat 16 ||| at_ lo.toNat 0 ∧
          r.2.qword (0x1C1 + 2 * n.toNat) = at_ perm.toNat 0)) ∧
    (∀ (x : Bool) (k0 k1 k2 k3 : W32), Safety.turn s.dev k rq 0x0702 →
      rq.params = [if x then 0x81 else 0x80, 0, 0, 0] ++ wordBytes k0 ++ wordBytes k1 ++ wordBytes k2 ++ wordBytes k3 ++
        List.replicate 8 0 →
      let n := if x then 65 else 64
      let f := keyFirst n
      let r := s.dev.guardedWrites (k.sub, k.tag) [(f, k0), (f + 1, k1), (f + 2, k2), (f + 3, k3)]
      Safety.gives (.keyWrite k) s (r.2.answer k (if r.1 then stWearFlagged else stOk) []) ∧
        ((∀ w < 4096, s.dev.wear w < 1000000) → r.1 = false ∧ Safety.holdsKey r.2 n k0 k1 k2 k3)) ∧
    (∀ n : Byte, Safety.turn s.dev k rq 0x0703 → n.toNat < 64 → rq.params = [n, 0, 0, 0] →
      let d := (s.dev.guardedWrites (k.sub, k.tag) [(0x1C1 + 2 * n.toNat, 0x80000000)]).2
      Safety.gives (.keyErase k) s (d.okWith rq []) ∧ ((∀ w < 4096, s.dev.wear w < 1000000) →
        (∀ i < 4, d.qword (keyFirst n.toNat + i) = 0) ∧ (d.qword (keyValidWord n.toNat)).getLsbD (n.toNat % 32) = false ∧
        d.qword (0x1C0 + 2 * n.toNat) = 0 ∧ d.qword (0x1C1 + 2 * n.toNat) = 0)) ∧
    (∀ x : Bool, Safety.turn s.dev k rq 0x0703 → rq.params = [if x then 0x81 else 0x80, 0, 0, 0] →
      let n := if x then 65 else 64
      let d := (s.dev.guardedWrites (k.sub, k.tag) [(0x09B, if x then 2 else 1)]).2
      Safety.gives (.keyErase k) s (d.okWith rq []) ∧ ((∀ w < 4096, s.dev.wear w < 1000000) →
        (∀ i < 4, d.qword (keyFirst n + i) = 0) ∧ (d.qword (keyValidWord n)).getLsbD (n % 32) = false))

/-- The Firmware opcodes (R81, R437, R438): an FW_WRITE at OFFSET 0 starts the slot's erase and waits; the whole slot then reads
erased but for the chunk, which is programmed at its start; a later chunk goes to POSITION; FW_VERIFY notes what the checks
found, and FW_ACTIVATE takes a verified slot only. Model's choices: log 9, 14, 69, 70, 75, 76. -/
def Obligations.FirmwareOpcodes : Prop :=
  ∀ (k : ReqKey) (rq : Request) (s : State) (img sl : Byte) (x : Nat),
    (img = 1 ∨ img = 2) → (sl = 0 ∨ sl = 1) → x = 2 * (img.toNat - 1) + sl.toNat →
    (Safety.turn s.dev k rq 0x0801 → rq.params = [] →
      Safety.gives (.fwInfo k) s (let a := s.dev
        a.okWith rq (wordBytes a.bootStatus ++ [0, 0, 0, 0] ++ a.slotEntry 0 ++ a.slotEntry 1 ++ a.slotEntry 2 ++ a.slotEntry 3))) ∧
    (∀ data : List Byte, Safety.turn s.dev k rq 0x0802 → 1 ≤ data.length → data.length ≤ 4040 →
      s.dev.slotRuns x = false → s.dev.slotErasing x = none → rq.params = [img, sl, 0, 0, 0, 0, 0, 0] ++ data →
      Safety.gives (.fwWrite k) s ((((s.dev.setSlotVerified x false).eraseFlash (slotBase x)
        (slotSize x)).setSlotErasing x (some k)).setReq k
        fun r => { r with phase := .fwErase (slotAt x) })) ∧
    (∀ (off : Nat) (data : List Byte), Safety.turn s.dev k rq 0x0802 → 1 ≤ data.length → data.length ≤ 4040 → 0 < off →
      off = s.dev.slotPosition x → off + data.length ≤ slotSize x → s.dev.slotRuns x = false → s.dev.slotErasing x = none →
      rq.params = [img, sl, 0, 0] ++ leBytes 4 off ++ data →
      Safety.gives (.fwWrite k) s ((((s.dev.setSlotVerified x false).programFlash (slotBase x + off)
        data).setSlotPosition x (off + data.length)).okWith rq (leBytes 4 (off + data.length)))) ∧
    (s.dev.findReq k = some rq → rq.phase = .fwErase (slotAt x) → Safety.flashOk s →
      Safety.does (.fwEraseDone k) s fun d => ∀ a, d.cell a =
        if slotBase x ≤ a ∧ a < slotBase x + (rq.params.drop 8).length then (rq.params.drop 8).getD (a - slotBase x) 0
        else if slotBase x ≤ a ∧ a < slotBase x + slotSize x then 0xFF else s.dev.cell a) ∧
    (Safety.turn s.dev k rq 0x0803 → s.dev.slotErasing x = none → rq.params = [img, sl, 0, 0] →
      Safety.gives (.fwVerify k) s (let r := s.dev.checkSlot x
        ((s.dev.setSlotResult x r).setSlotVerified x (s.dev.slotVerified x || r = 1)).okWith rq [BitVec.ofNat 8 r, 0, 0, 0])) ∧
    (∀ m : Byte, (m = 0 ∨ m = 1) → Safety.turn s.dev k rq 0x0804 → s.dev.slotVerified x = true → s.dev.slotErasing x = none →
      rq.params = [img, sl, m, 0] →
      Safety.gives (.fwActivate k) s ((s.dev.writeDirectory
        (if x < 2 then { s.dev.directory with millPrefB := x = 1, millTrial := m = 0, millUsed := false }
         else { s.dev.directory with couchPrefB := x = 3, couchTrial := m = 0, couchUsed := false })).okWith rq [])) ∧
    (∀ m : Byte, (m = 0 ∨ m = 1) → Safety.turn s.dev k rq 0x0804 → s.dev.slotVerified x = false → rq.params = [img, sl, m, 0] →
      Safety.gives (.fwActivate k) s (s.dev.fail k stBadParam)) ∧
    (Safety.turn s.dev k rq 0x0805 → rq.params = [] → s.dev.boot.trial = true →
      Safety.does (.fwConfirm k) s fun d => d.boot.trial = false)

/-- SELFTEST and MAINT (R439, R440). The results that the hardware finds are operands; which trip times of EFUSE_TRIP count as
failures is not stated, and RESULT is a free bit there. Model's choices: log 14, 69. -/
def Obligations.SelftestOpcodes : Prop :=
  ∀ (k : ReqKey) (rq : Request) (s : State) (n : Byte),
    (Safety.turn s.dev k rq 0x0901 → rq.params = [0, 0, 0, 0] → s.dev.vat.spare ≠ none →
      Safety.gives (.selftestVatSpare k) s (s.dev.setReq k fun r => { r with phase := .selftest })) ∧
    (Safety.turn s.dev k rq 0x0901 → rq.params = [0, 0, 0, 0] → s.dev.vat.spare = none →
      Safety.gives (.selftestVatSpare k) s (s.dev.fail k stNoResource)) ∧
    (∀ f, Safety.turn s.dev k rq 0x0901 → rq.params = [1, n, 0, 0] → n.toNat < 4 →
      Safety.gives (.selftestAdc k f) s (s.dev.okWith rq
        (match f with | none => [0, 0, 0, 0, 0xFF, 0xFF, 0xFF, 0xFF] | some c => [1, 0, 0, 0, c, 0, 0, 0]))) ∧
    (∀ f, Safety.turn s.dev k rq 0x0901 → rq.params = [2, n, 0, 0] → n.toNat < 32 →
      Safety.gives (.selftestPort k f) s (let a := s.dev
        if s.dev.isDisabled n.toNat then a.okWith rq ([if f = 0 then 0 else 1, 0, 0, 0] ++ wordBytes f) else a.fail k stBusy)) ∧
    (∀ t, Safety.turn s.dev k rq 0x0901 → rq.params = [3, n, 0, 0] → n.toNat < 32 → s.dev.isHeld n.toNat = false →
      ((s.dev.fuse n.toNat).state = .off ∨ (s.dev.fuse n.toNat).state = .latched ∨ (s.dev.fuse n.toNat).state = .backoff) →
      Safety.gives (.selftestEfuseTrip k t) s (let a := s.dev
        ({ a with freeCtr := a.freeCtr + 1 }).okWith rq
          ([if Config.freeBit s.dev.freeCtr then 1 else 0, 0, 0, 0] ++ wordBytes t))) ∧
    (∀ f, Safety.turn s.dev k rq 0x0901 → rq.params = [4, 0, 0, 0] →
      Safety.gives (.selftestFull k f) s (let a := s.dev
        if s.dev.maint then a.okWith rq [if f = 0 then 0 else 1, 0, 0, 0, BitVec.ofNat 8 f.toNat, 0, 0, 0]
        else a.fail k stNotPermitted)) ∧
    (Safety.turn s.dev k rq 0x0902 → rq.params = [1, 0, 0, 0] → (∀ p < 32, s.dev.isDisabled p = true) →
      (∀ e ∈ s.dev.subscriptions, e.2 = none) → (∀ e ∈ s.dev.ctxs, e.2.state = 0) →
      Safety.gives (.maintEnter k) s { s.dev.okWith rq [] with maint := true }) ∧
    (Safety.turn s.dev k rq 0x0902 → rq.params = [1, 0, 0, 0] →
      ((∃ p < 32, s.dev.isDisabled p = false) ∨ (∃ e ∈ s.dev.subscriptions, e.2 ≠ none) ∨ (∃ e ∈ s.dev.ctxs, e.2.state ≠ 0)) →
      Safety.gives (.maintEnter k) s (s.dev.fail k stBusy)) ∧
    (Safety.turn s.dev k rq 0x0902 → rq.params = [0, 0, 0, 0] →
      Safety.gives (.maintLeave k) s { s.dev.okWith rq [] with maint := false })

/-- The Train chain, TDI map and Statistics opcodes (R264, R265, R441, R442). Model's choices: log 14, 70. -/
def Obligations.ChainOpcodes : Prop :=
  ∀ (k : ReqKey) (rq : Request) (s : State) (n : Nat),
    (∀ (v : Bool) (p : BitVec 6), Safety.turn s.dev k rq 0x0A01 → rq.params = [BitVec.ofNat 8 (b2n v * 128 + p.toNat), 0, 0, 0] →
      Safety.gives (.chainSet k) s { s.dev.okWith rq [] with
        chainDue := some (k, at_ (b2n v) 31 ||| at_ p.toNat 0, s.dev.deckle.mfCount + 80) }) ∧
    (∀ v t, s.dev.chainDue = some (k, v, t) → (s.dev.findReq k = none ∨ t ≤ s.dev.deckle.mfCount) →
      Safety.gives (.chainSetApply k) s ({ s.dev with chainDue := none }.chainPos v)) ∧
    (∀ (f : Nat) (es : List Byte), Safety.turn s.dev k rq 0x0A02 → 1 ≤ es.length → f + es.length ≤ 64 →
      rq.params = [BitVec.ofNat 8 f, BitVec.ofNat 8 es.length, 0, 0] ++ es → (∀ e ∈ es, bits e 3 4 = 0) →
      s.dev.encAll (0x1E0100 + 4 * f) (es.map routeValue) = true →
      Safety.gives (.routeWrite k) s ((s.dev.setRegs (0x1E0100 + 4 * f) (es.map fun e =>
        at_ (bits e 7 1) 31 ||| at_ (bits e 0 3) 0)).okWith rq [])) ∧
    (∀ (f : Nat) (es : List W32), Safety.turn s.dev k rq 0x0A03 → 1 ≤ es.length → es.length ≤ 1000 → f + es.length ≤ 4096 →
      rq.params = leBytes 2 f ++ leBytes 2 es.length ++ wordsBytes es → (∀ e ∈ es, e &&& 0x7FC0FC80 = 0) →
      s.dev.encAll (0x0F0000 + 4 * f) es = true →
      Safety.gives (.tdiWrite k) s ((s.dev.setRegs (0x0F0000 + 4 * f) es).okWith rq [])) ∧
    (∀ f, Safety.turn s.dev k rq 0x0A04 → f + n ≤ 4096 → rq.params = leBytes 2 f ++ leBytes 2 n →
      Safety.gives (.tdiRead k) s (let a := s.dev
        a.okWith rq ((List.range n).flatMap fun i => wordBytes (a.reg (0x0F0000 + 4 * (f + i)))))) ∧
    (∀ act : Fin 3, Safety.turn s.dev k rq 0x0A05 → n < 5 → (n < 4 → s.dev.isCoupler n = true) → (n = 4 → s.dev.u0.relayEn = true) →
      rq.params = [BitVec.ofNat 8 n, BitVec.ofNat 8 act.val, 0, 0] →
      Safety.gives ([.linkEnable k, .linkEnableRetry k, .linkEnableLinkReset k].getD act.val (.linkEnable k)) s
        (let a := s.dev
         let b := a.cplCtrl n (a.reg (0x1E0404 + 0x40 * n) ||| [1, 4, 2].getD act.val 0)
         b.okWith rq [BitVec.ofNat 8 (b.link n).state.code, 0, 0, 0])) ∧
    (Safety.turn s.dev k rq 0x0A06 → rq.params = [] →
      Safety.gives (.chainInfo k) s (let a := s.dev
        a.okWith rq ([a.positionByte, 0, 0, 0] ++ ((List.range 5).flatMap fun i =>
          wordBytes (a.cplStatus i) ++ wordBytes (a.cplNbr i) ++ leBytes 8 (a.link i).nbrUid.toNat)))) ∧
    (∀ (xs : List W32) (bs : List Byte), Safety.turn s.dev k rq 0x0B01 → 1 ≤ xs.length → xs.length ≤ 252 →
      rq.params = leBytes 2 xs.length ++ [0, 0] ++ wordsBytes xs →
      (s.dev.wideValues xs).1 = some bs →
      Safety.gives (.statsRead k) s ((s.dev.wideValues xs).2.okWith rq bs))

/-- Once a chip-scope RESET has been accepted, a request that has not started ends with RESET_ABORTED (R423), whatever its
opcode; said of one row of each group. -/
def Rows.ResetAborts : Prop :=
  ∀ (k : ReqKey) (rq : Request) (s : State) (x : Instr × Nat),
    x ∈ [(Instr.identify k, 0x0001), (.regRead k, 0x0101), (.portInfo k, 0x0205), (.controlXfer k, 0x0301), (.subscribe k, 0x0401),
      (.pdInfo k, 0x0502), (.faultRead k, 0x0601), (.keyWrite k, 0x0702), (.fwInfo k, 0x0801), (.chainInfo k, 0x0A06),
      (.statsRead k, 0x0B01)] →
    s.dev.findReq k = some rq → rq.opcode.toNat = x.2 → s.dev.mayStart rq = true → s.dev.executes = true →
    s.dev.resetDue ≠ none → Safety.gives x.1 s (s.dev.answer k stResetAborted [])

/-- A request that ends is answered once (R116, R117): afterwards it is answered, or done with that status and those parameters
and waiting for the ones before it. Model's choices: log 16, 17. -/
def Obligations.AnswerEndsRequest : Prop :=
  ∀ (d : Dev) (k : ReqKey) (st : Nat) (ps : List Byte) (rq : Request), d.findReq k = some rq → rq.phase ≠ .answered →
    (∀ a b, rq.phase ≠ .done a b) →
    ∃ r, (d.answer k st ps).findReq k = some r ∧ (r.phase = .answered ∨ r.phase = .done st ps)

/-! ## Supplies, resets and bring-up (R43 to R61, R77 to R79, R146, R313) -/

/-- What a reset of the main die leaves, of whatever kind: nothing loaded, no request, context or subscriber, READY 0. -/
def Safety.cold (d : Dev) : Prop :=
  d.boot = Boot.reset ∧ d.regs = [] ∧ d.requests = [] ∧ d.subs = [] ∧ d.ctxs = [] ∧ d.subscriptions = [] ∧ d.transfers = [] ∧
    d.updates = [] ∧ d.ports = [] ∧ d.links = [] ∧ d.vat = Vat.reset ∧ d.deckle = Deckle.reset

/-- A supply that fails, and RESET_N, hold the main die in reset: everything is cold, the flash and the Quire words stay; the
Watermark stays through RESET_N and is lost with the supply (R48, R49, R77, R78). -/
def Rows.ResetRows : Prop :=
  ∀ s : State, s.dev.life ≠ .unpowered → s.dev.life ≠ .deadBattery →
    (s.dev.quire.busy = none → Safety.does .railTrip s fun d => d.life = .reset ∧ Safety.cold d ∧ d.flash = s.dev.flash ∧
      d.quire.words = s.dev.quire.words ∧ d.watermark = Watermark.reset) ∧
    (Safety.does .resetNAssert s fun d => d.life = .reset ∧ Safety.cold d ∧ d.flash = s.dev.flash ∧
      d.quire.words = s.dev.quire.words ∧ d.watermark = s.dev.watermark)

/-- Power-on and the release of RESET_N sample the straps; TEST_EN holds the device in reset, else bring-up starts, with READY 0
and the state BOOTING (R43, R47, R49, R60). -/
def Rows.ReleaseRows : Prop :=
  ∀ (st : Straps) (cs : Bool) (s : State),
    (∃ t, exec (.powerOn ⟨st, cs⟩) s = .next t ∧ t.straps = st ∧ t.pending = s.pending ∧
      t.dev.life = (if st.testEn then .testHold else .running) ∧ t.dev.boot.ready = 0 ∧ t.dev.boot.state = .booting ∧
      t.dev.flash = s.dev.flash) ∧
    (s.dev.life = .reset →
      ∃ t, exec (.resetNRelease st cs) s = .next t ∧ t.straps = st ∧ t.pending = s.pending ∧
        t.dev.life = (if st.testEn then .testHold else .running) ∧ t.dev.boot = s.dev.boot ∧ t.dev.flash = s.dev.flash) ∧
    (∀ src, s.dev.life = .hibernate → (src = .ccOrPd ∨ src = .vinMon ∨ src = .beatIn ∨ src = .msCsN) →
      Safety.does (.warmStart src) s fun d => d.life = .running ∧ d.boot = { Boot.reset with warm := true } ∧
        d.flash = s.dev.flash)

/-- Dead-battery service (R55 to R58): U0_VBUS starts it where U0_DB is strapped and no rail stands; its loss leaves the part
without supply. On board supplies U0's VBUS is noted. -/
def Rows.DeadBatteryRows : Prop :=
  ∀ s : State,
    ((s.dev.life = .unpowered ∨ s.dev.life = .reset) →
      Safety.does (.deadBatteryEntry false) s fun d => d.life = .deadBattery ∧ d.u0.vbus = true ∧ Safety.cold d ∧
        d.flash = s.dev.flash) ∧
    (s.dev.life = .deadBattery → Safety.does .deadBatteryVbusLoss s fun d => d.life = .unpowered ∧ d.u0 = U0.reset ∧
      Safety.cold d ∧ d.flash = s.dev.flash) ∧
    (s.dev.life ≠ .deadBattery → Safety.gives (.u0VbusChange true) s { s.dev with u0 := { s.dev.u0 with vbus := true } }) ∧
    (s.dev.life ≠ .deadBattery → s.dev.life ≠ .running →
      Safety.gives (.u0VbusChange false) s { s.dev with u0 := { s.dev.u0 with vbus := false } }) ∧
    (s.dev.life = .running → Safety.gives (.u0VbusChange false) s
      (({ s.dev with u0 := { s.dev.u0 with vbus := false } }).u0Off.pdDetach 32))

/-- Supplies and resets (R43 to R58, R77, R78, R313): RAIL_TRIP, RESET_N, power-on, warm start and dead-battery service.
Model's choices: log 5, 33, 34, 39, 92, 102, 110. -/
def Obligations.SupplyAndReset : Prop := Rows.ResetRows ∧ Rows.ReleaseRows ∧ Rows.DeadBatteryRows

/-- The eight ports of a die in the Unpowered column (R51): their fuses reset, their engines DISABLED with CC open. -/
def Safety.diePorts (x : Nat) (d : Dev) : Dev :=
  forN 8 (fun j a => (a.setFuse (8 * x + j) Fuse.reset).updEng (8 * x + j) fun e =>
    { e.cleared with tc := .disabled, source := false, dfp := false, loadWait := false }) d

/-- The Press dies (R51, R60, R61): a die that loses its supply is unarmed, its link is down, its safe pair reads Safe, its fuses
are off and its engines DISABLED; a die whose supply returns is powered and Safe; a die that reports armed runs; one that does
not within its time counts as lost. READY.PRESS follows once each die is armed or lost. -/
def Rows.PressRows : Prop :=
  ∀ (x : Fin 4) (s : State),
    ((s.dev.die x.val).powered = true → s.dev.up = false ∨ (s.dev.die x.val).linkUp = false →
      Safety.sees (.pressSupplyLoss x) s (Safety.diePorts x.val
        (s.dev.updDie x.val fun y => { y with powered := false, armed := false, linkUp := false, safe := true }))) ∧
    ((s.dev.die x.val).powered = true → s.dev.up = true → (s.dev.die x.val).linkUp = true →
      Safety.sees (.pressSupplyLoss x) s (Safety.diePorts x.val
        ((s.dev.updDie x.val fun y => { y with powered := false, armed := false, linkUp := false, safe := true }).assert
          (srcPress x.val 0) 0))) ∧
    ((s.dev.die x.val).powered = false → Safety.gives (.pressSupplyReturn x) s
      (s.dev.updDie x.val fun y => { y with powered := true, safe := true })) ∧
    (s.dev.up = true → (s.dev.die x.val).powered = true → (s.dev.die x.val).armed = false → (s.dev.die x.val).lost = false →
      Safety.gives (.pressArmed x) s (((s.dev.updDie x.val fun z => { z with armed := true }).safeRun x.val).pressSettled)) ∧
    (s.dev.up = true → (s.dev.die x.val).armed = false → (s.dev.die x.val).lost = false → s.dev.boot.ready.getLsbD 0 = false →
      Safety.sees (.pressArmTimeout x) s (((Safety.diePorts x.val
        (s.dev.updDie x.val fun z => { z with lost := true, linkUp := false })).assert (srcPress x.val 1) 0).pressSettled)) ∧
    ((∀ y < 4, (s.dev.die y).armed = true ∨ (s.dev.die y).lost = true) → s.dev.pressSettled.boot.ready.getLsbD 0 = true)

/-- The steps of bring-up up to the Vat (R60 steps 3 to 7): each sets its READY bit once those before it stand. The Deckle starts
at beat 0, or after HIBERNATE one beat on (R182). -/
def Rows.BringUpRows : Prop :=
  ∀ s : State, s.dev.up = true →
    (s.dev.boot.ready.getLsbD 0 = true → s.dev.boot.ready.getLsbD 3 = false → Safety.does .quireReady s fun d =>
      d.boot.ready = (s.dev.boot.ready ||| 8) ∧ d.boot.pinMask = BitVec.ofNat 10 (bits (s.dev.qword 1) 0 10)) ∧
    (s.dev.boot.ready.getLsbD 3 = true → s.dev.boot.ready.getLsbD 1 = false → Safety.does .deckleReady s fun d =>
      d.boot.ready = (s.dev.boot.ready ||| 2) ∧ d.deckle.running = true ∧
        d.deckle.beat = (if s.dev.boot.warm then s.dev.deckle.beat + 1 else 0)) ∧
    (s.dev.boot.ready.getLsbD 1 = true → s.dev.boot.ready.getLsbD 2 = false →
      Safety.does .pdReady s fun d => d.boot.ready = (s.dev.boot.ready ||| 4)) ∧
    (∀ failed : BitVec 9, s.dev.boot.ready.getLsbD 2 = true → s.dev.boot.ready.getLsbD 4 = false → s.dev.boot.stopped = false →
      failed = 0 → bits (s.dev.qword 3) 0 9 = 0 → bits s.straps.cfg 2 2 ≠ 2 →
      Safety.does (.vatSelftestDone failed) s fun d => d.boot.ready = (s.dev.boot.ready ||| 16) ∧
        d.boot.checking = some (slotAt (b2n s.dev.directory.millPrefB))) ∧
    (s.dev.boot.ready.getLsbD 4 = true → s.dev.boot.ready.getLsbD 6 = false → Safety.gives .hubStart s (s.dev.setReady 6 true)) ∧
    (s.dev.boot.ready.getLsbD 4 = true → s.dev.boot.ready.getLsbD 7 = false → Safety.does .ethStart s fun d =>
      d.boot.ready = (s.dev.boot.ready ||| 128) ∧ (wfTab ethDflt s.dev.eths = true →
        (d.eth 0).configured = true ∧ (d.eth 0).ip4Addr = s.dev.qword 0x060 ∧ (d.eth 1).configured = true ∧
          (d.eth 1).ip4Addr = s.dev.qword 0x070))

/-- The images (R60 steps 9 to 13, R70, R72, R73): an accepted Mill slot is started and the Couch slots follow; a rejected
slot that was tried first makes way for the other; a Couch without an acceptable slot leaves PARTIAL; READY.MILL, READY.HOST and
READY.COUCH follow the cores. -/
def Rows.ImageRows : Prop :=
  ∀ s : State, s.dev.up = true →
    (∀ slot, s.dev.boot.checking = some slot → (slot = .millA ∨ slot = .millB) →
      s.dev.boot.couch = none → Safety.does (.slotCheckDone slot) s fun d => s.dev.checkSlot (slotNo slot) = 1 →
        d.boot.mill = some (imageOf (s.dev.slotHeader (slotNo slot))) ∧ d.boot.millChosen = true ∧ d.boot.wdogArmed = true ∧
          d.boot.checking = some (slotAt (2 + b2n s.dev.directory.couchPrefB))) ∧
    (∀ slot, s.dev.boot.checking = some slot → (slot = .couchA ∨ slot = .couchB) →
      s.dev.boot.first = some slot →
      Safety.does (.flashReadTimeout slot) s fun d =>
        d.boot.checking = some (if slot = .couchA then .couchB else .couchA)) ∧
    (∀ slot, s.dev.boot.checking = some slot → (slot = .couchA ∨ slot = .couchB) →
      s.dev.boot.first ≠ some slot →
      Safety.does (.flashReadTimeout slot) s fun d => d.boot.state = .partialState ∧ d.boot.checking = none ∧ d.boot.couch = none) ∧
    (s.dev.boot.millChosen = true → s.dev.boot.ready.getLsbD 8 = false → s.dev.boot.millOnly = false →
      Safety.does .millInitDone s fun d => d.boot.ready = (s.dev.boot.ready ||| 256) ∧ d.boot.millChosen = false) ∧
    (s.dev.boot.ready.getLsbD 8 = true → s.dev.boot.ready.getLsbD 5 = false → Safety.does .hostStart s fun d =>
      d.boot.ready = (s.dev.boot.ready ||| 32)) ∧
    (s.dev.boot.couchChosen = true → s.dev.boot.ready.getLsbD 5 = true → s.dev.boot.ready.getLsbD 9 = false →
      Safety.does .couchStart s fun d => d.boot.ready = (s.dev.boot.ready ||| 512) ∧ d.boot.couchChosen = false)

/-- The watchdogs (R21, R77 to R79, R118, R179), 100 ms after the image's start, outside DOZE, which pauses them (R306): the Mill watchdog takes READY.MILL and READY.HOST away, drops every request and starts the
boot ROM's Mill steps; the Couch watchdog takes READY.COUCH away and starts the image again; a call between the cores that is not
answered in 10 ms ends its request with TIMEOUT. -/
def Rows.WatchdogRows : Prop :=
  ∀ s : State,
    (s.dev.up = true → s.dev.halted = false → s.dev.boot.wdogArmed = true → s.dev.boot.millFrom + 800 ≤ s.dev.deckle.mfCount →
      Safety.does .millWatchdog s fun d =>
      d.boot.ready = (s.dev.boot.ready &&& 0x2DF) ∧ d.boot.mill = none ∧ d.boot.wdogArmed = false ∧ d.boot.state = .booting ∧
        d.boot.checking ≠ none) ∧
    (s.dev.up = true → s.dev.halted = false → s.dev.boot.ready.getLsbD 9 = true → s.dev.boot.couchFrom + 800 ≤ s.dev.deckle.mfCount →
      Safety.does .couchWatchdog s fun d =>
      d.boot.ready = (s.dev.boot.ready &&& 0x1FF) ∧ d.boot.couchChosen = true) ∧
    (∀ k rq, s.dev.findReq k = some rq → rq.born + 80 ≤ s.dev.deckle.mfCount → rq.phase = .accepted →
      Safety.gives (.crossCoreTimeout k) s (s.dev.answer k stTimeout [])) ∧
    (∀ k rq l t, s.dev.findReq k = some rq → rq.born + 80 ≤ s.dev.deckle.mfCount → rq.phase = .forwarded l t →
      Safety.gives (.crossCoreTimeout k) s (s.dev.answer k stTimeout []))

/-- Bring-up (R60 to R73), the images, and the watchdogs that repeat parts of it (R77 to R79, R118).
Model's choices: log 35, 36, 37, 38, 40, 41, 69, 75, 85, 93. -/
def Obligations.BringUp : Prop := Rows.BringUpRows ∧ Rows.ImageRows ∧ Rows.WatchdogRows

/-- The balls that tell of the device's state (R46, R47, R52, R53, R54, R58), while no EXTEST drives them: `SAFE_N` is high only out
of reset, with READY.PRESS and not in CHIP_SAFE; `BEAT_OUT` is high from the start of microframe 0 of a beat to its slot 4;
`INPUT_WARN_N` is low while the input supply is low and both of its rails are there; and with `CPL_DB` strapped the CC pins of P0 to
P3 show Rd while Press die A is unpowered, and during reset. Model's choices: log 103. -/
def Obligations.PinLevels : Prop :=
  ∀ s : State,
    (∀ csLow, s.dev.jtag ≠ .extest ∨ s.dev.life ≠ .reset →
      s.dev.ball csLow .safeN =
        (if s.dev.life = .running ∧ s.dev.boot.ready.getLsbD 0 = true ∧ s.dev.fc.chipSafe = false then .high else .low) ∧
      s.dev.ball csLow .beatOut =
        (if s.dev.life = .running ∧ s.dev.deckle.running = true ∧ s.dev.deckle.mf = 0 ∧ s.dev.deckle.slot < 4 then .high else .low) ∧
      s.dev.ball csLow .inputWarnN =
        (if s.dev.vinLow = true ∧ s.dev.life ≠ .unpowered ∧ s.dev.life ≠ .deadBattery then .low else .none)) ∧
    (∀ (n : Fin 4) second, s.straps.cplDb = false → (s.dev.die 0).powered = false ∨ s.dev.life = .unpowered ∨ s.dev.life = .reset →
      (s.dev.life = .reset → s.dev.boot.ready.getLsbD 2 = false) → s.portCc n.val second = .rd)

/-! ## Transports (R87 to R98, R100) -/

/-- The management SPI serves the transaction (R59). -/
def Safety.spi (d : Dev) : Prop := d.up = true ∧ d.spi.ignore = false

/-- The device as the SPI serves a transaction: its falling edge on `MS_CS_N` is a wake source in DOZE (R307). -/
def Safety.onSpi (d : Dev) : Dev := if d.halted then d.startWake .msCsN else d

/-- The register instructions of the SPI (R89, R90, R307, R310): words are written at rising addresses, in DOZE none is; a word is
read after at most 31 wait bytes 0x00 and a ready byte 0xA5, or given up after 32 with 0x5A; the status word is returned as
often as the host clocks, a number that is open; another instruction byte is flagged. -/
def Rows.SpiRegisterRows : Prop :=
  ∀ s : State, Safety.spi s.dev →
    (∀ (a : BitVec 24) (ws : List W32), ws.length ≤ 16 → s.dev.halted = false →
      Safety.sees (.regWr a ws) s ((List.range ws.length).foldl
        (fun e j => e.pathWrite .spi ((a.toNat + 4 * j) % 2 ^ 24) (ws.getD j 0)) s.dev)) ∧
    (∀ (a : BitVec 24) (ws : List W32), s.dev.halted = true →
      Safety.sees (.regWr a ws) s ((s.dev.startWake .msCsN).flag 0x40 25)) ∧
    (∀ a : BitVec 24, s.dev.boot.ready.getLsbD 3 = true → s.dev.halted = false → mapped a.toNat = true →
      Safety.does (.regRd a 1 none) s fun d => ∃ m < 32, d.spi.out = List.replicate m 0 ++ 0xA5 ::
        wordBytes ((s.dev.setOut []).freeWord.2.quireAck.readReg s.straps true a.toNat).1) ∧
    (∀ (a : BitVec 24) (n : Nat), s.dev.boot.ready.getLsbD 3 = true → s.dev.halted = false → 1 ≤ n →
      Safety.gives (.regRd a n (some 0)) s ((s.dev.setOut (List.replicate 32 0 ++ [0x5A])).flag 0x40 26)) ∧
    Safety.gives .rdStatus s ((Safety.onSpi s.dev).freeWord.2.setOut
      (wordsBytes (List.replicate (Safety.onSpi s.dev).freeWord.1.toNat (Safety.onSpi s.dev).msStatus))) ∧
    (∀ c : Byte, c ≠ 2 → c ≠ 3 → c ≠ 5 → c ≠ 0x0A → c ≠ 0x0B →
      Safety.gives (.badInstr c) s ((Safety.onSpi s.dev).flag 0x40 27))

/-- The packet instructions of the SPI (R25, R91, R92, R310): a packet that fits and has its whole length passes through the Vat to
the checks, and is discarded with a flag otherwise, in DOZE too; the head of the response FIFO is returned between its lead and
its trail word, and leaves once the trail word is out; from an empty FIFO the last word comes again, with RSP_UNDERRUN. -/
def Rows.SpiPacketRows : Prop :=
  ∀ s : State, Safety.spi s.dev →
    (∀ (p q : List Byte) (x : Bool) (d : Dev), p.length ≤ 8192 → s.dev.halted = false → p.length = 4 * ((packetLen p + 3) / 4) →
      s.dev.stage rqSpi rqMill 0 2 (p.take (packetLen p)) = some (q, x, d) →
      Safety.gives (.pktWr p) s (d.arrive { route := .spi, mustAuth := s.straps.cfg.getLsbD 0, poison := false } q)) ∧
    (∀ p : List Byte, p.length ≤ 8192 → s.dev.halted = false → p.length ≠ 4 * ((packetLen p + 3) / 4) →
      Safety.gives (.pktWr p) s (s.dev.flag 0x40 24)) ∧
    (∀ p : List Byte, 8192 < p.length ∨ s.dev.halted = true →
      Safety.gives (.pktWr p) s ((Safety.onSpi s.dev).flag 0x40 23)) ∧
    (∀ n bad, s.dev.spi.rsp = [] → 1 ≤ n → s.dev.halted = false →
      Safety.gives (.pktRd n bad) s ((s.dev.setOut (wordsBytes (List.replicate n s.dev.spi.last))).flag 0x40 22)) ∧
    (∀ p rest bad, s.dev.spi.rsp = p :: rest → p.length ≤ 4096 → s.dev.halted = false → (∀ i ∈ bad, (p.length + 3) / 4 ≤ i) →
      let out := wordBytes (BitVec.ofNat 32 (0xA55A0000 + p.length)) ++ wordsBytes (toWords ((p.length + 3) / 4) p) ++
        [0, 0, 0xA5, 0x5A]
      Safety.gives (.pktRd ((p.length + 3) / 4 + 2) bad) s
        ({ s.dev with spi := { s.dev.spi with rsp := rest, last := 0x5AA50000, out := out } }.leaves p)) ∧
    (∀ p rest n bad, s.dev.spi.rsp = p :: rest → n < (p.length + 3) / 4 + 2 → s.dev.halted = false →
      Safety.does (.pktRd n bad) s fun d => d.spi.rsp = p :: rest ∧ d.requests = s.dev.requests)

/-- The management SPI (R89 to R92, R310): its register and its packet instructions. Model's choices: log 10, 22, 23, 24, 91. -/
def Obligations.SpiTransport : Prop := Rows.SpiRegisterRows ∧ Rows.SpiPacketRows

/-- An E port that is up and has its settings (R94). -/
def Safety.eth (d : Dev) (e : Fin 2) : Prop := d.up = true ∧ (d.eth e.val).linkUp = true ∧ (d.eth e.val).configured = true

/-- A datagram that the IP layer takes (R94): to an address of the port and `AVV_UDP_PORT`, in the port's VLAN, whole and with its
checksum right; IPv4 may leave the checksum out. -/
def Safety.takes (d : Dev) (e : Nat) (g : Datagram) : Prop :=
  g.dstPort.toNat = d.udpPort ∧ d.ownAddr e g.ipv6 g.dstIp = true ∧ d.vlanOk e g.vlan = true ∧ g.fragmented = false ∧
    g.extHeaders = false ∧ (if g.checksumZero then g.ipv6 = false else g.checksumOk = true)

/-- The datagrams of the IP layer (R25, R94, R132, R310): one that is taken passes through the Vat to the checks, with what follows
its headers as the packet; without room for its record it is lost and counted under OVERFLOW; others are counted. In DOZE what
would be taken wakes the device. -/
def Rows.DatagramRows : Prop :=
  ∀ (e : Fin 2) (s : State) (g : Datagram), Safety.eth s.dev e →
    let a := s.dev.freeWord.2
    let r := a.passFrame e.val (Datagram.frame g e.val s.dev.freeWord.1)
    let lead := 14 + (if g.vlan.isSome then 4 else 0) + (if g.ipv6 then 48 else 28)
    (s.dev.halted = false → Safety.takes s.dev e.val g → Safety.gives (.udpDatagram e g) s
      (match r.1 with
        | some f =>
          r.2.arrive { route := .udp e.val g.srcMac g.vlan g.ipv6 g.srcIp g.dstIp g.srcPort g.dscp, mustAuth := true, poison := false }
            ((f.drop lead).take g.payload.length)
        | none => r.2)) ∧
    (s.dev.halted = false → ¬ Safety.takes s.dev e.val g → Safety.gives (.udpDatagram e g) s
      (match r.1 with
        | some _ => r.2.count (0x10000000 + 1 + e.val)
        | none => r.2)) ∧
    (r.1 = none → r.2 = a.frameLost e.val (36 + e.val)) ∧
    (s.dev.halted = true → Safety.takes s.dev e.val g → Safety.gives (.udpDatagram e g) s
      (((s.dev.startWake .ethFrame).count 0x25000000).flag 0x108 2)) ∧
    (s.dev.halted = true → ¬ Safety.takes s.dev e.val g → Safety.gives (.udpDatagram e g) s (s.dev.count (0x10000000 + 1 + e.val)))

/-- The IP layer's answers (R94, R95, R132, R310): an ARP request, a neighbour solicitation or an echo request up to the MTU for an
address of the port is answered with its frame, queued for the port's output; other frames are counted. A frame without room
for its record is lost. In DOZE an answer to an address request waits for ACTIVE, and the device wakes. -/
def Rows.EthernetRows : Prop :=
  ∀ (e : Fin 2) (s : State) (q : NetQuery), Safety.eth s.dev e →
    let mine := s.dev.ownAddr e.val q.ipv6 q.target = true ∧ s.dev.vlanOk e.val q.vlan = true
    let a := s.dev.freeWord.2
    let f (k : NetAnswer) := k.frame e.val q s.dev.freeWord.1
    let room (n : Nat) := s.dev.halted = false ∧ s.dev.rxRoom e.val n = true
    let counted := s.dev.count (0x10000000 + 1 + e.val)
    let owes (k : NetAnswer) := (a.startWake .ethFrame).updEth e.val fun x => { x with owed := x.owed ++ [f k] }
    (room (18 + q.length) →
      (q.ipv6 = false → mine → Safety.gives (.arpRequest e q) s (a.queueNet e.val (f .arp))) ∧
      (q.ipv6 = true → mine → Safety.gives (.neighbourSolicitation e q) s (a.queueNet e.val (f .neighbour))) ∧
      (mine → q.length ≤ (s.dev.eth e.val).mtu → Safety.gives (.echoRequest e q) s (a.queueNet e.val (f .echo))) ∧
      (¬ mine ∨ (s.dev.eth e.val).mtu < q.length → Safety.gives (.echoRequest e q) s counted) ∧
      (¬ mine → Safety.gives (.arpRequest e q) s counted ∧ Safety.gives (.neighbourSolicitation e q) s counted)) ∧
    (s.dev.halted = true →
      (q.ipv6 = false → mine → Safety.gives (.arpRequest e q) s (owes .arp)) ∧
      (q.ipv6 = true → mine → Safety.gives (.neighbourSolicitation e q) s (owes .neighbour)) ∧
      (mine → q.length ≤ (s.dev.eth e.val).mtu → Safety.gives (.echoRequest e q) s
        (((s.dev.startWake .ethFrame).count 0x25000000).flag 0x108 2))) ∧
    (s.dev.halted = false → s.dev.rxRoom e.val (18 + q.length) = false →
      Safety.gives (.arpRequest e q) s (s.dev.frameLost e.val (36 + e.val)) ∧
      Safety.gives (.neighbourSolicitation e q) s (s.dev.frameLost e.val (36 + e.val)) ∧
      Safety.gives (.echoRequest e q) s (s.dev.frameLost e.val (36 + e.val))) ∧
    (room 0 ∨ s.dev.halted = true → Safety.gives (.otherFrame e) s counted)

/-- The clocks and links of E0 and E1 (R163, R166): each port's clock is valid within 1 µs of its master and lost after three
Sync intervals; the link state follows the pin while the main die runs. -/
def Rows.EthernetClockRows : Prop :=
  ∀ s : State, s.dev.up = true →
    (∀ (e : Fin 2) (on : Bool), Safety.gives (.ethLinkChange e on) s (s.dev.updEth e.val fun x => { x with linkUp := on })) ∧
    (∀ m, s.dev.boot.ready.getLsbD 8 = true → (s.dev.eth 0).linkUp = true → Safety.does (.ptpMessage 0 m) s fun d =>
      d.deckle = { s.dev.deckle with ptp0 := (match m with
        | .sync ns => { s.dev.deckle.ptp0 with offsetNs := ns, valid := decide (-1000 ≤ ns ∧ ns ≤ 1000) }
        | .announce n => { s.dev.deckle.ptp0 with syncInterval := n }
        | .syncTimeout => { s.dev.deckle.ptp0 with valid := false }) }) ∧
    (∀ ns, s.dev.boot.ready.getLsbD 8 = true → (s.dev.eth 1).linkUp = true → Safety.does (.ptpMessage 1 (.sync ns)) s fun d =>
      d.deckle = { s.dev.deckle with
        ptp1 := { s.dev.deckle.ptp1 with offsetNs := ns, valid := decide (-1000 ≤ ns ∧ ns ≤ 1000) } })

/-- The Management function (R97, R132, R310): with the claim of a largest record, a whole packet of 32 to 4,096 bytes passes through
the Vat to the checks, and another length is counted; without that room, and in DOZE, it draws NAK, or NRDY at SuperSpeed. On bulk
IN the packet queued first leaves. -/
def Rows.ManagementRows : Prop :=
  ∀ (l : Fin 5) (s : State), s.dev.mgmtOpen l.val = true →
    let wide := s.dev.mgmtSuper l.val
    let room := s.dev.halted = false ∧ s.dev.canClaim 0 (recSegs (if wide then 1024 else 512)) = true
    (∀ (p q : List Byte) (x : Bool) (d : Dev), room → ¬ 1 ∈ (s.dev.func l.val).halted → 32 ≤ p.length → p.length ≤ 4096 →
      p.length = packetLen p → s.dev.stage (rqHs (linkOutput l.val)) rqMill 0 2 p = some (q, x, d) →
      Safety.gives (.mgmtBulkOut l p) s (d.arrive { route := .usb l.val, mustAuth := true, poison := false } q)) ∧
    (∀ p : List Byte, room → ¬ 1 ∈ (s.dev.func l.val).halted →
      (p.length < 32 ∨ 4096 < p.length ∨ p.length ≠ packetLen p) →
      Safety.gives (.mgmtBulkOut l p) s (s.dev.count (0x10000000 + (Route.usb l.val).transport))) ∧
    (∀ p : List Byte, ¬ room → ¬ 1 ∈ (s.dev.func l.val).halted →
      Safety.gives (.mgmtBulkOut l p) s (s.dev.updFunc l.val fun f => { f with reply := if wide then .nrdy else .nak })) ∧
    (∀ bad q p sent corrupt d, s.dev.halted = false → ¬ 0x81 ∈ (s.dev.func l.val).halted →
      s.dev.oldestOf (s.dev.mgmtQueues l.val) = some (q, none) →
      s.dev.takePacket (rqHs (linkOutput l.val)) q bad false = some (p, some (sent, corrupt), d) →
      Safety.gives (.mgmtBulkIn l bad) s ((((d.grant (linkOutput l.val) ⟨0, 0, s.dev.headLen q, .response⟩).sendUnit
        (linkOutput l.val) sent corrupt).leaves p).vatAlarms)) ∧
    (∀ bad, s.dev.halted = false → ¬ 0x81 ∈ (s.dev.func l.val).halted → s.dev.oldestOf (s.dev.mgmtQueues l.val) = none →
      Safety.gives (.mgmtBulkIn l bad) s s.dev.vatAlarms)

/-- E0 and E1, their clocks, and the Management function on USB (R94, R95, R97, R163, R166, R310).
Model's choices: log 25, 26, 27, 28, 30, 91. -/
def Obligations.EthernetAndUsbTransport : Prop :=
  Rows.DatagramRows ∧ Rows.EthernetRows ∧ Rows.EthernetClockRows ∧ Rows.ManagementRows

/-- Checks 1 to 14 of R100 have passed on a packet for this chip, at the device d that check 7 has left. -/
def Safety.passes (a d : Dev) (e : Entry) (p : List Byte) (target : Nat) : Prop :=
  a.servesRoute e.route = true ∧ a.frameFault e p = none ∧ a.verify e p = some none ∧ a.destPlace p = .here target ∧
    (∃ x, (a.subr (pkSub p)).replay a.epoch (pkSeq p) = some x ∧
      d = a.setSubr (pkSub p) { x with route := some (e.route, pkSlot p, false) }) ∧
    d.affords (pkSub p) (chargeOf e p) = true ∧ fieldsOk p = true ∧ d.stateStatus p = none ∧
    d.slotPermits (pkSlot p) (pkOpcode p) = true ∧ d.findReq ⟨BitVec.ofNat 10 (pkSub p), BitVec.ofNat 16 (pkTag p)⟩ = none ∧
    d.tagRoom (pkSub p) e.route = true ∧ d.attachedAt p target = true

/-- R100: a packet for this chip that passes all the checks becomes an outstanding request, with its tokens spent, the claim of its
full response, and its opcode, tag and parameters as sent. Model's choices: log 14, 20, 21, 78, 94. -/
def Obligations.RequestAccepted : Prop :=
  ∀ (a d : Dev) (e : Entry) (p : List Byte) (target n : Nat), Safety.passes a d e p target →
    let rq := { d.requestOf e p none with target := target }
    d.params15 rq = (true, n) → d.canClaim 0 (d.replySegs rq n) = true →
    a.arrive e p = (d.addClaim 0 (d.replySegs rq n)).accept (chargeOf e p) { rq with claim := d.replySegs rq n } ∧
    (a.arrive e p).requests = a.requests ++ [{ rq with claim := d.replySegs rq n }]

/-- Check 15 of R100: parameters that break their layout end with BAD_PARAM, and a response without room with BUSY; the request
takes no tag, no tokens and no place. The layouts of the opcodes without parameters, and of KEY_WRITE with its range (R414,
R436). -/
def Rows.OpcodeRefusals : Prop :=
  (∀ (a d : Dev) (e : Entry) (p : List Byte) (target n : Nat), Safety.passes a d e p target →
    let rq := { d.requestOf e p none with target := target }
    ((d.params15 rq).1 = false → a.arrive e p = d.refuse rq stBadParam) ∧
    (d.params15 rq = (true, n) → d.canClaim 0 (d.replySegs rq n) = false → a.arrive e p = d.refuse rq stBusy)) ∧
  (∀ (d : Dev) (rq : Request),
    (∀ x ∈ [(0x0001, 40), (0x0002, 32), (0x0801, 104), (0x0805, 0), (0x0A06, 84)], rq.opcode.toNat = x.1 →
      d.params15 rq = (decide (rq.params = []), x.2)) ∧
    (∀ (n : Byte) (lo hi : BitVec 10) (key : List Byte) (perm : BitVec 12), rq.opcode.toNat = 0x0702 → n.toNat < 64 →
      key.length = 16 → rq.params = [n, 0, 0, 0] ++ key ++ leBytes 2 lo.toNat ++ leBytes 2 hi.toNat ++ leBytes 2 perm.toNat ++
        [0, 0] →
      (d.params15 rq).1 = decide (lo.toNat ≤ hi.toNat)))

/-- An opcode whose turn has come and that may not run: BAD_PARAM, BUSY and RESET_ABORTED (R100, R423).
Model's choices: log 14, 15, 86. -/
def Obligations.RefusedOpcodes : Prop := Rows.OpcodeRefusals ∧ Rows.ResetAborts

/-- R100 checks 1 to 4: a packet that fails its frame checks is counted and changes nothing else. -/
def Rows.BadFramesCounted : Prop :=
  ∀ (d : Dev) (e : Entry) (p : List Byte) (k : Nat), d.servesRoute e.route = true → d.frameFault e p = some k →
    d.arrive e p = d.count (0x10000000 + k * 65536 + e.route.transport)

/-- A request with a reserved opcode that passes checks 1 to 9 ends with UNSUPPORTED, or with LIMP in Limp and RECOVERY: its
response is queued and nothing is accepted (R8, R100). -/
def Rows.UnsupportedOpcodes : Prop :=
  ∀ (p : List Byte) (s : State) (x : Subscriber), s.dev.up = true → s.dev.servesRoute .spi = true → isOpcode (pkOpcode p) = false →
    let e : Entry := { route := .spi, mustAuth := s.straps.cfg.getLsbD 0, poison := false }
    s.dev.frameFault e p = none → s.dev.verify e p = some none → s.dev.passesOn e p = false →
    (s.dev.subr (pkSub p)).replay s.dev.epoch (pkSeq p) = some x →
    let d := s.dev.setSubr (pkSub p) { x with route := some (.spi, pkSlot p, false) }
    d.affords (pkSub p) (chargeOf e p) = true → fieldsOk p = true →
    Safety.gives (.unsupportedOpcode p) s (d.refuse (d.requestOf e p none) (if d.limp then stLimp else stUnsupported))

/-- Packets that fail the checks of R100: counted without a response, or answered with the status of the check.
Model's choices: log 15, 19, 20, 78. -/
def Obligations.RequestRefused : Prop := Rows.BadFramesCounted ∧ Rows.UnsupportedOpcodes

/-! ## The grid (R159 to R183, R149, R150, R234, R402 to R404) -/

/-- Microframe starts and slot strobes (R159 to R162): within a beat the microframe counts up; after its last one the next beat
starts with its planned lengths; the strobes count the slots of the microframe. Where the Core stands still only the grid runs.
What the Vat found in its cells is raised with the row (R134, R137). -/
def Rows.MicroframeRows : Prop :=
  ∀ s : State, s.dev.deckle.running = true →
    (s.dev.deckle.mf + 1 < s.dev.beatLen →
      Safety.gives .microframeStart s s.dev.advanceMf.mfStarts.vatAlarms ∧
        s.dev.advanceMf.deckle = { s.dev.deckle with
          mf := s.dev.deckle.mf + 1, slot := 0, strobed := false, mfCount := s.dev.deckle.mfCount + 1, mfStart := s.dev.deckle.mfStart + s.dev.mfLen }) ∧
    (s.dev.deckle.mf + 1 = s.dev.beatLen → s.dev.deckle.beatEnded = true →
      Safety.gives .microframeStart s s.dev.advanceMf.takeAdopted.beatStarts.mfStarts.vatAlarms ∧ s.dev.advanceMf.deckle.mf = 0 ∧
        s.dev.advanceMf.deckle.beat = s.dev.deckle.beat + 1 ∧ s.dev.advanceMf.deckle.planQ = s.dev.deckle.nextQ ∧
        s.dev.advanceMf.deckle.planR = s.dev.deckle.nextR ∧ s.dev.advanceMf.deckle.beatEnded = false) ∧
    (s.dev.halted = true → s.dev.deckle.strobed = false →
      Safety.gives .slotStrobe s ((s.dev.updDk fun x => { x with strobed := true }).vatAlarms)) ∧
    (s.dev.halted = false → s.dev.deckle.strobed = true → s.dev.deckle.slot < 7 →
      let d := (s.dev.updDk fun x => { x with slot := x.slot + 1 }).strobePolls
      d.deckle.slot ≠ 0 → Safety.gives .slotStrobe s (forN 5 (fun n a => a.creditReturn n) d).vatAlarms) ∧
    (s.dev.deckle.strobed = true → s.dev.deckle.slot = 7 → Safety.gives .slotStrobe s s.dev.vatAlarms)

/-- The plan of the next beat (R171): in FREE the nominal length; in COAST the held rate; in LOCKED the rate and a quarter of the
last phase error, within 28 bit times a microframe. The length change is spread as q and r. -/
def Rows.BeatPlan : Prop :=
  ∀ s : State, s.dev.deckle.running = true → s.dev.deckle.mf + 1 = s.dev.beatLen →
    let change (d : Dev) : Int := d.deckle.nextQ * s.dev.beatLen + d.deckle.nextR
    (s.dev.deckle.state = .free → Safety.does .planNextBeat s fun d => change d = 0) ∧
    (s.dev.deckle.state = .coast → Safety.does .planNextBeat s fun d =>
      change d = s.dev.deckle.f ∧ d.deckle.nextR < s.dev.beatLen ∧ d.deckle.nextClamped = false) ∧
    (s.dev.deckle.state = .locked → Safety.does .planNextBeat s fun d =>
      d.deckle.nextR < s.dev.beatLen ∧
        change d = max (-(28 * (s.dev.beatLen : Int))) (min (28 * s.dev.beatLen) (s.dev.deckle.f + s.dev.deckle.lastE / 4))) ∧
    (∀ d, exec .planNextBeat s = .next d → d.dev.deckle = { s.dev.deckle with
        nextQ := d.dev.deckle.nextQ, nextR := d.dev.deckle.nextR, nextClamped := d.dev.deckle.nextClamped })

/-- A watch whose overrun is a free value: VAT_TALLY is raised if the work ran past its bound (R150). -/
def Safety.watched (d : Dev) : Dev :=
  let e := { d with freeCtr := d.freeCtr + 1 }
  if Config.freeBit d.freeCtr then
    ({ e with freeCtr := e.freeCtr + 1 }.flag aVatTally 30).assert srcVatTally (Config.freeWord e.freeCtr)
  else e

/-- The end of a beat (R248, R310) and its tally (R149, R150): a balanced tally raises nothing, an unbalanced one raises VAT_TALLY
with its two sides; a check put off is made, or skipped with its count. -/
def Rows.BeatEndRows : Prop :=
  ∀ s : State,
    (s.dev.deckle.running = true → s.dev.deckle.mf + 1 = s.dev.beatLen → s.dev.deckle.beatEnded = false →
      (s.dev.halted = false → Safety.gives .beatEndStrobe s s.dev.beatEnd.vatAlarms) ∧
      (s.dev.halted = true →
        Safety.gives .beatEndStrobe s (s.dev.foldedEvents.updDk fun x => { x with beatEnded := true }).vatAlarms)) ∧
    (∀ n, n ≤ 4096 → s.dev.vat.tallyDue = true → s.dev.windowOpen = false →
      Safety.gives (.tallyDeferredCheck n) s
        ({ s.dev with vat := { s.dev.vat with tallyDue := false, lastDefer := n } }.tallyCheck)) ∧
    (s.dev.vat.tallyDue = true →
      let c := { s.dev with vat := { s.dev.vat with tallyDue := false, lastDefer := 8192 } }
      let d := (c.flag aVatTally 29).count 0x20010000
      Safety.gives .tallySkip s (Safety.watched d) ∧
      (wfTab counterDflt s.dev.counters = true → d.counter 0x20010000 = min (2 ^ 64 - 1) (s.dev.counter 0x20010000 + 1))) ∧
    (∀ d : Dev,
      let free := d.freeAll
      let linked := d.inUse
      let used := (List.range 8).foldl (fun n c => n + d.usedSegs c) 0
      let claimed := (List.range 8).foldl (fun n c => n + d.claim c) 0
      let all := 8192 * depthBanks d.vat.depth
      let alarm (a b : Nat) := (d.flag aVatTally 31).assert srcVatTally (at_ (a % 65536) 16 ||| at_ (b % 65536) 0)
      (free + linked = all → used = linked + claimed → d.tallyCheck = d) ∧
      (free + linked ≠ all → d.tallyCheck = alarm (free + linked) all) ∧
      (free + linked = all → used ≠ linked + claimed → d.tallyCheck = alarm used (linked + claimed)))

/-- HEARTBEAT (R234): a due heartbeat adds the entry that carries the last sheet, as its cells are read, and the count of answered
polls. -/
def Rows.HeartbeatRow : Prop :=
  ∀ (c : Nat) (x : Subscription) (s : State), s.dev.subscription c = some x → s.dev.deckle.running = true →
    s.dev.deckle.beatEnded = false → x.heartbeatDue = true →
    let r := s.dev.readSheet rqMill false x.place x.sheetLen
    Safety.gives (.heartbeat c) s
      ((r.2.2.addEntry x.owner.toNat
        { type := 1, ctx := c, mf := x.updMf, slot := x.updSlot, poison := x.sheetPoison || r.2.1, coalesced := false, gap := false,
          prevBeat := false, aux := min 65535 x.answered, data := r.1, sv1 := x.cls = 1 }).updSub c fun y =>
        { y with quietBeats := 0, answered := 0, beatDone := true }).vatAlarms

/-- The grid (R159 to R162), the end of the beat with its tally (R149, R150, R248), and heartbeats (R234).
Model's choices: log 10, 42, 43, 99, 100. -/
def Obligations.GridAndBeatEnd : Prop := Rows.MicroframeRows ∧ Rows.BeatEndRows ∧ Rows.HeartbeatRow

/-- Edges of the beat source while it is followed (R164 to R170): an edge within 4,096 bit times moves F by a sixteenth of its
error and ends the count of misses; the second edge missing in a row enters COAST. A `BEAT_IN` pulse counts from 48 cycles, less
its delay. A coupler's UFP takes the SOF less the link delay that its neighbour sent, and is missing without one (R175). -/
def Rows.SourceEdgeRows : Prop :=
  ∀ s : State, s.dev.deckle.running = true →
    (∀ (t : Nat) n p, s.dev.deckle.state = .locked → (s.dev.dkSrc = 2 ∨ s.dev.dkSrc = 3 ∨ s.dev.dkSrc = 5) → s.dev.srcAbsent = false →
      s.dev.predicted = some p → -15000 ≤ (t : Int) - p → (t : Int) - p ≤ 15000 →
      -4096 ≤ (s.dev.phase t).1 → (s.dev.phase t).1 ≤ 4096 → Safety.does (.sourceEdge t n) s fun d =>
        d.deckle = { s.dev.deckle with
          lastE := (s.dev.phase t).1, misses := 0, lastEdge := some t, f := max (-(24 * (s.dev.beatLen : Int))) (min (24 * s.dev.beatLen) (s.dev.deckle.f + (s.dev.phase t).1 / 16)) }) ∧
    (∀ (t h : Nat), 48 ≤ h → s.dev.dkSrc = 1 → Safety.gives (.beatInEdge t h) s
      (s.dev.edge ((t : Int) - signed 12 (s.dev.fld aDkBeatin 0 12)).toNat none)) ∧
    (∀ (t h : Nat), h < 48 → Safety.gives (.beatInEdge t h) s s.dev) ∧
    (s.dev.dkSrc = 4 → (s.dev.link s.dev.dkPort).ufp = true →
      (s.dev.deckle.linkDelay = none → ∀ t n, Safety.gives (.sourceEdge t n) s s.dev) ∧
      (∀ x, s.dev.deckle.linkDelay = some x → ∀ t n, Safety.gives (.sourceEdge t n) s
        ((s.dev.edge (t - x) (s.dev.deckle.neighbourBeat.map (· + 1))).updDk fun k =>
          { k with neighbourBeat := s.dev.deckle.neighbourBeat.map (· + 1) }))) ∧
    (s.dev.dkSrc ≠ 0 → s.dev.deckle.state = .locked → s.dev.deckle.misses = 0 → Safety.gives .missingEdge s
      (s.dev.updDk fun x => { x with misses := 1 })) ∧
    (s.dev.dkSrc ≠ 0 → (s.dev.deckle.state = .locked ∨ s.dev.deckle.state = .walking) → 1 ≤ s.dev.deckle.misses →
      Safety.gives .missingEdge s (s.dev.updDk fun x => { x with misses := 2 }).enterCoast)

/-- The plan of the next beat (R171) and the edges of the source that the Deckle follows (R164 to R170).
Model's choices: log 3, 96, 97, 98. -/
def Obligations.BeatSource : Prop := Rows.BeatPlan ∧ Rows.SourceEdgeRows

/-- UPDATE (R402 to R404): a request that passes the checks is pending until its moment; at its moment the shadows of its groups
become the values in effect together; CANCEL ends every pending one that shares a group with RESET_ABORTED. -/
def Rows.UpdateRows : Prop :=
  ∀ s : State,
    (∀ (g : BitVec 8) (u : PendingUpdate), (s.dev.updates.find? fun x => x.groups = g) = some u → s.dev.updateDue u = true →
      s.dev.stateCheck g = none → Safety.gives (.updateApply g) s ((s.dev.applyGroups g).updateDone u stOk)) ∧
    (∀ (g : BitVec 8) (u : PendingUpdate) (st : Nat), (s.dev.updates.find? fun x => x.groups = g) = some u →
      s.dev.updateDue u = true → s.dev.stateCheck g = some st → Safety.gives (.updateApply g) s (s.dev.updateDone u st)) ∧
    (∀ (g : BitVec 8) (a : Nat) (v : W32) (n : Nat), s.dev.shadow = [(a, some v)] → groupAt a = some n → g.getLsbD n = true →
      (s.dev.takeShadows g).shadow = [] ∧ (wfTab resetValue s.dev.regs = true → (s.dev.takeShadows g).reg a = v))

/-- The four checks on an UPDATE request (R403), in their order, with the status of the first that fails; one that passes is pending;
one that fails changes nothing but the noted status. -/
def Rows.UpdateChecks : Prop :=
  ∀ (d : Dev) (who : Option (SubId × BitVec 16)) (g : BitVec 8) (w : Nat) (b : BeatNo),
    let fails (st : Nat) : Prop := d.requestUpdate who g w b = (st, { d with updateLast := BitVec.ofNat 16 st })
    let spans : Prop :=
      (g.getLsbD 6 = true → (List.range 8).foldl (fun n i => n + bits (d.shadowOf (aVatRsv i)) 0 10) 0 ≤ 1008) ∧
        (g.getLsbD 1 = true → ∀ o < 36, (List.range 5).foldl (fun n i => n + bits (d.shadowOf (aShare o (i + 3))) 8 7) 0 ≤ 64)
    (g = 0 ∨ (w = 3 ∧ b.toNat ≤ d.deckle.beat.toNat) ∨ ¬ spans → fails stBadParam) ∧
    (g ≠ 0 → (w = 3 → d.deckle.beat.toNat < b.toNat) → spans →
      (d.pendingGroups &&& g ≠ 0 ∨ 4 ≤ d.updates.length → fails stBusy) ∧
      (d.pendingGroups &&& g = 0 → d.updates.length < 4 →
        (g.getLsbD 0 = true → bits (d.shadowOf aDkCfg) 8 4 ≠ d.fld aDkCfg 8 4 →
          ((d.subscriptions.any fun kv => kv.2.isSome) = true ∨ d.linkAdmitted = true) → fails stBusy) ∧
        (g = 4 → (∃ n < 32, (d.shadowOf (aPortCfg n)).getLsbD 0 = true ∧ d.burst n = false ∧ d.burstOk n = false) →
          fails stNoBudget) ∧
        (g = 64 → d.depthOk (bits (d.shadowOf aVatCfg) 0 2) = false → fails stNoResource) ∧
        (d.stateCheck g = none → d.requestUpdate who g w b = (stOk, Dev.startWake { d with
          updates := d.updates ++ [{ groups := g, whenSel := w, atBeat := b, requester := who, born := d.now }] } .hostRequest))))

/-- UPDATE (R402 to R404): the checks on a request, its moment, and what it applies. Model's choices: log 10, 65. -/
def Obligations.UpdateGroups : Prop := Rows.UpdateRows ∧ Rows.UpdateChecks

/-! ## The Vat (R128 to R148, R157) and the Headbox (R252 to R254) -/

/-- The Vat works: self-tested, and its clock runs. -/
def Safety.vat (d : Dev) : Prop := d.up = true ∧ d.boot.ready.getLsbD 4 = true ∧ d.halted = false

/-- The rotating spare (R141 to R143, R145, R157): a due rotation ends the march test of the spare, which then takes the slot that
failed, or the slot in turn; at the end the spare holds every row of the slot, fills it, its old bank becomes the spare, and the turn
moves on. -/
def Rows.RotationRows : Prop :=
  ∀ s : State,
    (∀ sp, Safety.vat s.dev → s.dev.atBeat = true → s.dev.vat.spare = some sp → s.dev.vat.sparePassed = true →
      s.dev.vat.change = .stable → (s.dev.reg aVatCfg).getLsbD 4 = true → s.dev.vat.migrating = none →
      (s.dev.vat.front = [] → s.dev.rotBeats ≤ s.dev.vat.beatsSinceRot → Safety.gives .rotationStart s { s.dev with
        vat := { s.dev.vat.bankLost sp with migrating := some ⟨s.dev.vat.rotSlot, 0, none⟩, beatsSinceRot := 0 } }) ∧
      (∀ k l, s.dev.vat.front = k :: l → Safety.gives .rotationStart s { s.dev with
        vat := { s.dev.vat.bankLost sp with migrating := some ⟨k, 0, none⟩, beatsSinceRot := 0 } })) ∧
    (∀ m sp, s.dev.vat.migrating = some m → s.dev.vat.spare = some sp →
      let c := s.dev.vat.copyRest
      let v := { c with
        slots := s.dev.vat.slots.set m.slot sp, spare := some (s.dev.vat.slotBank m.slot), sparePassed := false
        migrating := none, front := s.dev.vat.front.filter (· ≠ m.slot)
        rotSlot := if m.slot = s.dev.vat.rotSlot then (s.dev.vat.rotSlot + 1) % max 1 s.dev.vat.slots.length
          else s.dev.vat.rotSlot }
      Safety.gives .rotationCopyDone s ({ s.dev with vat := v }.seekDepth))

/-- March passes (R140, R144): a pass of the spare counts and makes it ready to rotate; a bank that fails as the spare is retired
in the Quire, raises VAT_BANK_FAIL and is replaced; a bank that comes up becomes the spare. -/
def Rows.MarchRows : Prop :=
  ∀ (b : Fin 9) (s : State), Safety.vat s.dev → s.dev.vat.change = .stable →
    (s.dev.vat.spare = some b.val → s.dev.vat.migrating = none → (∀ r ∈ s.dev.requests, r.phase ≠ .selftest) →
      let v := s.dev.vat.marched b.val true
      Safety.gives (.marchPassEnd b true) s { s.dev with
        vat := { v with marchLastOk := true, sparePassed := true, marchPasses := min 65535 (v.marchPasses + 1) } }) ∧
    (s.dev.vat.spare = some b.val → s.dev.vat.migrating = none → s.dev.vat.retired.getLsbD b.val = false →
      let v := s.dev.vat.marched b.val false
      Safety.gives (.marchPassEnd b false) s
        ((({ s.dev with vat := { v with marchLastOk := false, sparePassed := false } }.retireBank b.val).endSelftests
          false).replaceSpare)) ∧
    (s.dev.vat.spare ≠ some b.val → s.dev.vat.coming = some b.val →
      let v := s.dev.vat.marched b.val true
      Safety.gives (.marchPassEnd b true) s { s.dev with
        vat := { v with
          spare := some b.val, coming := none, noSpare := false, sparePassed := false
          marchPasses := min 65535 (v.marchPasses + 1) } })

/-- The rows of a bank and their arbiter (R142, R143, R152 to R154): a write to a slot under rotation goes to the source and, as the
source then holds the row, to the spare, and cancels the copier's held copy of that row alone; a round with no holder grants the
request of highest priority, and of equal ones the oldest; a mark holds the next round for the same requester, where a second mark
does nothing; every request that loses a round ages. Model's choices: log 12, 71, 90. -/
def Obligations.BankAccess : Prop :=
  (∀ (v : Vat) (slot r : Nat) (cells : List (Option Cell10)),
    let source := v.setPhysRow (v.slotBank slot) r cells
    (∀ m, v.migrating = some m → m.slot ≠ slot → v.writeRow slot r cells = source) ∧
    (∀ m sp, v.migrating = some m → v.spare = some sp → m.slot = slot →
      let both := source.setPhysRow sp r ((source.physRow (v.slotBank slot) r).map some)
      (∀ row, m.held = some (r, row) → v.writeRow slot r cells = { both with migrating := some { m with held := none } }) ∧
      (m.held = none ∨ (∃ k row, m.held = some (k, row) ∧ k ≠ r) → v.writeRow slot r cells = both))) ∧
  (∀ (a : Arbiter) (x : BankReq), a.holder = none → x ∈ a.waiting →
    (∀ y ∈ a.waiting, y = x ∨ y.prio < x.prio ∨ (y.prio = x.prio ∧
      (x.raised < y.raised ∨ (x.raised = y.raised ∧ x.who < y.who)))) →
    a.round = (some x.who, { a with
      cycle := a.cycle + 1, holder := if x.noBreak = true then some x.who else none
      waiting := (a.waiting.erase x).map fun y => { y with age := min (y.age + 1) 2 } })) ∧
  (∀ (a : Arbiter) (h : Nat), a.holder = some h → a.round.1 = some h ∧ a.round.2.holder = none) ∧
  (∀ x : BankReq, x.prio = min ((if x.who < 44 then 1 else 0) + x.age) 2)

/-- Pointer faults and queue resets (R138, R139, R150): a queue with a corrupt pointer is reset with POISONED and VAT_PTR is raised; a
fault of the state table strikes every queue with segments in the bank; a corrupt free list is quarantined until it is rebuilt; a queue
whose reset is done is swept, and a command whose response was lost in it ends with POISONED. -/
def Rows.QueueFaultRows : Prop :=
  ∀ s : State,
    (∀ (q : Fin 16384) (b : Fin 9) t, Safety.vat s.dev → Safety.gives (.pointerFault (some q) ⟨b, t⟩) s
      ((s.dev.resetQueueWork q.val stPoisoned).assert srcVatPtr (at_ q.val 16 ||| at_ b.val 0))) ∧
    (∀ (b : Fin 9) k, Safety.vat s.dev → s.dev.vat.slots.findIdx? (· = b.val) = some k →
      Safety.gives (.pointerFault none ⟨b, false⟩) s ((s.dev.updFreeList k fun f => { f with quarantined := true }).assert srcVatPtr
        (at_ 0x3FFF 16 ||| at_ (s.dev.vat.slotBank k) 0)) ∧
      (∀ q, s.dev.queuesIn k = [q] → Safety.gives (.pointerFault none ⟨b, true⟩) s
        ((s.dev.resetQueueWork q stPoisoned).assert srcVatPtr (at_ q 16 ||| at_ b.val 0)))) ∧
    (∀ b : Fin 8, (s.dev.freeList b.val).quarantined = true →
      ((s.dev.rebuildList b.val).freeList b.val).quarantined = false ∧
      Safety.gives (.freeListRebuilt b) s (Safety.watched (s.dev.rebuildList b.val))) ∧
    (∀ q : Fin 16384, (s.dev.queue q.val).state = .resetting →
      let d := s.dev.sweepDone q.val
      (s.dev.requests = [] → Safety.gives (.queueResetDone q) s (Safety.watched d)) ∧
      (∀ r : Request, s.dev.requests = [r] → r.phase = .answered → s.dev.responseQueue r.route = some q.val →
        s.dev.spi.holds r = false → Safety.gives (.queueResetDone q) s ((Safety.watched d).respondAs r stPoisoned [])))

/-- Depth changes (R147, R148): with every joining bank tested, the deeper Vat has those banks in its slots; once nothing of the
leaving banks stays in use, a drained Vat has only the slots of its depth. -/
def Rows.DepthRows : Prop :=
  ∀ (t : Nat) (s : State),
    (∀ p, s.dev.vat.change = .growing t [] p → s.dev.vat.spare.any p.contains = false → s.dev.vat.coming.any p.contains = false →
      Safety.gives .growthComplete s { s.dev with
        vat := { s.dev.vat with depth := t, change := .stable, slots := s.dev.vat.slots ++ p } }.seekDepth) ∧
    (∀ p sp, s.dev.vat.change = .growing t [] p → s.dev.vat.spare = some sp → sp ∈ p → s.dev.vat.coming = none →
      Safety.gives .growthComplete s ({ s.dev with
        vat := { s.dev.vat with
          depth := t, change := .stable, slots := s.dev.vat.slots ++ p, spare := none, sparePassed := false, noSpare := true
          } }.assert srcNoSpare 0).seekDepth) ∧
    (s.dev.vat.change = .draining t →
      let n := depthBanks t
      let e := s.dev.relocateAll n
      let d := (forN e.vat.slots.length (fun b a => if n ≤ b then a.gateSlot b else a) e).updVat fun v =>
        { v with
          depth := t, change := .stable, slots := v.slots.take n, rotSlot := v.rotSlot % n, front := v.front.filter (· < n) }
      e.straddling n = false →
      ((d.vat.spare.isSome = true ∨ d.vat.coming.isSome = true ∨ d.idleBanks = []) →
        Safety.gives .drainComplete s d.seekDepth) ∧
      (d.vat.spare = none → d.vat.coming = none → d.idleBanks ≠ [] →
        Safety.gives .drainComplete s d.replaceSpare.seekDepth))

/-- The banks of the Vat (R140 to R148, R157): rotation, march passes and changes of depth.
Model's choices: log 44, 82, 83, 84, 90. -/
def Obligations.VatBanks : Prop := Rows.RotationRows ∧ Rows.MarchRows ∧ Rows.DepthRows

/-- HEADBOX_GRANT (R110, R134, R252 to R254): a response or a notification leaves for the SPI's response FIFO when it has room, as
stored, marked POISONED when a cell of its payload fails, or not at all, counted, when one of its header fails; nothing leaves from an output where nothing waits. -/
def Rows.GrantRow : Prop :=
  ∀ (s : State) (o : Fin 36) (bad : List Nat), Safety.vat s.dev →
    (s.dev.nextUnit o.val = none → Safety.gives (.headboxGrant o bad) s s.dev.vatAlarms) ∧
    (∀ x e, o = 35 → s.dev.nextUnit 35 = some (x, e) → x.work = .response → e.spi.room (e.headLen 35 + 16) = true →
      ∀ r cells f, e.dequeue rqSpi 35 bad = some (r, cells, f) →
        let sends (d : Dev) (p : List Byte) : Prop := Safety.gives (.headboxGrant o bad) s
          { d.grant 35 x with spi := { (d.grant 35 x).spi with rsp := (d.grant 35 x).spi.rsp ++ [p] } }.vatAlarms
        (failing cells = [] → r.poison = false → sends f r.payload) ∧
        ((failing cells).any (· < 36) = false → (r.poison = true ∨ failing cells ≠ []) →
          sends (f.broke 35 2 1) (stomp r.payload)) ∧
        ((failing cells).any (· < 36) = true → Safety.gives (.headboxGrant o bad) s
          (((f.broke 35 2 1).count (selNotifDrop (pkSub r.payload))).grant 35 x).vatAlarms))

/-- The order of the choice (R253): a unit of SV0 goes before one of SV1, and that before one of SV2. -/
def Rows.ClassPriority : Prop :=
  ∀ (d e : Dev) (o c : Nat) (x y : Cand), d.nextUnit o = some (x, e) → c < 3 → c < x.cls →
    y ∈ (((d.bitNow).2.capacity o).2.cands o).filter (((d.bitNow).2.capacity o).2.fits o (d.bitNow).1) → y.cls ≠ c

/-- The queues of the Vat and their way out (R110, R134, R138, R139, R252 to R254).
Model's choices: log 16, 18, 23, 79, 80, 81, 87, 88, 89. -/
def Obligations.VatQueues : Prop := Rows.QueueFaultRows ∧ Rows.GrantRow ∧ Rows.ClassPriority

/-- R130: a class's usage is its linked and held segments and its outstanding claims; its excess is what usage has over the reserve;
the free shared pool is the in-service segments less the reserves and less the excesses of SV1 to SV7 (never below 0). -/
def Obligations.PoolAccounting : Prop :=
  ∀ d : Dev, (∀ c, d.usage c = d.linked c + d.heldOf c + d.claim c) ∧
    (d.shared = ((d.segments : Int) - ((List.range 8).map fun c => (d.reserve c : Int)).sum -
      ((List.range' 1 7).map fun c => max 0 ((d.usage c : Int) - d.reserve c)).sum).toNat) ∧
    (d.isReady 4 = true → ∀ st b, (d.readReg st b 0x30064).1.toNat = d.shared % 2 ^ 17 ∧
      ∀ c < 8, (d.readReg st b (0x30040 + 4 * c)).1.toNat = d.usage c % 2 ^ 17)

/-! ## The host engine (R18, R187 to R205, R222) -/

/-- Answers of devices (R202, R204 to R206, R223): an answer goes to the transfer or the poll whose transaction is on the bus, after
which a late timeout and a waiting close take effect; past the end of its microframe it is an error and a babble; ERDY ends the flow
control of its endpoint; on a TRANSPARENT port the translator keeps the answer for the next complete-split, IN data as a record of its
buffer. `u` are the cells that have changed in their banks before the row. -/
def Rows.AnswerRows : Prop :=
  ∀ (n : Fin 32) (r : XactResult) (u : List Upset) (s : State),
    let c := s.dev.upset u
    let k := (c.port n.val).hubPort
    (∀ x, Safety.gives (.transactionResponse n ⟨.erdy x, u⟩ false) s
      (c.updCtx x fun y => if y.port = n.val then { y with flow := false } else y).vatAlarms) ∧
    ((∀ x, r ≠ .erdy x) →
      (∀ y, (c.port n.val).inflight.find? Xact.onBus = some y →
        let d := c.updPort n.val fun p => { p with inflight := p.inflight.erase y }
        (∀ t, y.poll = false → d.headOn y.ctx = some t → t.started = true →
          Safety.gives (.transactionResponse n ⟨r, u⟩ false) s
            (((d.attemptAnswer t y r).lateTransfer y.ctx).closeLate y.ctx).vatAlarms) ∧
        (y.poll = true → Safety.gives (.transactionResponse n ⟨r, u⟩ false) s
          (((d.pollAnswer n.val y r).lateTransfer y.ctx).closeLate y.ctx).vatAlarms) ∧
        Safety.gives (.transactionResponse n ⟨r, u⟩ true) s
          ((((d.pollUnclaim y).xactError y.ctx).babblePort n.val).leftEnabled n.val).vatAlarms) ∧
      (∀ b past, (c.port n.val).inflight.find? Xact.onBus = none → c.isTransparent n.val = true →
        ttOpen (c.hubPort k).ttBuffers = some b →
        ((∀ pid seq l, r ≠ .data pid seq l) → Safety.gives (.transactionResponse n ⟨r, u⟩ past) s
          ((c.dropClaim b.cls b.claim).updHubPort k fun p =>
            { p with ttBuffers := ttPut b { b with result := some r, claim := 0 } p.ttBuffers }).vatAlarms) ∧
        (∀ pid seq l d, r = .data pid seq l →
          ((c.dropClaim b.cls b.claim).openQueue (ttQueue k b.periodic true) b.cls 1 n.val 32 0).enqueue (rqHs n.val)
            (ttQueue k b.periodic true) ⟨5, false, true, 0, l⟩ = some d →
          Safety.gives (.transactionResponse n ⟨r, u⟩ past) s (d.updHubPort k fun p =>
            { p with ttBuffers := ttPut b { b with result := some (.data pid seq []), claim := 0 } p.ttBuffers }).vatAlarms))) ∧
    ((s.dev.port n.val).state = .enabled → (s.dev.port n.val).inflight = [] →
      Safety.gives (.babble n) s ((s.dev.babblePort n.val).leftEnabled n.val))

/-- TRANSFER_TIMEOUT and ADDRESS_HOLD_END (R189, R204): a started transfer whose time has passed and that has nothing on the wire
ends with TIMEOUT; an address is free once its hold has passed, and other holds stay. -/
def Rows.TransferTimeRows : Prop :=
  ∀ s : State,
    (∀ c t w, s.dev.headOn c = some t → t.started = true → t.deadline = some w → w ≤ s.dev.now → s.dev.onWire c = false →
      Safety.gives (.transferTimeout c) s (s.dev.complete t stTimeout)) ∧
    (∀ c t w, s.dev.headOn c = some t → t.deadline = some w → s.dev.now < w → Safety.gives (.transferTimeout c) s s.dev) ∧
    (∀ (dom : Fin 4) (a : BitVec 7), Safety.does (.addressHoldEnd dom a) s fun d =>
      (∀ w, (dom.val, a.toNat, w) ∈ d.holds → s.dev.now < w) ∧
        ∀ h, h ∈ s.dev.holds → (h.1 ≠ dom.val ∨ h.2.1 ≠ a.toNat) → h ∈ d.holds)

/-- What devices answer, and the times of transfers and addresses (R189, R204, R205, R223).
Model's choices: log 45, 56, 87, 90, 91. -/
def Obligations.HostAnswers : Prop := Rows.AnswerRows ∧ Rows.TransferTimeRows

/-- A root port from DISCONNECTED to ENABLED (R198, R199): a connect is debounced; one that drops is disconnected again; after
the debounce the port waits in CONNECTED where AUTO_RESET is 0, and is reset otherwise; the end of reset signalling gives the
speed; a SuperSpeed hot reset that fails is followed by a warm reset; after recovery the port is ENABLED. -/
def Rows.RootPortRows : Prop :=
  ∀ (n : Fin 32) (s : State),
    (s.dev.isRoot n.val = true → (s.dev.port n.val).state = .disconnected → (s.dev.port n.val).ssTraining = false →
      Safety.gives (.connectSeen n) s ((s.dev.toState n.val .debounce).startWake .connect)) ∧
    ((s.dev.port n.val).state = .debounce →
      Safety.gives (.connectDrop n) s (((s.dev.updPort n.val fun p => { p with state := .disconnected, speed := 0, ss := false }).portEvt
        n.val 2).portChange n.val)) ∧
    ((s.dev.port n.val).state = .debounce → (s.dev.reg (aPortCfg n.val)).getLsbD 1 = false →
      Safety.gives (.debounceEnd n) s (((s.dev.toState n.val .connected).portEvt n.val 1).portChange n.val)) ∧
    ((s.dev.port n.val).state = .debounce → (s.dev.reg (aPortCfg n.val)).getLsbD 1 = true → s.dev.boot.state = .normal →
      (s.dev.binding (s.dev.port n.val).domain = none ∨ (s.dev.port n.val).alloc ≠ 1) →
      Safety.gives (.debounceEnd n) s (((s.dev.enterResetting n.val).portEvt n.val 1).portChange n.val)) ∧
    (∀ b, (s.dev.port n.val).state = .debounce → (s.dev.reg (aPortCfg n.val)).getLsbD 1 = true → s.dev.boot.state = .normal →
      (s.dev.port n.val).alloc = 1 → s.dev.binding (s.dev.port n.val).domain = some b → b.port ≠ n.val →
      Safety.gives (.debounceEnd n) s ((((s.dev.toState n.val .connected).updPort n.val fun p =>
        { p with waiting := s.dev.nextWaiting }).portEvt n.val 1).portChange n.val)) ∧
    (∀ sp : BitVec 2, (s.dev.port n.val).alloc = 1 → (s.dev.port n.val).state = .resetting → (s.dev.port n.val).ss = false →
      s.dev.binding (s.dev.port n.val).domain = none →
      Safety.gives (.resetSignallingEnd n sp) s
        (s.dev.updPort n.val fun p => { p with state := .recovery, speed := min sp.toNat 2, warmReset := false })) ∧
    (∀ (sp : BitVec 2) b, (s.dev.port n.val).alloc = 1 → (s.dev.port n.val).state = .resetting → (s.dev.port n.val).ss = false →
      s.dev.binding (s.dev.port n.val).domain = some b → b.port = n.val →
      let d := s.dev.updPort n.val fun p => { p with state := .recovery, speed := min sp.toNat 2, warmReset := false }
      Safety.gives (.resetSignallingEnd n sp) s (d.bind (s.dev.port n.val).domain { b with speed := min sp.toNat 2 })) ∧
    ((s.dev.port n.val).alloc = 1 → (s.dev.port n.val).state = .resetting → (s.dev.port n.val).ss = true →
      (s.dev.binding (s.dev.port n.val).domain = none → Safety.gives (.resetSignallingEnd n 3) s
        (s.dev.updPort n.val fun p => { p with state := .recovery, speed := 3, warmReset := false })) ∧
      (∀ sp : BitVec 2, sp ≠ 3 → (s.dev.port n.val).warmReset = false → Safety.gives (.resetSignallingEnd n sp) s
        (s.dev.updPort n.val fun p => { p with warmReset := true }))) ∧
    ((s.dev.port n.val).state = .recovery →
      let d := ((((s.dev.updPort n.val fun p => { p with state := .enabled, idleBeats := 0, lastWork := s.dev.now }).portEvt
        n.val 3).portChange n.val).resetsDone n.val).resumesDone n.val |>.sendU2Timeout n.val
      Safety.gives (.recoveryEnd n) s (if d.isCoupler n.val && (d.link n.val).state = .enumerating && !(d.link n.val).ufp then
        d.enumStart n.val else d))

/-- The binding of a domain that is freed goes to the port that has waited longest; a port that loses its device detaches it, a
DFP coupler port past ENABLED taking its link down (R188, R201, R275). -/
def Rows.BindingAndDetachRows : Prop :=
  ∀ s : State,
    (∀ (dom : Fin 4) n, s.dev.binding dom.val = none → s.dev.firstWaiting dom.val = some n →
      Safety.gives (.bindingReleaseReset dom) s (s.dev.enterResetting n)) ∧
    (∀ n : Fin 32, (s.dev.port n.val).state = .enabled →
      Safety.gives (.disconnectSeen n) s ((s.dev.detachPort n.val .disconnected).leftEnabled n.val)) ∧
    (∀ n : Fin 32, (s.dev.port n.val).state = .debounce ∨ (s.dev.port n.val).state = .connected →
      Safety.gives (.disconnectSeen n) s (s.dev.detachPort n.val .disconnected))

/-- SuperSpeed training (R200): a link that reaches U0 runs at SuperSpeed; one that fails leaves the port at USB 2.0 with its
event; a resumed link is ENABLED again (R299). -/
def Rows.SuperSpeedRows : Prop :=
  ∀ (n : Fin 8) (s : State),
    ((s.dev.port n.val).ssTraining = true → (s.dev.port n.val).state = .disconnected →
      Safety.gives (.ssLinkU0 n) s (s.dev.updPort n.val fun x =>
        { x with ss := true, speed := 3, ssTraining := false, state := .debounce })) ∧
    ((s.dev.port n.val).ssTraining = false → (s.dev.port n.val).ss = true → (s.dev.port n.val).state = .suspended →
      (s.dev.port n.val).link = 5 → Safety.gives (.ssLinkU0 n) s (s.dev.enabledAgain n.val)) ∧
    ((s.dev.port n.val).ssTraining = true →
      Safety.gives (.ssTrainingTimeout n) s ((s.dev.updPort n.val fun p => { p with ssTraining := false }).portEvt n.val 5))

/-- A root port from DISCONNECTED to ENABLED, at USB 2.0 and at SuperSpeed (R198 to R200, R299).
Model's choices: log 42, 47, 48. -/
def Obligations.RootPorts : Prop := Rows.RootPortRows ∧ Rows.SuperSpeedRows

/-- PRESENT_CHANGE (R18): a port is presented to its engine once it is attached, its VBUS is good where it sources, and no level
of the collector isolates it; it is withdrawn as soon as one of these fails, by any row that may end one. -/
def Rows.PresentRow : Prop :=
  ∀ (n : Fin 32) (s : State), (s.dev.port n.val).alloc = 1 →
    ((s.dev.port n.val).present = false → s.dev.up = true → s.dev.attachedFor n.val = true →
      ((s.dev.eng n.val).source = false ∨ (s.dev.fuse n.val).pg = true) → s.dev.fc.chipSafe = false →
      s.dev.isolated n.val = false → s.dev.boot.hostRuns = true →
      Safety.gives (.presentChange n) s
        (((s.dev.updPort n.val fun p => { p with present := true }).portEvt n.val 0).presentTo n.val)) ∧
    ((s.dev.port n.val).present = true → (s.dev.attachedFor n.val = false ∨ s.dev.fc.chipSafe = true ∨
        s.dev.isolated n.val = true ∨
          ((s.dev.eng n.val).source = true ∧ (s.dev.eng n.val).givesUp = false ∧ (s.dev.fuse n.val).pg = false)) →
      Safety.gives (.presentChange n) s
        (((s.dev.updPort n.val fun p => { p with present := false }).portEvt n.val 0).withdraw n.val)) ∧
    ((s.dev.port n.val).present = (s.dev.r18 n.val && s.dev.engineRuns n.val) → Safety.gives (.presentChange n) s s.dev) ∧
    ((∀ m < 32, (s.dev.port m).present = true → s.dev.r18 m = true) → s.dev.withdrawLost = s.dev)

/-- When a port is presented to its engine, who holds a binding, and what a detach ends (R18, R188, R201, R275).
Model's choices: log 46, 48. -/
def Obligations.Presence : Prop := Rows.PresentRow ∧ Rows.BindingAndDetachRows

/-! ## Link power (R294 to R305) -/

/-- L1 (R294 to R296): an idle HS port sends an LPM token with its BESL and bRemoteWake; ACK takes the link to L1 and is counted, NYET puts the next token off,
STALL ends the tokens; an exit takes the link back to L0, at once where work has come meanwhile. -/
def Rows.L1Rows : Prop :=
  ∀ (n : Fin 32) (s : State),
    ((s.dev.port n.val).alloc = 1 → (s.dev.port n.val).state = .enabled → (s.dev.port n.val).speed = 2 →
      (s.dev.port n.val).link = 0 → (s.dev.reg (aPortLpm n.val)).getLsbD 31 = true → (s.dev.port n.val).lpmRefused = false →
      (s.dev.port n.val).lpmSent = false → s.dev.workBehind n.val (fun _ => true) = false →
      (s.dev.port n.val).lastWork + s.dev.fld (aPortLpm n.val) 16 8 ≤ s.dev.now →
      (∀ k ≤ s.dev.lx n.val, s.dev.plannedAt n.val k = false) →
      Safety.gives (.l1Entry n) s ((s.dev.updPort n.val fun x => { x with lpmSent := true }).sendUnit n.val
        ([0xF0, 0xC3] ++ leBytes 2 (1 + 16 * s.dev.fld (aPortLpm n.val) 24 4 + 256 * s.dev.fld (aPortLpm n.val) 30 1)) false)) ∧
    (∀ a, (s.dev.port n.val).lpmSent = true → Safety.gives (.lpmResponse n a) s (
      let d := s.dev.updPort n.val fun p => { p with lpmSent := false }
      match a with
      | .ack =>
        let e := (d.updPort n.val fun p => { p with link := 1 }).count (0x25010000 + n.val)
        if s.dev.workBehind n.val (fun _ => true) then e.l1Exit n.val else e
      | .nyet => d.updPort n.val fun p => { p with lastWork := s.dev.now }
      | .stall => d.updPort n.val fun p => { p with lpmRefused := true }
      | .none => (d.updPort n.val fun p => { p with lastWork := s.dev.now }).lpmError n.val)) ∧
    ((s.dev.port n.val).link = 1 → Safety.gives (.l1Exit n) s (s.dev.updPort n.val fun p => { p with link := 0 }))

/-- U1 and U2 (R297): an idle SuperSpeed link whose `U1_TIMEOUT` is not 0 enters U1, then U2 (the second timeout is the model's
reading), and returns to U0. -/
def Rows.U1U2Rows : Prop :=
  ∀ (n : Fin 8) (s : State), (s.dev.port n.val).alloc = 1 → (s.dev.port n.val).ss = true → (s.dev.port n.val).state = .enabled →
    (∀ k ≤ s.dev.fld (aSsLpm n.val) 0 4, s.dev.plannedAt n.val k = false) →
    ((s.dev.port n.val).link = 0 → s.dev.fld (aSsLpm n.val) 8 8 ≠ 0 →
      Safety.gives (.u1Timeout n) s (s.dev.updPort n.val fun x => { x with link := 2 })) ∧
    ((s.dev.port n.val).link = 2 → s.dev.fld (aSsLpm n.val) 16 8 ≠ 0 →
      Safety.gives (.u1Timeout n) s (s.dev.updPort n.val fun x => { x with link := 3 })) ∧
    ((s.dev.port n.val).link = 2 ∨ (s.dev.port n.val).link = 3 →
      Safety.gives (.u1u2Exit n) s (s.dev.updPort n.val fun x => { x with link := 0 }))

/-- Suspend and resume of ports and subtrees (R298 to R303): `SUSP_BEATS` idle beats suspend a port; an idle subtree is suspended
by SET_FEATURE(PORT_SUSPEND) to its hub; resume signalling, its end and the recovery lead back to ENABLED; a remote wake starts a
resume, is flagged and notified. -/
def Rows.SuspendRows : Prop :=
  ∀ (n : Fin 32) (s : State), (s.dev.port n.val).alloc = 1 →
    ((s.dev.port n.val).state = .enabled → s.dev.atBeat = true → s.dev.fld (aPortLpm n.val) 0 16 ≠ 0 →
      s.dev.fld (aPortLpm n.val) 0 16 ≤ (s.dev.port n.val).idleBeats → s.dev.idleBeat n.val = true →
      Safety.gives (.suspendTimer n) s (s.dev.suspendPort n.val)) ∧
    Safety.gives (.resumeStart n) s (s.dev.resumePort n.val false) ∧
    ((s.dev.port n.val).state = .suspended → (s.dev.port n.val).link = 5 → (s.dev.port n.val).ss = false →
      Safety.gives (.resumeEnd n) s (s.dev.updPort n.val fun p => { p with resumeRecovery := true })) ∧
    ((s.dev.port n.val).state = .suspended → (s.dev.port n.val).resumeRecovery = true →
      Safety.gives (.resumeRecoveryEnd n) s (s.dev.enabledAgain n.val)) ∧
    (∀ h hp : BitVec 7, Safety.gives (.subtreeResumeWaitEnd n h hp) s
      (s.dev.updPort n.val fun p => { p with selWait := p.selWait.erase (h.toNat, hp.toNat) })) ∧
    (∀ (h hp : BitVec 7) (c : Nat), s.dev.ep0 (s.dev.port n.val).domain h.toNat = some c → (s.dev.port n.val).state = .enabled →
      s.dev.fld (aPortLpm n.val) 0 16 ≠ 0 → (s.dev.port n.val).idleBeats < s.dev.fld (aPortLpm n.val) 0 16 →
      (s.dev.ctx c).port = n.val → (s.dev.ctx c).state = 1 → (s.dev.ctx c).speed ≠ 3 →
      h.toNat ∈ (s.dev.port n.val).knownHubs → (h.toNat, hp.toNat) ∉ (s.dev.port n.val).selSusp →
      (h.toNat, hp.toNat) ∉ (s.dev.port n.val).selWait →
      (s.dev.subscriptions.any fun kv => kv.2.isSome && (s.dev.ctx kv.1).addr = h.toNat && (s.dev.ctx kv.1).port = n.val &&
        s.dev.isHubInt kv.1) = true →
      s.dev.subtreeIdle n.val h.toNat hp.toNat = true → s.dev.atBeat = true →
      s.dev.fld (aPortLpm n.val) 0 16 ≤ (s.dev.port n.val).idleOf h.toNat hp.toNat → s.dev.ownQueued c hp.toNat (.selSuspend n.val) = false →
      Safety.gives (.selectiveSuspend n h hp) s (s.dev.hubRequest c (.selSuspend n.val)
        { bmRequestType := 0x23, bRequest := 3, wValue := 2, wIndex := BitVec.ofNat 16 hp.toNat, wLength := 0 })) ∧
    ((s.dev.port n.val).state = .suspended → (s.dev.port n.val).link = 4 →
      Safety.gives (.remoteWake n none) s
        ((((s.dev.resumePort n.val true).flag (aPortPwr n.val) 0).remoteWakeSent n.val 0 0 false).startWake .remoteWake))

/-- L1, U1 and U2 (R294 to R297), and the suspend and resume of ports and subtrees (R298 to R303).
Model's choices: log 42, 47, 101. -/
def Obligations.LinkPower : Prop := Rows.L1Rows ∧ Rows.U1U2Rows ∧ Rows.SuspendRows

/-! ## Power states of the chip (R306 to R316) -/

/-- TRIM, DOZE and the AVS writes (R308, R309, R315, R316): TRIM after `TRIM_BEATS`; DOZE writes the lower voltage, is entered on
its acknowledgement, and left by a wake, which raises the voltage before the clocks restart; a write that is not acknowledged
keeps the device running at the higher voltage, with its event and AVS_NOACK. -/
def Rows.DozeRows : Prop :=
  ∀ s : State, s.dev.up = true →
    (s.dev.boot.ready.getLsbD 4 = true → s.dev.power.state = .active → s.dev.power.avs = .idle → s.dev.fc.chipSafe = false →
      s.dev.atBeat = true → s.dev.fld aPwrCfg 16 8 ≠ 0 → s.dev.fld aPwrCfg 16 8 ≤ s.dev.power.trimBeats →
      Safety.gives .trimEntry s ((s.dev.updPower fun p => { p with state := .trim, trimBeats := 0 }).seekDepth)) ∧
    (s.dev.power.state ≠ .doze → s.dev.power.avs = .idle → s.dev.power.dozeNow = false → s.dev.atBeat = true →
      s.dev.fld aPwrSleep 0 16 ≠ 0 → s.dev.fld aPwrSleep 0 16 ≤ s.dev.power.dozeBeats → s.dev.mayDoze = true →
      Safety.gives .dozeEntry s (s.dev.updPower fun p => { p with avs := .lowering })) ∧
    (∀ ok, s.dev.power.avs = .lowering → Safety.gives (.avsAck ok) s (s.dev.updPower fun p =>
      { p with coreOk := ok, state := .doze, avs := .idle, lowered := true, dozeBeats := 0, hibBeats := 0 })) ∧
    (s.dev.power.avs = .raising → Safety.gives (.avsAck true) s
      ((s.dev.updPower fun p => { p with coreOk := true }).clocksRestart)) ∧
    (s.dev.power.avs = .raising → Safety.gives (.avsAck false) s (s.dev.updPower fun p => { p with coreOk := false })) ∧
    (∀ ok, s.dev.power.avs = .lowering → Safety.gives (.avsNoack ok) s
      (((s.dev.updPower fun p => { p with coreOk := ok, avs := .raising, holdoff := s.dev.fld aPwrSleep 0 16 }).flag aPwrEvent
        1).assert srcAvsNoack 0)) ∧
    (∀ src, src ≠ .beatIn → s.dev.power.state = .doze → s.dev.power.avs = .idle → Safety.does (.wake src) s fun d =>
      d.power.avs = .raising ∧ d.power.wakeSrc = wakeCode src ∧ d.power.state = .doze ∧ d.power.dozeNow = false)

/-- HIBERNATE (R311, R312, R314): from DOZE after `HIB_BEATS`, with the dies hibernating at Safe, the engines in HIBERNATE, no
grid, and E0, E1 and U0 down. -/
def Rows.HibernateRow : Prop :=
  ∀ s : State, s.dev.up = true → s.dev.power.state = .doze → s.dev.power.avs = .idle → s.dev.atBeat = true →
    s.dev.fld aPwrSleep 16 16 ≠ 0 → s.dev.fld aPwrSleep 16 16 ≤ s.dev.power.hibBeats → s.dev.mayHibernate = true →
    Safety.does .hibernateEntry s fun d => d.life = .hibernate ∧ d.power.state = .hibernate ∧ d.deckle.running = false ∧
      d.u0.speed = 0 ∧ d.watermark = s.dev.watermark ∧ d.quire = s.dev.quire ∧ d.flash = s.dev.flash ∧
      (wfTab dieDflt s.dev.dies = true → ∀ x < 4, (d.die x).hibernating = true ∧ (d.die x).safe = true) ∧
      (wfTab ethDflt s.dev.eths = true → ∀ e < 2, (d.eth e).linkUp = false ∧ (d.eth e).configured = false)

/-- TRIM, DOZE with its AVS writes, and HIBERNATE (R308 to R316). Model's choices: log 4, 68, 102. -/
def Obligations.ChipPower : Prop := Rows.DozeRows ∧ Rows.HibernateRow

/-! ## The relay links (R263 to R290) -/

/-- A link-control frame that passes the checks of R268 is received: it counts, the high sequence advances, and the returns in
its CREDIT bytes are added (R285). -/
def Safety.received (d : Dev) (n : Nat) (f : List Byte) : Dev :=
  forN 4 (fun v a => a.updSvc n v fun c => { c with ret := c.ret + BitVec.ofNat 32 (byteAt f (6 + v)) })
    ((d.count (0x24020000 + n)).updLink n fun x => { x with rxHigh := x.rxHigh + 1 })

/-- The link carries frames, and the frame passes the checks as link control of a kind (R268, R269, R271). -/
def Safety.control (d : Dev) (n : Nat) (f : List Byte) (kind : Nat) : Prop :=
  (d.link n).state.lively = true ∧ frameOk f = true ∧ frSeq f = (d.link n).rxHigh.toNat ∧ frLink f = true ∧
    byteAt (frPayload f) 0 = kind

/-- HELLO (R271, R275, R277): with a common epoch the end goes on to AUTH under the lower of the two; without one it goes to
QUARANTINE with its event and fault. HELLO is repeated every 8 microframes until the neighbour's has come. -/
def Rows.HelloRows : Prop :=
  ∀ (n : Fin 5) (f : List Byte) (s : State),
    (∀ e, Safety.control s.dev n.val f 1 →
      let d := (Safety.received s.dev n.val f).noteHello n.val (frPayload f)
      ((Safety.received s.dev n.val f).link n.val).state = .hello →
      commonEpoch d.couchEpoch (d.link n.val).nbrEpoch.toNat = some e →
      Safety.gives (.hello n f) s ((d.updLink n.val fun x => { x with epoch := BitVec.ofNat 16 e }).enterAuth n.val)) ∧
    (Safety.control s.dev n.val f 1 →
      let d := (Safety.received s.dev n.val f).noteHello n.val (frPayload f)
      ((Safety.received s.dev n.val f).link n.val).state = .hello →
      commonEpoch d.couchEpoch (d.link n.val).nbrEpoch.toNat = none →
      Safety.gives (.hello n f) s (((d.flag (aCplEvent n.val) 1).linkTo n.val .quarantine).linkSource n.val 4)) ∧
    ((s.dev.link n.val).state = .hello → (s.dev.link n.val).helloSeen = false → (s.dev.link n.val).helloAt + 8 ≤ s.dev.now →
      Safety.gives (.helloRepeat n) s ((s.dev.control n.val (s.dev.helloPayload n.val)).updLink n.val fun x =>
        { x with helloSent := true, helloAt := s.dev.now }))

/-- The epochs that an image of RELAY_EPOCH e speaks (R277). -/
def Safety.speaks (e x : Nat) : Prop := x ≠ 0 ∧ (x = e ∨ x + 1 = e)

/-- The common epoch (R277): min(a, b) when they differ by at most 1, none otherwise; epoch 0 is never used; both ends speak it;
`CPL_STATUS` shows the link's epoch and `CPL_NBR` the neighbour's. -/
def Obligations.CommonEpoch : Prop :=
  (∀ a b m : Nat, a ≠ 0 → b ≠ 0 → (commonEpoch a b = some m ↔ a ≤ b + 1 ∧ b ≤ a + 1 ∧ m = min a b)) ∧
  (∀ a b : Nat, a = 0 ∨ b = 0 → commonEpoch a b = none) ∧
  (∀ a b m : Nat, commonEpoch a b = some m → Safety.speaks a m ∧ Safety.speaks b m) ∧
  ∀ (d : Dev) (n : Nat), bits (d.cplStatus n) 0 16 = (d.link n).epoch.toNat ∧ bits (d.cplNbr n) 0 16 = (d.link n).nbrEpoch.toNat

/-- The challenge exchange (R279, R280): the UFP answers CHAL with its own nonce and MAC; a DFP that finds the UFP's MAC right
sends its own and is ADMITTED; a wrong MAC, and 800 microframes without one, fail the attempt; a further attempt starts after
8,000 microframes, three in all. -/
def Rows.ChallengeRows : Prop :=
  ∀ (n : Fin 5) (f : List Byte) (s : State),
    (Safety.control s.dev n.val f 2 →
      let a := Safety.received s.dev n.val f
      (a.link n.val).ufp = true → (a.link n.val).state = .auth →
      let b := (a.updLink n.val fun x => { x with
        keyId := byteAt (frPayload f) 1 % 2, nonceNbr := some (BitVec.ofNat 128 (leAt (frPayload f) 4 16)) }).sendChal n.val
      Safety.gives (.chal n f) s (b.sendResp n.val ((b.linkMac n.val true).getD (zeros 16)))) ∧
    (Safety.control s.dev n.val f 2 →
      let a := Safety.received s.dev n.val f
      (a.link n.val).ufp = false → (a.link n.val).state = .auth →
      Safety.gives (.chal n f) s
        (a.updLink n.val fun x => { x with nonceNbr := some (BitVec.ofNat 128 (leAt (frPayload f) 4 16)) })) ∧
    (Safety.control s.dev n.val f 3 →
      let a := Safety.received s.dev n.val f
      (a.link n.val).state = .auth →
      let good := a.linkMac n.val (!(a.link n.val).ufp) = some (((frPayload f).drop 4).take 16)
      let b := a.updLink n.val fun x => { x with macOk := true }
      ((a.link n.val).ufp = false → Safety.gives (.resp n f) s (if good then
        (b.sendResp n.val ((b.linkMac n.val false).getD (zeros 16))).enterAdmitted n.val else a.authFail n.val)) ∧
      ((a.link n.val).ufp = true → Safety.gives (.resp n f) s (if good then
        (if (a.link n.val).macSent then b.enterAdmitted n.val else b) else a.authFail n.val))) ∧
    ((s.dev.link n.val).state = .auth → (s.dev.link n.val).authAt + 800 ≤ s.dev.now →
      Safety.gives (.authTimeout n) s (s.dev.authFail n.val)) ∧
    ((s.dev.link n.val).state = .authFailed → (s.dev.link n.val).authTries < 3 → (s.dev.link n.val).authAt + 8000 ≤ s.dev.now →
      Safety.gives (.authRetry n) s ((s.dev.sendHello n.val).enterAuth n.val)) ∧
    ((s.dev.link n.val).state = .authFailed → 3 ≤ (s.dev.link n.val).authTries → Safety.gives (.authRetry n) s s.dev)

/-- ENABLE (R281, R282): an ADMITTED end notes the neighbour's pools, and is ENABLED once it has sent its own; it sends ENABLE
with its pools when the link may be enabled and the claims succeed. -/
def Rows.EnableRows : Prop :=
  ∀ (n : Fin 5) (f : List Byte) (s : State),
    (Safety.control s.dev n.val f 4 →
      let a := Safety.received s.dev n.val f
      let p := frPayload f
      (a.link n.val).state = .admitted →
      Safety.gives (.enable n f) s ((a.updLink n.val fun x => { x with
        enableSeen := true, svc1 := { x.svc1 with pool := leAt p 2 2 }, svc2 := { x.svc2 with pool := leAt p 4 2 }
        svc3 := { x.svc3 with pool := leAt p 6 2 } }).enterEnabled n.val)) ∧
    ((s.dev.link n.val).state = .admitted → (s.dev.link n.val).enableSent = false → (s.dev.link n.val).posClash = false →
      s.dev.posValid = true → s.dev.mayEnable n.val = true →
      let d := s.dev.claimPools n.val
      let x := d.link n.val
      (x.poolsClaimed = true → Safety.gives (.enableSend n) s
        (((d.control n.val ([4, 0] ++ leBytes 2 x.svc1.own ++ leBytes 2 x.svc2.own ++ leBytes 2 x.svc3.own)).updLink n.val
          fun y => { y with enableSent := true }).enterEnabled n.val)) ∧
      (x.poolsClaimed = false → Safety.gives (.enableSend n) s d))

/-- A relay link from HELLO to ENABLED (R271, R275 to R282). Model's choices: log 10, 58. -/
def Obligations.LinkStart : Prop := Rows.HelloRows ∧ Rows.ChallengeRows ∧ Rows.EnableRows

/-- BEAT, REPORT and the report poll (R175, R176, R272, R273, R286): a UFP takes the neighbour's hops, beat and delay from BEAT; a DFP
computes the delay and the start of the neighbour's beat from the report and the times of the previous poll; both check the totals of
credits; a polled UFP returns its report and keeps the poll's times. -/
def Rows.BeatMessageRows : Prop :=
  ∀ (n : Fin 5) (f : List Byte) (s : State),
    (Safety.control s.dev n.val f 5 →
      let a := Safety.received s.dev n.val f
      let p := frPayload f
      (a.link n.val).ufp = true →
      Safety.gives (.beatFrame n f) s (((a.noteBeat n.val (byteAt p 1) (leAt p 2 6)).noteDelay n.val
        (if byteAt p 10 % 2 = 1 then some (leAt p 8 2) else none)).creditCheck n.val
          [leAt p 28 4, leAt p 32 4, leAt p 36 4, leAt p 40 4])) ∧
    (∀ p t1 t4 t, (s.dev.link n.val).ufp = false → (s.dev.link n.val).polled = true → (s.dev.link n.val).state.lively = true →
      byteAt p 0 = 1 → byteAt p 10 % 2 = 1 → (s.dev.link n.val).t1 = some t →
      let number := exchangeBeat p
      let offset : Int := (((leAt p 12 4 : Int) - t.1) - ((t.2 : Int) - leAt p 16 4)) / 2
      let d := (s.dev.dropClaim 0 1).updLink n.val fun y => { y with polled := false }
      Safety.gives (.report n p t1 t4) s
        ((((d.noteBeat n.val (byteAt p 1) number).noteDelay n.val
          (some ((((t.2 : Int) - t.1) - ((leAt p 16 4 : Int) - leAt p 12 4)) / 2).toNat)).updLink n.val fun y =>
            { y with t1 := some (t1, t4), found := some ((-offset).toNat, BitVec.ofNat 48 number) }).creditCheck n.val
          [leAt p 20 4, leAt p 24 4, leAt p 28 4, leAt p 32 4])) ∧
    (∀ p t1 t4, ((s.dev.link n.val).ufp = true ∨ (s.dev.link n.val).polled = false) → Safety.gives (.report n p t1 t4) s s.dev) ∧
    (∀ t2 t3, s.dev.couchRuns = true → (s.dev.link n.val).ufp = true → (s.dev.link n.val).state.lively = true →
      Safety.gives (.reportPoll n t2 t3) s (s.dev.updLink n.val fun x =>
        { x with report := s.dev.reportData n.val, t2 := t2, t3 := t3, tBeat16 := BitVec.ofNat 16 s.dev.beat16, tValid := true }))

/-- RESET, CREDIT and frames of an unknown kind (R271, R285, R290): RESET resets the link; the others count and give credit. -/
def Rows.ResetCreditRows : Prop :=
  ∀ (n : Fin 5) (f : List Byte) (s : State),
    (Safety.control s.dev n.val f 6 → Safety.gives (.resetFrame n f) s ((Safety.received s.dev n.val f).relayReset n.val 6)) ∧
    (Safety.control s.dev n.val f 7 → Safety.gives (.creditFrame n f) s (Safety.received s.dev n.val f)) ∧
    (∀ k, 7 < k → Safety.control s.dev n.val f k → Safety.gives (.unknownLinkFrame n f) s (Safety.received s.dev n.val f)) ∧
    ((s.dev.link n.val).state.lively = true → frameOk f = false →
      Safety.gives (.creditFrame n f) s
        ((((s.dev.count (0x24030000 + n.val)).flag (aCplEvent n.val) 3).linkSource n.val 0).relayReset n.val 1)) ∧
    ((s.dev.link n.val).state.lively = true → frameOk f = true → frSeq f ≠ (s.dev.link n.val).rxHigh.toNat →
      Safety.gives (.creditFrame n f) s
        ((((s.dev.count (0x24040000 + n.val)).flag (aCplEvent n.val) 4).linkSource n.val 1).relayReset n.val 2))

/-- The link-control frames that keep a link going, and those that reset it (R175, R176, R271 to R273, R285, R286, R290).
Model's choices: log 58, 60, 96, 99. -/
def Obligations.LinkMessages : Prop := Rows.BeatMessageRows ∧ Rows.ResetCreditRows

/-- Service frames (R113, R263, R264, R266, R283, R287): one for this chip is stored in its pool, and consumed, its segments returning,
when none waits before it; one for which the pool has no room changes nothing; one for a service that the link does not carry is counted; what waits moves once it may;
link control goes first, then the frame that the Headbox chooses leaves if it is of the service named, and while the oldest of a
service waits for credits none of that service starts. -/
def Rows.ServiceFrameRows : Prop :=
  ∀ (n : Fin 5) (low : Bool) (f : List Byte) (s : State), s.dev.couchRuns = true →
    (s.dev.link n.val).state.lively = true →
    (frameOk f = true → frLink f = false → s.dev.carries n.val (frSvc f) (pkOpcode (frPayload f)) = true →
      s.dev.poolRoom n.val f = false → Safety.gives (.serviceFrame n low f) s s.dev.vatAlarms) ∧
    (∀ a, (s.dev.poolRoom n.val f = true) → frLink f = false → s.dev.rxFrame n.val low f = (true, a) →
      a.posValid = true → a.carries n.val (frSvc f) (pkOpcode (frPayload f)) = true → frDst f = a.position →
      let d := a.poolStore n.val 5 (frSvc f) ⟨3, frPoison f, true, 0, f⟩
      ((a.queue (rxQueue n.val 5 (frSvc f))).stamps = [] →
        Safety.gives (.serviceFrame n low f) s (d.moveConsumed n.val (frSvc f)).vatAlarms) ∧
      ((a.queue (rxQueue n.val 5 (frSvc f))).stamps ≠ [] → Safety.gives (.serviceFrame n low f) s d.vatAlarms)) ∧
    (∀ a, s.dev.poolRoom n.val f = true → frLink f = false → s.dev.rxFrame n.val low f = (true, a) →
      a.carries n.val (frSvc f) (pkOpcode (frPayload f)) = false →
      Safety.gives (.serviceFrame n low f) s ((a.noRoute n.val).poolPass n.val f).vatAlarms) ∧
    (∀ (svc : Fin 4) c rest, s.dev.halted = false → s.dev.linkAsleep n.val = false → svc = 0 →
      (s.dev.link n.val).ctl = c :: rest →
      Safety.gives (.relayFrameSend n svc) s
        ((s.dev.updLink n.val fun x => { x with ctl := rest }).sendFrame n.val false c).vatAlarms) ∧
    (∀ (svc : Fin 4), s.dev.halted = false → s.dev.linkAsleep n.val = false → (s.dev.link n.val).ctl = [] →
      s.dev.posValid = true → Safety.gives (.relayFrameSend n svc) s (s.dev.sendService n.val svc.val).vatAlarms) ∧
    (∀ (svc : Fin 4) x e q w, s.dev.halted = false → s.dev.linkAsleep n.val = false → (s.dev.link n.val).ctl = [] →
      s.dev.posValid = true →
      s.dev.chooseUnit (linkOutput n.val) (fun a => a.linkCands n.val (a.rivals n.val svc.val)) = some (x, e) →
      x.work = .relay svc.val q w →
      Safety.gives (.relayFrameSend n svc) s (e.sendRelay n.val x svc.val q w).vatAlarms) ∧
    (∀ v x, s.dev.oldestOf (s.dev.feederGroups n.val v).flatten = some x → s.dev.frameReady n.val v x = false →
      s.dev.serviceHeads n.val v = []) ∧
    Safety.gives (.consumedFrameMove n) s
      ((((s.dev.moveConsumed n.val 0).moveConsumed n.val 1).moveConsumed n.val 2).moveConsumed n.val 3).vatAlarms ∧
    (∀ (v : Nat) (r : Rec) (a : Dev), s.dev.poolTake n.val 5 v = some (r, a) →
      (∀ b, a.consume r.payload r.poison = some b → s.dev.moveConsumed n.val v = b) ∧
      (a.consume r.payload r.poison = none → s.dev.moveConsumed n.val v = s.dev))

/-- The timers and claims of a link (R114, R259, R282, R289): an enumeration that takes 100 ms makes the link FOREIGN; a failed
claim is tried again; after the grace the subscriptions over the link end; a forwarded request that is not answered in time ends
with TIMEOUT and a count. -/
def Rows.LinkTimerRows : Prop :=
  ∀ (n : Fin 5) (s : State),
    ((s.dev.link n.val).state = .enumerating → (s.dev.link n.val).ufp = false → (s.dev.port n.val).state = .enabled →
      (s.dev.link n.val).enumStep < 4 →
      ((s.dev.link n.val).enumAt + 800 ≤ s.dev.now → Safety.gives (.couchEnumerationTimeout n) s
        ((s.dev.endTransfersOn [couplerEp0 n.val] stTimeout).linkTo n.val .foreign)) ∧
      (s.dev.now < (s.dev.link n.val).enumAt + 800 → Safety.gives (.couchEnumerationTimeout n) s s.dev)) ∧
    ((s.dev.link n.val).noPool = true → s.dev.up = true → s.dev.halted = false → (s.dev.link n.val).allowance = true →
      ((s.dev.link n.val).state = .resetting → Safety.gives (.poolClaimRetry n) s (s.dev.enterHello n.val)) ∧
      ((s.dev.link n.val).state = .admitted → Safety.gives (.poolClaimRetry n) s (s.dev.trySendEnable n.val))) ∧
    ((s.dev.link n.val).noPool = true → s.dev.up = true → s.dev.halted = false → (s.dev.link n.val).allowance = false →
      let d := s.dev.claimAllowance n.val
      Safety.gives (.poolClaimRetry n) s (if (d.link n.val).allowance && d.linkStands n.val then
        d.linkStart n.val (decide (n.val = 4) || !(d.eng n.val).dfp) else d)) ∧
    ((s.dev.link n.val).graceRuns = true → 1 ≤ (s.dev.link n.val).beatsSince →
      s.dev.fld aChainCfg 0 8 ≤ (s.dev.link n.val).beatsSince →
      Safety.gives (.graceExpiry n) s ((s.dev.endOver n.val).updLink n.val fun x => { x with graceRuns := false })) ∧
    (∀ k r l t, s.dev.findReq k = some r → r.phase = .forwarded l t → t ≤ s.dev.now →
      Safety.gives (.fwdTimeout k) s ((s.dev.count 0x10060000).answer k stTimeout [])) ∧
    (∀ k r l t, s.dev.findReq k = some r → r.phase = .forwarded l t → s.dev.now < t →
      Safety.gives (.fwdTimeout k) s s.dev)

/-- Service frames and the timers of a link (R113, R114, R259, R263 to R266, R282 to R289). Model's choices: log 59, 87. -/
def Obligations.ServiceFrames : Prop := Rows.ServiceFrameRows ∧ Rows.LinkTimerRows

/-! ## Type-C and PD (R317 to R352) -/

/-- Attach (R319 to R321): exactly one Rd starts a source's wait and exactly one Rp a sink's; at the end of the debounce the port
attaches, a dual-role one by Try where `TRY` asks for it; a pin that goes open ends the wait (the state it falls back to is the model's reading of the Type-C specification); a source that
comes to see Ra supplies VCONN; a dual-role port alternates. -/
def Rows.AttachRows : Prop :=
  ∀ (n : Fin 33) (s : State),
    (∀ cc1 cc2, let d := s.dev.updEng n.val fun e => { e with cc1 := cc1, cc2 := cc2 }
      ((s.dev.eng n.val).tc = .unattachedSrc → (d.srcPin n.val).isSome = true →
        Safety.sees (.ccChange n cc1 cc2) s (d.toTc n.val .attachWaitSrc)) ∧
      ((s.dev.eng n.val).tc = .unattachedSnk → (d.snkPin n.val).isSome = true →
        Safety.sees (.ccChange n cc1 cc2) s (d.toTc n.val .attachWaitSnk)) ∧
      ((s.dev.eng n.val).tc = .attachWaitSrc → d.srcPin n.val = none →
        Safety.sees (.ccChange n cc1 cc2) s (d.toTc n.val (d.fallBack n.val false))) ∧
      ((s.dev.eng n.val).tc = .attachWaitSnk → d.snkPin n.val = none →
        Safety.sees (.ccChange n cc1 cc2) s (d.toTc n.val (d.fallBack n.val true))) ∧
      ((s.dev.eng n.val).tc = .attachedSrc → d.seesRa n.val = true → s.dev.seesRa n.val = false →
        Safety.sees (.ccChange n cc1 cc2) s (d.updEng n.val fun e => { e with vconn := true }))) ∧
    (∀ p, (s.dev.eng n.val).tc = .attachWaitSrc → s.dev.srcPin n.val = some p → s.dev.pdDual n.val = false →
      Safety.sees (.ccDebounceEnd n) s (s.dev.attachSrc n.val p)) ∧
    (∀ p, (s.dev.eng n.val).tc = .attachWaitSnk → s.dev.snkPin n.val = some p → s.dev.pdDual n.val = false →
      Safety.sees (.ccDebounceEnd n) s (s.dev.attachSnk n.val p)) ∧
    (∀ p, (s.dev.eng n.val).tc = .attachWaitSnk → s.dev.snkPin n.val = some p → s.dev.pdDual n.val = true →
      s.dev.fld (aPdCfg n.val) 4 2 = 1 → Safety.sees (.ccDebounceEnd n) s (s.dev.toTc n.val .trySrc)) ∧
    (s.dev.pdDual n.val = true → (s.dev.eng n.val).tc = .unattachedSrc →
      Safety.gives (.drpToggle n) s (s.dev.toTc n.val .unattachedSnk)) ∧
    (s.dev.pdDual n.val = true → (s.dev.eng n.val).tc = .unattachedSnk →
      Safety.gives (.drpToggle n) s (s.dev.toTc n.val .unattachedSrc)) ∧
    (∀ p, (s.dev.eng n.val).tc = .trySrc → s.dev.srcPin n.val = some p →
      Safety.gives (.tryTimerExpiry n) s (s.dev.attachSrc n.val p)) ∧
    ((s.dev.eng n.val).tc = .trySrc → s.dev.srcPin n.val = none →
      Safety.gives (.tryTimerExpiry n) s (s.dev.toTc n.val .tryWaitSnk))

/-- Detach and loss of VBUS (R50, R323, R343): an Attached port becomes Unattached with its event; a held port's hold ends; a sink
that loses VBUS outside a transition sends a hard reset. -/
def Rows.DetachRows : Prop :=
  ∀ (n : Fin 33) (s : State),
    (s.dev.isHeld n.val = false → s.dev.tcAttached n.val = true →
      Safety.sees (.detach n) s
        (((s.dev.updEng n.val fun e => { e with cc1 := .open, cc2 := .open }).becomeUnattached n.val).pdTell n.val 1)) ∧
    (s.dev.isHeld n.val = true → Safety.sees (.detach n) s (s.dev.heldDetach n.val)) ∧
    ((s.dev.eng n.val).tc = .attachedSnk → s.dev.pdTalks n.val = true → (s.dev.eng n.val).ams = .idle →
      Safety.sees (.vbusLost n) s ((s.dev.pdEvt n.val 14).hardResetAct n.val false))

/-- VCONN and the cable (R330, R454): Discover Identity follows a stable VCONN; an answer is kept with its current; six tries end
discovery; VCONN above its limit is turned off. -/
def Rows.CableRows : Prop :=
  ∀ (n : Fin 33) (s : State),
    (s.dev.pdTalks n.val = true → (s.dev.eng n.val).source = true → (s.dev.eng n.val).vconn = true →
      (s.dev.eng n.val).discDone = false → (s.dev.eng n.val).ams = .idle → (s.dev.eng n.val).discTries = 0 →
      Safety.gives (.vconnStable n) s ((s.dev.pdSay n.val .discoverIdentitySop1).updEng n.val fun e =>
        { e with ams := .discover, discTries := e.discTries + 1 })) ∧
    ((s.dev.eng n.val).vconn = true → (s.dev.eng n.val).discDone = true → (s.dev.eng n.val).limit5A = false →
      Safety.gives (.vconnLimit n) s (s.dev.updEng n.val fun x => { x with vconn := false, limit5A := false })) ∧
    (∀ five, (s.dev.eng n.val).ams = .discover → Safety.gives (.cableIdentity n true five) s
      ((s.dev.updEng n.val fun e =>
        { e with marker := true, markerI := if five then 2 else 1, limit5A := five }).discoveryEnd n.val)) ∧
    (∀ five, (s.dev.eng n.val).ams = .discover → Safety.gives (.cableIdentity n false five) s
      ((s.dev.updEng n.val fun e => { e with marker := false, markerI := 0, limit5A := false }).discoveryEnd n.val)) ∧
    ((s.dev.eng n.val).ams = .discover → (s.dev.eng n.val).discTries < 6 →
      Safety.gives (.discoverIdentityRetry n) s (s.dev.discoverSop1 n.val)) ∧
    ((s.dev.eng n.val).ams = .discover → 6 ≤ (s.dev.eng n.val).discTries →
      Safety.gives (.discoverIdentityRetry n) s (s.dev.discoveryEnd n.val))

/-- Type-C: attach, detach, VCONN and the cable (R319 to R323, R330, R343, R454). Model's choices: log 53, 104, 106. -/
def Obligations.TypeC : Prop := Rows.AttachRows ∧ Rows.DetachRows ∧ Rows.CableRows

/-- The source's side of a contract (R326, R327, R337, R343): Source_Capabilities go out up to 50 times; a Request for an offered
object is accepted and another rejected; after tSrcTransition a new voltage is commanded, and PS_RDY follows once it holds; PS_RDY
that is late ends in a hard reset. -/
def Rows.SourceRows : Prop :=
  ∀ (n : Fin 33) (s : State),
    ((s.dev.eng n.val).ams = .srcCaps → (s.dev.eng n.val).capsCount < 50 →
      Safety.sees (.sourceCapRepeat n) s (s.dev.sendSourceCaps n.val)) ∧
    ((s.dev.eng n.val).ams = .srcCaps → 50 ≤ (s.dev.eng n.val).capsCount → (s.dev.eng n.val).partnerPd = true →
      Safety.sees (.sourceCapRepeat n) s (s.dev.hardResetAct n.val false)) ∧
    (∀ rev2 rdo c, s.dev.pdTalks n.val = true → (s.dev.eng n.val).source = true → (s.dev.eng n.val).offered ≠ [] →
      (s.dev.eng n.val).ams = .srcCaps → rdo.getLsbD 26 = false → requested (s.dev.eng n.val).offered rdo = some c →
      Safety.gives (.request n rev2 rdo) s
        (((((s.dev.pdHeard n.val).updEng n.val fun x => { x with rev := if rev2 then 1 else 2 }).endActions n.val [4] 0).pdSay
          n.val .accept).updEng n.val fun x => { x with ams := .srcTransition c })) ∧
    (∀ rev2 rdo, s.dev.pdTalks n.val = true → (s.dev.eng n.val).source = true → (s.dev.eng n.val).offered ≠ [] →
      (s.dev.eng n.val).ams = .srcCaps → rdo.getLsbD 26 = false → requested (s.dev.eng n.val).offered rdo = none →
      (s.dev.eng n.val).contract ≠ none → Safety.gives (.request n rev2 rdo) s
        (((((s.dev.pdHeard n.val).updEng n.val fun x => { x with rev := if rev2 then 1 else 2 }).endActions n.val [4] 0).pdSay
          n.val .reject).amsEnd n.val)) ∧
    (∀ c, (s.dev.eng n.val).ams = .srcTransition c → c.volt ≠ (s.dev.eng n.val).volt →
      Safety.gives (.srcTransitionExpiry n) s
        ((s.dev.updEng n.val fun x => { x with ams := .srcVout c }).psbPush n.val 2 (.vout c.volt) true)) ∧
    (∀ c, (s.dev.eng n.val).ams = .srcTransition c → c.volt = (s.dev.eng n.val).volt →
      Safety.gives (.srcTransitionExpiry n) s (((s.dev.pdSay n.val .psRdy).makeContract n.val c).amsDone n.val)) ∧
    (∀ c, (s.dev.eng n.val).ams = .srcWindow c →
      Safety.gives (.vbusWindowHeld n) s (((s.dev.pdSay n.val .psRdy).makeContract n.val c).amsDone n.val)) ∧
    (∀ c, ((s.dev.eng n.val).ams = .srcVout c ∨ (s.dev.eng n.val).ams = .srcWindow c) →
      Safety.sees (.psrdyDeadline n) s (s.dev.psrdyLate n.val)) ∧
    (s.dev.pdTalks n.val = true → (s.dev.eng n.val).source = true → (s.dev.eng n.val).ams = .idle →
      Safety.gives (.getSourceCap n) s ((s.dev.pdHeard n.val).sendSourceCaps n.val))

/-- What a Request may ask for (R327): object 0 and objects that were not offered are rejected; a fixed object grants at most its
current. -/
def Rows.RequestRule : Prop :=
  ∀ (offered : List W32) (rdo : W32),
    (bits rdo 28 4 = 0 → requested offered rdo = none) ∧
    (offered.length < bits rdo 28 4 → requested offered rdo = none) ∧
    (∀ p c, offered[bits rdo 28 4 - 1]? = some p → bits p 30 2 = 0 → requested offered rdo = some c →
      c.current ≤ bits p 0 10 ∧ c.position = bits rdo 28 4 ∧ c.pps = false) ∧
    (∀ p, offered[bits rdo 28 4 - 1]? = some p → bits p 30 2 = 0 → bits p 0 10 < bits rdo 10 10 → requested offered rdo = none)

/-- The source's side of a contract, and what a Request may ask for (R326, R327, R337, R343). Model's choices: log 52, 105. -/
def Obligations.SourceContract : Prop := Rows.SourceRows ∧ Rows.RequestRule

/-- The sink's side (R328, R329, R332, R340): it stores the capabilities and sends its Request; Accept starts the transition, Reject
and Wait end the exchange; PS_RDY makes the contract, and its absence ends in a hard reset; a Request goes again after a Wait, and
in PPS in time. Model's choices: log 52, 105, 112. -/
def Obligations.SinkRows : Prop :=
  ∀ (n : Fin 33) (s : State),
    (∀ rev2 pdos, s.dev.pdTalks n.val = true → (s.dev.eng n.val).source = false → (s.dev.eng n.val).ams = .idle →
      Safety.sees (.sourceCapabilities n rev2 pdos) s
        ((forN 7 (fun k a => a.setReg (aPartnerPdo n.val k) (pdos.getD k 0)) ((s.dev.pdHeard n.val).updEng n.val fun x =>
          { x with sourceCaps := pdos.take 7, rev := if rev2 then 1 else 2, ams := .idle })).sendRequest n.val)) ∧
    (∀ c, s.dev.pdTalks n.val = true → (s.dev.eng n.val).ams = .snkRequest c →
      (c.volt = (s.dev.eng n.val).volt → Safety.sees (.accept n) s
        (((s.dev.pdHeard n.val).updEng n.val fun x => { x with ams := .snkTransition c }).endActions n.val [5] 0)) ∧
      Safety.gives (.reject n) s (((s.dev.pdHeard n.val).endActions n.val [5] stNotPermitted).amsEnd n.val) ∧
      Safety.gives (.wait n) s ((s.dev.pdHeard n.val).amsEnd n.val)) ∧
    (∀ c, s.dev.pdTalks n.val = true → (s.dev.eng n.val).ams = .snkTransition c →
      Safety.sees (.psRdy n) s (((s.dev.pdHeard n.val).makeContract n.val c).amsDone n.val) ∧
      Safety.sees (.psTransitionTimeout n) s (s.dev.hardResetAct n.val false)) ∧
    (s.dev.pdTalks n.val = true → (s.dev.eng n.val).source = false → (s.dev.eng n.val).ams = .idle →
      Safety.gives (.sinkRequestRetry n) s (s.dev.sendRequest n.val) ∧
      (s.dev.inPps n.val = true → Safety.gives (.ppsRequest n) s (s.dev.sendRequest n.val)))

/-- Swaps (R338 to R342): an accepted DR_Swap turns the data role, an accepted PR_Swap starts the change of power role; a request that
draws Reject or Not_Supported fails (which of them it was is open, log 52), one that draws Wait is tried again, up to three times;
a swap held back starts once nothing runs; VCONN_Swap is rejected. Model's choices: log 52, 105. -/
def Obligations.SwapRows : Prop :=
  ∀ (n : Fin 33) (s : State), s.dev.pdTalks n.val = true →
    ((s.dev.eng n.val).ams = .drSwapSent → Safety.sees (.accept n) s (((s.dev.pdHeard n.val).drDone n.val).amsEnd n.val)) ∧
    ((s.dev.eng n.val).ams = .prSwapSent → (s.dev.eng n.val).source = true →
      Safety.sees (.accept n) s ((s.dev.pdHeard n.val).updEng n.val fun x => { x with ams := .prToSnk })) ∧
    ((s.dev.eng n.val).ams = .prToSnkWait → Safety.sees (.psRdy n) s ((s.dev.pdHeard n.val).prDone n.val false) ∧
      Safety.sees (.psSourceTimeout n) s (s.dev.hardResetAct n.val false)) ∧
    ((s.dev.eng n.val).ams = .prSwapSent →
      let b := (s.dev.pdHeard n.val).freeBit
      Safety.gives (.reject n) s ((b.2.swapFail n.val true (if b.1 then stUnsupported else stNotPermitted)).amsEnd n.val)) ∧
    ((s.dev.eng n.val).ams = .prSwapSent → Safety.gives (.wait n) s (((s.dev.pdHeard n.val).swapWait n.val true).amsEnd n.val)) ∧
    (∀ pr, (s.dev.eng n.val).retrySwap = some pr → s.dev.swapAllowed n.val pr = true → (s.dev.eng n.val).ams = .idle →
      Safety.gives (.swapRetry n) s (s.dev.askSwap n.val pr)) ∧
    (let a := s.dev.pdHeard n.val;
      (a.eng n.val).ams = .idle → a.pdDual n.val = true → n.val < 32 → (a.reg (aPdCfg n.val)).getLsbD 10 = true →
      ((a.pdSay n.val .accept).eng n.val).source = (a.eng n.val).source → (a.eng n.val).source = true →
      Safety.sees (.prSwap n) s ((a.pdSay n.val .accept).updEng n.val fun x => { x with ams := .prToSnk })) ∧
    (let a := s.dev.pdHeard n.val;
      (a.eng n.val).ams = .idle → (a.reg (aPdCfg n.val)).getLsbD 9 = true → a.isCoupler n.val = true →
      Safety.sees (.drSwap n) s (((a.pdSay n.val .accept).drDone n.val).amsEnd n.val)) ∧
    (let a := s.dev.pdHeard n.val;
      (a.eng n.val).ams = .idle → (a.reg (aPdCfg n.val)).getLsbD 9 = false →
      Safety.sees (.drSwap n) s (a.pdSay n.val .reject)) ∧
    (∀ pr rest, (s.dev.eng n.val).heldSwaps = pr :: rest → (s.dev.eng n.val).ams = .idle → (s.dev.eng n.val).sinkTxOk = true →
      s.dev.swapAllowed n.val pr = true →
      Safety.sees (.heldSwapStart n) s ((s.dev.updEng n.val fun x => { x with heldSwaps := rest }).askSwap n.val pr)) ∧
    Safety.gives (.vconnSwap n) s ((s.dev.pdHeard n.val).pdSay n.val .reject)

/-- Soft and hard resets, and error recovery (R331 to R333, R329): a Soft_Reset is accepted and ends what runs; a Hard_Reset is
acted on; a sender that is not answered escalates from a soft to a hard reset; a source removes and restores VBUS in its times. -/
def Rows.PdResetRows : Prop :=
  ∀ (n : Fin 33) (s : State),
    (s.dev.pdTalks n.val = true →
      Safety.sees (.softReset n) s ((((((s.dev.pdHeard n.val).dropSwaps n.val stTimeout).pdSay n.val .accept).updEng n.val fun e =>
        { e with sendCaps := e.sendCaps || e.source }).pdEvt n.val 3).amsEnd n.val) ∧
      Safety.sees (.hardReset n) s (s.dev.hardResetAct n.val true) ∧
      (∀ c, (s.dev.eng n.val).ams = .snkRequest c →
        Safety.sees (.senderResponseTimeout n) s ((s.dev.endActions n.val [5] stTimeout).softResetAct n.val)) ∧
      ((s.dev.eng n.val).ams = .softReset → Safety.sees (.senderResponseTimeout n) s
        ((s.dev.freeBit.2.endActions n.val [2] (if s.dev.freeBit.1 then 0 else stTimeout)).hardResetAct n.val false)) ∧
      ((s.dev.eng n.val).source = true → s.dev.inPps n.val = true →
        Safety.sees (.ppsTimeout n) s (s.dev.hardResetAct n.val false))) ∧
    ((s.dev.eng n.val).ams = .hardSrcStart →
      Safety.sees (.psHardResetExpiry n) s ((s.dev.gateOff n.val).updEng n.val fun e => { e with ams := .hardSrcRecover })) ∧
    ((s.dev.eng n.val).ams = .hardSrcRecover → n.val < 32 →
      Safety.gives (.srcRecoverExpiry n) s ((s.dev.gateOn n.val).updEng n.val fun e =>
        { e with
          ams := .hardSrcPower, vconn := s.dev.seesRa n.val, discDone := e.discDone || !s.dev.seesRa n.val
          discTries := if e.discDone then e.discTries else 0 })) ∧
    ((s.dev.eng n.val).tc = .errorRecovery →
      Safety.gives (.errorRecoveryEnd n) s ((s.dev.updEng n.val fun e => { e with erTimer := false }).pdRelease n.val))

/-- Questions of the partner (R324, R345 to R347): each is answered with its message, or with Not_Supported and its event; an Alert
is told; BIST is honoured at 5 V. -/
def Rows.QuestionRows : Prop :=
  ∀ (n : Fin 33) (s : State), s.dev.pdTalks n.val = true →
    let say (m : PdMsg) : Dev := (s.dev.pdHeard n.val).pdSay n.val m
    let no : Dev := (say .notSupported).pdEvt n.val 13
    ((s.dev.eng n.val).source = false → Safety.gives (.getSinkCap n) s (say (.sinkCapabilities (s.dev.snkPdos n.val)))) ∧
    ((s.dev.eng n.val).source = true → s.dev.pdDual n.val = false → Safety.gives (.getSinkCap n) s no) ∧
    (∀ pdos, (s.dev.eng n.val).ams = .getSnkCap → Safety.gives (.sinkCapabilities n pdos) s
      (((forN 7 (fun k a => a.setReg (aPartnerPdo n.val k) (pdos.getD k 0)) (s.dev.pdHeard n.val)).endActions n.val [6] 0).amsEnd
        n.val)) ∧
    Safety.gives (.alert n) s ((s.dev.pdHeard n.val).pdTell n.val 15) ∧
    ((s.dev.eng n.val).source = true → Safety.gives (.getStatus n) s (say (.status (if s.dev.vinLow then 0 else 2))) ∧
      Safety.gives (.getSourceCapExtended n) s (say .sourceCapabilitiesExtended) ∧
      (s.dev.inPps n.val = true → Safety.gives (.getPpsStatus n) s (say .ppsStatus))) ∧
    ((s.dev.eng n.val).source = false → Safety.gives (.getStatus n) s no ∧ Safety.gives (.getSourceCapExtended n) s no) ∧
    (s.dev.inPps n.val = false → Safety.gives (.getPpsStatus n) s no) ∧
    Safety.gives (.getRevision n) s (say (.revision 3 1)) ∧
    Safety.gives (.discoverIdentity n) s (say (s.dev.identity n.val)) ∧
    ((s.dev.eng n.val).volt = 250 → Safety.gives (.bist n true) s (say .bistCarrier) ∧
      Safety.gives (.bist n false) s (s.dev.updEng n.val fun e => { e with ams := .bist })) ∧
    Safety.gives (.notSupportedMessage n) s no

/-- PD resets, error recovery and the partner's questions (R324, R331 to R333, R345 to R347). Model's choices: log 52, 105, 106. -/
def Obligations.PdResetsAndQuestions : Prop := Rows.PdResetRows ∧ Rows.QuestionRows

/-- The port supply bus (R334 to R336): a completed command frees the bus for the next; one that fails is repeated twice, and its
third failure is told; PSB_ALERT_N reads the alert address at the third priority. -/
def Rows.SupplyBusRows : Prop :=
  ∀ (t : PsbTx) (s : State),
    (∀ v a w, s.dev.psb.current = some t → t.cmd = .vout w → (s.dev.eng t.port).ams = .idle →
      Safety.sees (.psbTransactionDone true v a) s
        ({ s.dev with psb := { s.dev.psb with commanded := put zeroDflt s.dev.psb.commanded t.port w } }.psbNext)) ∧
    (∀ v a, s.dev.psb.current = some t → s.dev.psb.failures < 2 →
      Safety.sees (.psbTransactionDone false v a) s { s.dev with psb := { s.dev.psb with failures := s.dev.psb.failures + 1 } } ∧
      Safety.sees .psbTransactionTimeout s { s.dev with psb := { s.dev.psb with failures := s.dev.psb.failures + 1 } }) ∧
    (s.dev.psb.current = some t → 2 ≤ s.dev.psb.failures → t.cmd = .readAlert → t.transition = false →
      Safety.sees .psbTransactionTimeout s ((s.dev.psbNext.pdTell t.port 10).pdFault t.port 9)) ∧
    Safety.gives .psbAlertN s (({ s.dev with psb := { s.dev.psb with alertLow := true } }).psbPush 0 3 .readAlert)

/-- The input supply (R344, R369): its fall is alerted to the partners, notified, asserted as INPUT_WARN and wakes the device; its
return is notified; after the hold of an Alert another goes out if the state has changed meanwhile. -/
def Rows.InputSupplyRows : Prop :=
  ∀ (n : Fin 33) (s : State),
    (s.dev.vinLow = false → Safety.sees .vinMonFall s
      ((((({ s.dev with vinLow := true }).queueAlerts).notify 3 none 0x8504 [1, 0, 0, 0]).assert srcInputWarn 0).startWake
        .vinMon)) ∧
    (s.dev.vinLow = true → Safety.gives .vinMonRise s
      (((({ s.dev with vinLow := false }).queueAlerts).notify 3 none 0x8504 [0, 0, 0, 0]).startWake .vinMon)) ∧
    ((s.dev.eng n.val).alertAgain = true → s.dev.pdTalks n.val = true → (s.dev.eng n.val).source = true →
      (s.dev.eng n.val).contract ≠ none → (s.dev.eng n.val).ams = .idle →
      Safety.gives (.alertHoldExpiry n) s
        ((s.dev.updEng n.val fun x => { x with alertHold := false, alertAgain := false }).sendAlert n.val)) ∧
    ((s.dev.eng n.val).alertAgain = false → Safety.gives (.alertHoldExpiry n) s
      (s.dev.updEng n.val fun x => { x with alertHold := false, alertAgain := false }))

/-- The port supply bus and the input supply (R334 to R336, R344, R369). Model's choices: log 110. -/
def Obligations.Supplies : Prop := Rows.SupplyBusRows ∧ Rows.InputSupplyRows

/-! ## Fuses and Press dies (R355 to R381) -/

/-- Trips (R356, R361 to R363): a fast trip, an inrush that lasts too long and a limit that lasts too long turn the gate off, record
the trip with its peak current and VBUS, and count it; the port is LATCHED where retries are off, in BACKOFF otherwise, for a time
that doubles. -/
def Rows.TripRows : Prop :=
  ∀ (n : Fin 32) (peak : BitVec 12) (vbus : BitVec 11) (s : State),
    let after (cause k ms : Nat) (st : FuseState) : Dev :=
      ((((s.dev.updFuse n.val fun x => { x with
        state := st, gate := false, pg := false, limiting := false, pps := none, dsch := true, consec := k, lastCause := cause
        tripLine := true, backoffMs := ms, backoffDone := false, atZero := false, trip := some ⟨cause, peak, vbus⟩ }).flag
          (aEfuseEvent n.val) cause).count (0x26000000 + (cause - 1) * 65536 + n.val)).hubOver n.val true).enterErrorRecovery n.val
    let k := (s.dev.fuse n.val).consec + 1
    ((s.dev.reg (aEfuseCfg n.val)).getLsbD 7 = false →
      ((s.dev.fuse n.val).state = .on → (s.dev.fuse n.val).gate = true →
        Safety.sees (.fastTrip n peak vbus) s (after 1 k 0 .latched)) ∧
      ((s.dev.fuse n.val).state = .inrush → Safety.sees (.inrushExpiry n peak vbus) s (after 2 k 0 .latched)) ∧
      ((s.dev.fuse n.val).state = .on → Safety.sees (.limitTimeExpiry n peak vbus) s (after 3 k 0 .latched))) ∧
    ((s.dev.reg (aEfuseCfg n.val)).getLsbD 7 = true → s.dev.fld (aEfuseRetry n.val) 16 4 = 0 →
      let ms := s.dev.fld (aEfuseRetry n.val) 0 8 * 32 * 2 ^ min (k - 1) (s.dev.fld (aEfuseRetry n.val) 8 3)
      ((s.dev.fuse n.val).state = .on → (s.dev.fuse n.val).gate = true →
        Safety.sees (.fastTrip n peak vbus) s (after 1 k ms .backoff)) ∧
      ((s.dev.fuse n.val).state = .inrush → Safety.sees (.inrushExpiry n peak vbus) s (after 2 k ms .backoff)) ∧
      ((s.dev.fuse n.val).state = .on → Safety.sees (.limitTimeExpiry n peak vbus) s (after 3 k ms .backoff)))

/-- Retries and power good (R357, R363 to R368): a backoff ends once its time has passed and VBUS is at vSafe0V; the count of trips
restarts; power good turns INRUSH into ON; its loss outside a transition and a late discharge are flagged and asserted with VBUS, and after a late discharge Rp
waits for vSafe0V. -/
def Rows.FuseRows : Prop :=
  ∀ (n : Fin 32) (v : BitVec 11) (s : State),
    ((s.dev.fuse n.val).state = .backoff →
      Safety.gives (.backoffExpiry n) s ((s.dev.updFuse n.val fun x => { x with backoffDone := true }).backoffEnd n.val)) ∧
    (∀ d : Dev, (d.fuse n.val).state = .backoff → (d.fuse n.val).backoffDone = true → (d.fuse n.val).atZero = true →
      let e := (d.updFuse n.val fun x => { x with state := .off, tripLine := false }).hubOver n.val false
      d.backoffEnd n.val = if 2 ≤ e.portLevel n.val ∨ e.mayPresent n.val = false then e
        else ((e.flag (aEfuseEvent n.val) 0).count (0x26030000 + n.val)).pdRelease n.val) ∧
    (((s.dev.fuse n.val).pg = true ∨ (s.dev.eng n.val).tc = .unattachedSrc) →
      Safety.gives (.consecReset n) s (s.dev.updFuse n.val fun x => { x with consec := 0 })) ∧
    ((s.dev.fuse n.val).state = .inrush → Safety.gives (.powerGood n v) s
      ((s.dev.updFuse n.val fun x => { x with
        state := if x.state = .inrush then .on else x.state, pg := true, limiting := false }).pdPowerGood n.val)) ∧
    ((s.dev.fuse n.val).pg = true → (s.dev.eng n.val).ams = .idle → Safety.sees (.pgLost n v) s
      (((s.dev.updFuse n.val fun x => { x with pg := false }).flag (aEfuseEvent n.val) 4).assert (srcPort n.val 3)
        (BitVec.ofNat 32 v.toNat))) ∧
    (∀ c, (s.dev.eng n.val).ams = .srcVout c → Safety.sees (.pgLost n v) s s.dev) ∧
    ((s.dev.fuse n.val).gate = false → Safety.gives (.vsafe0vReached n v) s
      (((s.dev.updFuse n.val fun x => { x with dsch := false, atZero := true }).backoffEnd n.val).pdVsafe0 n.val)) ∧
    ((s.dev.fuse n.val).dsch = true → (s.dev.fuse n.val).gate = false → Safety.sees (.dschLate n v) s
      (((s.dev.flag (aEfuseEvent n.val) 5).zeroWait n.val).assert (srcPort n.val 4) (BitVec.ofNat 32 v.toNat)))

/-- Press links and safe pairs (R12, R14, R381): a link that is lost raises PRESS_LINK, and is up again when restored; a die whose
pair reads Safe takes its eight ports to the chip safe state; at Run, outside CHIP_SAFE and with no port at PORT_OFF, they start
from OFF and Unattached. -/
def Rows.PressLinkRows : Prop :=
  ∀ (x : Fin 4) (s : State),
    ((s.dev.die x.val).linkUp = true → Safety.sees (.pressLinkLoss x) s
      ((s.dev.updDie x.val fun y => { y with linkUp := false }).assert (srcPress x.val 0) 0)) ∧
    ((s.dev.die x.val).powered = true → (s.dev.die x.val).lost = false →
      Safety.gives (.pressLinkRestored x) s (s.dev.updDie x.val fun y => { y with linkUp := true })) ∧
    ((s.dev.die x.val).powered = true → (s.dev.die x.val).safe = false →
      Safety.sees (.safePairSafe x) s
        (forN 8 (fun j a => a.portSafe (8 * x.val + j)) (s.dev.updDie x.val fun y => { y with safe := true }))) ∧
    ((s.dev.die x.val).safe = true → (s.dev.die x.val).powered = true → (s.dev.die x.val).armed = true → s.dev.fc.chipSafe = false →
      (∀ j < 8, s.dev.portLevel (8 * x.val + j) < 3) →
      Safety.gives (.safePairRun x) s (forN 8 (fun j a =>
        let b := if (a.fuse (8 * x.val + j)).state = .held then a.gateOff (8 * x.val + j) else a
        if b.isDisabled (8 * x.val + j) then b else b.pdStart (8 * x.val + j))
          (s.dev.updDie x.val fun y => { y with safe := false }))) ∧
    ((s.dev.die x.val).safe = true → s.dev.fc.chipSafe = true → Safety.gives (.safePairRun x) s s.dev)

/-- The Press dies (R12, R14, R51, R60, R61, R381): their supply, arming, link and safe pair. Model's choices: log 38. -/
def Obligations.PressDies : Prop := Rows.PressRows ∧ Rows.PressLinkRows

/-- How a trip is heard (R377, R378): the line makes it pending; the event that follows names its cause and asserts that source with
CAUSE, peak and VBUS; without an event EFUSE_FAST is asserted with 0. Other events of a die assert PRESS_TEMP and PRESS_CAL. -/
def Rows.TripReportRows : Prop :=
  ∀ (n : Fin 32) (x : Fin 4) (s : State),
    ((s.dev.fuse n.val).tripLine = true → (s.dev.fuse n.val).trip ≠ none → (s.dev.die (n.val / 8)).linkUp = true →
      (s.dev.die (n.val / 8)).lost = false → s.dev.life ≠ .hibernate →
      Safety.gives (.tripLine n) s (s.dev.updFuse n.val fun f => { f with pendingTrip := true })) ∧
    (∀ t, (s.dev.fuse n.val).trip = some t → (s.dev.die (n.val / 8)).linkUp = true → (s.dev.fuse n.val).pendingTrip = true →
      Safety.sees (.tripEvent n) s
        ((s.dev.updFuse n.val fun y => { y with trip := none, pendingTrip := false }).assert (srcPort n.val (t.cause - 1))
          (at_ t.cause 28 ||| at_ t.peak.toNat 16 ||| at_ t.vbus.toNat 0))) ∧
    ((s.dev.fuse n.val).pendingTrip = true → Safety.sees (.tripEventTimeout n) s
      ((s.dev.updFuse n.val fun y => { y with pendingTrip := false }).assert (srcPort n.val 0) 0)) ∧
    ((s.dev.die x.val).linkUp = true → (s.dev.die x.val).powered = true → (s.dev.die x.val).lost = false →
      Safety.sees (.pressEvent x .temp) s ((s.dev.setSrc (srcPress x.val 2)
        { s.dev.src (srcPress x.val 2) with cause := true }).assert (srcPress x.val 2) 0) ∧
      Safety.sees (.pressEvent x .cal) s (s.dev.assert (srcPress x.val 3) 0))

/-- The fuses: trips, how they are heard, retries and power good (R356 to R368, R377, R378).
Model's choices: log 3, 107, 109, 113. -/
def Obligations.Fuses : Prop := Rows.TripRows ∧ Rows.TripReportRows ∧ Rows.FuseRows

/-! ## The fault collector (R375 to R393) -/

/-- The rows of the collector (R376 to R378, R384, R391): a line fault asserts its source with bit 31; a source asserts with its
context, and one that stays asserted counts once; the collector's own fault asserts FC_SELF; the due copy of the Watermark goes to the Quire and ends the copying; a cause
that ends is present no longer. -/
def Rows.CollectorRows : Prop :=
  ∀ s : State, s.dev.up = true →
    (∀ i : Fin 512, lineSource i.val = i.val → (s.dev.src i.val).line = false → s.dev.deafTo i.val = false →
      Safety.sees (.lineFault i) s (s.dev.assert i.val 0x80000000 false true)) ∧
    (∀ i : Fin 512, lineSource i.val = i.val → (s.dev.src i.val).line = true → Safety.sees (.lineFault i) s s.dev) ∧
    (∀ (i : Fin 512) (w : W32), s.dev.staysAsserted i.val = true → Safety.sees (.sourceAssert i w) s s.dev) ∧
    (∀ (i : Fin 512) (w : W32), srcUsed i.val = true → s.dev.deafTo i.val = false → s.dev.staysAsserted i.val = false →
      Safety.sees (.sourceAssert i w) s ((s.dev.setSrc i.val { s.dev.src i.val with cause := true }).assert i.val w)) ∧
    Safety.sees .fcSelf s (s.dev.assert 0 0) ∧
    (s.dev.fc.copying = true → s.dev.fc.event = none →
      let d := s.dev.u0Off.quireAck.copyRecord
      Safety.gives .watermarkCopy s { d with fc := { d.fc with copying := false, event := none } }) ∧
    (∀ i : Fin 512, (∀ x k, srcKind i.val = some (2, x, k) → k ≠ 10) →
      Safety.gives (.faultCauseEnds i) s (s.dev.setSrc i.val { s.dev.src i.val with cause := false, line := false }))

/-- R379: an assertion within the window counts one more, up to 255; one after it starts a window with 1; the level is that of SV
once the count has reached its threshold, and that of NM before. -/
def Rows.CountingWindow : Prop :=
  ∀ (cfg : W32) (now c ws : Nat), 1 ≤ bits cfg 0 16 → c ≤ 255 →
    (c ≠ 0 → now - ws < bits cfg 0 16 → (countWindow cfg now c ws).1 = min 255 (c + 1) ∧ (countWindow cfg now c ws).2.1 = ws) ∧
    (c = 0 ∨ bits cfg 0 16 ≤ now - ws → (countWindow cfg now c ws).1 = 1 ∧ (countWindow cfg now c ws).2.1 = now) ∧
    (countWindow cfg now c ws).2.2 =
      (if bits cfg 16 8 ≤ (countWindow cfg now c ws).1 then bits cfg 27 3 else bits cfg 24 3)

/-- R380, R389: a source that no row of the table uses asserts nothing, and no source does while the collector is stopped; the
Watermark keeps its first record, counting what comes after it. -/
def Rows.AssertionFrame : Prop :=
  ∀ (d : Dev) (i : Nat) (w : W32) (f l : Bool),
    (srcUsed i = false → d.assert i w f l = d) ∧ (d.up = false → d.assert i w f l = d) ∧
    (∀ lvl, d.watermark.valid = true → d.fld aFcCfg 0 3 ≤ lvl →
      d.latchWatermark i lvl w f l =
        { d with watermark := { d.watermark with overflow := true, count := min 65535 (d.watermark.count + 1) } }) ∧
    (∀ lvl, lvl < d.fld aFcCfg 0 3 → d.latchWatermark i lvl w f l = d)

/-- The collector's rows, and what an assertion leaves alone and counts (R376 to R391). Model's choices: log 108. -/
def Obligations.Collector : Prop := Rows.CollectorRows ∧ Rows.AssertionFrame ∧ Rows.CountingWindow

/-! ## Register and Quire writes (R398 to R412) -/

/-- A write over a path is served (R63, R310, R382). -/
def Safety.writes (d : Dev) (p : Path) : Prop :=
  d.pathServed p = true ∧ d.fc.chipSafe = false ∧ (p = .spi → d.halted = false)

/-- The device as the write is made: a Quire write still in progress has ended (R409). -/
def Safety.atWrite (d : Dev) (p : Path) : Dev := (d.writer p).2.quireAck

/-- The key guard of a path (R400): 0 for the SPI, 1 + SUB_ID for a subscriber. -/
def Safety.guardOf (d : Dev) (p : Path) : Nat := guardKey (d.writer p).1

/-- The device as a guarded write is made: the guard re-arms. -/
def Safety.atGuarded (d : Dev) (p : Path) : Dev := (atWrite d p).setGuard (guardOf d p) 0

/-- Whether the guard of the path is open. -/
def Safety.unlocked (d : Dev) (p : Path) : Prop := 2 ≤ d.guard (guardOf d p)

/-- UNLOCK and the guard (R400): the key opens it for 8 microframes, another value arms it again and counts; at its row it
re-arms. -/
def Rows.GuardRows : Prop :=
  ∀ (p : Path) (s : State),
    (∀ v : W32, Safety.writes s.dev p → bits v 0 16 = 0x5AC3 →
      Safety.gives (.unlock p v) s ((Safety.atWrite s.dev p).setGuard (Safety.guardOf s.dev p) 9)) ∧
    (∀ v : W32, Safety.writes s.dev p → bits v 0 16 ≠ 0x5AC3 → Safety.does (.unlock p v) s fun d =>
      let r := s.dev.reg aLockStatus
      d = ((Safety.atWrite s.dev p).setGuard (Safety.guardOf s.dev p) 0).setReg aLockStatus
        (setBits r 8 8 (min 255 (bits r 8 8 + 1)))) ∧
    (s.dev.guard 0 = 1 → Safety.gives (.guardRearm .spi) s (s.dev.setGuard 0 0)) ∧
    (∀ x : SubId, s.dev.guard (1 + x.toNat) = 1 → Safety.gives (.guardRearm (.sub x)) s (s.dev.setGuard (1 + x.toNat) 0))

/-- The guarded acts on the collector and the Vat (R138, R385, R387 to R389, R398, R400): with the guard open they act, and it
re-arms; the fields beside GO stay in their registers. -/
def Rows.GuardedRows : Prop :=
  ∀ (p : Path) (s : State), Safety.writes s.dev p → Safety.unlocked s.dev p →
    let a := Safety.atGuarded s.dev p
    (∀ i : BitVec 9, Safety.gives (.fcClearGo p i) s
      (let r := (a.setReg aFcClear (i.zeroExtend 32)).clearSource i.toNat; if r.1 then r.2.flag aFcStatus 26 else r.2)) ∧
    Safety.gives (.fcClearAll p) s
      (let r := (a.setReg aFcClear 0x40000000).clearAll; if r.1 = 0 then r.2 else r.2.flag aFcStatus 26) ∧
    (∀ i : BitVec 9, srcUsed i.toNat = true → Safety.sees (.fcForceGo p i) s
      ((a.setReg aFcForce (i.zeroExtend 32)).force i.toNat)) ∧
    (∀ i : BitVec 9, srcUsed i.toNat = true → srcChip i.toNat = false → Safety.gives (.fcForceRehearse p i) s
      ((a.setReg aFcForce (0x40000000 ||| i.zeroExtend 32)).rehearse i.toNat)) ∧
    Safety.gives (.fcWmCtrlClear p) s a.clearWatermark ∧
    (∀ q : Fin 16384, sv0Queue q.val = false → Safety.gives (.vatQresetGo p q) s
      ((a.setReg aVatQreset (BitVec.ofNat 32 q.val)).resetQueueWork q.val stResetAborted))

/-- The guard refuses (R398, R400): on a path whose guard is armed a guarded write changes nothing but LOCK_STATUS and, on the SPI,
REG_ERR. -/
def Rows.GuardRefuses : Prop :=
  ∀ (p : Path) (s : State), Safety.writes s.dev p → ¬ Safety.unlocked s.dev p →
    let no (a : Nat) : Dev := ((Safety.atWrite s.dev p).regErr (s.dev.writer p).1 a 28).flag aLockStatus 16
    (∀ i : BitVec 9, Safety.gives (.fcClearGo p i) s (no aFcClear)) ∧ Safety.gives (.fcClearAll p) s (no aFcClear) ∧
    (∀ i : BitVec 9, srcUsed i.toNat = true → Safety.sees (.fcForceGo p i) s (no aFcForce)) ∧
    Safety.gives (.fcWmCtrlClear p) s (no aFcWmCtrl) ∧
    (∀ q : Fin 16384, sv0Queue q.val = false → Safety.gives (.vatQresetGo p q) s (no aVatQreset))

/-- The key guards and the acts that they guard (R138, R385 to R389, R398, R400). Model's choices: log 108. -/
def Obligations.Guards : Prop := Rows.GuardRows ∧ Rows.GuardedRows ∧ Rows.GuardRefuses

/-- R382: in CHIP_SAFE no write takes effect, but is flagged. -/
def Rows.SafeStateWrites : Prop :=
  ∀ (p : Path) (a : BitVec 24) (v : W32) (s : State), s.dev.pathServed p = true → s.dev.fc.chipSafe = true →
    (p = .spi → s.dev.halted = false) →
    Safety.sees (.registerWrite p a v) s ((Safety.atWrite s.dev p).flag aFcStatus 24)

/-- The acts of `EFUSE_CTRL` and `PD_CTRL` (R354, R364): each writes its one bit. -/
def Rows.PortControlRows : Prop :=
  ∀ (p : Path) (s : State), Safety.writes s.dev p →
    let a := Safety.atWrite s.dev p
    (∀ n : Fin 32, Safety.gives (.efuseCtrlClear p n) s (a.latchClear n.val) ∧
      Safety.gives (.efuseCtrlAbortRetry p n) s (a.abortRetry n.val)) ∧
    (∀ n : Fin 33, Safety.gives (.pdCtrlPrSwap p n) s (a.pdAct n.val 0) ∧ Safety.gives (.pdCtrlDrSwap p n) s (a.pdAct n.val 1) ∧
      Safety.gives (.pdCtrlSoftReset p n) s (a.pdAct n.val 2) ∧ Safety.sees (.pdCtrlHardReset p n) s (a.pdAct n.val 3) ∧
      Safety.gives (.pdCtrlSrcCap p n) s (a.pdAct n.val 4) ∧ Safety.gives (.pdCtrlRequest p n) s (a.pdAct n.val 5) ∧
      Safety.gives (.pdCtrlGetSnkCap p n) s (a.pdAct n.val 6) ∧ Safety.sees (.pdCtrlErrorRecovery p n) s (a.pdAct n.val 7))

/-- The registers of the chain and of the power states, and UPDATE (R264, R281, R290, R313, R402, R403): RETRY starts a further
attempt, LINK_RESET a relay link reset with cause 5; a new position resets every lively link with cause 4; GO requests the groups
and CANCEL ends those pending. -/
def Rows.ControlRegisterRows : Prop :=
  ∀ (p : Path) (s : State), Safety.writes s.dev p →
    let a := Safety.atWrite s.dev p
    (∀ n : Fin 5, Safety.gives (.cplCtrlRetry p n) s (a.cplCtrl n.val (s.dev.reg (aCplCtrl n.val) ||| 4)) ∧
      Safety.gives (.cplCtrlLinkReset p n) s (a.cplCtrl n.val (s.dev.reg (aCplCtrl n.val) ||| 2)) ∧
      Safety.gives (.cplCtrlEnable p n) s
        ((a.setReg (aCplCtrl n.val) (setBit (s.dev.reg (aCplCtrl n.val)) 0 true)).trySendEnable n.val)) ∧
    (∀ v, Safety.gives (.chainPosWrite p v) s
      (forN 5 (fun n b => if (b.link n).state.lively then b.relayReset n 4 else b) (a.setReg aChainPos (v &&& 0x8000003F)))) ∧
    (∀ (w : BitVec 2) (g : BitVec 8), Safety.gives (.updateGo p w g) s
      (a.requestUpdate (s.dev.writer p).1 g w.toNat
        (BitVec.ofNat 48 ((s.dev.reg aUpdateLo).toNat + s.dev.fld aUpdateHi 0 16 * 2 ^ 32))).2) ∧
    (∀ g : BitVec 8, Safety.gives (.cancel p g) s (a.cancelUpdates g)) ∧
    (∀ v, bits v 0 2 ≠ 3 → s.dev.power.state ≠ .trim → Safety.gives (.pwrCfgWrite p false v) s
      ((a.setReg aPwrCfg (v &&& 0x00FF0003)).updPower fun x => { x with restart := true })) ∧
    (∀ v, s.dev.power.state ≠ .trim → Safety.gives (.pwrCfgWrite p true v) s
      ((a.setReg aPwrSleep v).updPower fun x => { x with restart := true }))

/-- `REAM_Dn` (R190): a range that meets the rules and gives up no context in use is taken; another is refused and flagged. -/
def Rows.ReamRows : Prop :=
  ∀ (p : Path) (n : Fin 4) (v : W32) (s : State), Safety.writes s.dev p →
    let a := Safety.atWrite s.dev p
    ((a.reamWrite n.val v).1 = true → Safety.gives (.reamDnWrite p n v) s (a.setReg (aReam n.val) (v &&& 0x3FFF3FFF))) ∧
    ((a.reamWrite n.val v).1 = false →
      Safety.gives (.reamDnWrite p n v) s ((a.flag aHostStatus 31).regErr (s.dev.writer p).1 (aReam n.val) 29)) ∧
    (∀ k, k ∈ a.ctxsWhere (fun _ => true) → a.reamBase n.val ≤ k → k < a.reamBase n.val + a.reamCount n.val →
      (k < bits v 0 14 ∨ bits v 0 14 + bits v 16 14 ≤ k) → (a.reamWrite n.val v).1 = false)

/-- The wide mailbox over the SPI (R406, R407): a write of its selector takes the snapshot, and the read of its last word ends the
read. -/
def Rows.MailboxRows : Prop :=
  ∀ s : State, Safety.writes s.dev .spi →
    (∀ v, Safety.gives (.wmbSelWrite v) s ((s.dev.quireAck.setReg aWmbSel v).snapshot v)) ∧
    Safety.gives .wmbD3Read s s.dev.quireAck.mailboxRead

/-- Registers whose writes act: fuses, engines, chain, power, UPDATE, the Ream's ranges, and the mailbox.
Model's choices: log 65, 108. -/
def Obligations.ControlRegisters : Prop := Rows.PortControlRows ∧ Rows.ControlRegisterRows ∧ Rows.ReamRows ∧ Rows.MailboxRows

/-- R398: a write over a path of a register that only stores is its plain write. The registers that do more than store have rows
of their own. -/
def Rows.RegisterWriteRow : Prop :=
  ∀ (p : Path) (a : BitVec 24) (v : W32) (i : RegInfo) (s : State), Safety.writes s.dev p → quireAt a.toNat = none →
    regInfo a.toNat = some i → i.acts = false → i.guarded = false → i.rw ≠ 0 → isMailbox a.toNat = false →
    a.toNat ≠ aPwrCfg → a.toNat ≠ aPwrSleep → a.toNat ≠ aChainPos → (a.toNat < 0x080010 ∨ 0x080020 ≤ a.toNat) →
    (Safety.atWrite s.dev p).encJudge a.toNat v = true → (i.group.any fun g => bit s.dev.pendingGroups g) = false →
    Safety.sees (.registerWrite p a v) s ((Safety.atWrite s.dev p).plainWrite a.toNat v i)

/-- A plain register takes a write at once: its RW bits hold what is written, its W1C bits are cleared where a 1 is written, and the
others stay (R397, R398). One of an UPDATE group takes it in its shadow, and the value in effect stays (R402). -/
def Rows.PlainWrites : Prop :=
  ∀ (d : Dev) (a : Nat) (v : W32) (i : RegInfo),
    (i.group = none → d.plainWrite a v i = d.setReg a (((d.reg a &&& ~~~ i.rw) ||| (v &&& i.rw)) &&& ~~~ (v &&& i.w1c))) ∧
    (∀ g, i.group = some g → (d.plainWrite a v i).regs = d.regs) ∧
    (i.group = none → wfTab resetValue d.regs = true → ∀ b, b ≠ a → (d.plainWrite a v i).reg b = d.reg b)

/-- REGISTER_WRITE: what a plain register takes, its shadow, and CHIP_SAFE (R382, R397, R398, R402). Model's choices: log 66. -/
def Obligations.RegisterWrites : Prop := Rows.RegisterWriteRow ∧ Rows.PlainWrites ∧ Rows.SafeStateWrites

/-- Writes of Quire words (R408 to R414): a writable word takes the bits its layout stores, its wear counts, and the write is busy
until its acknowledgement; the fourth word of a key in order makes it valid; an erase empties the key.
Model's choices: log 65, 111. -/
def Obligations.QuireRows : Prop :=
  ∀ (s : State),
    (∀ (w : Fin 4096) (v : W32), Safety.writes s.dev .spi →
      ((∃ m, quireKind w.val = .field m) ∨ ∃ a, quireKind w.val = .supplies a) → s.dev.quireJudge w.val v = true →
      Safety.unlocked s.dev .spi → s.dev.wear w.val < 1000000 →
      Safety.does (.quireWordWrite .spi w v) s fun d =>
        d.quire.words = put quireDefault s.dev.quire.words w.val (quireMerge w.val v) ∧
          d.quire.busy = some (w.val, s.dev.quireAck.qword w.val) ∧ d.quire.wear = put zeroDflt s.dev.quire.wear w.val
            (s.dev.wear w.val + 1)) ∧
    Safety.gives .quireAck s { s.dev with quire := { s.dev.quire with busy := none } } ∧
    (∀ (k : Fin 64) (i : Fin 4) (v : W32), Safety.writes s.dev .spi → Safety.unlocked s.dev .spi →
      s.dev.wear (keyFirst k.val + i.val) < 1000000 →
      Safety.gives (.keyWordWrite .spi (.slot k) i v) s
        (((Safety.atGuarded s.dev .spi).storeWord (keyFirst k.val + i.val) v).2.keyWordDone k.val i.val)) ∧
    (∀ k : Fin 64, Safety.writes s.dev .spi → Safety.unlocked s.dev .spi → s.dev.wear (0x1C1 + 2 * k.val) < 1000000 →
      Safety.gives (.keySlotErase .spi (.slot k)) s
        (((Safety.atGuarded s.dev .spi).storeWord (0x1C1 + 2 * k.val) 0).2.eraseKey k.val)) ∧
    (∀ k : Fin 2, Safety.writes s.dev .spi → Safety.unlocked s.dev .spi → s.dev.wear 0x09B < 1000000 →
      Safety.gives (.keySlotErase .spi (.relay k)) s
        (((Safety.atGuarded s.dev .spi).storeWord 0x09B 0).2.eraseKey (64 + k.val)))

/-! ## The device side of USB, and the JTAG port (R46, R97, R98, R214, R219 to R225, R290, R304, R305, R316) -/

/-- U0 (R98, R214, R224, R316): a bus reset puts the hub and the function device at address 0 and unconfigured, ends what waited
over U0, and gives the speed; a suspend suspends both and resets the relay link with cause 10; a resume ends it. -/
def Rows.U0Rows : Prop :=
  ∀ s : State,
    (∀ v : BitVec 2, s.dev.u0Connects = true → v ≠ 0 → (s.dev.dead = true → v ≠ 3) →
      let d := (s.dev.functionReset 4).hubPortsReset
      Safety.gives (.u0BusReset v) s
        (({ d with u0 := { d.u0 with speed := v.toNat, suspended := false, hub := UsbFunction.reset } }.u0LinkReset).startWake .u0)) ∧
    (s.dev.u0Connects = true → s.dev.u0.suspended = false →
      let d := (s.dev.relayReset 4 10).transparentLinks 4
      Safety.gives .u0Suspend s (({ d with
        u0 := { d.u0 with suspended := true, hub := { d.u0.hub with suspended := true } } }).updFunc 4 fun f =>
          { f with suspended := true })) ∧
    (s.dev.u0Connects = true → s.dev.u0.suspended = true → (s.dev.func 4).waking = false →
      let d := s.dev.transparentLinks 0
      Safety.gives .u0Resume s ((({ d with
        u0 := { d.u0 with suspended := false, hub := { d.u0.hub with suspended := false, waking := false } } }).updFunc 4 fun f =>
          { f with suspended := false, waking := false }).startWake .u0)) ∧
    (s.dev.up = true → s.dev.u0.vbus = true → s.dev.boot.ready.getLsbD 6 = true → s.dev.fc.chipSafe = false →
      s.dev.u0Connects = true)

/-- Requests over U0 (R222, R225): a standard request to the function device and one to the hub answer and change what USB 2.0
says; SET_ADDRESS and SET_CONFIGURATION take effect; a request that the device does not know stalls. -/
def Rows.HubRequestRow : Prop :=
  ∀ (x : Setup) (s : State), s.dev.u0Up = true → s.dev.u0.suspended = false →
    (bits x.bmRequestType 5 2 = 0 →
      let k : UsbKind := .function (if s.dev.u0.speed = 1 then 1 else 2) s.dev.u0Relay
      let d := s.dev.updFunc 4 fun f => s.dev.stdRequest k f x
      ((s.dev.func 4).busReset = false ∨ (d.func 4).busReset = true → Safety.gives (.hubRequest true x) s (d.configuredLink 4)) ∧
      ((s.dev.func 4).busReset = true → (d.func 4).busReset = false →
        Safety.gives (.hubRequest true x) s ((d.turnResponses 4).configuredLink 4)) ∧
      ((d.link 4).state ≠ .enumerating → d.configuredLink 4 = d)) ∧
    (bits x.bmRequestType 5 2 ≠ 0 → Safety.gives (.hubRequest true x) s
      (s.dev.updFunc 4 fun f => { f with reply := .stall })) ∧
    (s.dev.hubPresented = true → Safety.gives (.hubRequest false x) s (s.dev.hubFunctionRequest x)) ∧
    (∀ (k : UsbKind) (f : UsbFunction) (v : BitVec 16), v.toNat < 128 →
      s.dev.stdRequest k f ⟨0, 5, v, 0, 0⟩ = { f with addr := v.toNat, reply := .ack }) ∧
    (∀ (k : UsbKind) (f : UsbFunction), s.dev.stdRequest k f ⟨0, 9, 1, 0, 0⟩ =
      { f with config := 1, u1Enable := false, u2Enable := false, halted := [], toggles := [], busReset := false, reply := .ack })

/-- U0: its bus events, and the requests to its hub and its function device (R98, R214, R222 to R225, R316).
Model's choices: log 61, 62, 95, 102. -/
def Obligations.U0BusAndRequests : Prop := Rows.U0Rows ∧ Rows.HubRequestRow

/-- Splits and SuperSpeed packets (R25, R132, R223): a start-split that gets its claim is linked as the record of its buffer, one that
does not draws NAK; a complete-split answers NYET until the device has, and then what it answered; a SuperSpeed packet is linked for the
other side, or refused with NRDY. -/
def Rows.TranslatorRows : Prop :=
  ∀ (s : State) n,
    (∀ (h : Fin 16) (periodic : Bool), s.dev.portOfHub (h.val + 1) = some n → s.dev.ttServes (h.val + 1) = true →
      let cls := if periodic then 2 else 5
      let q := ttQueue (h.val + 1) periodic false
      let d := s.dev.openQueue q cls 1 n n 0
      let full : Prop := periodic = false ∧ 4 ≤ ((s.dev.hubPort (h.val + 1)).ttBuffers.filter fun b => !b.periodic).length
      (∀ (out : List Byte) c e, ¬ full → d.takeClaim cls (d.segsFor q (out.length + 4)) = some c →
        (c.dropClaim cls (d.segsFor q (out.length + 4))).enqueue 32 q ⟨5, false, true, 0, out⟩ = some e →
        let b : TtBuffer := { periodic := periodic, isIn := false, sent := false, result := none, cls := cls, claim := 0 }
        Safety.gives (.splitTransaction h periodic (.startOut out)) s
          ((e.updHubPort (h.val + 1) fun x => { x with ttBuffers := x.ttBuffers ++ [b] }).hubSays
            (if periodic then .none else .ack))) ∧
      (∀ out : List Byte, (full ∨ d.takeClaim cls (d.segsFor q (out.length + 4)) = none) →
        Safety.gives (.splitTransaction h periodic (.startOut out)) s (s.dev.hubSays .nak)) ∧
      (∀ b, ((s.dev.hubPort (h.val + 1)).ttBuffers.find? fun b => b.periodic = periodic) = some b →
        (b.result = none → Safety.gives (.splitTransaction h periodic .complete) s (s.dev.hubSays .nyet)) ∧
        (∀ r, b.result = some r → (∀ pid seq l, r ≠ .data pid seq l) → Safety.gives (.splitTransaction h periodic .complete) s
          ((s.dev.updHubPort (h.val + 1) fun x => { x with ttBuffers := x.ttBuffers.erase b }).hubSays (ttReply r))) ∧
        (∀ pid seq l, b.result = some (.data pid seq l) → Safety.gives (.splitTransaction h periodic .complete) s
          ((s.dev.sendSplitData (h.val + 1) periodic).updHubPort (h.val + 1) fun x =>
            { x with ttBuffers := x.ttBuffers.erase b })))) ∧
    (∀ (k : Fin 15) (up : Bool) (p : List Byte), s.dev.portOfHub (k.val + 1) = some n → n < 8 → s.dev.served n = true →
      s.dev.hubPresented = true → s.dev.u0.speed = 3 → s.dev.u0.suspended = false → s.dev.u0.hub.config = 1 →
      (s.dev.hubPort (k.val + 1)).status.getLsbD 1 = true → (s.dev.hubPort (k.val + 1)).status.getLsbD 2 = false →
      let o := if up then 32 else n
      let d := s.dev.openQueue (ssQueue o) 5 1 o o 0
      (∀ e, d.canClaim 5 (d.segsFor (ssQueue o) (p.length + 4)) = true →
        d.enqueue (rqSs (if up then n else 8)) (ssQueue o) ⟨0, false, true, 0, p⟩ = some e → Safety.gives (.ssPacket k up p) s e) ∧
      (d.canClaim 5 (d.segsFor (ssQueue o) (p.length + 4)) = false →
        Safety.gives (.ssPacket k up p) s (s.dev.hubSays .nrdy)))

/-- Remote wake of a TRANSPARENT port (R304, R307): on a suspended U0 it goes upstream when the host has enabled it; on a port that
is suspended alone the hub resumes the port and shows the change. -/
def Rows.HubWakeRow : Prop :=
  ∀ (k : Fin 15) n (s : State), s.dev.portOfHub (k.val + 1) = some n → s.dev.hubPresented = true →
    s.dev.served n = true → s.dev.u0.hub.config = 1 →
    (s.dev.u0.suspended = true → s.dev.u0.hub.remoteWake = true → Safety.does (.hubRemoteWake k) s fun d =>
      d.u0 = { s.dev.u0 with hub := { s.dev.u0.hub with waking := true } }) ∧
    (s.dev.u0.suspended = true → s.dev.u0.hub.remoteWake = false → Safety.does (.hubRemoteWake k) s fun d => d.u0 = s.dev.u0) ∧
    (s.dev.u0.suspended = false → (s.dev.hubPort (k.val + 1)).status.getLsbD 2 = true →
      Safety.gives (.hubRemoteWake k) s ((((s.dev.startWake .remoteWake).updHubPort (k.val + 1) fun x =>
        { x with status := x.status &&& 0xFFFB, change := x.change ||| (if s.dev.u0.speed = 3 then 0x40 else 4) }).hubLink (k.val + 1) 0)))

/-- Coupler ports acting as UFP (R214, R225, R275, R290, R305): requests reach the function device; a bus reset and a suspend reset
the relay link with causes 8 and 10; a resume lets it run again. -/
def Rows.UfpRows : Prop :=
  ∀ (n : Fin 4) (s : State), s.dev.ufpPresents n.val = true →
    (∀ x, (s.dev.func n.val).suspended = false → Safety.gives (.ufpControlRequest n x) s
      (s.dev.functionRequest n.val (.function (if (s.dev.link n.val).speed = 3 then 3 else 2) true) x)) ∧
    (∀ ss : Bool, Safety.gives (.ufpBusReset n ss) s
      (((s.dev.functionReset n.val).updLink n.val fun x => { x with speed := if ss then 3 else 2 }).relayReset n.val 8)) ∧
    ((s.dev.func n.val).suspended = false → Safety.gives (.ufpSuspend n) s
      ((s.dev.relayReset n.val 10).updFunc n.val fun f => { f with suspended := true })) ∧
    ((s.dev.func n.val).suspended = true → Safety.gives (.ufpResume n) s
      (s.dev.updFunc n.val fun f => { f with suspended := false, waking := false }))

/-- TRANSPARENT ports behind the hub, and couplers as UFP (R132, R223, R225, R275, R290, R304, R305, R307).
Model's choices: log 45, 61, 62, 63, 95. -/
def Obligations.TransparentPorts : Prop := Rows.TranslatorRows ∧ Rows.HubWakeRow ∧ Rows.UfpRows

/-- The JTAG port (R46): BYPASS passes the bits on behind one 0; IDCODE shifts its 32 bits out first; EXTEST drives the chain only
while RESET_N holds the main die in reset, and is BYPASS otherwise. -/
def Rows.ScanRow : Prop :=
  ∀ (data : List Bool) (s : State), s.dev.life ≠ .unpowered → s.dev.life ≠ .deadBattery →
    let chain := ((List.range Config.scanCells).map (Config.scanSample s.dev.freeCtr)) ++ data
    Safety.gives (.boundaryScan .bypass data) s
      { s.dev with jtag := .bypass, jtagOut := (false :: data).take data.length } ∧
    Safety.gives (.boundaryScan .idcode data) s { s.dev with
      jtag := .idcode, jtagOut := (((List.range 32).map Config.idCode) ++ data).take data.length } ∧
    (s.dev.life ≠ .reset → Safety.gives (.boundaryScan .extest data) s
      { s.dev with jtag := .extest, jtagOut := (false :: data).take data.length }) ∧
    (s.dev.life = .reset → Safety.gives (.boundaryScan .extest data) s { s.dev with
      jtag := .extest, scan := chain.drop data.length, jtagOut := chain.take data.length, freeCtr := s.dev.freeCtr + 1 }) ∧
    Safety.gives (.boundaryScan .samplePreload data) s { s.dev with
      jtag := .samplePreload, scan := chain.drop data.length, jtagOut := chain.take data.length, freeCtr := s.dev.freeCtr + 1 }

/-- The JTAG port (R46): what BOUNDARY_SCAN does under each instruction; no other command touches the port.
Model's choices: log 11, 64, 103. -/
def Obligations.ScanPort : Prop := Rows.ScanRow ∧ Rows.ScanFrame

/-! ## The state after reset -/

/-- What reset leaves (R60, R77, R169, R306, R379, R397, R400): no READY bit, BOOTING, no request, no level, no Watermark, FREE at
beat 0 with no grid, ACTIVE, the guards armed, and every register at its reset value. -/
def Rows.ResetState : Prop :=
  let d := State.reset.dev
  State.reset.pending = [] ∧ d.boot.ready = 0 ∧ d.boot.state = .booting ∧ d.requests = [] ∧ d.updates = [] ∧
    d.fc.chipSafe = false ∧ d.watermark.valid = false ∧ d.deckle.state = .free ∧ d.deckle.running = false ∧
    d.deckle.beat = 0 ∧ d.power.state = .active ∧
    (∀ i, (d.src i).level = 0 ∧ (d.src i).c = 0) ∧ (∀ g, d.guard g = 0) ∧ (∀ a, d.reg a = resetValue a) ∧
    (∀ c, (d.ctx c).state = 0) ∧ (∀ n, (d.fuse n).state = .off ∧ (d.fuse n).gate = false) ∧
    (∀ l, (d.link l).state = .down) ∧ (∀ q, (d.queue q).state = .idle ∧ (d.queue q).segs = 0)

/-- A read of the register at this address, in the state after reset, gives this value. -/
def Safety.resetsTo (a : Nat) (v : W32) : Prop := (State.reset.dev.readReg State.reset.straps true a).1 = v

/-- The reset values that the register tables print, as a read gives them: CHIP_ID, READY, MS_STATUS, MS_IRQ_EN, PWR_CFG, PWR_SLEEP,
FC_CFG, DK_CFG, DK_POS, VAT_CFG, VAT_ROT, VAT_STATUS, VAT_BANKS, VAT_MAP, VAT_FREE, HB_CFG, PD_GCFG and CHAIN_CFG; then, for each
port, engine, die, domain, coupler and subscriber, PORT_CFG, PORT_STATUS, PORT_LPM, PORT_SS_LPM, EFUSE_CFG, EFUSE_RETRY, PD_CFG,
PD_CABLE, PSB_CFG, PD_STATUS and the first PDOs (fixed for U0, R317, R328), REAM_Dn, REAM_USE_Dn, CPL_POOL_A, CPL_POOL_B, HB_SUB_RATE and HB_SUB_BURST. -/
def Rows.ResetRegisters : Prop :=
  (∀ x ∈ ([(0x000000, 0x3232B100), (0x000010, 0), (0x000040, 0x00300800), (0x000044, 0x00200000), (0x000100, 0x00400001),
      (0x000104, 0), (0x010004, 2), (0x020000, 0x700), (0x02000C, 0), (0x030000, 0x12), (0x030004, 0), (0x030008, 0), (0x03000C, 0),
      (0x030010, 0xFFFFFFFF), (0x030060, 0), (0x040000, 3), (0x1A1000, 0x21), (0x1E0004, 0x20)] : List (Nat × W32)),
    Safety.resetsTo x.1 x.2) ∧
  (∀ n < 32, ∀ x ∈ ([(0x100000 + 0x1000 * n, 0x0A), (0x100004 + 0x1000 * n, 0), (0x100010 + 0x1000 * n, 0x00040000),
      (0x140000 + 0x100 * n, 0x080408BC), (0x140004 + 0x100 * n, 0x504)] : List (Nat × W32)), Safety.resetsTo x.1 x.2) ∧
  (∀ n < 8, Safety.resetsTo (0x100014 + 0x1000 * n) 2) ∧
  (∀ n < 32, ∀ x ∈ ([(0x180000 + 0x1000 * n, 0x00012182), (0x180004 + 0x1000 * n, 1),
      (0x180008 + 0x1000 * n, BitVec.ofNat 32 (0x8040 + n)), (0x180010 + 0x1000 * n, 0), (0x180020 + 0x1000 * n, 0x0001912C),
      (0x180040 + 0x1000 * n, 0x00019032)] : List (Nat × W32)), Safety.resetsTo x.1 x.2) ∧
  Safety.resetsTo 0x1A0004 0 ∧ Safety.resetsTo 0x1A0008 0 ∧ Safety.resetsTo 0x1A0020 0 ∧ Safety.resetsTo 0x1A0040 0x0001900A ∧
  (∀ n < 4, ∀ x ∈ ([(0x080010 + 4 * n, BitVec.ofNat 32 (0x0BF80000 + 0xBF8 * n)), (0x080020 + 4 * n, 0)] : List (Nat × W32)),
    Safety.resetsTo x.1 x.2) ∧
  (∀ n < 5, ∀ x ∈ ([(0x1E0408 + 0x40 * n, 0x00800040), (0x1E040C + 0x40 * n, 0x00400100)] : List (Nat × W32)),
    Safety.resetsTo x.1 x.2) ∧
  (∀ n < 1024, ∀ x ∈ ([(0x041000 + 0x10 * n, 0x80000000), (0x041004 + 0x10 * n, 0x00010000)] : List (Nat × W32)),
    Safety.resetsTo x.1 x.2)

/-- The state after reset: what no command has touched, and the printed reset values of registers as a read gives them.
Model's choices: log 5, 11, 74. -/
def Obligations.ResetState : Prop := Rows.ResetState ∧ Rows.ResetRegisters
end

