-- ==== Sys2Proof/Laws/KeptBase.lean ====
section
/-! SUPPORT. The frame of the operations, part 1: what no operation but a few changes (the part's life, its flash and its JTAG
port) stands unchanged after each, one lemma per operation. The other Kept files go on in the order of the machine's files. -/

namespace Sys2Proof.Machine

open Sys2Proof

/-- What nearly all operations leave alone. -/
structure KeptBase where
  life : Life
  jtag : JtagInstr
  scan : List Bool
  jtagOut : List Bool
  vinLow : Bool

/-- What most operations leave alone: resets, bring-up and the firmware rows alone write the flash and the boot record. -/
structure Kept where
  base : KeptBase
  flash : Tab Byte
  boot : Boot
  maint : Bool

def Dev.kept (d : Dev) : Kept := ⟨⟨d.life, d.jtag, d.scan, d.jtagOut, d.vinLow⟩, d.flash, d.boot, d.maint⟩

theorem base_eta (d : Dev) : KeptBase.mk d.life d.jtag d.scan d.jtagOut d.vinLow = d.kept.base := rfl

@[simp] theorem kept_eta (d : Dev) : Kept.mk (KeptBase.mk d.life d.jtag d.scan d.jtagOut d.vinLow) d.flash d.boot d.maint = d.kept := rfl

theorem base_ite {k : KeptBase} {c : Prop} [Decidable c] {a b : Dev} (ha : a.kept.base = k) (hb : b.kept.base = k) :
    (if c then a else b).kept.base = k := by split <;> assumption

theorem base_forEach {α : Type} {k : KeptBase} {f : α → Dev → Dev} {l : List α} {d : Dev}
    (h : ∀ x a, (f x a).kept.base = a.kept.base) (hd : d.kept.base = k) : (forEach l f d).kept.base = k := by
  unfold forEach
  induction l generalizing d with
  | nil => exact hd
  | cons x t ih => exact ih ((h x d).trans hd)

theorem base_forN {k : KeptBase} {f : Nat → Dev → Dev} {n : Nat} {d : Dev}
    (h : ∀ x a, (f x a).kept.base = a.kept.base) (hd : d.kept.base = k) : (forN n f d).kept.base = k := base_forEach h hd

theorem kept_let {k : Kept} {v : Dev} {b : Dev → Dev} (hv : v.kept = k) (h : ∀ x, x.kept = k → (b x).kept = k) :
    (let x := v; b x).kept = k := h v hv

theorem kept_letSnd {k : Kept} {α : Type} {v : α × Dev} {b : α × Dev → Dev} (hv : v.2.kept = k)
    (h : ∀ x, x.2.kept = k → (b x).kept = k) : (let x := v; b x).kept = k := h v hv

theorem kept_letAny {k : Kept} {α : Type} {v : α} {b : α → Dev} (h : ∀ x, (b x).kept = k) : (let x := v; b x).kept = k :=
  h v

theorem kept_let2 {k : Kept} {β : Type} {v : Dev} {b : Dev → β × Dev} (hv : v.kept = k)
    (h : ∀ x, x.kept = k → (b x).2.kept = k) : (let x := v; b x).2.kept = k := h v hv

theorem kept_letSnd2 {k : Kept} {α β : Type} {v : α × Dev} {b : α × Dev → β × Dev} (hv : v.2.kept = k)
    (h : ∀ x, x.2.kept = k → (b x).2.kept = k) : (let x := v; b x).2.kept = k := h v hv

theorem kept_letAny2 {k : Kept} {α β : Type} {v : α} {b : α → β × Dev} (h : ∀ x, (b x).2.kept = k) :
    (let x := v; b x).2.kept = k := h v

theorem kept_getD {k : Kept} {o : Option Dev} {e : Dev} (ho : ∀ x, o = some x → x.kept = k) (he : e.kept = k) :
    (o.getD e).kept = k := by
  cases o with
  | none => exact he
  | some x => exact ho x rfl

theorem kept_ite {k : Kept} {c : Prop} [Decidable c] {a b : Dev} (ha : a.kept = k) (hb : b.kept = k) :
    (if c then a else b).kept = k := by split <;> assumption

theorem kept_ite2 {k : Kept} {β : Type} {c : Prop} [Decidable c] {a b : β × Dev} (ha : a.2.kept = k) (hb : b.2.kept = k) :
    (if c then a else b).2.kept = k := by split <;> assumption

theorem kept_foldlSnd {α β : Type} {k : Kept} {f : β × Dev → α → β × Dev} {l : List α} {d : β × Dev}
    (h : ∀ a x, (f a x).2.kept = a.2.kept) (hd : d.2.kept = k) : (l.foldl f d).2.kept = k := by
  induction l generalizing d with
  | nil => exact hd
  | cons x t ih => exact ih ((h d x).trans hd)

theorem kept_foldlFst {α β : Type} {k : Kept} {f : Dev × β → α → Dev × β} {l : List α} {d : Dev × β}
    (h : ∀ a x, (f a x).1.kept = a.1.kept) (hd : d.1.kept = k) : (l.foldl f d).1.kept = k := by
  induction l generalizing d with
  | nil => exact hd
  | cons x t ih => exact ih ((h d x).trans hd)

theorem kept_foldl {α : Type} {k : Kept} {f : Dev → α → Dev} {l : List α} {d : Dev} (h : ∀ a x, (f a x).kept = a.kept)
    (hd : d.kept = k) : (l.foldl f d).kept = k := by
  induction l generalizing d with
  | nil => exact hd
  | cons x t ih => exact ih ((h d x).trans hd)

theorem kept_forEach {α : Type} {k : Kept} {f : α → Dev → Dev} {l : List α} {d : Dev} (h : ∀ x a, (f x a).kept = a.kept)
    (hd : d.kept = k) : (forEach l f d).kept = k := kept_foldl (fun a x => h x a) hd

theorem kept_forN {k : Kept} {f : Nat → Dev → Dev} {n : Nat} {d : Dev} (h : ∀ x a, (f x a).kept = a.kept)
    (hd : d.kept = k) : (forN n f d).kept = k := kept_foldl (fun a x => h x a) hd

@[simp] theorem kept_mk {life} {boot} {flash} {regs} {shadow} {counters} {guards} {updates} {updateLast} {mailbox} {quire} {requests} {subs} {spi} {vat} {deficit} {used} {rrNext} {drrCur} {sentUnit} {sentBad} {deckle} {ctxs} {bindings} {holds} {transfers} {subscriptions} {ports} {fuses} {dies} {pd} {psb} {vinLow} {fc} {watermark} {power} {links} {funcs} {u0} {eths} {couchKeys} {maint} {resetDue} {chainDue} {jtag} {scan} {jtagOut} {nonceCtr} {freeCtr} : (Dev.mk life boot flash regs shadow counters guards updates updateLast mailbox quire requests subs spi vat deficit used rrNext drrCur sentUnit sentBad deckle ctxs bindings holds transfers subscriptions ports fuses dies pd psb vinLow fc watermark power links funcs u0 eths couchKeys maint resetDue chainDue jtag scan jtagOut nonceCtr freeCtr).kept = ⟨⟨life, jtag, scan, jtagOut, vinLow⟩, flash, boot, maint⟩ := rfl

/-! ## Access -/

@[simp] theorem Dev.setPort_kept (d : Dev) (k : Nat) (v : Port) : (Dev.setPort d k v).kept = d.kept := by
  unfold Dev.setPort
  simp

@[simp] theorem Dev.updPort_kept (d : Dev) (k : Nat) (f : Port → Port) : (Dev.updPort d k f).kept = d.kept := by
  unfold Dev.updPort
  simp

@[simp] theorem Dev.setCtx_kept (d : Dev) (k : Nat) (v : Ctx) : (Dev.setCtx d k v).kept = d.kept := by
  unfold Dev.setCtx
  simp

@[simp] theorem Dev.updCtx_kept (d : Dev) (k : Nat) (f : Ctx → Ctx) : (Dev.updCtx d k f).kept = d.kept := by
  unfold Dev.updCtx
  simp

@[simp] theorem Dev.setFuse_kept (d : Dev) (k : Nat) (v : Fuse) : (Dev.setFuse d k v).kept = d.kept := by
  unfold Dev.setFuse
  simp

@[simp] theorem Dev.updFuse_kept (d : Dev) (k : Nat) (f : Fuse → Fuse) : (Dev.updFuse d k f).kept = d.kept := by
  unfold Dev.updFuse
  simp

@[simp] theorem Dev.setDie_kept (d : Dev) (k : Nat) (v : Die) : (Dev.setDie d k v).kept = d.kept := by
  unfold Dev.setDie
  simp

@[simp] theorem Dev.updDie_kept (d : Dev) (k : Nat) (f : Die → Die) : (Dev.updDie d k f).kept = d.kept := by
  unfold Dev.updDie
  simp

@[simp] theorem Dev.setEng_kept (d : Dev) (k : Nat) (v : Pd) : (Dev.setEng d k v).kept = d.kept := by
  unfold Dev.setEng
  simp

@[simp] theorem Dev.updEng_kept (d : Dev) (k : Nat) (f : Pd → Pd) : (Dev.updEng d k f).kept = d.kept := by
  unfold Dev.updEng
  simp

@[simp] theorem Dev.setLink_kept (d : Dev) (k : Nat) (v : Link) : (Dev.setLink d k v).kept = d.kept := by
  unfold Dev.setLink
  simp

@[simp] theorem Dev.updLink_kept (d : Dev) (k : Nat) (f : Link → Link) : (Dev.updLink d k f).kept = d.kept := by
  unfold Dev.updLink
  simp

@[simp] theorem Dev.setFunc_kept (d : Dev) (k : Nat) (v : UsbFunction) : (Dev.setFunc d k v).kept = d.kept := by
  unfold Dev.setFunc
  simp

@[simp] theorem Dev.updFunc_kept (d : Dev) (k : Nat) (f : UsbFunction → UsbFunction) : (Dev.updFunc d k f).kept = d.kept := by
  unfold Dev.updFunc
  simp

@[simp] theorem Dev.setEth_kept (d : Dev) (k : Nat) (v : Eth) : (Dev.setEth d k v).kept = d.kept := by
  unfold Dev.setEth
  simp

@[simp] theorem Dev.updEth_kept (d : Dev) (k : Nat) (f : Eth → Eth) : (Dev.updEth d k f).kept = d.kept := by
  unfold Dev.updEth
  simp

@[simp] theorem Dev.setSubr_kept (d : Dev) (k : Nat) (v : Subscriber) : (Dev.setSubr d k v).kept = d.kept := by
  unfold Dev.setSubr
  simp

@[simp] theorem Dev.updSubr_kept (d : Dev) (k : Nat) (f : Subscriber → Subscriber) : (Dev.updSubr d k f).kept = d.kept := by
  unfold Dev.updSubr
  simp

@[simp] theorem Dev.setSubscription_kept (d : Dev) (k : Nat) (v : Option Subscription) : (Dev.setSubscription d k v).kept = d.kept := by
  unfold Dev.setSubscription
  simp

@[simp] theorem Dev.updSubscription_kept (d : Dev) (k : Nat) (f : Option Subscription → Option Subscription) : (Dev.updSubscription d k f).kept = d.kept := by
  unfold Dev.updSubscription
  simp

@[simp] theorem Dev.setBinding_kept (d : Dev) (k : Nat) (v : Option Binding) : (Dev.setBinding d k v).kept = d.kept := by
  unfold Dev.setBinding
  simp

@[simp] theorem Dev.updBinding_kept (d : Dev) (k : Nat) (f : Option Binding → Option Binding) : (Dev.updBinding d k f).kept = d.kept := by
  unfold Dev.updBinding
  simp

@[simp] theorem Dev.setGuard_kept (d : Dev) (k : Nat) (v : Nat) : (Dev.setGuard d k v).kept = d.kept := by
  unfold Dev.setGuard
  simp

@[simp] theorem Dev.updGuard_kept (d : Dev) (k : Nat) (f : Nat → Nat) : (Dev.updGuard d k f).kept = d.kept := by
  unfold Dev.updGuard
  simp

@[simp] theorem Dev.setCounter_kept (d : Dev) (k : Nat) (v : Nat) : (Dev.setCounter d k v).kept = d.kept := by
  unfold Dev.setCounter
  simp

@[simp] theorem Dev.updCounter_kept (d : Dev) (k : Nat) (f : Nat → Nat) : (Dev.updCounter d k f).kept = d.kept := by
  unfold Dev.updCounter
  simp

@[simp] theorem Dev.setCouchKey_kept (d : Dev) (k : Nat) (v : Option Key) : (Dev.setCouchKey d k v).kept = d.kept := by
  unfold Dev.setCouchKey
  simp

@[simp] theorem Dev.updCouchKey_kept (d : Dev) (k : Nat) (f : Option Key → Option Key) : (Dev.updCouchKey d k f).kept = d.kept := by
  unfold Dev.updCouchKey
  simp

@[simp] theorem Dev.setUnit_kept (d : Dev) (k : Nat) (v : List Byte) : (Dev.setUnit d k v).kept = d.kept := by
  unfold Dev.setUnit
  simp

@[simp] theorem Dev.updUnit_kept (d : Dev) (k : Nat) (f : List Byte → List Byte) : (Dev.updUnit d k f).kept = d.kept := by
  unfold Dev.updUnit
  simp

@[simp] theorem Dev.sendUnit_kept (d : Dev) (k : Nat) (v : List Byte) (bad : Bool) : (Dev.sendUnit d k v bad).kept = d.kept := by
  unfold Dev.sendUnit
  simp

@[simp] theorem Dev.setDeficitOf_kept (d : Dev) (k : Nat) (v : Int) : (Dev.setDeficitOf d k v).kept = d.kept := by
  unfold Dev.setDeficitOf
  simp

@[simp] theorem Dev.updDeficitOf_kept (d : Dev) (k : Nat) (f : Int → Int) : (Dev.updDeficitOf d k f).kept = d.kept := by
  unfold Dev.updDeficitOf
  simp

@[simp] theorem Dev.setUsedOf_kept (d : Dev) (k : Nat) (v : Nat) : (Dev.setUsedOf d k v).kept = d.kept := by
  unfold Dev.setUsedOf
  simp

@[simp] theorem Dev.updUsedOf_kept (d : Dev) (k : Nat) (f : Nat → Nat) : (Dev.updUsedOf d k f).kept = d.kept := by
  unfold Dev.updUsedOf
  simp

@[simp] theorem Dev.setRrOf_kept (d : Dev) (k : Nat) (v : Nat) : (Dev.setRrOf d k v).kept = d.kept := by
  unfold Dev.setRrOf
  simp

@[simp] theorem Dev.updRrOf_kept (d : Dev) (k : Nat) (f : Nat → Nat) : (Dev.updRrOf d k f).kept = d.kept := by
  unfold Dev.updRrOf
  simp

@[simp] theorem Dev.setDrrOf_kept (d : Dev) (k : Nat) (v : Nat) : (Dev.setDrrOf d k v).kept = d.kept := by
  unfold Dev.setDrrOf
  simp

@[simp] theorem Dev.updDrrOf_kept (d : Dev) (k : Nat) (f : Nat → Nat) : (Dev.updDrrOf d k f).kept = d.kept := by
  unfold Dev.updDrrOf
  simp

@[simp] theorem Dev.setCell_base (d : Dev) (k : Nat) (v : Byte) : (Dev.setCell d k v).kept.base = d.kept.base := by
  unfold Dev.setCell
  simp [base_eta]

@[simp] theorem Dev.updCell_base (d : Dev) (k : Nat) (f : Byte → Byte) : (Dev.updCell d k f).kept.base = d.kept.base := by
  unfold Dev.updCell
  simp [base_eta]

@[simp] theorem Dev.setQueue_kept (d : Dev) (k : Nat) (v : Queue) : (Dev.setQueue d k v).kept = d.kept := by
  unfold Dev.setQueue
  simp

@[simp] theorem Dev.updQueue_kept (d : Dev) (k : Nat) (f : Queue → Queue) : (Dev.updQueue d k f).kept = d.kept := by
  unfold Dev.updQueue
  simp

@[simp] theorem Dev.updVat_kept (d : Dev) (f : Vat → Vat) : (Dev.updVat d f).kept = d.kept := by
  unfold Dev.updVat
  simp

@[simp] theorem Dev.setFreeList_kept (d : Dev) (k : Nat) (v : FreeList) : (Dev.setFreeList d k v).kept = d.kept := by
  unfold Dev.setFreeList
  simp

@[simp] theorem Dev.updFreeList_kept (d : Dev) (k : Nat) (f : FreeList → FreeList) : (Dev.updFreeList d k f).kept = d.kept := by
  unfold Dev.updFreeList
  simp

@[simp] theorem Dev.setClaim_kept (d : Dev) (k : Nat) (v : Nat) : (Dev.setClaim d k v).kept = d.kept := by
  unfold Dev.setClaim
  simp

@[simp] theorem Dev.updClaim_kept (d : Dev) (k : Nat) (f : Nat → Nat) : (Dev.updClaim d k f).kept = d.kept := by
  unfold Dev.updClaim
  simp

@[simp] theorem Dev.setHeldOf_kept (d : Dev) (k : Nat) (v : Nat) : (Dev.setHeldOf d k v).kept = d.kept := by
  unfold Dev.setHeldOf
  simp

@[simp] theorem Dev.updHeldOf_kept (d : Dev) (k : Nat) (f : Nat → Nat) : (Dev.updHeldOf d k f).kept = d.kept := by
  unfold Dev.updHeldOf
  simp

@[simp] theorem Dev.updUsedSegs_kept (d : Dev) (k : Nat) (f : Nat → Nat) : (Dev.updUsedSegs d k f).kept = d.kept := by
  unfold Dev.updUsedSegs
  simp

@[simp] theorem Dev.setParityOf_kept (d : Dev) (k : Nat) (v : Nat) : (Dev.setParityOf d k v).kept = d.kept := by
  unfold Dev.setParityOf
  simp

@[simp] theorem Dev.updParityOf_kept (d : Dev) (k : Nat) (f : Nat → Nat) : (Dev.updParityOf d k f).kept = d.kept := by
  unfold Dev.updParityOf
  simp

@[simp] theorem Dev.setSlotResult_base (d : Dev) (k : Nat) (v : Nat) : (Dev.setSlotResult d k v).kept.base = d.kept.base := by
  unfold Dev.setSlotResult
  simp [base_eta]

@[simp] theorem Dev.setSlotVerified_base (d : Dev) (k : Nat) (v : Bool) : (Dev.setSlotVerified d k v).kept.base = d.kept.base := by
  unfold Dev.setSlotVerified
  simp [base_eta]

@[simp] theorem Dev.setSlotPosition_base (d : Dev) (k : Nat) (v : Nat) : (Dev.setSlotPosition d k v).kept.base = d.kept.base := by
  unfold Dev.setSlotPosition
  simp [base_eta]

@[simp] theorem Dev.setSlotErasing_base (d : Dev) (k : Nat) (v : Option ReqKey) : (Dev.setSlotErasing d k v).kept.base = d.kept.base := by
  unfold Dev.setSlotErasing
  simp [base_eta]

@[simp] theorem Dev.setSrc_kept (d : Dev) (i : Nat) (v : Source) : (Dev.setSrc d i v).kept = d.kept := by
  unfold Dev.setSrc
  simp

@[simp] theorem Dev.setQword_kept (d : Dev) (w : Nat) (v : W32) : (Dev.setQword d w v).kept = d.kept := by
  unfold Dev.setQword
  simp

@[simp] theorem Dev.setKeyPart_kept (d : Dev) (k : Nat) (v : BitVec 4) : (Dev.setKeyPart d k v).kept = d.kept := by
  unfold Dev.setKeyPart
  simp

@[simp] theorem Dev.setReg_kept (d : Dev) (a : Nat) (v : W32) : (Dev.setReg d a v).kept = d.kept := by
  unfold Dev.setReg
  simp

@[simp] theorem Dev.orReg_kept (d : Dev) (a : Nat) (m : W32) : (Dev.orReg d a m).kept = d.kept := by
  unfold Dev.orReg
  simp

@[simp] theorem Dev.flag_kept (d : Dev) (a i : Nat) : (Dev.flag d a i).kept = d.kept := by
  unfold Dev.flag
  simp

@[simp] theorem Dev.setShadow_kept (d : Dev) (a : Nat) (v : Option W32) : (Dev.setShadow d a v).kept = d.kept := by
  unfold Dev.setShadow
  simp

@[simp] theorem Dev.count_kept (d : Dev) (sel : Nat) (n : Nat) : (Dev.count d sel n).kept = d.kept := by
  unfold Dev.count
  simp

@[simp] theorem Dev.setReady_base (d : Dev) (i : Nat) (b : Bool) : (Dev.setReady d i b).kept.base = d.kept.base := by
  unfold Dev.setReady
  simp [base_eta]

@[simp] theorem Dev.freeBit_kept (d : Dev) : (Dev.freeBit d).2.kept = d.kept := by
  unfold Dev.freeBit
  simp

@[simp] theorem Dev.freeWord_kept (d : Dev) : (Dev.freeWord d).2.kept = d.kept := by
  unfold Dev.freeWord
  simp

/-! ## Vat -/

@[simp] theorem Dev.onBooks_kept (d : Dev) (f : Books → Books) : (Dev.onBooks d f).kept = d.kept := by
  unfold Dev.onBooks
  simp

@[simp] theorem Dev.addClaim_kept (d : Dev) (c n : Nat) : (Dev.addClaim d c n).kept = d.kept := by
  unfold Dev.addClaim
  simp

theorem Dev.takeClaim_kept {d : Dev} {c n : Nat} {y : Dev} (h : Dev.takeClaim d c n = some y) : y.kept = d.kept := by
  unfold Dev.takeClaim at h
  repeat' first | (cases h; simp; done) | (split at h) | (cases h)

@[simp] theorem Dev.dropClaim_kept (d : Dev) (c n : Nat) : (Dev.dropClaim d c n).kept = d.kept := by
  unfold Dev.dropClaim
  simp

theorem Dev.popBank_kept {d : Dev} {b : Nat} {y : Nat × Dev} (h : Dev.popBank d b = some y) : y.2.kept = d.kept := by
  unfold Dev.popBank at h
  try dsimp only at h
  repeat' first | (cases h; simp [*]; done) | (split at h) | cases h

theorem Dev.popFrom_kept {d : Dev} {b n : Nat} {y : Nat × Dev} (h : d.popFrom b n = some y) : y.2.kept = d.kept := by
  induction n generalizing b with
  | zero => cases h
  | succ n ih =>
    unfold Dev.popFrom at h
    split at h
    · cases h; exact Dev.popBank_kept ‹_›
    · exact ih h

@[simp] theorem Dev.release_kept (d : Dev) (c s : Nat) : (Dev.release d c s).kept = d.kept := by
  unfold Dev.release
  simp

@[simp] theorem Dev.growQueue_kept (d : Dev) (q n : Nat) : (d.growQueue q n).kept = d.kept := by
  induction n generalizing d with
  | zero => rfl
  | succ n ih =>
    unfold Dev.growQueue
    split
    · rfl
    · rename_i h; simp [ih, Dev.popFrom_kept h]

@[simp] theorem Dev.openQueue_kept (d : Dev) (q cls kind owner output sub : Nat) : (Dev.openQueue d q cls kind owner output sub).kept = d.kept := by
  unfold Dev.openQueue
  split <;> simp

theorem Dev.enqueue_kept {d : Dev} {who q : Nat} {r : Rec} {y : Dev} (h : Dev.enqueue d who q r = some y) : y.kept = d.kept := by
  unfold Dev.enqueue at h
  try dsimp only at h
  repeat' first | (cases h; simp [*]; done) | (split at h) | cases h

@[simp] theorem Dev.bankParity_kept (d : Dev) (slot : Nat) : (Dev.bankParity d slot).kept = d.kept := by
  unfold Dev.bankParity
  simp

@[simp] theorem Dev.upset_kept (d : Dev) (us : List Upset) : (Dev.upset d us).kept = d.kept := by
  unfold Dev.upset
  simp

@[simp] theorem Dev.countBad_kept (d : Dev) (segs : List Nat) (off : Nat) (cells : List Cell10) : (Dev.countBad d segs off cells).kept = d.kept := by
  unfold Dev.countBad
  try dsimp only
  repeat' first
    | with_reducible rfl | (simp [*]; done) | intro _ | with_reducible apply kept_ite | with_reducible apply kept_ite2 | split
    | with_reducible apply kept_foldlSnd | with_reducible apply kept_foldlFst | with_reducible apply kept_forEach
    | with_reducible apply kept_forN

theorem Dev.readHead_kept {d : Dev} {who q : Nat} {bad : List Nat} {y : Rec × List Cell10 × Dev} (h : Dev.readHead d who q bad = some y) : y.2.2.kept = d.kept := by
  unfold Dev.readHead at h
  repeat' first | (cases h; simp; done) | (split at h) | (cases h)

@[simp] theorem Dev.popHead_kept (d : Dev) (q n : Nat) : (Dev.popHead d q n).kept = d.kept := by
  unfold Dev.popHead
  try dsimp only
  repeat' first
    | with_reducible rfl | (simp only [kept_eta, kept_mk, *]; done) | (simp [*]; done) | intro _
    | with_reducible apply kept_ite | with_reducible apply kept_ite2 | split | with_reducible apply kept_foldlSnd
    | with_reducible apply kept_foldlFst | with_reducible apply kept_forEach | with_reducible apply kept_forN
    | with_reducible apply kept_foldl | with_reducible apply kept_getD | simp

theorem Dev.dequeue_kept {d : Dev} {who q : Nat} {bad : List Nat} {y : Rec × List Cell10 × Dev}
    (h : d.dequeue who q bad = some y) : y.2.2.kept = d.kept := by
  unfold Dev.dequeue at h
  obtain ⟨x, hx, rfl⟩ := Option.map_eq_some_iff.1 h
  simp [Dev.readHead_kept hx]

@[simp] theorem Dev.broke_kept (d : Dev) (q cause n : Nat) : (Dev.broke d q cause n).kept = d.kept := by
  unfold Dev.broke
  simp

@[simp] theorem Dev.sweepQueue_kept (d : Dev) (q : Nat) : (Dev.sweepQueue d q).kept = d.kept := by
  unfold Dev.sweepQueue
  try dsimp only
  repeat' first
    | with_reducible rfl | (simp [*]; done) | intro _ | with_reducible apply kept_ite | with_reducible apply kept_ite2 | split
    | with_reducible apply kept_foldlSnd | with_reducible apply kept_foldlFst | with_reducible apply kept_forEach
    | with_reducible apply kept_forN | with_reducible apply kept_foldl | with_reducible apply kept_getD | simp

@[simp] theorem Dev.flushQueue_kept (d : Dev) (q cause : Nat) : (Dev.flushQueue d q cause).kept = d.kept := by
  unfold Dev.flushQueue
  simp

@[simp] theorem Dev.resetQueue_kept (d : Dev) (q : Nat) : (Dev.resetQueue d q).kept = d.kept := by
  unfold Dev.resetQueue
  simp

@[simp] theorem Dev.rebuildList_kept (d : Dev) (b : Nat) : (Dev.rebuildList d b).kept = d.kept := by
  unfold Dev.rebuildList
  simp

@[simp] theorem Dev.holdSegs_kept (d : Dev) (c n : Nat) : (d.holdSegs c n).2.kept = d.kept := by
  induction n generalizing d with
  | zero => rfl
  | succ n ih =>
    unfold Dev.holdSegs
    split
    · rfl
    · rename_i h; simp [ih, Dev.popFrom_kept h]

@[simp] theorem Dev.dropHeld_kept (d : Dev) (c : Nat) (segs : List Nat) : (Dev.dropHeld d c segs).kept = d.kept := by
  unfold Dev.dropHeld
  try dsimp only
  repeat' first
    | with_reducible rfl | (simp [*]; done) | intro _ | with_reducible apply kept_ite | with_reducible apply kept_ite2 | split
    | with_reducible apply kept_foldlSnd | with_reducible apply kept_foldlFst | with_reducible apply kept_forEach
    | with_reducible apply kept_forN | with_reducible apply kept_foldl

theorem Dev.stage_kept {d : Dev} {writer reader c kind : Nat} {payload : List Byte} {bad : List Nat} {y : List Byte × Bool × Dev} (h : Dev.stage d writer reader c kind payload bad = some y) : y.2.2.kept = d.kept := by
  unfold Dev.stage at h
  try dsimp only at h
  repeat' first | (cases h; simp [*]; done) | (split at h) | cases h

@[simp] theorem Dev.setHalvesOf_kept (d : Dev) (s m : Nat) : (Dev.setHalvesOf d s m).kept = d.kept := by
  unfold Dev.setHalvesOf
  simp

@[simp] theorem Dev.sheetSegs_kept (d : Dev) (c n : Nat) : (d.sheetSegs c n).2.kept = d.kept := by
  induction n generalizing d with
  | zero => rfl
  | succ n ih =>
    unfold Dev.sheetSegs
    dsimp only
    split
    · rfl
    · rename_i h; simp [ih, Dev.popFrom_kept h]

theorem Dev.claimSheet_kept {d : Dev} {c n : Nat} {y : List (Nat × Nat) × Dev} (h : d.claimSheet c n = some y) :
    y.2.kept = d.kept := by
  unfold Dev.claimSheet at h
  dsimp only at h
  repeat' split at h
  all_goals first
    | (cases h; done)
    | (cases h; simp; done)
    | (cases h; dsimp only; rw [kept_forEach (fun _ a => by simp) rfl]; simp)

@[simp] theorem Dev.dropSheet_kept (d : Dev) (c : Nat) (place : List (Nat × Nat)) : (Dev.dropSheet d c place).kept = d.kept := by
  unfold Dev.dropSheet
  try dsimp only
  repeat' first
    | with_reducible rfl | (simp [*]; done) | intro _ | with_reducible apply kept_ite | with_reducible apply kept_ite2 | split
    | with_reducible apply kept_foldlSnd | with_reducible apply kept_foldlFst | with_reducible apply kept_forEach

@[simp] theorem Dev.writeSheet_kept (d : Dev) (who : Nat) (place : List (Nat × Nat)) (bytes : List Byte) : (Dev.writeSheet d who place bytes).kept = d.kept := by
  unfold Dev.writeSheet
  simp

@[simp] theorem Dev.readSheet_kept (d : Dev) (who : Nat) (mark : Bool) (place : List (Nat × Nat)) (n : Nat) : (Dev.readSheet d who mark place n).2.2.kept = d.kept := by
  unfold Dev.readSheet
  try dsimp only
  repeat' first
    | with_reducible rfl | (simp [*]; done) | intro _ | with_reducible apply kept_ite | with_reducible apply kept_ite2 | split
    | with_reducible apply kept_foldlSnd | with_reducible apply kept_foldlFst | with_reducible apply kept_forEach
    | with_reducible apply kept_forN

@[simp] theorem Dev.startDepth_kept (d : Dev) (depth : Nat) : (Dev.startDepth d depth).kept = d.kept := by
  unfold Dev.startDepth
  try dsimp only
  repeat' first | with_reducible rfl | (simp [*]; done) | intro _ | with_reducible apply kept_ite | split

@[simp] theorem Dev.seekTo_kept (d : Dev) (depth : Nat) : (Dev.seekTo d depth).kept = d.kept := by
  unfold Dev.seekTo
  try dsimp only
  repeat' first | with_reducible rfl | (simp [*]; done) | intro _ | with_reducible apply kept_ite | split

theorem Dev.moveSeg_kept {d : Dev} {q s : Nat} {y : Nat × Dev} (h : d.moveSeg q s = some y) : y.2.kept = d.kept := by
  unfold Dev.moveSeg at h
  dsimp only at h
  split at h
  · cases h
  · rename_i hp; cases h; simp [Dev.popFrom_kept hp]

@[simp] theorem Dev.relocate_kept (d : Dev) (banks q : Nat) : (d.relocate banks q).kept = d.kept := by
  unfold Dev.relocate
  dsimp only
  split
  · rfl
  · rw [Dev.onBooks_kept]
    refine kept_foldlSnd (fun a s => ?_) rfl
    split
    · rfl
    · split
      · rfl
      · rename_i h; exact Dev.moveSeg_kept h

@[simp] theorem Dev.movePlace_kept (d : Dev) (banks c : Nat) (place : List (Nat × Nat)) :
    (d.movePlace banks c place).2.kept = d.kept := by
  unfold Dev.movePlace
  refine kept_foldlSnd (fun a p => ?_) rfl
  split
  · rfl
  · split
    · rfl
    · rename_i h; simp [Dev.moveSeg_kept h]

@[simp] theorem Dev.relocateSheets_kept (d : Dev) (banks c : Nat) : (Dev.relocateSheets d banks c).kept = d.kept := by
  unfold Dev.relocateSheets
  try dsimp only
  repeat' first
    | with_reducible rfl | (simp only [kept_eta, kept_mk, *]; done) | (simp [*]; done) | intro _
    | with_reducible apply kept_ite | with_reducible apply kept_ite2 | split | with_reducible apply kept_foldlSnd
    | with_reducible apply kept_foldlFst | with_reducible apply kept_forEach

@[simp] theorem Dev.gateSlot_kept (d : Dev) (b : Nat) : (Dev.gateSlot d b).kept = d.kept := by
  unfold Dev.gateSlot
  simp

/-! ## Packets -/

@[simp] theorem Dev.takeSeq_kept (d : Dev) (sub : Nat) : (Dev.takeSeq d sub).2.kept = d.kept := by
  unfold Dev.takeSeq
  simp

@[simp] theorem Dev.functionWake_kept (d : Dev) (l : Nat) : (Dev.functionWake d l).kept = d.kept := by
  unfold Dev.functionWake
  try dsimp only
  repeat' first | with_reducible rfl | (simp [*]; done) | intro _ | with_reducible apply kept_ite

theorem Dev.openAnswers_kept {d : Dev} {r : Route} {y : Nat × Dev} (h : d.openAnswers r = some y) : y.2.kept = d.kept := by
  unfold Dev.openAnswers at h
  split at h
  · obtain ⟨l, _, rfl⟩ := Option.map_eq_some_iff.1 h
    simp
  all_goals cases h; simp

@[simp] theorem Dev.queueOnRoute_kept (d : Dev) (r : Route) (last : Bool) (p : List Byte) (poison : Bool) :
    (d.queueOnRoute r last p poison).kept = d.kept := by
  unfold Dev.queueOnRoute
  split
  · rfl
  · rename_i h
    have h1 := Dev.openAnswers_kept h
    split
    · rw [Dev.broke_kept]
      exact h1
    · rename_i h2
      have h3 := (Dev.enqueue_kept h2).trans h1
      split <;> simp [h3]

@[simp] theorem Dev.respondFrom_kept (d : Dev) (rq : Request) (status off : Nat) (x0 : List (List Byte)) : (Dev.respondFrom d rq status off x0).kept = d.kept := by
  induction x0 generalizing d rq status off with
  | nil => first | rfl
  | cons _ _ ih => 
    unfold Dev.respondFrom
    try dsimp only
    repeat' first | with_reducible rfl | (simp only [kept_eta, kept_mk, *]; done) | (simp [*]; done)

@[simp] theorem Dev.respondPieces_kept (d : Dev) (rq : Request) (status : Nat) (ps : List (List Byte)) : (Dev.respondPieces d rq status ps).kept = d.kept := by
  unfold Dev.respondPieces
  simp

@[simp] theorem Dev.refuse_kept (d : Dev) (rq : Request) (status : Nat) : (d.refuse rq status).kept = d.kept := by
  unfold Dev.refuse
  refine kept_ite (by simp) ?_
  split
  · rename_i h
    rw [Dev.broke_kept]
    exact Dev.openAnswers_kept h
  · rfl

@[simp] theorem Dev.setReq_kept (d : Dev) (k : ReqKey) (f : Request → Request) : (Dev.setReq d k f).kept = d.kept := by
  unfold Dev.setReq
  simp

@[simp] theorem Dev.dropReq_kept (d : Dev) (k : ReqKey) : (Dev.dropReq d k).kept = d.kept := by
  unfold Dev.dropReq
  simp

@[simp] theorem Dev.respondAs_kept (d : Dev) (r : Request) (status : Nat) (params : List Byte) : (Dev.respondAs d r status params).kept = d.kept := by
  unfold Dev.respondAs
  simp

@[simp] theorem Dev.release117_kept (d : Dev) : (Dev.release117 d).kept = d.kept := by
  unfold Dev.release117
  try dsimp only
  repeat' first
    | with_reducible rfl | (simp [*]; done) | intro _ | with_reducible apply kept_ite | with_reducible apply kept_ite2 | split
    | with_reducible apply kept_foldlSnd | with_reducible apply kept_foldlFst | with_reducible apply kept_forEach

@[simp] theorem Dev.answer_kept (d : Dev) (k : ReqKey) (status : Nat) (params : List Byte) : (Dev.answer d k status params).kept = d.kept := by
  unfold Dev.answer
  try dsimp only
  repeat' first | with_reducible rfl | (simp [*]; done) | intro _ | with_reducible apply kept_ite | split

@[simp] theorem Dev.fail_kept (d : Dev) (k : ReqKey) (status : Nat) : (Dev.fail d k status).kept = d.kept := by
  unfold Dev.fail
  simp

@[simp] theorem Dev.failAll_kept (d : Dev) (ks : List ReqKey) (status : Nat) : (Dev.failAll d ks status).kept = d.kept := by
  unfold Dev.failAll
  try dsimp only
  repeat' first
    | with_reducible rfl | (simp [*]; done) | intro _ | with_reducible apply kept_ite | with_reducible apply kept_ite2 | split
    | with_reducible apply kept_foldlSnd | with_reducible apply kept_foldlFst | with_reducible apply kept_forEach

@[simp] theorem Dev.dropOldest_kept (d : Dev) (s : Nat) : (d.dropOldest s).kept = d.kept := by
  unfold Dev.dropOldest
  split
  · rfl
  · split
    · rfl
    · rename_i h; simp [Dev.dequeue_kept h]

@[simp] theorem Dev.takeNotifTag_kept (d : Dev) (s : Nat) : (Dev.takeNotifTag d s).2.kept = d.kept := by
  unfold Dev.takeNotifTag
  simp

@[simp] theorem Dev.queueNotif_kept (d : Dev) (s cls kind status beat16 : Nat) (more : Bool) (params : List Byte) : (Dev.queueNotif d s cls kind status beat16 more params).kept = d.kept := by
  unfold Dev.queueNotif
  try dsimp only
  repeat' first
    | with_reducible rfl | (simp [*]; done) | intro _ | with_reducible apply kept_ite | with_reducible apply kept_ite2 | split
    | with_reducible apply kept_foldlSnd | with_reducible apply kept_foldlFst | with_reducible apply kept_forEach
    | with_reducible apply kept_forN | with_reducible apply kept_foldl | rw [Dev.enqueue_kept ‹_›]
    | with_reducible apply kept_getD | simp

@[simp] theorem Dev.queueNotifs_kept (d : Dev) (s cls kind status beat16 : Nat) (l : List (List Byte)) :
    (d.queueNotifs s cls kind status beat16 l).kept = d.kept := by
  induction l generalizing d with
  | nil => rfl
  | cons c rest ih => unfold Dev.queueNotifs; simp [ih]

@[simp] theorem Dev.notifySub_kept (d : Dev) (s kind status : Nat) (params : List Byte) : (Dev.notifySub d s kind status params).kept = d.kept := by
  unfold Dev.notifySub
  split <;> simp

@[simp] theorem Dev.notify_kept (d : Dev) (cls : Nat) (port : Option Nat) (kind : Nat) (params : List Byte) : (Dev.notify d cls port kind params).kept = d.kept := by
  unfold Dev.notify
  try dsimp only
  repeat' first
    | with_reducible rfl | (simp [*]; done) | intro _ | with_reducible apply kept_ite | with_reducible apply kept_ite2 | split
    | with_reducible apply kept_foldlSnd | with_reducible apply kept_foldlFst | with_reducible apply kept_forEach

@[simp] theorem Dev.sendDigest_kept (d : Dev) (s : Nat) (beat : BeatNo) (es : List DigestEntry) : (Dev.sendDigest d s beat es).kept = d.kept := by
  unfold Dev.sendDigest
  split <;> simp

@[simp] theorem Dev.leaves_kept (d : Dev) (p : List Byte) : (Dev.leaves d p).kept = d.kept := by
  unfold Dev.leaves
  try dsimp only
  repeat' first | with_reducible rfl | (simp [*]; done) | intro _ | with_reducible apply kept_ite | split

/-! ## Ports -/

@[simp] theorem Dev.updHubPort_kept (d : Dev) (k : Nat) (f : HubPort → HubPort) : (Dev.updHubPort d k f).kept = d.kept := by
  unfold Dev.updHubPort
  simp

@[simp] theorem Dev.hubBit_kept (d : Dev) (k i : Nat) (b : Bool) : (Dev.hubBit d k i b).kept = d.kept := by
  unfold Dev.hubBit
  split <;> simp

@[simp] theorem Dev.hubConnect_kept (d : Dev) (k n : Nat) : (Dev.hubConnect d k n).kept = d.kept := by
  unfold Dev.hubConnect
  try dsimp only
  repeat' first | with_reducible rfl | (simp [*]; done) | intro _ | with_reducible apply kept_ite

@[simp] theorem Dev.clearTtBuffers_kept (d : Dev) (k : Nat) : (Dev.clearTtBuffers d k).kept = d.kept := by
  unfold Dev.clearTtBuffers
  try dsimp only
  repeat' first
    | with_reducible rfl | (simp [*]; done) | intro _ | with_reducible apply kept_ite | with_reducible apply kept_ite2 | split
    | with_reducible apply kept_foldlSnd | with_reducible apply kept_foldlFst | with_reducible apply kept_forEach
    | with_reducible apply kept_forN | with_reducible apply kept_foldl | with_reducible apply kept_getD | simp

@[simp] theorem Dev.clearHubQueues_kept (d : Dev) (k : Nat) : (Dev.clearHubQueues d k).kept = d.kept := by
  unfold Dev.clearHubQueues
  split <;> simp

@[simp] theorem Dev.hubOver_kept (d : Dev) (n : Nat) (b : Bool) : (Dev.hubOver d n b).kept = d.kept := by
  unfold Dev.hubOver
  split <;> simp

@[simp] theorem Dev.psbStart_kept (d : Dev) : (Dev.psbStart d).kept = d.kept := by
  unfold Dev.psbStart
  try dsimp only
  repeat' first | with_reducible rfl | (simp [*]; done) | intro _ | with_reducible apply kept_ite | split

@[simp] theorem Dev.psbPush_kept (d : Dev) (n prio : Nat) (cmd : PsbCmd) (transition : Bool) : (Dev.psbPush d n prio cmd transition).kept = d.kept := by
  unfold Dev.psbPush
  simp

@[simp] theorem Dev.psbStandby_kept (d : Dev) (n : Nat) : (Dev.psbStandby d n).kept = d.kept := by
  unfold Dev.psbStandby
  split <;> simp

@[simp] theorem Dev.gateOn_kept (d : Dev) (n : Nat) : (Dev.gateOn d n).kept = d.kept := by
  unfold Dev.gateOn
  simp

@[simp] theorem Dev.gateOff_kept (d : Dev) (n : Nat) : (Dev.gateOff d n).kept = d.kept := by
  unfold Dev.gateOff
  split <;> simp

@[simp] theorem Dev.sinkPathOn_kept (d : Dev) (n : Nat) : (Dev.sinkPathOn d n).kept = d.kept := by
  unfold Dev.sinkPathOn
  split <;> simp

@[simp] theorem Dev.sinkPathOff_kept (d : Dev) (n : Nat) : (Dev.sinkPathOff d n).kept = d.kept := by
  unfold Dev.sinkPathOff
  split <;> simp

@[simp] theorem Dev.startWake_kept (d : Dev) (src : WakeSrc) : (Dev.startWake d src).kept = d.kept := by
  unfold Dev.startWake
  try dsimp only
  repeat' first | with_reducible rfl | (simp [*]; done) | intro _ | with_reducible apply kept_ite | split

@[simp] theorem Dev.pdEvt_kept (d : Dev) (n b : Nat) : (Dev.pdEvt d n b).kept = d.kept := by
  unfold Dev.pdEvt
  simp

@[simp] theorem Dev.pdChange_kept (d : Dev) (n : Nat) : (Dev.pdChange d n).kept = d.kept := by
  unfold Dev.pdChange
  simp

@[simp] theorem Dev.pdTell_kept (d : Dev) (n b : Nat) : (Dev.pdTell d n b).kept = d.kept := by
  unfold Dev.pdTell
  simp

@[simp] theorem Dev.pdStart_kept (d : Dev) (n : Nat) : (Dev.pdStart d n).kept = d.kept := by
  unfold Dev.pdStart
  try dsimp only
  repeat' first | with_reducible rfl | (simp [*]; done) | intro _ | with_reducible apply kept_ite | split

@[simp] theorem Dev.zeroWait_kept (d : Dev) (n : Nat) : (Dev.zeroWait d n).kept = d.kept := by
  unfold Dev.zeroWait
  simp

@[simp] theorem Dev.pdRelease_kept (d : Dev) (n : Nat) : (Dev.pdRelease d n).kept = d.kept := by
  unfold Dev.pdRelease
  try dsimp only
  repeat' first | with_reducible rfl | (simp [*]; done) | intro _ | with_reducible apply kept_ite

@[simp] theorem Dev.endActions_kept (d : Dev) (n : Nat) (acts : List Nat) (status : Nat) : (Dev.endActions d n acts status).kept = d.kept := by
  unfold Dev.endActions
  try dsimp only
  repeat' first
    | with_reducible rfl | (simp only [kept_eta, kept_mk, *]; done) | (simp [*]; done) | intro _
    | with_reducible apply kept_ite | with_reducible apply kept_ite2 | split | with_reducible apply kept_foldlSnd
    | with_reducible apply kept_foldlFst | with_reducible apply kept_forEach

@[simp] theorem Dev.enterErrorRecovery_kept (d : Dev) (n : Nat) : (Dev.enterErrorRecovery d n).kept = d.kept := by
  unfold Dev.enterErrorRecovery
  simp

@[simp] theorem Dev.becomeUnattached_kept (d : Dev) (n : Nat) : (Dev.becomeUnattached d n).kept = d.kept := by
  unfold Dev.becomeUnattached
  simp

/-! ## Faults -/

@[simp] theorem Dev.bitNow_kept (d : Dev) : (Dev.bitNow d).2.kept = d.kept := by
  unfold Dev.bitNow
  simp

@[simp] theorem Dev.offsetNow_kept (d : Dev) : (Dev.offsetNow d).2.kept = d.kept := by
  unfold Dev.offsetNow
  split <;> simp

@[simp] theorem Dev.sendFault_kept (d : Dev) (i : Nat) (f : Fold) (rehearsal folded : Bool) : (Dev.sendFault d i f rehearsal folded).kept = d.kept := by
  unfold Dev.sendFault
  simp

@[simp] theorem Dev.updateDone_kept (d : Dev) (u : PendingUpdate) (status : Nat) : (Dev.updateDone d u status).kept = d.kept := by
  unfold Dev.updateDone
  try dsimp only
  repeat' first | with_reducible rfl | (simp [*]; done) | intro _ | with_reducible apply kept_ite | split

@[simp] theorem Dev.leaveTrim_kept (d : Dev) : (Dev.leaveTrim d).kept = d.kept := by
  unfold Dev.leaveTrim
  split <;> simp

@[simp] theorem Dev.pdSafe_kept (d : Dev) (n : Nat) : (Dev.pdSafe d n).kept = d.kept := by
  unfold Dev.pdSafe
  simp

@[simp] theorem Dev.portSafe_kept (d : Dev) (n : Nat) : (Dev.portSafe d n).kept = d.kept := by
  unfold Dev.portSafe
  try dsimp only
  repeat' first | with_reducible rfl | (simp [*]; done) | intro _ | with_reducible apply kept_ite

@[simp] theorem Dev.dieSafe_kept (d : Dev) (x : Nat) : (Dev.dieSafe d x).kept = d.kept := by
  unfold Dev.dieSafe
  try dsimp only
  repeat' first
    | with_reducible rfl | (simp [*]; done) | intro _ | with_reducible apply kept_ite | with_reducible apply kept_ite2 | split
    | with_reducible apply kept_foldlSnd | with_reducible apply kept_foldlFst | with_reducible apply kept_forEach
    | with_reducible apply kept_forN

@[simp] theorem Dev.enterChipSafe_kept (d : Dev) (i : Nat) (isSelf : Bool) : (Dev.enterChipSafe d i isSelf).kept = d.kept := by
  unfold Dev.enterChipSafe
  try dsimp only
  repeat' first
    | with_reducible rfl | (simp only [kept_eta, kept_mk, *]; done) | (simp [*]; done) | intro _
    | with_reducible apply kept_ite | with_reducible apply kept_ite2 | split | with_reducible apply kept_foldlSnd
    | with_reducible apply kept_foldlFst | with_reducible apply kept_forEach | with_reducible apply kept_forN
    | with_reducible apply kept_foldl | with_reducible apply kept_getD | simp

@[simp] theorem Dev.portOff_kept (d : Dev) (n : Nat) : (Dev.portOff d n).kept = d.kept := by
  unfold Dev.portOff
  try dsimp only
  repeat' first | with_reducible rfl | (simp [*]; done) | intro _ | with_reducible apply kept_ite

@[simp] theorem Dev.reactPorts_kept (d : Dev) (i : Nat) : (Dev.reactPorts d i).kept = d.kept := by
  unfold Dev.reactPorts
  try dsimp only
  repeat' first
    | with_reducible rfl | (simp [*]; done) | intro _ | with_reducible apply kept_ite | with_reducible apply kept_ite2 | split
    | with_reducible apply kept_foldlSnd | with_reducible apply kept_foldlFst | with_reducible apply kept_forEach

@[simp] theorem Dev.latchWatermark_kept (d : Dev) (i lvl : Nat) (ctx : W32) (forced line : Bool) : (Dev.latchWatermark d i lvl ctx forced line).kept = d.kept := by
  unfold Dev.latchWatermark
  try dsimp only
  repeat' first | with_reducible rfl | (simp [*]; done) | intro _ | with_reducible apply kept_ite

@[simp] theorem Dev.assert_kept (d : Dev) (i : Nat) (ctx : W32) (forced : Bool) (line : Bool) : (Dev.assert d i ctx forced line).kept = d.kept := by
  unfold Dev.assert
  try dsimp only
  repeat' first | with_reducible rfl | (simp [*]; done) | intro _ | with_reducible apply kept_ite | split

@[simp] theorem Dev.foldedEvents_kept (d : Dev) : (Dev.foldedEvents d).kept = d.kept := by
  unfold Dev.foldedEvents
  try dsimp only
  repeat' first
    | with_reducible rfl | (simp [*]; done) | intro _ | with_reducible apply kept_ite | with_reducible apply kept_ite2 | split
    | with_reducible apply kept_foldlSnd | with_reducible apply kept_foldlFst | with_reducible apply kept_forEach

@[simp] theorem Dev.levelFell_kept (d : Dev) (i : Nat) : (Dev.levelFell d i).kept = d.kept := by
  unfold Dev.levelFell
  try dsimp only
  repeat' first
    | with_reducible rfl | (simp [*]; done) | intro _ | with_reducible apply kept_ite | with_reducible apply kept_ite2 | split
    | with_reducible apply kept_foldlSnd | with_reducible apply kept_foldlFst | with_reducible apply kept_forEach

@[simp] theorem Dev.clearSource_kept (d : Dev) (i : Nat) : (Dev.clearSource d i).2.kept = d.kept := by
  unfold Dev.clearSource
  try dsimp only
  repeat' first | with_reducible rfl | (simp [*]; done) | intro _ | with_reducible apply kept_ite | split

@[simp] theorem Dev.clearAll_kept (d : Dev) : (Dev.clearAll d).2.kept = d.kept := by
  unfold Dev.clearAll
  try dsimp only
  repeat' first
    | with_reducible rfl | (simp only [kept_eta, kept_mk, *]; done) | (simp [*]; done) | intro _
    | with_reducible apply kept_ite | with_reducible apply kept_ite2 | split | with_reducible apply kept_foldlSnd

@[simp] theorem Dev.force_kept (d : Dev) (i : Nat) : (Dev.force d i).kept = d.kept := by
  unfold Dev.force
  simp

@[simp] theorem Dev.rehearse_kept (d : Dev) (i : Nat) : (Dev.rehearse d i).kept = d.kept := by
  unfold Dev.rehearse
  simp

@[simp] theorem Dev.clearWatermark_kept (d : Dev) : (Dev.clearWatermark d).kept = d.kept := by
  unfold Dev.clearWatermark
  split <;> simp

end Sys2Proof.Machine
end

