-- ==== Sys2Proof/Laws/KeptEngines.lean ====
section
/-! SUPPORT. The frame of the operations, continued: the operations of Host, Relay, Deckle, Frames, Power, Periodic, Xfer, Present, Headbox. -/

namespace Sys2Proof.Machine

open Sys2Proof

/-! ## Host -/

@[simp] theorem Dev.openEpQueue_kept (d : Dev) (c : Nat) : (Dev.openEpQueue d c).kept = d.kept := by
  unfold Dev.openEpQueue
  simp

@[simp] theorem Dev.bind_kept (d : Dev) (dom : Nat) (b : Binding) : (Dev.bind d dom b).kept = d.kept := by
  unfold Dev.bind
  split <;> simp

@[simp] theorem Dev.unbind_kept (d : Dev) (dom : Nat) : (Dev.unbind d dom).kept = d.kept := by
  unfold Dev.unbind
  try dsimp only
  repeat' first | with_reducible rfl | (simp [*]; done) | intro _ | with_reducible apply kept_ite

@[simp] theorem Dev.addEntry_kept (d : Dev) (s : Nat) (e : DigestEntry) : (Dev.addEntry d s e).kept = d.kept := by
  unfold Dev.addEntry
  simp

@[simp] theorem Dev.endSubscription_kept (d : Dev) (c : Nat) (status : Option Nat) : (Dev.endSubscription d c status).kept = d.kept := by
  unfold Dev.endSubscription
  try dsimp only
  repeat' first | with_reducible rfl | (simp [*]; done) | intro _ | with_reducible apply kept_ite | split

@[simp] theorem Dev.reapSub_kept (d : Dev) (c : Nat) : (Dev.reapSub d c).kept = d.kept := by
  unfold Dev.reapSub
  try dsimp only
  repeat' first | with_reducible rfl | (simp [*]; done) | intro _ | with_reducible apply kept_ite | split

@[simp] theorem Dev.cutXacts_kept (d : Dev) (n : Nat) (p : Xact → Bool) : (Dev.cutXacts d n p).kept = d.kept := by
  unfold Dev.cutXacts
  try dsimp only
  repeat' first
    | with_reducible rfl | (simp [*]; done) | intro _ | with_reducible apply kept_ite | with_reducible apply kept_ite2 | split
    | with_reducible apply kept_foldlSnd | with_reducible apply kept_foldlFst | with_reducible apply kept_forEach
    | with_reducible apply kept_forN | with_reducible apply kept_foldl | with_reducible apply kept_getD | simp

@[simp] theorem Dev.fence_kept (d : Dev) (cs : List Nat) (b : Bool) : (Dev.fence d cs b).kept = d.kept := by
  unfold Dev.fence
  try dsimp only
  repeat' first
    | with_reducible rfl | (simp [*]; done) | intro _ | with_reducible apply kept_ite | with_reducible apply kept_ite2 | split
    | with_reducible apply kept_foldlSnd | with_reducible apply kept_foldlFst | with_reducible apply kept_forEach

@[simp] theorem Dev.takeRecords_kept (d : Dev) (q n : Nat) : (d.takeRecords q n).2.2.kept = d.kept := by
  induction n generalizing d with
  | zero => rfl
  | succ n ih =>
    unfold Dev.takeRecords
    split
    · rfl
    · rename_i h
      exact (ih _).trans (Dev.dequeue_kept h)

@[simp] theorem Dev.clearTt_kept (d : Dev) (c : Nat) (gone : List Nat) : (Dev.clearTt d c gone).kept = d.kept := by
  unfold Dev.clearTt
  try dsimp only
  repeat' first | with_reducible rfl | (simp [*]; done) | intro _ | with_reducible apply kept_ite | split

@[simp] theorem Dev.liftFence_kept (d : Dev) (t : Transfer) (status : Nat) : (Dev.liftFence d t status).kept = d.kept := by
  unfold Dev.liftFence
  try dsimp only
  repeat' first
    | with_reducible rfl | (simp [*]; done) | intro _ | with_reducible apply kept_ite | with_reducible apply kept_ite2 | split
    | with_reducible apply kept_foldlSnd | with_reducible apply kept_foldlFst | with_reducible apply kept_forEach

@[simp] theorem Dev.headFence_kept (d : Dev) (c : Nat) : (Dev.headFence d c).kept = d.kept := by
  unfold Dev.headFence
  try dsimp only
  repeat' first | with_reducible rfl | (simp [*]; done) | intro _ | with_reducible apply kept_ite | split

@[simp] theorem Dev.endTransferData_kept (d : Dev) (t : Transfer) (status : Nat) (gone : List Nat) : (Dev.endTransferData d t status gone).2.kept = d.kept := by
  unfold Dev.endTransferData
  try dsimp only
  repeat' first | with_reducible rfl | (simp [*]; done) | intro _ | with_reducible apply kept_ite | split

@[simp] theorem Dev.endTransfer_kept (d : Dev) (t : Transfer) (status : Nat) (gone : List Nat) : (Dev.endTransfer d t status gone).kept = d.kept := by
  unfold Dev.endTransfer
  simp

@[simp] theorem Dev.endTransfersOn_kept (d : Dev) (cs : List Nat) (status : Nat) (gone : List Nat) : (Dev.endTransfersOn d cs status gone).kept = d.kept := by
  unfold Dev.endTransfersOn
  try dsimp only
  repeat' first
    | with_reducible rfl | (simp [*]; done) | intro _ | with_reducible apply kept_ite | with_reducible apply kept_ite2 | split
    | with_reducible apply kept_foldlSnd | with_reducible apply kept_foldlFst | with_reducible apply kept_forEach

@[simp] theorem Dev.closeDone_kept (d : Dev) : (Dev.closeDone d).kept = d.kept := by
  unfold Dev.closeDone
  simp

@[simp] theorem Dev.clearContexts_kept (d : Dev) (cs : List Nat) (cause status : Nat) (gone : List Nat) : (Dev.clearContexts d cs cause status gone).kept = d.kept := by
  unfold Dev.clearContexts
  try dsimp only
  repeat' first
    | with_reducible rfl | (simp [*]; done) | intro _ | with_reducible apply kept_ite | with_reducible apply kept_ite2 | split
    | with_reducible apply kept_foldlSnd | with_reducible apply kept_foldlFst | with_reducible apply kept_forEach
    | with_reducible apply kept_forN | with_reducible apply kept_foldl | with_reducible apply kept_getD | simp

@[simp] theorem Dev.freeContexts_kept (d : Dev) (cs : List Nat) (status : Nat) : (Dev.freeContexts d cs status).kept = d.kept := by
  unfold Dev.freeContexts
  try dsimp only
  repeat' first
    | with_reducible rfl | (simp [*]; done) | intro _ | with_reducible apply kept_ite | with_reducible apply kept_ite2 | split
    | with_reducible apply kept_foldlSnd | with_reducible apply kept_foldlFst | with_reducible apply kept_forEach
    | with_reducible apply kept_forN | with_reducible apply kept_foldl | with_reducible apply kept_getD | simp

@[simp] theorem Dev.resetContexts_kept (d : Dev) (cs : List Nat) : (Dev.resetContexts d cs).kept = d.kept := by
  unfold Dev.resetContexts
  try dsimp only
  repeat' first
    | with_reducible rfl | (simp [*]; done) | intro _ | with_reducible apply kept_ite | with_reducible apply kept_ite2 | split
    | with_reducible apply kept_foldlSnd | with_reducible apply kept_foldlFst | with_reducible apply kept_forEach
    | with_reducible apply kept_forN | with_reducible apply kept_foldl | with_reducible apply kept_getD | simp

@[simp] theorem Dev.babbleContexts_kept (d : Dev) (cs : List Nat) : (Dev.babbleContexts d cs).kept = d.kept := by
  unfold Dev.babbleContexts
  try dsimp only
  repeat' first
    | with_reducible rfl | (simp [*]; done) | intro _ | with_reducible apply kept_ite | with_reducible apply kept_ite2 | split
    | with_reducible apply kept_foldlSnd | with_reducible apply kept_foldlFst | with_reducible apply kept_forEach
    | with_reducible apply kept_forN | with_reducible apply kept_foldl | with_reducible apply kept_getD | simp

@[simp] theorem Dev.portChange_kept (d : Dev) (n : Nat) : (Dev.portChange d n).kept = d.kept := by
  unfold Dev.portChange
  simp

@[simp] theorem Dev.portEvt_kept (d : Dev) (n b : Nat) : (Dev.portEvt d n b).kept = d.kept := by
  unfold Dev.portEvt
  simp

@[simp] theorem Dev.toState_kept (d : Dev) (n : Nat) (st : RootState) : (Dev.toState d n st).kept = d.kept := by
  unfold Dev.toState
  simp

@[simp] theorem Dev.endPortWaits_kept (d : Dev) (n status : Nat) : (Dev.endPortWaits d n status).kept = d.kept := by
  unfold Dev.endPortWaits
  simp

@[simp] theorem Dev.detachPort_kept (d : Dev) (n : Nat) (st : RootState) : (Dev.detachPort d n st).kept = d.kept := by
  unfold Dev.detachPort
  try dsimp only
  repeat' first | with_reducible rfl | (simp [*]; done) | intro _ | with_reducible apply kept_ite | split

@[simp] theorem Dev.enterResetting_kept (d : Dev) (n : Nat) : (Dev.enterResetting d n).kept = d.kept := by
  unfold Dev.enterResetting
  split <;> simp

@[simp] theorem Dev.enterError_kept (d : Dev) (n : Nat) : (Dev.enterError d n).kept = d.kept := by
  unfold Dev.enterError
  simp

/-! ## Relay -/

@[simp] theorem Dev.updSvc_kept (d : Dev) (l v : Nat) (f : Credit → Credit) : (Dev.updSvc d l v f).kept = d.kept := by
  unfold Dev.updSvc
  simp

@[simp] theorem Dev.poolReturn_kept (d : Dev) (i v n : Nat) : (Dev.poolReturn d i v n).kept = d.kept := by
  unfold Dev.poolReturn
  simp

@[simp] theorem Dev.poolPass_kept (d : Dev) (n : Nat) (f : List Byte) : (Dev.poolPass d n f).kept = d.kept := by
  unfold Dev.poolPass
  simp

@[simp] theorem Dev.poolStore_kept (d : Dev) (i o v : Nat) (r : Rec) : (Dev.poolStore d i o v r).kept = d.kept := by
  unfold Dev.poolStore
  try dsimp only
  repeat' first
    | with_reducible rfl | (simp [*]; done) | intro _ | with_reducible apply kept_ite | with_reducible apply kept_ite2 | split
    | with_reducible apply kept_foldlSnd | with_reducible apply kept_foldlFst | with_reducible apply kept_forEach
    | with_reducible apply kept_forN | with_reducible apply kept_foldl | rw [Dev.enqueue_kept ‹_›]

theorem Dev.poolTake_kept {d : Dev} {i o v : Nat} {y : Rec × Dev} (h : d.poolTake i o v = some y) :
    y.2.kept = d.kept := by
  unfold Dev.poolTake at h
  obtain ⟨x, hx, rfl⟩ := Option.map_eq_some_iff.1 h
  simp [Dev.dequeue_kept hx]

@[simp] theorem Dev.poolSwept_kept (d : Dev) (i o v : Nat) : (Dev.poolSwept d i o v).kept = d.kept := by
  unfold Dev.poolSwept
  simp

@[simp] theorem Dev.poolFlush_kept (d : Dev) (i o v : Nat) : (Dev.poolFlush d i o v).kept = d.kept := by
  unfold Dev.poolFlush
  simp

@[simp] theorem Dev.linkChange_kept (d : Dev) (n : Nat) : (Dev.linkChange d n).kept = d.kept := by
  unfold Dev.linkChange
  simp

@[simp] theorem Dev.linkTo_kept (d : Dev) (n : Nat) (s : LinkState) : (Dev.linkTo d n s).kept = d.kept := by
  unfold Dev.linkTo
  split <;> simp

@[simp] theorem Dev.linkSource_kept (d : Dev) (n k : Nat) (ctx : W32) : (Dev.linkSource d n k ctx).kept = d.kept := by
  unfold Dev.linkSource
  split <;> simp

@[simp] theorem Dev.endOver_kept (d : Dev) (n : Nat) : (Dev.endOver d n).kept = d.kept := by
  unfold Dev.endOver
  try dsimp only
  repeat' first
    | with_reducible rfl | (simp [*]; done) | intro _ | with_reducible apply kept_ite | with_reducible apply kept_ite2 | split
    | with_reducible apply kept_foldlSnd | with_reducible apply kept_foldlFst | with_reducible apply kept_forEach

@[simp] theorem Dev.linkEnd_kept (d : Dev) (n : Nat) : (Dev.linkEnd d n).kept = d.kept := by
  unfold Dev.linkEnd
  try dsimp only
  repeat' first
    | with_reducible rfl | (simp [*]; done) | intro _ | with_reducible apply kept_ite | with_reducible apply kept_ite2 | split
    | with_reducible apply kept_foldlSnd | with_reducible apply kept_foldlFst | with_reducible apply kept_forEach
    | with_reducible apply kept_forN | with_reducible apply kept_foldl | with_reducible apply kept_getD | simp

@[simp] theorem Dev.linkDown_kept (d : Dev) (n : Nat) : (Dev.linkDown d n).kept = d.kept := by
  unfold Dev.linkDown
  try dsimp only
  repeat' first | with_reducible rfl | (simp [*]; done) | intro _ | with_reducible apply kept_ite | split

@[simp] theorem Dev.sendFrame_kept (d : Dev) (n : Nat) (low : Bool) (f : List Byte) : (Dev.sendFrame d n low f).kept = d.kept := by
  unfold Dev.sendFrame
  simp

@[simp] theorem Dev.claimAllowance_kept (d : Dev) (n : Nat) : (Dev.claimAllowance d n).kept = d.kept := by
  unfold Dev.claimAllowance
  try dsimp only
  repeat' first
    | with_reducible rfl | (simp [*]; done) | intro _ | with_reducible apply kept_ite | with_reducible apply kept_ite2 | split
    | with_reducible apply kept_foldlSnd | with_reducible apply kept_foldlFst | with_reducible apply kept_forEach
    | with_reducible apply kept_forN | with_reducible apply kept_foldl | rw [Dev.takeClaim_kept ‹_›]
    | with_reducible apply kept_getD | simp

@[simp] theorem Dev.dropAllowance_kept (d : Dev) (n : Nat) : (Dev.dropAllowance d n).kept = d.kept := by
  unfold Dev.dropAllowance
  split <;> simp

@[simp] theorem Dev.linkStart_kept (d : Dev) (n : Nat) (ufp : Bool) : (Dev.linkStart d n ufp).kept = d.kept := by
  unfold Dev.linkStart
  split <;> simp

@[simp] theorem Dev.control_kept (d : Dev) (n : Nat) (payload : List Byte) : (Dev.control d n payload).kept = d.kept := by
  unfold Dev.control
  simp

@[simp] theorem Dev.sendHello_kept (d : Dev) (n : Nat) : (Dev.sendHello d n).kept = d.kept := by
  unfold Dev.sendHello
  simp

@[simp] theorem Dev.enterHello_kept (d : Dev) (n : Nat) : (Dev.enterHello d n).kept = d.kept := by
  unfold Dev.enterHello
  try dsimp only
  repeat' first
    | with_reducible rfl | (simp [*]; done) | intro _ | with_reducible apply kept_ite | with_reducible apply kept_ite2 | split
    | with_reducible apply kept_foldlSnd | with_reducible apply kept_foldlFst | with_reducible apply kept_forEach
    | with_reducible apply kept_forN | with_reducible apply kept_foldl | rw [Dev.takeClaim_kept ‹_›]
    | with_reducible apply kept_getD | simp

@[simp] theorem Dev.relayReset_kept (d : Dev) (n cause : Nat) : (Dev.relayReset d n cause).kept = d.kept := by
  unfold Dev.relayReset
  try dsimp only
  repeat' first | with_reducible rfl | (simp [*]; done) | intro _ | with_reducible apply kept_ite | split

@[simp] theorem Dev.newNonce_kept (d : Dev) : (Dev.newNonce d).2.kept = d.kept := by
  unfold Dev.newNonce
  simp

@[simp] theorem Dev.sendChal_kept (d : Dev) (n : Nat) : (Dev.sendChal d n).kept = d.kept := by
  unfold Dev.sendChal
  simp

@[simp] theorem Dev.sendResp_kept (d : Dev) (n : Nat) (mac : List Byte) : (Dev.sendResp d n mac).kept = d.kept := by
  unfold Dev.sendResp
  simp

@[simp] theorem Dev.enterAuth_kept (d : Dev) (n : Nat) : (Dev.enterAuth d n).kept = d.kept := by
  unfold Dev.enterAuth
  try dsimp only
  repeat' first | with_reducible rfl | (simp [*]; done) | intro _ | with_reducible apply kept_ite

@[simp] theorem Dev.authFail_kept (d : Dev) (n : Nat) : (Dev.authFail d n).kept = d.kept := by
  unfold Dev.authFail
  simp

@[simp] theorem Dev.authAgain_kept (d : Dev) (n : Nat) : (Dev.authAgain d n).kept = d.kept := by
  unfold Dev.authAgain
  simp

@[simp] theorem Dev.enterAdmitted_kept (d : Dev) (n : Nat) : (Dev.enterAdmitted d n).kept = d.kept := by
  unfold Dev.enterAdmitted
  try dsimp only
  repeat' first | with_reducible rfl | (simp [*]; done) | intro _ | with_reducible apply kept_ite | split

@[simp] theorem Dev.enterEnabled_kept (d : Dev) (n : Nat) : (Dev.enterEnabled d n).kept = d.kept := by
  unfold Dev.enterEnabled
  try dsimp only
  repeat' first | with_reducible rfl | (simp [*]; done) | intro _ | with_reducible apply kept_ite

@[simp] theorem Dev.claimPools_kept (d : Dev) (n : Nat) : (Dev.claimPools d n).kept = d.kept := by
  unfold Dev.claimPools
  try dsimp only
  repeat' first
    | with_reducible rfl | (simp [*]; done) | intro _ | with_reducible apply kept_ite | with_reducible apply kept_ite2 | split
    | with_reducible apply kept_foldlSnd | with_reducible apply kept_foldlFst | with_reducible apply kept_forEach
    | with_reducible apply kept_forN | with_reducible apply kept_foldl | rw [Dev.takeClaim_kept ‹_›]
    | with_reducible apply kept_getD | simp

@[simp] theorem Dev.trySendEnable_kept (d : Dev) (n : Nat) : (Dev.trySendEnable d n).kept = d.kept := by
  unfold Dev.trySendEnable
  try dsimp only
  repeat' first | with_reducible rfl | (simp [*]; done) | intro _ | with_reducible apply kept_ite

@[simp] theorem Dev.creditReturn_kept (d : Dev) (n : Nat) : (Dev.creditReturn d n).kept = d.kept := by
  unfold Dev.creditReturn
  try dsimp only
  repeat' first | with_reducible rfl | (simp [*]; done) | intro _ | with_reducible apply kept_ite

@[simp] theorem Dev.rxFrame_kept (d : Dev) (n : Nat) (low : Bool) (f : List Byte) : (Dev.rxFrame d n low f).2.kept = d.kept := by
  unfold Dev.rxFrame
  try dsimp only
  repeat' first
    | with_reducible rfl | (simp only [kept_eta, kept_mk, *]; done) | (simp [*]; done) | intro _
    | with_reducible apply kept_ite | with_reducible apply kept_ite2 | split | with_reducible apply kept_foldlSnd
    | with_reducible apply kept_foldlFst | with_reducible apply kept_forEach | with_reducible apply kept_forN

theorem Dev.rxControl_kept (d : Dev) (n : Nat) (f : List Byte) (kind : Nat) (act : Dev → Dev) (h_act : ∀ a0, (act a0).kept = a0.kept) : (Dev.rxControl d n f kind act).kept = d.kept := by
  unfold Dev.rxControl
  try dsimp only
  repeat' first | with_reducible rfl | (simp [*]; done) | intro _ | with_reducible apply kept_ite

@[simp] theorem Dev.creditCheck_kept (d : Dev) (n : Nat) (rels : List Nat) : (d.creditCheck n rels).kept = d.kept := by
  unfold Dev.creditCheck
  dsimp only
  have hr : ∀ (l : List Nat) (a : Dev × Bool), (l.foldl (fun (acc : Dev × Bool) v =>
      (if (((acc.1.link n).svc v).check (BitVec.ofNat 32 (rels.getD v 0))).2.2 then
        ((acc.1.updSvc n v fun _ => (((acc.1.link n).svc v).check (BitVec.ofNat 32 (rels.getD v 0))).1).count
          (selector 0x24 6 n)).flag (aCplEvent n) 6
        else acc.1.updSvc n v fun _ => (((acc.1.link n).svc v).check (BitVec.ofNat 32 (rels.getD v 0))).1,
        acc.2 || (((acc.1.link n).svc v).check (BitVec.ofNat 32 (rels.getD v 0))).2.1)) a).1.kept = a.1.kept := by
    intro l a
    refine kept_foldlFst (fun a x => ?_) rfl
    dsimp only
    split <;> simp
  split
  · rw [Dev.relayReset_kept, Dev.linkSource_kept, Dev.flag_kept]
    exact hr _ _
  · exact hr _ _

@[simp] theorem Dev.noRoute_kept (d : Dev) (n : Nat) : (Dev.noRoute d n).kept = d.kept := by
  unfold Dev.noRoute
  simp

@[simp] theorem Dev.transit_kept (d : Dev) (n : Nat) (f : List Byte) : (Dev.transit d n f).kept = d.kept := by
  unfold Dev.transit
  try dsimp only
  repeat' first | with_reducible rfl | (simp [*]; done) | intro _ | with_reducible apply kept_ite | split

/-! ## Deckle -/

@[simp] theorem Dev.updDk_kept (d : Dev) (f : Deckle → Deckle) : (Dev.updDk d f).kept = d.kept := by
  unfold Dev.updDk
  simp

@[simp] theorem Dev.renumber_kept (d : Dev) (n : BeatNo) : (Dev.renumber d n).kept = d.kept := by
  unfold Dev.renumber
  simp

@[simp] theorem Dev.deckleEvent_kept (d : Dev) (event : Nat) (old new : BeatNo) : (Dev.deckleEvent d event old new).kept = d.kept := by
  unfold Dev.deckleEvent
  simp

@[simp] theorem Dev.toDk_kept (d : Dev) (s : DkState) : (Dev.toDk d s).kept = d.kept := by
  unfold Dev.toDk
  split <;> simp

@[simp] theorem Dev.selectSource_kept (d : Dev) : (Dev.selectSource d).kept = d.kept := by
  unfold Dev.selectSource
  split <;> simp

@[simp] theorem Dev.enterCoast_kept (d : Dev) : (Dev.enterCoast d).kept = d.kept := by
  unfold Dev.enterCoast
  simp

@[simp] theorem Dev.onEdge_kept (d : Dev) (t : Nat) : (Dev.onEdge d t).kept = d.kept := by
  unfold Dev.onEdge
  simp

@[simp] theorem Dev.enterLocked_kept (d : Dev) (number : Option BeatNo) (off : Int) : (Dev.enterLocked d number off).kept = d.kept := by
  unfold Dev.enterLocked
  try dsimp only
  repeat' first | with_reducible rfl | (simp [*]; done) | intro _ | with_reducible apply kept_ite | split

@[simp] theorem Dev.takeAdopted_kept (d : Dev) : (Dev.takeAdopted d).kept = d.kept := by
  unfold Dev.takeAdopted
  try dsimp only
  repeat' first | with_reducible rfl | (simp [*]; done) | intro _ | with_reducible apply kept_ite | split

@[simp] theorem Dev.qualifyEdge_kept (d : Dev) (t : Nat) : (Dev.qualifyEdge d t).kept = d.kept := by
  unfold Dev.qualifyEdge
  try dsimp only
  repeat' first | with_reducible rfl | (simp [*]; done) | intro _ | with_reducible apply kept_ite | split

@[simp] theorem Dev.walkEdge_kept (d : Dev) (t : Nat) (number : Option BeatNo) : (Dev.walkEdge d t number).kept = d.kept := by
  unfold Dev.walkEdge
  try dsimp only
  repeat' first | with_reducible rfl | (simp [*]; done) | intro _ | with_reducible apply kept_ite | split

@[simp] theorem Dev.edge_kept (d : Dev) (t : Nat) (number : Option BeatNo) : (Dev.edge d t number).kept = d.kept := by
  unfold Dev.edge
  try dsimp only
  repeat' first | with_reducible rfl | (simp [*]; done) | intro _ | with_reducible apply kept_ite | split

@[simp] theorem Dev.missEdge_kept (d : Dev) : (Dev.missEdge d).kept = d.kept := by
  unfold Dev.missEdge
  try dsimp only
  repeat' first | with_reducible rfl | (simp [*]; done) | intro _ | with_reducible apply kept_ite | split

@[simp] theorem Dev.advanceMf_kept (d : Dev) : (Dev.advanceMf d).kept = d.kept := by
  unfold Dev.advanceMf
  try dsimp only
  repeat' first | with_reducible rfl | (simp [*]; done) | intro _ | with_reducible apply kept_ite

theorem Dev.advanceSlot_kept {d : Dev} {y : Dev} (h : Dev.advanceSlot d = some y) : y.kept = d.kept := by
  unfold Dev.advanceSlot at h
  try dsimp only at h
  repeat' first | (cases h; simp [*]; done) | (split at h) | cases h

@[simp] theorem Dev.startDeckle_kept (d : Dev) (beat : BeatNo) : (Dev.startDeckle d beat).kept = d.kept := by
  unfold Dev.startDeckle
  simp

@[simp] theorem Dev.dkTime_kept (d : Dev) : (Dev.dkTime d).2.kept = d.kept := by
  unfold Dev.dkTime
  simp

/-! ## Frames -/

@[simp] theorem Dev.udpFrame_kept (d : Dev) (r : Route) (p : List Byte) : (Dev.udpFrame d r p).2.kept = d.kept := by
  unfold Dev.udpFrame
  split <;> simp

theorem Dev.linkFrame_kept {d : Dev} {e q : Nat} {f : List Byte} {y : Dev} (h : d.linkFrame e q f = some y) : y.kept = d.kept := by
  have key : ∀ a : Dev, (if a.canClaim netClass (a.segsFor q (recCells f.length)) then
      a.enqueue (rqMac e) q ⟨4, false, true, 0, f⟩ else none) = some y → y.kept = a.kept := by
    intro a h
    split at h
    · exact Dev.enqueue_kept h
    · cases h
  exact (key _ h).trans (by simp)

@[simp] theorem Dev.frameLost_kept (d : Dev) (e q : Nat) : (Dev.frameLost d e q).kept = d.kept := by
  unfold Dev.frameLost
  simp

@[simp] theorem Dev.queueNet_kept (d : Dev) (e : Nat) (f : List Byte) : (d.queueNet e f).kept = d.kept := by
  unfold Dev.queueNet
  exact kept_getD (fun x hx => Dev.linkFrame_kept hx) (by simp)

@[simp] theorem Dev.passFrame_kept (d : Dev) (e : Nat) (f : List Byte) : (d.passFrame e f).2.kept = d.kept := by
  unfold Dev.passFrame
  split
  · rename_i h
    obtain ⟨a, ha, hd⟩ := Option.bind_eq_some_iff.1 h
    exact (Dev.dequeue_kept hd).trans (Dev.linkFrame_kept ha)
  · simp

/-! ## Power -/

@[simp] theorem Dev.updPower_kept (d : Dev) (f : Power → Power) : (Dev.updPower d f).kept = d.kept := by
  unfold Dev.updPower
  simp

@[simp] theorem Dev.suspendPort_kept (d : Dev) (n : Nat) : (Dev.suspendPort d n).kept = d.kept := by
  unfold Dev.suspendPort
  simp

@[simp] theorem Dev.resumePort_kept (d : Dev) (n : Nat) (wake : Bool) : (Dev.resumePort d n wake).kept = d.kept := by
  unfold Dev.resumePort
  split <;> simp

@[simp] theorem Dev.remoteWakeSent_kept (d : Dev) (n hub hubPort : Nat) (merged : Bool) : (Dev.remoteWakeSent d n hub hubPort merged).kept = d.kept := by
  unfold Dev.remoteWakeSent
  simp

@[simp] theorem Dev.hubRequest_kept (d : Dev) (c : Nat) (why : Purpose) (st : Setup) : (Dev.hubRequest d c why st).kept = d.kept := by
  unfold Dev.hubRequest
  simp

@[simp] theorem Dev.countBeats_kept (d : Dev) : (Dev.countBeats d).kept = d.kept := by
  unfold Dev.countBeats
  simp

@[simp] theorem Dev.powerState_kept (d : Dev) : (Dev.powerState d).kept = d.kept := by
  unfold Dev.powerState
  simp

@[simp] theorem Dev.sendOwed_kept (d : Dev) : (Dev.sendOwed d).kept = d.kept := by
  unfold Dev.sendOwed
  try dsimp only
  repeat' first
    | with_reducible rfl | (simp [*]; done) | intro _ | with_reducible apply kept_ite | with_reducible apply kept_ite2 | split
    | with_reducible apply kept_foldlSnd | with_reducible apply kept_foldlFst | with_reducible apply kept_forEach
    | with_reducible apply kept_forN | with_reducible apply kept_foldl | with_reducible apply kept_getD | simp

@[simp] theorem Dev.clocksRestart_kept (d : Dev) : (Dev.clocksRestart d).kept = d.kept := by
  unfold Dev.clocksRestart
  split <;> simp

@[simp] theorem Dev.noteGrant_kept (d : Dev) (o cls : Nat) : (Dev.noteGrant d o cls).kept = d.kept := by
  unfold Dev.noteGrant
  split <;> simp

@[simp] theorem Dev.trimUsage_kept (d : Dev) : (Dev.trimUsage d).kept = d.kept := by
  unfold Dev.trimUsage
  split <;> simp

/-! ## Periodic -/

@[simp] theorem Dev.updSub_kept (d : Dev) (c : Nat) (f : Subscription → Subscription) : (Dev.updSub d c f).kept = d.kept := by
  unfold Dev.updSub
  simp

@[simp] theorem Dev.dataEntry_kept (d : Dev) (c : Nat) (s : Subscription) (beat : BeatNo) (mf slot : Nat) (r : List Byte) (poison : Bool) : (Dev.dataEntry d c s beat mf slot r poison).kept = d.kept := by
  unfold Dev.dataEntry
  try dsimp only
  repeat' first | with_reducible rfl | (simp [*]; done) | intro _ | with_reducible apply kept_ite | split

@[simp] theorem Dev.pollResult_kept (d : Dev) (c : Nat) (beat : BeatNo) (mf slot : Nat) (r : List Byte) (poison : Bool) : (Dev.pollResult d c beat mf slot r poison).kept = d.kept := by
  unfold Dev.pollResult
  try dsimp only
  repeat' first | with_reducible rfl | (simp [*]; done) | intro _ | with_reducible apply kept_ite | split

@[simp] theorem Dev.heartbeatEntry_kept (d : Dev) (c : Nat) (s : Subscription) : (Dev.heartbeatEntry d c s).kept = d.kept := by
  unfold Dev.heartbeatEntry
  simp

@[simp] theorem Dev.subBeatEnd_kept (d : Dev) (c : Nat) : (Dev.subBeatEnd d c).kept = d.kept := by
  unfold Dev.subBeatEnd
  try dsimp only
  repeat' first | with_reducible rfl | (simp [*]; done) | intro _ | with_reducible apply kept_ite | split

/-! ## Xfer -/

@[simp] theorem Dev.enumRequest_kept (d : Dev) (n step : Nat) : (Dev.enumRequest d n step).kept = d.kept := by
  unfold Dev.enumRequest
  simp

@[simp] theorem Dev.enumStart_kept (d : Dev) (n : Nat) : (Dev.enumStart d n).kept = d.kept := by
  unfold Dev.enumStart
  simp

@[simp] theorem Dev.enumEnd_kept (d : Dev) (n step status : Nat) (inData : List Byte) : (Dev.enumEnd d n step status inData).kept = d.kept := by
  unfold Dev.enumEnd
  try dsimp only
  repeat' first
    | with_reducible rfl | (simp only [kept_eta, kept_mk, *]; done) | (simp [*]; done) | intro _
    | with_reducible apply kept_ite | with_reducible apply kept_ite2 | split | with_reducible apply kept_foldlSnd
    | with_reducible apply kept_foldlFst | with_reducible apply kept_forEach | with_reducible apply kept_forN
    | with_reducible apply kept_foldl | with_reducible apply kept_getD | simp

@[simp] theorem Dev.subtreeWake_kept (d : Dev) (n hub hp : Nat) : (Dev.subtreeWake d n hub hp).kept = d.kept := by
  unfold Dev.subtreeWake
  split <;> simp

@[simp] theorem Dev.ownEnd_kept (d : Dev) (t : Transfer) (status : Nat) (inData : List Byte) : (Dev.ownEnd d t status inData).kept = d.kept := by
  unfold Dev.ownEnd
  try dsimp only
  repeat' first | with_reducible rfl | (simp [*]; done) | intro _ | with_reducible apply kept_ite | split

@[simp] theorem Dev.controlDone_kept (d : Dev) (t : Transfer) : (Dev.controlDone d t).kept = d.kept := by
  unfold Dev.controlDone
  try dsimp only
  repeat' first | with_reducible rfl | (simp [*]; done) | intro _ | with_reducible apply kept_ite | split

@[simp] theorem Dev.complete_kept (d : Dev) (t : Transfer) (status : Nat) : (Dev.complete d t status).kept = d.kept := by
  unfold Dev.complete
  split <;> simp

@[simp] theorem Dev.setTransfer_kept (d : Dev) (t u : Transfer) : (Dev.setTransfer d t u).kept = d.kept := by
  unfold Dev.setTransfer
  simp

@[simp] theorem Dev.stage_getD_kept (d : Dev) (w r c k : Nat) (p e1 : List Byte) (e2 : Bool) (bad : List Nat) :
    ((d.stage w r c k p bad).getD (e1, e2, d)).2.2.kept = d.kept := by
  cases h : d.stage w r c k p bad with
  | none => rfl
  | some x => exact Dev.stage_kept h

theorem Dev.attemptData_kept {d : Dev} {t : Transfer} {bad : List Nat} {y : List Byte × Bool × Dev}
    (h : d.attemptData t bad = some y) : y.2.2.kept = d.kept := by
  unfold Dev.attemptData at h
  dsimp only at h
  split at h
  · cases h; rfl
  · split at h
    · exact Dev.stage_kept h
    · split at h
      · split at h
        · rename_i hr; cases h; exact Dev.readHead_kept hr
        · cases h
      · cases h; rfl

@[simp] theorem Dev.attempt_kept (d : Dev) (t : Transfer) (bad : List Nat) : (d.attempt t bad).kept = d.kept := by
  have key : ∀ (p : Prop) [Decidable p] (a b : Dev) (o : List Byte) (q : Bool),
      (if p then some (([] : List Byte), false, a) else a.attemptData t bad) = some (o, q, b) → b.kept = a.kept := by
    intro p _ a b o q h
    split at h
    · cases h; rfl
    · exact Dev.attemptData_kept h
  unfold Dev.attempt
  extract_lets
  split
  · rfl
  · rename_i h0
    split
    · rfl
    · rename_i h1
      have hk := (key _ _ _ _ _ h1).trans (Dev.takeClaim_kept h0)
      extract_lets
      refine kept_ite ?_ ?_
      · rw [Dev.broke_kept]
        refine kept_ite ?_ ?_ <;> simp +zetaDelta [hk]
      · refine kept_ite ?_ ?_ <;> simp +zetaDelta [hk]

@[simp] theorem Dev.xactError_kept (d : Dev) (c : Nat) : (Dev.xactError d c).kept = d.kept := by
  unfold Dev.xactError
  simp

@[simp] theorem Dev.staleData_kept (d : Dev) (c : Nat) : (Dev.staleData d c).kept = d.kept := by
  unfold Dev.staleData
  simp

@[simp] theorem Dev.outTaken_kept (d : Dev) (t : Transfer) (y : Xact) (nyet : Bool) : (Dev.outTaken d t y nyet).kept = d.kept := by
  unfold Dev.outTaken
  try dsimp only
  repeat' first | with_reducible rfl | (simp [*]; done) | intro _ | with_reducible apply kept_ite | split

@[simp] theorem Dev.attemptError_kept (d : Dev) (t : Transfer) : (Dev.attemptError d t).kept = d.kept := by
  unfold Dev.attemptError
  try dsimp only
  repeat' first | with_reducible rfl | (simp [*]; done) | intro _ | with_reducible apply kept_ite

@[simp] theorem Dev.inTaken_kept (d : Dev) (t : Transfer) (pid : DataPid) (sq : BitVec 5) (bytes : List Byte) : (Dev.inTaken d t pid sq bytes).kept = d.kept := by
  unfold Dev.inTaken
  try dsimp only
  repeat' first
    | with_reducible rfl | (simp [*]; done) | intro _ | with_reducible apply kept_ite | with_reducible apply kept_ite2 | split
    | with_reducible apply kept_foldlSnd | with_reducible apply kept_foldlFst | with_reducible apply kept_forEach
    | with_reducible apply kept_forN | with_reducible apply kept_foldl | rw [Dev.enqueue_kept ‹_›] | rw [Dev.stage_kept ‹_›]
    | with_reducible apply kept_getD | simp

@[simp] theorem Dev.attemptAnswer_kept (d : Dev) (t : Transfer) (y : Xact) (r : XactResult) : (Dev.attemptAnswer d t y r).kept = d.kept := by
  unfold Dev.attemptAnswer
  try dsimp only
  repeat' first | with_reducible rfl | (simp [*]; done) | intro _ | with_reducible apply kept_ite | split

@[simp] theorem Dev.skipPoll_kept (d : Dev) (c : Nat) : (Dev.skipPoll d c).kept = d.kept := by
  unfold Dev.skipPoll
  simp

@[simp] theorem Dev.startPoll_kept (d : Dev) (c : Nat) (s : Subscription) : (Dev.startPoll d c s).kept = d.kept := by
  unfold Dev.startPoll
  try dsimp only
  repeat' first
    | with_reducible rfl | (simp only [kept_eta, kept_mk, *]; done) | (simp [*]; done) | intro _
    | with_reducible apply kept_ite | with_reducible apply kept_ite2 | split | with_reducible apply kept_foldlSnd
    | with_reducible apply kept_foldlFst | with_reducible apply kept_forEach | with_reducible apply kept_forN
    | with_reducible apply kept_foldl | rw [Dev.takeClaim_kept ‹_›] | with_reducible apply kept_getD | simp

@[simp] theorem Dev.pollStrobe_kept (d : Dev) (c : Nat) : (Dev.pollStrobe d c).kept = d.kept := by
  unfold Dev.pollStrobe
  try dsimp only
  repeat' first | with_reducible rfl | (simp [*]; done) | intro _ | with_reducible apply kept_ite | split

@[simp] theorem Dev.strobePolls_kept (d : Dev) : (Dev.strobePolls d).kept = d.kept := by
  unfold Dev.strobePolls
  try dsimp only
  repeat' first
    | with_reducible rfl | (simp [*]; done) | intro _ | with_reducible apply kept_ite | with_reducible apply kept_ite2 | split
    | with_reducible apply kept_foldlSnd | with_reducible apply kept_foldlFst | with_reducible apply kept_forEach

@[simp] theorem Dev.pollUnclaim_kept (d : Dev) (y : Xact) : (Dev.pollUnclaim d y).kept = d.kept := by
  unfold Dev.pollUnclaim
  simp

@[simp] theorem Dev.pollNak_kept (d : Dev) (c : Nat) : (Dev.pollNak d c).kept = d.kept := by
  unfold Dev.pollNak
  simp

@[simp] theorem Dev.pollError_kept (d : Dev) (c : Nat) : (Dev.pollError d c).kept = d.kept := by
  unfold Dev.pollError
  try dsimp only
  repeat' first | with_reducible rfl | (simp [*]; done) | intro _ | with_reducible apply kept_ite

@[simp] theorem Dev.hubChange_kept (d : Dev) (c : Nat) (r : List Byte) : (Dev.hubChange d c r).kept = d.kept := by
  unfold Dev.hubChange
  try dsimp only
  repeat' first
    | with_reducible rfl | (simp [*]; done) | intro _ | with_reducible apply kept_ite | with_reducible apply kept_ite2 | split
    | with_reducible apply kept_foldlSnd | with_reducible apply kept_foldlFst | with_reducible apply kept_forEach

@[simp] theorem Dev.pollMore_kept (d : Dev) (n : Nat) (y : Xact) : (Dev.pollMore d n y).kept = d.kept := by
  unfold Dev.pollMore
  simp

@[simp] theorem Dev.outDone_kept (d : Dev) (c : Nat) (s : Subscription) (y : Xact) : (Dev.outDone d c s y).kept = d.kept := by
  unfold Dev.outDone
  split <;> simp

@[simp] theorem Dev.pollData_kept (d : Dev) (n : Nat) (y : Xact) (pid : DataPid) (sq : BitVec 5) (bytes : List Byte) : (Dev.pollData d n y pid sq bytes).kept = d.kept := by
  unfold Dev.pollData
  try dsimp only
  repeat' first | with_reducible rfl | (simp [*]; done) | intro _ | with_reducible apply kept_ite

@[simp] theorem Dev.pollAnswer_kept (d : Dev) (n : Nat) (y : Xact) (r : XactResult) : (Dev.pollAnswer d n y r).kept = d.kept := by
  unfold Dev.pollAnswer
  try dsimp only
  repeat' first | with_reducible rfl | (simp [*]; done) | intro _ | with_reducible apply kept_ite | split

@[simp] theorem Dev.babblePort_kept (d : Dev) (n : Nat) : (Dev.babblePort d n).kept = d.kept := by
  unfold Dev.babblePort
  simp

/-! ## Present -/

@[simp] theorem Dev.presentTo_kept (d : Dev) (n : Nat) : (Dev.presentTo d n).kept = d.kept := by
  unfold Dev.presentTo
  try dsimp only
  repeat' first | with_reducible rfl | (simp [*]; done) | intro _ | with_reducible apply kept_ite

@[simp] theorem Dev.hubGone_kept (d : Dev) (k : Nat) : (Dev.hubGone d k).kept = d.kept := by
  unfold Dev.hubGone
  simp

@[simp] theorem Dev.withdraw_kept (d : Dev) (n : Nat) : (Dev.withdraw d n).kept = d.kept := by
  unfold Dev.withdraw
  try dsimp only
  repeat' first | with_reducible rfl | (simp [*]; done) | intro _ | with_reducible apply kept_ite | split

@[simp] theorem Dev.withdrawn_kept (d : Dev) (n : Nat) : (Dev.withdrawn d n).kept = d.kept := by
  unfold Dev.withdrawn
  simp

@[simp] theorem Dev.presentJudged_kept (d : Dev) (n : Nat) : (Dev.presentJudged d n).kept = d.kept := by
  unfold Dev.presentJudged
  try dsimp only
  repeat' first | with_reducible rfl | (simp [*]; done) | intro _ | with_reducible apply kept_ite

@[simp] theorem Dev.withdrawLost_kept (d : Dev) : (Dev.withdrawLost d).kept = d.kept := by
  unfold Dev.withdrawLost
  try dsimp only
  repeat' first
    | with_reducible rfl | (simp [*]; done) | intro _ | with_reducible apply kept_ite | with_reducible apply kept_ite2 | split
    | with_reducible apply kept_foldlSnd | with_reducible apply kept_foldlFst | with_reducible apply kept_forEach
    | with_reducible apply kept_forN

/-! ## Headbox -/

@[simp] theorem Dev.capacity_kept (d : Dev) (o : Nat) : (Dev.capacity d o).2.kept = d.kept := by
  unfold Dev.capacity
  try dsimp only
  repeat' first | with_reducible rfl | (simp [*]; done) | intro _ | with_reducible apply kept_ite | split

theorem Dev.drr_kept {d : Dev} {o : Nat} {heads : Nat → Option Cand} {x0 : Nat} {y : Cand × Dev} (h : Dev.drr d o heads x0 = some y) : y.2.kept = d.kept := by
  induction x0 generalizing d o heads y with
  | zero => unfold Dev.drr at h; first | (cases h; simp; done) | (cases h; rfl) | cases h
  | succ _ ih =>
    unfold Dev.drr at h
    try dsimp only at h
    repeat' first | (cases h; simp [*]; done) | (rw [ih h]; simp; done) | (split at h)

theorem Dev.chooseUnit_kept {d : Dev} {o : Nat} {among : Dev → List Cand} {y : Cand × Dev}
    (h : d.chooseUnit o among = some y) : y.2.kept = d.kept := by
  unfold Dev.chooseUnit at h
  dsimp only at h
  repeat' split at h
  all_goals first
    | (cases h; done)
    | (cases h; simp; done)
    | (rw [Dev.drr_kept h]; simp)

theorem Dev.nextUnit_kept {d : Dev} {o : Nat} {y : Cand × Dev} (h : d.nextUnit o = some y) : y.2.kept = d.kept :=
  Dev.chooseUnit_kept h

@[simp] theorem Dev.grant_kept (d : Dev) (o : Nat) (x : Cand) : (Dev.grant d o x).kept = d.kept := by
  unfold Dev.grant
  simp

theorem Dev.takePacket_kept {d : Dev} {who q : Nat} {bad : List Nat} {complete : Bool} {y : List Byte × Option (List Byte × Bool) × Dev} (h : Dev.takePacket d who q bad complete = some y) : y.2.2.kept = d.kept := by
  unfold Dev.takePacket at h
  try dsimp only at h
  repeat' first
    | (cases h; simp [*]; done) | (split at h)
    | (cases h; first | exact Dev.dequeue_kept ‹_› | (rw [Dev.dequeue_kept ‹_›]; simp; done))
    | cases h

@[simp] theorem Dev.sendUdp_kept (d : Dev) (e : Nat) (route : Route) (p : List Byte) (bad : Bool) : (Dev.sendUdp d e route p bad).kept = d.kept := by
  unfold Dev.sendUdp
  simp

@[simp] theorem Dev.sendPacket_kept (d : Dev) (o : Nat) (x : Cand) (bad : List Nat) : (d.sendPacket o x bad).kept = d.kept := by
  unfold Dev.sendPacket
  dsimp only
  refine kept_ite rfl ?_
  split
  · rfl
  · rename_i p out d1 h
    have e : d1.kept = d.kept := Dev.takePacket_kept h
    have g : ((if o < 35 ∧ x.work = .response then (d1.grant o x).updEth (o - 33) fun e =>
        { e with rspTo := e.rspTo.tail } else d1.grant o x) : Dev).kept = d.kept := by
      refine kept_ite ?_ ?_ <;> simp [e]
    split
    · simpa using g
    · refine kept_ite ?_ ?_ <;> simp [g]

@[simp] theorem Dev.sendRecord_kept (d : Dev) (who q o : Nat) (x : Cand) (bad : List Nat) :
    (d.sendRecord who q o x bad).kept = d.kept := by
  unfold Dev.sendRecord
  split
  · rfl
  · rename_i r cells d1 h
    have e : d1.kept = d.kept := Dev.dequeue_kept h
    dsimp only
    refine kept_ite ?_ ?_ <;> simp [e]

theorem Dev.takeFeeder_kept {d : Dev} {n v q : Nat} {w : Waiting} {y : Rec × Dev}
    (h : d.takeFeeder n v q w = some y) : y.2.kept = d.kept := by
  unfold Dev.takeFeeder at h
  split at h
  · exact Dev.poolTake_kept h
  · obtain ⟨x, hx, rfl⟩ := Option.map_eq_some_iff.1 h
    exact Dev.dequeue_kept hx

@[simp] theorem Dev.sendControl_kept (d : Dev) (n : Nat) : (d.sendControl n).kept = d.kept := by
  unfold Dev.sendControl
  split <;> simp

@[simp] theorem Dev.sendRelay_kept (d : Dev) (n : Nat) (x : Cand) (v q : Nat) (w : Waiting) :
    (d.sendRelay n x v q w).kept = d.kept := by
  unfold Dev.sendRelay
  split
  · rfl
  · rename_i r d1 h
    have e : d1.kept = d.kept := Dev.takeFeeder_kept h
    simp [apply_ite Dev.kept, e]

@[simp] theorem Dev.headboxGrant_kept (d : Dev) (o : Nat) (bad : List Nat) : (d.headboxGrant o bad).kept = d.kept := by
  unfold Dev.headboxGrant
  split
  · rfl
  · rename_i x d1 h
    have e : d1.kept = d.kept := Dev.nextUnit_kept h
    split
    · dsimp only; refine kept_ite rfl ?_; simp [e]
    all_goals simp [e]

@[simp] theorem Dev.refill_kept (d : Dev) : (Dev.refill d).kept = d.kept := by
  unfold Dev.refill
  try dsimp only
  repeat' first
    | with_reducible rfl | (simp [*]; done) | intro _ | with_reducible apply kept_ite | with_reducible apply kept_ite2 | split
    | with_reducible apply kept_foldlSnd | with_reducible apply kept_foldlFst | with_reducible apply kept_forEach

@[simp] theorem Dev.sampleLatency_kept (d : Dev) : (Dev.sampleLatency d).kept = d.kept := by
  unfold Dev.sampleLatency
  try dsimp only
  repeat' first
    | with_reducible rfl | (simp only [kept_eta, kept_mk, *]; done) | (simp [*]; done) | intro _
    | with_reducible apply kept_ite | with_reducible apply kept_ite2 | split | with_reducible apply kept_foldlSnd
    | with_reducible apply kept_foldlFst | with_reducible apply kept_forEach

@[simp] theorem Dev.latchLatency_kept (d : Dev) : (Dev.latchLatency d).kept = d.kept := by
  unfold Dev.latchLatency
  try dsimp only
  repeat' first
    | with_reducible rfl | (simp [*]; done) | intro _ | with_reducible apply kept_ite | with_reducible apply kept_ite2 | split
    | with_reducible apply kept_foldlSnd | with_reducible apply kept_foldlFst | with_reducible apply kept_forEach

@[simp] theorem Dev.tallyFault_kept (d : Dev) (a b : Nat) : (Dev.tallyFault d a b).kept = d.kept := by
  unfold Dev.tallyFault
  simp

@[simp] theorem Dev.tallyCheck_kept (d : Dev) : (Dev.tallyCheck d).kept = d.kept := by
  unfold Dev.tallyCheck
  try dsimp only
  repeat' first | with_reducible rfl | (simp [*]; done) | intro _ | with_reducible apply kept_ite

@[simp] theorem Dev.beatTally_kept (d : Dev) : (Dev.beatTally d).kept = d.kept := by
  unfold Dev.beatTally
  try dsimp only
  repeat' first | with_reducible rfl | (simp [*]; done) | intro _ | with_reducible apply kept_ite

@[simp] theorem Dev.buildDigests_kept (d : Dev) : (Dev.buildDigests d).kept = d.kept := by
  unfold Dev.buildDigests
  try dsimp only
  repeat' first
    | with_reducible rfl | (simp [*]; done) | intro _ | with_reducible apply kept_ite | with_reducible apply kept_ite2 | split
    | with_reducible apply kept_foldlSnd | with_reducible apply kept_foldlFst | with_reducible apply kept_forEach

@[simp] theorem Dev.phyOn_kept (d : Dev) : (Dev.phyOn d).kept = d.kept := by
  unfold Dev.phyOn
  try dsimp only
  repeat' first
    | with_reducible rfl | (simp [*]; done) | intro _ | with_reducible apply kept_ite | with_reducible apply kept_ite2 | split
    | with_reducible apply kept_foldlSnd | with_reducible apply kept_foldlFst | with_reducible apply kept_forEach
    | with_reducible apply kept_forN

@[simp] theorem Dev.beatEnd_kept (d : Dev) : (Dev.beatEnd d).kept = d.kept := by
  unfold Dev.beatEnd
  try dsimp only
  repeat' first
    | with_reducible rfl | (simp [*]; done) | intro _ | with_reducible apply kept_ite | with_reducible apply kept_ite2 | split
    | with_reducible apply kept_foldlSnd | with_reducible apply kept_foldlFst | with_reducible apply kept_forEach
    | with_reducible apply kept_forN | with_reducible apply kept_foldl | with_reducible apply kept_getD | simp

end Sys2Proof.Machine
end

