-- ==== Sys2Proof/Laws/KeptPower.lean ====
section
/-! SUPPORT. The frame of the operations, continued: the operations of Pd, Fuses, Readout, Registers. -/

namespace Sys2Proof.Machine

open Sys2Proof

/-! ## Pd -/

@[simp] theorem Dev.pdSay_kept (d : Dev) (n : Nat) (m : PdMsg) : (Dev.pdSay d n m).kept = d.kept := by
  unfold Dev.pdSay
  simp

@[simp] theorem Dev.pdFault_kept (d : Dev) (n k : Nat) : (Dev.pdFault d n k).kept = d.kept := by
  unfold Dev.pdFault
  try dsimp only
  repeat' first | with_reducible rfl | (simp [*]; done) | intro _ | with_reducible apply kept_ite

@[simp] theorem Dev.pdHeard_kept (d : Dev) (n : Nat) : (Dev.pdHeard d n).kept = d.kept := by
  unfold Dev.pdHeard
  simp

@[simp] theorem Dev.sendSourceCaps_kept (d : Dev) (n : Nat) : (Dev.sendSourceCaps d n).kept = d.kept := by
  unfold Dev.sendSourceCaps
  simp

@[simp] theorem Dev.sendAlert_kept (d : Dev) (n : Nat) : (Dev.sendAlert d n).kept = d.kept := by
  unfold Dev.sendAlert
  simp

@[simp] theorem Dev.sendRequest_kept (d : Dev) (n : Nat) : (Dev.sendRequest d n).kept = d.kept := by
  unfold Dev.sendRequest
  try dsimp only
  repeat' first | with_reducible rfl | (simp [*]; done) | intro _ | with_reducible apply kept_ite

@[simp] theorem Dev.sendGetSinkCap_kept (d : Dev) (n : Nat) : (Dev.sendGetSinkCap d n).kept = d.kept := by
  unfold Dev.sendGetSinkCap
  simp

@[simp] theorem Dev.askRequest_kept (d : Dev) (n : Nat) : (Dev.askRequest d n).kept = d.kept := by
  unfold Dev.askRequest
  simp [apply_ite Dev.kept]

@[simp] theorem Dev.amsEnd_kept (d : Dev) (n : Nat) : (Dev.amsEnd d n).kept = d.kept := by
  unfold Dev.amsEnd
  simp [apply_ite Dev.kept]

@[simp] theorem Dev.resendCaps_kept (d : Dev) (n : Nat) : (Dev.resendCaps d n).kept = d.kept := by
  unfold Dev.resendCaps
  try dsimp only
  repeat' first | with_reducible rfl | (simp [*]; done) | intro _ | with_reducible apply kept_ite

@[simp] theorem Dev.swapFail_kept (d : Dev) (n : Nat) (pr : Bool) (status : Nat) : (Dev.swapFail d n pr status).kept = d.kept := by
  unfold Dev.swapFail
  try dsimp only
  repeat' first | with_reducible rfl | (simp [*]; done) | intro _ | with_reducible apply kept_ite

@[simp] theorem Dev.dropSwaps_kept (d : Dev) (n status : Nat) : (Dev.dropSwaps d n status).kept = d.kept := by
  unfold Dev.dropSwaps
  try dsimp only
  repeat' first | with_reducible rfl | (simp [*]; done) | intro _ | with_reducible apply kept_ite | split

@[simp] theorem Dev.pdErrorRecovery_kept (d : Dev) (n : Nat) : (Dev.pdErrorRecovery d n).kept = d.kept := by
  unfold Dev.pdErrorRecovery
  simp

@[simp] theorem Dev.hardResetAct_kept (d : Dev) (n : Nat) (received : Bool) : (Dev.hardResetAct d n received).kept = d.kept := by
  unfold Dev.hardResetAct
  try dsimp only
  repeat' first | with_reducible rfl | (simp [*]; done) | intro _ | with_reducible apply kept_ite | split

@[simp] theorem Dev.softResetAct_kept (d : Dev) (n : Nat) : (Dev.softResetAct d n).kept = d.kept := by
  unfold Dev.softResetAct
  simp

@[simp] theorem Dev.psrdyLate_kept (d : Dev) (n : Nat) : (Dev.psrdyLate d n).kept = d.kept := by
  unfold Dev.psrdyLate
  simp

@[simp] theorem Dev.makeContract_kept (d : Dev) (n : Nat) (c : Contract) : (Dev.makeContract d n c).kept = d.kept := by
  unfold Dev.makeContract
  try dsimp only
  repeat' first | with_reducible rfl | (simp [*]; done) | intro _ | with_reducible apply kept_ite | split

@[simp] theorem Dev.askSwap_kept (d : Dev) (n : Nat) (pr : Bool) : (Dev.askSwap d n pr).kept = d.kept := by
  unfold Dev.askSwap
  try dsimp only
  repeat' first | with_reducible rfl | (simp [*]; done) | intro _ | with_reducible apply kept_ite

@[simp] theorem Dev.tryDfp_kept (d : Dev) (n : Nat) : (Dev.tryDfp d n).kept = d.kept := by
  unfold Dev.tryDfp
  try dsimp only
  repeat' first | with_reducible rfl | (simp [*]; done) | intro _ | with_reducible apply kept_ite

@[simp] theorem Dev.amsDone_kept (d : Dev) (n : Nat) : (Dev.amsDone d n).kept = d.kept := by
  unfold Dev.amsDone
  simp

@[simp] theorem Dev.pdAct_kept (d : Dev) (n a : Nat) : (Dev.pdAct d n a).kept = d.kept := by
  unfold Dev.pdAct
  try dsimp only
  repeat' first | with_reducible rfl | (simp [*]; done) | intro _ | with_reducible apply kept_ite | split

@[simp] theorem Dev.couplerTurn_kept (d : Dev) (n : Nat) : (Dev.couplerTurn d n).kept = d.kept := by
  unfold Dev.couplerTurn
  simp [apply_ite Dev.kept]

@[simp] theorem Dev.drDone_kept (d : Dev) (n : Nat) : (Dev.drDone d n).kept = d.kept := by
  unfold Dev.drDone
  simp

@[simp] theorem Dev.prDone_kept (d : Dev) (n : Nat) (source : Bool) : (Dev.prDone d n source).kept = d.kept := by
  unfold Dev.prDone
  simp

@[simp] theorem Dev.attachSrc_kept (d : Dev) (n pin : Nat) : (Dev.attachSrc d n pin).kept = d.kept := by
  unfold Dev.attachSrc
  try dsimp only
  repeat' first | with_reducible rfl | (simp [*]; done) | intro _ | with_reducible apply kept_ite | split

@[simp] theorem Dev.attachSnk_kept (d : Dev) (n pin : Nat) : (Dev.attachSnk d n pin).kept = d.kept := by
  unfold Dev.attachSnk
  split <;> simp

@[simp] theorem Dev.toTc_kept (d : Dev) (n : Nat) (s : TcState) : (Dev.toTc d n s).kept = d.kept := by
  unfold Dev.toTc
  simp

@[simp] theorem Dev.ccChange_kept (d : Dev) (n : Nat) (cc1 cc2 : CcLevel) : (Dev.ccChange d n cc1 cc2).kept = d.kept := by
  unfold Dev.ccChange
  try dsimp only
  repeat' first | with_reducible rfl | (simp [*]; done) | intro _ | with_reducible apply kept_ite | split

@[simp] theorem Dev.ccDebounceEnd_kept (d : Dev) (n : Nat) : (Dev.ccDebounceEnd d n).kept = d.kept := by
  unfold Dev.ccDebounceEnd
  try dsimp only
  repeat' first | with_reducible rfl | (simp [*]; done) | intro _ | with_reducible apply kept_ite | split

@[simp] theorem Dev.drpToggle_kept (d : Dev) (n : Nat) : (Dev.drpToggle d n).kept = d.kept := by
  unfold Dev.drpToggle
  try dsimp only
  repeat' first | with_reducible rfl | (simp [*]; done) | intro _ | with_reducible apply kept_ite | split

@[simp] theorem Dev.tryTimer_kept (d : Dev) (n : Nat) : (Dev.tryTimer d n).kept = d.kept := by
  unfold Dev.tryTimer
  try dsimp only
  repeat' first | with_reducible rfl | (simp [*]; done) | intro _ | with_reducible apply kept_ite | split

@[simp] theorem Dev.heldDetach_kept (d : Dev) (n : Nat) : (Dev.heldDetach d n).kept = d.kept := by
  unfold Dev.heldDetach
  simp

@[simp] theorem Dev.pdDetach_kept (d : Dev) (n : Nat) : (Dev.pdDetach d n).kept = d.kept := by
  unfold Dev.pdDetach
  try dsimp only
  repeat' first | with_reducible rfl | (simp [*]; done) | intro _ | with_reducible apply kept_ite

@[simp] theorem Dev.vbusLost_kept (d : Dev) (n : Nat) : (Dev.vbusLost d n).kept = d.kept := by
  unfold Dev.vbusLost
  try dsimp only
  repeat' first | with_reducible rfl | (simp [*]; done) | intro _ | with_reducible apply kept_ite

@[simp] theorem Dev.discoveryEnd_kept (d : Dev) (n : Nat) : (Dev.discoveryEnd d n).kept = d.kept := by
  unfold Dev.discoveryEnd
  try dsimp only
  repeat' first | with_reducible rfl | (simp [*]; done) | intro _ | with_reducible apply kept_ite

@[simp] theorem Dev.discoverSop1_kept (d : Dev) (n : Nat) : (Dev.discoverSop1 d n).kept = d.kept := by
  unfold Dev.discoverSop1
  simp

@[simp] theorem Dev.vconnStable_kept (d : Dev) (n : Nat) : (Dev.vconnStable d n).kept = d.kept := by
  unfold Dev.vconnStable
  try dsimp only
  repeat' first | with_reducible rfl | (simp [*]; done) | intro _ | with_reducible apply kept_ite

@[simp] theorem Dev.vconnLimit_kept (d : Dev) (n : Nat) : (Dev.vconnLimit d n).kept = d.kept := by
  unfold Dev.vconnLimit
  try dsimp only
  repeat' first | with_reducible rfl | (simp [*]; done) | intro _ | with_reducible apply kept_ite

@[simp] theorem Dev.cableIdentity_kept (d : Dev) (n : Nat) (ack five : Bool) : (Dev.cableIdentity d n ack five).kept = d.kept := by
  unfold Dev.cableIdentity
  split <;> simp

@[simp] theorem Dev.discoverRetry_kept (d : Dev) (n : Nat) : (Dev.discoverRetry d n).kept = d.kept := by
  unfold Dev.discoverRetry
  try dsimp only
  repeat' first | with_reducible rfl | (simp [*]; done) | intro _ | with_reducible apply kept_ite

@[simp] theorem Dev.sourceCapsIn_kept (d : Dev) (n : Nat) (rev2 : Bool) (pdos : List W32) : (Dev.sourceCapsIn d n rev2 pdos).kept = d.kept := by
  unfold Dev.sourceCapsIn
  try dsimp only
  repeat' first
    | with_reducible rfl | (simp [*]; done) | intro _ | with_reducible apply kept_ite | with_reducible apply kept_ite2 | split
    | with_reducible apply kept_foldlSnd | with_reducible apply kept_foldlFst | with_reducible apply kept_forEach
    | with_reducible apply kept_forN | with_reducible apply kept_foldl | with_reducible apply kept_getD | simp

@[simp] theorem Dev.sourceCapRepeat_kept (d : Dev) (n : Nat) : (Dev.sourceCapRepeat d n).kept = d.kept := by
  unfold Dev.sourceCapRepeat
  try dsimp only
  repeat' first | with_reducible rfl | (simp [*]; done) | intro _ | with_reducible apply kept_ite

@[simp] theorem Dev.requestIn_kept (d : Dev) (n : Nat) (rev2 : Bool) (rdo : W32) : (Dev.requestIn d n rev2 rdo).kept = d.kept := by
  unfold Dev.requestIn
  try dsimp only
  repeat' first | with_reducible rfl | (simp [*]; done) | intro _ | with_reducible apply kept_ite | split

@[simp] theorem Dev.srcReady_kept (d : Dev) (n : Nat) (c : Contract) : (Dev.srcReady d n c).kept = d.kept := by
  unfold Dev.srcReady
  simp

@[simp] theorem Dev.srcTransitionEnd_kept (d : Dev) (n : Nat) : (Dev.srcTransitionEnd d n).kept = d.kept := by
  unfold Dev.srcTransitionEnd
  try dsimp only
  repeat' first | with_reducible rfl | (simp [*]; done) | intro _ | with_reducible apply kept_ite | split

@[simp] theorem Dev.windowHeld_kept (d : Dev) (n : Nat) : (Dev.windowHeld d n).kept = d.kept := by
  unfold Dev.windowHeld
  split <;> simp

@[simp] theorem Dev.psrdyDeadline_kept (d : Dev) (n : Nat) : (Dev.psrdyDeadline d n).kept = d.kept := by
  unfold Dev.psrdyDeadline
  split <;> simp

@[simp] theorem Dev.acceptIn_kept (d : Dev) (n : Nat) : (Dev.acceptIn d n).kept = d.kept := by
  unfold Dev.acceptIn
  try dsimp only
  repeat' first | with_reducible rfl | (simp [*]; done) | intro _ | with_reducible apply kept_ite | split

@[simp] theorem Dev.swapRefused_kept (d : Dev) (n : Nat) (pr : Bool) : (Dev.swapRefused d n pr).kept = d.kept := by
  unfold Dev.swapRefused
  simp

@[simp] theorem Dev.rejectIn_kept (d : Dev) (n : Nat) : (Dev.rejectIn d n).kept = d.kept := by
  unfold Dev.rejectIn
  try dsimp only
  repeat' first | with_reducible rfl | (simp [*]; done) | intro _ | with_reducible apply kept_ite | split

@[simp] theorem Dev.swapWait_kept (d : Dev) (n : Nat) (pr : Bool) : (Dev.swapWait d n pr).kept = d.kept := by
  unfold Dev.swapWait
  try dsimp only
  repeat' first | with_reducible rfl | (simp [*]; done) | intro _ | with_reducible apply kept_ite

@[simp] theorem Dev.waitIn_kept (d : Dev) (n : Nat) : (Dev.waitIn d n).kept = d.kept := by
  unfold Dev.waitIn
  try dsimp only
  repeat' first | with_reducible rfl | (simp [*]; done) | intro _ | with_reducible apply kept_ite | split

@[simp] theorem Dev.swapAgain_kept (d : Dev) (n : Nat) : (Dev.swapAgain d n).kept = d.kept := by
  unfold Dev.swapAgain
  try dsimp only
  repeat' first | with_reducible rfl | (simp [*]; done) | intro _ | with_reducible apply kept_ite | split

@[simp] theorem Dev.sinkRequestAgain_kept (d : Dev) (n : Nat) : (Dev.sinkRequestAgain d n).kept = d.kept := by
  unfold Dev.sinkRequestAgain
  try dsimp only
  repeat' first | with_reducible rfl | (simp [*]; done) | intro _ | with_reducible apply kept_ite

@[simp] theorem Dev.psRdyIn_kept (d : Dev) (n : Nat) : (Dev.psRdyIn d n).kept = d.kept := by
  unfold Dev.psRdyIn
  try dsimp only
  repeat' first | with_reducible rfl | (simp [*]; done) | intro _ | with_reducible apply kept_ite | split

@[simp] theorem Dev.psTransitionTimeout_kept (d : Dev) (n : Nat) : (Dev.psTransitionTimeout d n).kept = d.kept := by
  unfold Dev.psTransitionTimeout
  split <;> simp

@[simp] theorem Dev.psSourceTimeout_kept (d : Dev) (n : Nat) : (Dev.psSourceTimeout d n).kept = d.kept := by
  unfold Dev.psSourceTimeout
  split <;> simp

@[simp] theorem Dev.prSwapIn_kept (d0 : Dev) (n : Nat) : (Dev.prSwapIn d0 n).kept = d0.kept := by
  unfold Dev.prSwapIn
  try dsimp only
  repeat' first | with_reducible rfl | (simp [*]; done) | intro _ | with_reducible apply kept_ite | split

@[simp] theorem Dev.drSwapIn_kept (d0 : Dev) (n : Nat) : (Dev.drSwapIn d0 n).kept = d0.kept := by
  unfold Dev.drSwapIn
  try dsimp only
  repeat' first | with_reducible rfl | (simp [*]; done) | intro _ | with_reducible apply kept_ite | split

@[simp] theorem Dev.heldStart_kept (d : Dev) (n : Nat) : (Dev.heldStart d n).kept = d.kept := by
  unfold Dev.heldStart
  try dsimp only
  repeat' first | with_reducible rfl | (simp [*]; done) | intro _ | with_reducible apply kept_ite | split

@[simp] theorem Dev.pdReply_kept (d : Dev) (n : Nat) (m : PdMsg) : (Dev.pdReply d n m).kept = d.kept := by
  unfold Dev.pdReply
  split <;> simp

@[simp] theorem Dev.notSupported_kept (d : Dev) (n : Nat) : (Dev.notSupported d n).kept = d.kept := by
  unfold Dev.notSupported
  split <;> simp

@[simp] theorem Dev.softResetIn_kept (d : Dev) (n : Nat) : (Dev.softResetIn d n).kept = d.kept := by
  unfold Dev.softResetIn
  split <;> simp

@[simp] theorem Dev.senderTimeout_kept (d0 : Dev) (n : Nat) : (Dev.senderTimeout d0 n).kept = d0.kept := by
  unfold Dev.senderTimeout
  try dsimp only
  repeat' first | with_reducible rfl | (simp [*]; done) | intro _ | with_reducible apply kept_ite | split

@[simp] theorem Dev.psHardResetEnd_kept (d : Dev) (n : Nat) : (Dev.psHardResetEnd d n).kept = d.kept := by
  unfold Dev.psHardResetEnd
  split <;> simp

@[simp] theorem Dev.srcRecoverEnd_kept (d : Dev) (n : Nat) : (Dev.srcRecoverEnd d n).kept = d.kept := by
  unfold Dev.srcRecoverEnd
  split <;> simp

@[simp] theorem Dev.errorRecoveryEnd_kept (d : Dev) (n : Nat) : (Dev.errorRecoveryEnd d n).kept = d.kept := by
  unfold Dev.errorRecoveryEnd
  split <;> simp

@[simp] theorem Dev.getSourceCapIn_kept (d : Dev) (n : Nat) : (Dev.getSourceCapIn d n).kept = d.kept := by
  unfold Dev.getSourceCapIn
  try dsimp only
  repeat' first | with_reducible rfl | (simp [*]; done) | intro _ | with_reducible apply kept_ite

@[simp] theorem Dev.getSinkCapIn_kept (d : Dev) (n : Nat) : (Dev.getSinkCapIn d n).kept = d.kept := by
  unfold Dev.getSinkCapIn
  split <;> simp

@[simp] theorem Dev.sinkCapsIn_kept (d : Dev) (n : Nat) (pdos : List W32) : (Dev.sinkCapsIn d n pdos).kept = d.kept := by
  unfold Dev.sinkCapsIn
  try dsimp only
  repeat' first
    | with_reducible rfl | (simp [*]; done) | intro _ | with_reducible apply kept_ite | with_reducible apply kept_ite2 | split
    | with_reducible apply kept_foldlSnd | with_reducible apply kept_foldlFst | with_reducible apply kept_forEach
    | with_reducible apply kept_forN | with_reducible apply kept_foldl | with_reducible apply kept_getD | simp

@[simp] theorem Dev.sourceAnswers_kept (d : Dev) (n : Nat) (m : PdMsg) : (Dev.sourceAnswers d n m).kept = d.kept := by
  unfold Dev.sourceAnswers
  split <;> simp

@[simp] theorem Dev.bistIn_kept (d : Dev) (n : Nat) (carrier : Bool) : (Dev.bistIn d n carrier).kept = d.kept := by
  unfold Dev.bistIn
  try dsimp only
  repeat' first | with_reducible rfl | (simp [*]; done) | intro _ | with_reducible apply kept_ite

@[simp] theorem Dev.psbNext_kept (d : Dev) : (Dev.psbNext d).kept = d.kept := by
  unfold Dev.psbNext
  simp

@[simp] theorem Dev.psbMissingAt_kept (d : Dev) (n : Nat) : (Dev.psbMissingAt d n).kept = d.kept := by
  unfold Dev.psbMissingAt
  try dsimp only
  repeat' first | with_reducible rfl | (simp [*]; done) | intro _ | with_reducible apply kept_ite

@[simp] theorem Dev.psbOk_kept (d : Dev) (t : PsbTx) (value : BitVec 16) (answering : BitVec 7) : (Dev.psbOk d t value answering).kept = d.kept := by
  unfold Dev.psbOk
  try dsimp only
  repeat' first | with_reducible rfl | (simp [*]; done) | intro _ | with_reducible apply kept_ite | split

@[simp] theorem Dev.psbFail_kept (d : Dev) (t : PsbTx) : (Dev.psbFail d t).kept = d.kept := by
  unfold Dev.psbFail
  try dsimp only
  repeat' first | with_reducible rfl | (simp [*]; done) | intro _ | with_reducible apply kept_ite | split

@[simp] theorem Dev.psbDone_kept (d : Dev) (ok : Bool) (value : BitVec 16) (answering : BitVec 7) : (Dev.psbDone d ok value answering).kept = d.kept := by
  unfold Dev.psbDone
  try dsimp only
  repeat' first | with_reducible rfl | (simp [*]; done) | intro _ | with_reducible apply kept_ite | split

@[simp] theorem Dev.queueAlerts_kept (d : Dev) : (Dev.queueAlerts d).kept = d.kept := by
  unfold Dev.queueAlerts
  try dsimp only
  repeat' first
    | with_reducible rfl | (simp [*]; done) | intro _ | with_reducible apply kept_ite | with_reducible apply kept_ite2 | split
    | with_reducible apply kept_foldlSnd | with_reducible apply kept_foldlFst | with_reducible apply kept_forEach
    | with_reducible apply kept_forN

@[simp] theorem Dev.inputWarn_kept (d : Dev) (low : Bool) : (Dev.inputWarn d low).kept = d.kept := by
  unfold Dev.inputWarn
  simp

@[simp] theorem Dev.alertHoldEnd_kept (d : Dev) (n : Nat) : (Dev.alertHoldEnd d n).kept = d.kept := by
  unfold Dev.alertHoldEnd
  try dsimp only
  repeat' first | with_reducible rfl | (simp [*]; done) | intro _ | with_reducible apply kept_ite

@[simp] theorem Dev.pdPowerGood_kept (d : Dev) (n : Nat) : (Dev.pdPowerGood d n).kept = d.kept := by
  unfold Dev.pdPowerGood
  try dsimp only
  repeat' first | with_reducible rfl | (simp [*]; done) | intro _ | with_reducible apply kept_ite | split

@[simp] theorem Dev.pdVsafe0_kept (d : Dev) (n : Nat) : (Dev.pdVsafe0 d n).kept = d.kept := by
  unfold Dev.pdVsafe0
  try dsimp only
  repeat' first | with_reducible rfl | (simp [*]; done) | intro _ | with_reducible apply kept_ite

/-! ## Fuses -/

@[simp] theorem Dev.trip_kept (d : Dev) (n cause : Nat) (peak : BitVec 12) (vbus : BitVec 11) : (Dev.trip d n cause peak vbus).kept = d.kept := by
  unfold Dev.trip
  try dsimp only
  repeat' first | with_reducible rfl | (simp [*]; done) | intro _ | with_reducible apply kept_ite

@[simp] theorem Dev.backoffEnd_kept (d : Dev) (n : Nat) : (Dev.backoffEnd d n).kept = d.kept := by
  unfold Dev.backoffEnd
  try dsimp only
  repeat' first | with_reducible rfl | (simp [*]; done) | intro _ | with_reducible apply kept_ite

@[simp] theorem Dev.latchClear_kept (d : Dev) (n : Nat) : (Dev.latchClear d n).kept = d.kept := by
  unfold Dev.latchClear
  simp [apply_ite Dev.kept]

@[simp] theorem Dev.abortRetry_kept (d : Dev) (n : Nat) : (Dev.abortRetry d n).kept = d.kept := by
  unfold Dev.abortRetry
  split <;> simp

@[simp] theorem Dev.powerGood_kept (d : Dev) (n : Nat) : (Dev.powerGood d n).kept = d.kept := by
  unfold Dev.powerGood
  try dsimp only
  repeat' first | with_reducible rfl | (simp [*]; done) | intro _ | with_reducible apply kept_ite

@[simp] theorem Dev.pgLost_kept (d : Dev) (n : Nat) (vbus : BitVec 11) : (Dev.pgLost d n vbus).kept = d.kept := by
  unfold Dev.pgLost
  split <;> simp

@[simp] theorem Dev.vsafe0v_kept (d : Dev) (n : Nat) : (Dev.vsafe0v d n).kept = d.kept := by
  unfold Dev.vsafe0v
  split <;> simp

@[simp] theorem Dev.dschLate_kept (d : Dev) (n : Nat) (vbus : BitVec 11) : (Dev.dschLate d n vbus).kept = d.kept := by
  unfold Dev.dschLate
  split <;> simp

@[simp] theorem Dev.pressLinkLost_kept (d : Dev) (x : Nat) : (Dev.pressLinkLost d x).kept = d.kept := by
  unfold Dev.pressLinkLost
  split <;> simp

@[simp] theorem Dev.safeRun_kept (d : Dev) (x : Nat) : (Dev.safeRun d x).kept = d.kept := by
  unfold Dev.safeRun
  try dsimp only
  repeat' first
    | with_reducible rfl | (simp [*]; done) | intro _ | with_reducible apply kept_ite | with_reducible apply kept_ite2 | split
    | with_reducible apply kept_foldlSnd | with_reducible apply kept_foldlFst | with_reducible apply kept_forEach
    | with_reducible apply kept_forN

@[simp] theorem Dev.tripEvent_kept (d : Dev) (n : Nat) : (Dev.tripEvent d n).kept = d.kept := by
  unfold Dev.tripEvent
  try dsimp only
  repeat' first | with_reducible rfl | (simp [*]; done) | intro _ | with_reducible apply kept_ite | split

@[simp] theorem Dev.pressEvt_kept (d : Dev) (x : Nat) (e : PressEvt) : (Dev.pressEvt d x e).kept = d.kept := by
  unfold Dev.pressEvt
  try dsimp only
  repeat' first | with_reducible rfl | (simp [*]; done) | intro _ | with_reducible apply kept_ite | split

/-! ## Readout -/

@[simp] theorem Dev.readReg_kept (d : Dev) (st : Straps) (spi : Bool) (a : Nat) : (Dev.readReg d st spi a).2.kept = d.kept := by
  unfold Dev.readReg
  try dsimp only
  repeat' first | with_reducible rfl | (simp [*]; done) | intro _ | with_reducible apply kept_ite | split

@[simp] theorem Dev.wideValue_kept (d : Dev) (sel : W32) : (Dev.wideValue d sel).2.kept = d.kept := by
  unfold Dev.wideValue
  try dsimp only
  repeat' first | with_reducible rfl | (simp [*]; done) | intro _ | with_reducible apply kept_ite | split

@[simp] theorem Dev.snapshot_kept (d : Dev) (sel : W32) : (Dev.snapshot d sel).kept = d.kept := by
  unfold Dev.snapshot
  simp

@[simp] theorem Dev.mailboxRead_kept (d : Dev) : (Dev.mailboxRead d).kept = d.kept := by
  unfold Dev.mailboxRead
  simp

/-! ## Registers -/

@[simp] theorem Dev.endClass_kept (d : Dev) (c status : Nat) : (Dev.endClass d c status).kept = d.kept := by
  unfold Dev.endClass
  try dsimp only
  repeat' first
    | with_reducible rfl | (simp [*]; done) | intro _ | with_reducible apply kept_ite | with_reducible apply kept_ite2 | split
    | with_reducible apply kept_foldlSnd | with_reducible apply kept_foldlFst | with_reducible apply kept_forEach

@[simp] theorem Dev.resetQueueWork_kept (d : Dev) (q status : Nat) : (Dev.resetQueueWork d q status).kept = d.kept := by
  unfold Dev.resetQueueWork
  try dsimp only
  repeat' first | with_reducible rfl | (simp [*]; done) | intro _ | with_reducible apply kept_ite | split

@[simp] theorem Dev.sweepDone_kept (d : Dev) (q : Nat) : (Dev.sweepDone d q).kept = d.kept := by
  unfold Dev.sweepDone
  split <;> simp

@[simp] theorem Dev.ptrFault_kept (d : Dev) (q bank : Nat) : (Dev.ptrFault d q bank).kept = d.kept := by
  unfold Dev.ptrFault
  simp

@[simp] theorem Dev.listFault_kept (d : Dev) (k : Nat) : (Dev.listFault d k).kept = d.kept := by
  unfold Dev.listFault
  simp

@[simp] theorem Dev.checkBooks_kept (d : Dev) : (Dev.checkBooks d).kept = d.kept := by
  unfold Dev.checkBooks
  try dsimp only
  repeat' first
    | with_reducible rfl | (simp [*]; done) | intro _ | with_reducible apply kept_ite | with_reducible apply kept_ite2 | split
    | with_reducible apply kept_foldlSnd | with_reducible apply kept_foldlFst | with_reducible apply kept_forEach
    | with_reducible apply kept_forN

@[simp] theorem Dev.vatAlarms_kept (d : Dev) : (Dev.vatAlarms d).kept = d.kept := by
  unfold Dev.vatAlarms
  try dsimp only
  repeat' first
    | with_reducible rfl | (simp [*]; done) | intro _ | with_reducible apply kept_ite | with_reducible apply kept_ite2 | split
    | with_reducible apply kept_foldlSnd | with_reducible apply kept_foldlFst | with_reducible apply kept_forEach
    | with_reducible apply kept_forN | with_reducible apply kept_foldl | with_reducible apply kept_getD | simp

@[simp] theorem Dev.seekDepth_kept (d : Dev) : (Dev.seekDepth d).kept = d.kept := by
  unfold Dev.seekDepth
  simp

@[simp] theorem Dev.requestUpdate_kept (d : Dev) (who : Option (SubId × BitVec 16)) (groups : BitVec 8) (whenSel : Nat) (atBeat : BeatNo) : (Dev.requestUpdate d who groups whenSel atBeat).2.kept = d.kept := by
  unfold Dev.requestUpdate
  split <;> simp

@[simp] theorem Dev.cancelUpdates_kept (d : Dev) (groups : BitVec 8) : (Dev.cancelUpdates d groups).kept = d.kept := by
  unfold Dev.cancelUpdates
  try dsimp only
  repeat' first
    | with_reducible rfl | (simp [*]; done) | intro _ | with_reducible apply kept_ite | with_reducible apply kept_ite2 | split
    | with_reducible apply kept_foldlSnd | with_reducible apply kept_foldlFst | with_reducible apply kept_forEach

@[simp] theorem Dev.takeShadows_kept (d : Dev) (groups : BitVec 8) : (Dev.takeShadows d groups).kept = d.kept := by
  unfold Dev.takeShadows
  try dsimp only
  repeat' first
    | with_reducible rfl | (simp [*]; done) | intro _ | with_reducible apply kept_ite | with_reducible apply kept_ite2 | split
    | with_reducible apply kept_foldlSnd | with_reducible apply kept_foldlFst | with_reducible apply kept_forEach

@[simp] theorem Dev.reoffset_kept (d : Dev) (sof : Nat) : (Dev.reoffset d sof).kept = d.kept := by
  unfold Dev.reoffset
  split <;> simp

@[simp] theorem Dev.deckleApplied_kept (old d : Dev) : (Dev.deckleApplied old d).kept = d.kept := by
  unfold Dev.deckleApplied
  try dsimp only
  repeat' first | with_reducible rfl | (simp [*]; done) | intro _ | with_reducible apply kept_ite | split

@[simp] theorem Dev.headboxApplied_kept (d : Dev) : (Dev.headboxApplied d).kept = d.kept := by
  unfold Dev.headboxApplied
  try dsimp only
  repeat' first
    | with_reducible rfl | (simp [*]; done) | intro _ | with_reducible apply kept_ite | with_reducible apply kept_ite2 | split
    | with_reducible apply kept_foldlSnd | with_reducible apply kept_foldlFst | with_reducible apply kept_forEach

@[simp] theorem Dev.clipTokens_kept (old d : Dev) : (Dev.clipTokens old d).kept = d.kept := by
  unfold Dev.clipTokens
  try dsimp only
  repeat' first
    | with_reducible rfl | (simp [*]; done) | intro _ | with_reducible apply kept_ite | with_reducible apply kept_ite2 | split
    | with_reducible apply kept_foldlSnd | with_reducible apply kept_foldlFst | with_reducible apply kept_forEach

@[simp] theorem Dev.efuseApplied_kept (old d : Dev) : (Dev.efuseApplied old d).kept = d.kept := by
  unfold Dev.efuseApplied
  try dsimp only
  repeat' first
    | with_reducible rfl | (simp [*]; done) | intro _ | with_reducible apply kept_ite | with_reducible apply kept_ite2 | split
    | with_reducible apply kept_foldlSnd | with_reducible apply kept_foldlFst | with_reducible apply kept_forEach
    | with_reducible apply kept_forN

@[simp] theorem Dev.pdApplied_kept (old d : Dev) : (Dev.pdApplied old d).kept = d.kept := by
  unfold Dev.pdApplied
  refine kept_forN (fun n a => ?_) rfl
  simp [apply_ite Dev.kept]

@[simp] theorem Dev.couchApplied_kept (d : Dev) : (Dev.couchApplied d).kept = d.kept := by
  unfold Dev.couchApplied
  try dsimp only
  repeat' first
    | with_reducible rfl | (simp [*]; done) | intro _ | with_reducible apply kept_ite | with_reducible apply kept_ite2 | split
    | with_reducible apply kept_foldlSnd | with_reducible apply kept_foldlFst | with_reducible apply kept_forEach
    | with_reducible apply kept_forN

@[simp] theorem Dev.applyGroups_kept (d : Dev) (groups : BitVec 8) : (Dev.applyGroups d groups).kept = d.kept := by
  unfold Dev.applyGroups
  try dsimp only
  repeat' first | with_reducible rfl | (simp [*]; done) | intro _ | with_reducible apply kept_ite | split

@[simp] theorem Dev.updateApply_kept (d : Dev) (groups : BitVec 8) : (Dev.updateApply d groups).kept = d.kept := by
  unfold Dev.updateApply
  try dsimp only
  repeat' first | with_reducible rfl | (simp [*]; done) | intro _ | with_reducible apply kept_ite | split

@[simp] theorem Dev.quireAck_kept (d : Dev) : (Dev.quireAck d).kept = d.kept := by
  unfold Dev.quireAck
  simp

@[simp] theorem Dev.storeWord_kept (d : Dev) (w : Nat) (v : W32) : (Dev.storeWord d w v).2.kept = d.kept := by
  unfold Dev.storeWord
  try dsimp only
  repeat' first | with_reducible rfl | (simp [*]; done) | intro _ | with_reducible apply kept_ite | split

@[simp] theorem Dev.markKey_kept (d : Dev) (k : Nat) (b : Bool) : (Dev.markKey d k b).kept = d.kept := by
  unfold Dev.markKey
  simp

@[simp] theorem Dev.keyWordDone_kept (d : Dev) (k i : Nat) : (Dev.keyWordDone d k i).kept = d.kept := by
  unfold Dev.keyWordDone
  try dsimp only
  repeat' first | with_reducible rfl | (simp [*]; done) | intro _ | with_reducible apply kept_ite | split

@[simp] theorem Dev.eraseKey_kept (d : Dev) (k : Nat) : (Dev.eraseKey d k).kept = d.kept := by
  unfold Dev.eraseKey
  try dsimp only
  repeat' first
    | with_reducible rfl | (simp [*]; done) | intro _ | with_reducible apply kept_ite | with_reducible apply kept_ite2 | split
    | with_reducible apply kept_foldlSnd | with_reducible apply kept_foldlFst | with_reducible apply kept_forEach
    | with_reducible apply kept_forN | with_reducible apply kept_foldl | with_reducible apply kept_getD | simp

@[simp] theorem Dev.makeQuire_kept (d : Dev) (w : Nat) (v : W32) : (Dev.makeQuire d w v).2.kept = d.kept := by
  unfold Dev.makeQuire
  try dsimp only
  repeat' first | with_reducible rfl | (simp [*]; done) | intro _ | with_reducible apply kept_ite | split

@[simp] theorem Dev.setDefault_kept (d : Dev) (a : Nat) (v : W32) : (Dev.setDefault d a v).kept = d.kept := by
  unfold Dev.setDefault
  try dsimp only
  repeat' first | with_reducible rfl | (simp [*]; done) | intro _ | with_reducible apply kept_ite | split

@[simp] theorem Dev.loadWord_kept (d : Dev) (w : Nat) : (Dev.loadWord d w).kept = d.kept := by
  unfold Dev.loadWord
  try dsimp only
  repeat' first | with_reducible rfl | (simp [*]; done) | intro _ | with_reducible apply kept_ite | split

@[simp] theorem Dev.loadSpan_kept (d : Dev) (w n : Nat) (ok : Bool) : (Dev.loadSpan d w n ok).kept = d.kept := by
  unfold Dev.loadSpan
  try dsimp only
  repeat' first
    | with_reducible rfl | (simp [*]; done) | intro _ | with_reducible apply kept_ite | with_reducible apply kept_ite2 | split
    | with_reducible apply kept_foldlSnd | with_reducible apply kept_foldlFst | with_reducible apply kept_forEach
    | with_reducible apply kept_forN | with_reducible apply kept_foldl | with_reducible apply kept_getD | simp

@[simp] theorem Dev.loadVat_kept (d : Dev) : (Dev.loadVat d).kept = d.kept := by
  unfold Dev.loadVat
  simp

@[simp] theorem Dev.loadReam_kept (d : Dev) : (Dev.loadReam d).kept = d.kept := by
  unfold Dev.loadReam
  simp

@[simp] theorem Dev.loadHeadbox_kept (d : Dev) : (Dev.loadHeadbox d).kept = d.kept := by
  unfold Dev.loadHeadbox
  try dsimp only
  repeat' first
    | with_reducible rfl | (simp [*]; done) | intro _ | with_reducible apply kept_ite | with_reducible apply kept_ite2 | split
    | with_reducible apply kept_foldlSnd | with_reducible apply kept_foldlFst | with_reducible apply kept_forEach
    | with_reducible apply kept_forN

@[simp] theorem Dev.loadPdos_kept (d : Dev) (w : Nat) : (Dev.loadPdos d w).kept = d.kept := by
  unfold Dev.loadPdos
  simp

@[simp] theorem Dev.loadPortRegs_kept (d : Dev) (n : Nat) : (Dev.loadPortRegs d n).kept = d.kept := by
  unfold Dev.loadPortRegs
  try dsimp only
  repeat' first
    | with_reducible rfl | (simp [*]; done) | intro _ | with_reducible apply kept_ite | with_reducible apply kept_ite2 | split
    | with_reducible apply kept_foldlSnd | with_reducible apply kept_foldlFst | with_reducible apply kept_forEach
    | with_reducible apply kept_forN | with_reducible apply kept_foldl | with_reducible apply kept_getD | simp

@[simp] theorem Dev.unlock_kept (d : Dev) (g : Nat) (v : W32) : (Dev.unlock d g v).kept = d.kept := by
  unfold Dev.unlock
  split <;> simp

@[simp] theorem Dev.guardRearm_kept (d : Dev) (g : Nat) : (Dev.guardRearm d g).kept = d.kept := by
  unfold Dev.guardRearm
  split <;> simp

@[simp] theorem Dev.reamWrite_kept (d : Dev) (n : Nat) (v : W32) : (Dev.reamWrite d n v).2.kept = d.kept := by
  unfold Dev.reamWrite
  try dsimp only
  repeat' first | with_reducible rfl | (simp [*]; done) | intro _ | with_reducible apply kept_ite | split

@[simp] theorem Dev.fcClear_kept (d0 : Dev) (v : W32) : (Dev.fcClear d0 v).kept = d0.kept := by
  unfold Dev.fcClear
  try dsimp only
  repeat' first | with_reducible rfl | (simp [*]; done) | intro _ | with_reducible apply kept_ite

@[simp] theorem Dev.fcForce_kept (d0 : Dev) (v : W32) : (Dev.fcForce d0 v).kept = d0.kept := by
  unfold Dev.fcForce
  try dsimp only
  repeat' first | with_reducible rfl | (simp [*]; done) | intro _ | with_reducible apply kept_ite

@[simp] theorem Dev.vatQreset_kept (d0 : Dev) (v : W32) : (Dev.vatQreset d0 v).kept = d0.kept := by
  unfold Dev.vatQreset
  split <;> simp

@[simp] theorem Dev.efuseCtrl_kept (d : Dev) (n : Nat) (v : W32) : (Dev.efuseCtrl d n v).kept = d.kept := by
  unfold Dev.efuseCtrl
  try dsimp only
  repeat' first | with_reducible rfl | (simp [*]; done) | intro _ | with_reducible apply kept_ite | split

@[simp] theorem Dev.pdCtrl_kept (d : Dev) (n : Nat) (v : W32) : (Dev.pdCtrl d n v).kept = d.kept := by
  unfold Dev.pdCtrl
  try dsimp only
  repeat' first
    | with_reducible rfl | (simp [*]; done) | intro _ | with_reducible apply kept_ite | with_reducible apply kept_ite2 | split
    | with_reducible apply kept_foldlSnd | with_reducible apply kept_foldlFst | with_reducible apply kept_forEach

@[simp] theorem Dev.cplCtrl_kept (d : Dev) (n : Nat) (v : W32) : (Dev.cplCtrl d n v).kept = d.kept := by
  unfold Dev.cplCtrl
  try dsimp only
  repeat' first | with_reducible rfl | (simp [*]; done) | intro _ | with_reducible apply kept_ite | split

@[simp] theorem Dev.chainPos_kept (d : Dev) (v : W32) : (Dev.chainPos d v).kept = d.kept := by
  unfold Dev.chainPos
  try dsimp only
  repeat' first
    | with_reducible rfl | (simp [*]; done) | intro _ | with_reducible apply kept_ite | with_reducible apply kept_ite2 | split
    | with_reducible apply kept_foldlSnd | with_reducible apply kept_foldlFst | with_reducible apply kept_forEach
    | with_reducible apply kept_forN

@[simp] theorem Dev.pwrWrite_kept (d : Dev) (a : Nat) (v : W32) (rw : W32) : (Dev.pwrWrite d a v rw).kept = d.kept := by
  unfold Dev.pwrWrite
  try dsimp only
  repeat' first | with_reducible rfl | (simp [*]; done) | intro _ | with_reducible apply kept_ite

@[simp] theorem Dev.updateWrite_kept (d : Dev) (who : Option (SubId × BitVec 16)) (v : W32) : (Dev.updateWrite d who v).kept = d.kept := by
  unfold Dev.updateWrite
  try dsimp only
  repeat' first | with_reducible rfl | (simp [*]; done) | intro _ | with_reducible apply kept_ite

@[simp] theorem Dev.plainWrite_kept (d : Dev) (a : Nat) (v : W32) (i : RegInfo) : (Dev.plainWrite d a v i).kept = d.kept := by
  unfold Dev.plainWrite
  try dsimp only
  repeat' first | with_reducible rfl | (simp [*]; done) | intro _ | with_reducible apply kept_ite | split

@[simp] theorem Dev.makeWrite_kept (d : Dev) (who : Option (SubId × BitVec 16)) (a : Nat) (v : W32) (i : RegInfo) : (Dev.makeWrite d who a v i).2.kept = d.kept := by
  unfold Dev.makeWrite
  try dsimp only
  repeat' first
    | with_reducible rfl | (simp only [kept_eta, kept_mk, *]; done) | (simp [*]; done) | intro _
    | with_reducible apply kept_ite | with_reducible apply kept_ite2

@[simp] theorem Dev.regErr_kept (d : Dev) (who : Option (SubId × BitVec 16)) (a b : Nat) : (Dev.regErr d who a b).kept = d.kept := by
  unfold Dev.regErr
  split <;> simp

@[simp] theorem Dev.useGuard_kept (d : Dev) (who : Option (SubId × BitVec 16)) (opened : Bool) : (Dev.useGuard d who opened).kept = d.kept := by
  unfold Dev.useGuard
  split <;> simp

@[simp] theorem Dev.writeQuire_kept (d : Dev) (who : Option (SubId × BitVec 16)) (opened : Bool) (a w : Nat) (v : W32) : (Dev.writeQuire d who opened a w v).2.kept = d.kept := by
  unfold Dev.writeQuire
  try dsimp only
  repeat' first | with_reducible rfl | (simp [*]; done) | intro _ | with_reducible apply kept_ite | split

@[simp] theorem Dev.writeReg_kept (d : Dev) (who : Option (SubId × BitVec 16)) (opened : Bool) (a : Nat) (v : W32) : (Dev.writeReg d who opened a v).2.kept = d.kept := by
  unfold Dev.writeReg
  try dsimp only
  repeat' first | with_reducible rfl | (simp [*]; done) | intro _ | with_reducible apply kept_ite | split

@[simp] theorem Dev.writer_kept (d : Dev) (p : Path) : (Dev.writer d p).2.kept = d.kept := by
  unfold Dev.writer
  try dsimp only
  repeat' first | with_reducible rfl | (simp [*]; done) | intro _ | with_reducible apply kept_ite | split

@[simp] theorem Dev.pathWrite_kept (d : Dev) (p : Path) (a : Nat) (v : W32) : (Dev.pathWrite d p a v).kept = d.kept := by
  unfold Dev.pathWrite
  try dsimp only
  repeat' first | with_reducible rfl | (simp [*]; done) | intro _ | with_reducible apply kept_ite

end Sys2Proof.Machine
end

