-- ==== Sys2Proof/Laws/KeptRows.lean ====
section
/-! SUPPORT. The frame of the operations, continued: the operations of Grid, Banks, Engine, LinkPower, Links, Collect, Firmware. -/

namespace Sys2Proof.Machine

open Sys2Proof

/-! ## Grid -/

@[simp] theorem Dev.sendSof_kept (d : Dev) (n : Nat) : (Dev.sendSof d n).kept = d.kept := by
  unfold Dev.sendSof
  try dsimp only
  repeat' first | with_reducible rfl | (simp [*]; done) | intro _ | with_reducible apply kept_ite

@[simp] theorem Dev.tickGuards_kept (d : Dev) : (Dev.tickGuards d).kept = d.kept := by
  unfold Dev.tickGuards
  try dsimp only
  repeat' first
    | with_reducible rfl | (simp [*]; done) | intro _ | with_reducible apply kept_ite | with_reducible apply kept_ite2 | split
    | with_reducible apply kept_foldlSnd | with_reducible apply kept_foldlFst | with_reducible apply kept_forEach

@[simp] theorem Dev.sendBeats_kept (d : Dev) : (Dev.sendBeats d).kept = d.kept := by
  unfold Dev.sendBeats
  try dsimp only
  repeat' first
    | with_reducible rfl | (simp [*]; done) | intro _ | with_reducible apply kept_ite | with_reducible apply kept_ite2 | split
    | with_reducible apply kept_foldlSnd | with_reducible apply kept_foldlFst | with_reducible apply kept_forEach
    | with_reducible apply kept_forN

@[simp] theorem Dev.portBeat_kept (d : Dev) (n : Nat) : (Dev.portBeat d n).kept = d.kept := by
  unfold Dev.portBeat
  simp

@[simp] theorem Dev.beatStarts_kept (d : Dev) : (Dev.beatStarts d).kept = d.kept := by
  unfold Dev.beatStarts
  try dsimp only
  repeat' first
    | with_reducible rfl | (simp only [kept_eta, kept_mk, *]; done) | (simp [*]; done) | intro _
    | with_reducible apply kept_ite | with_reducible apply kept_ite2 | split | with_reducible apply kept_foldlSnd
    | with_reducible apply kept_foldlFst | with_reducible apply kept_forEach | with_reducible apply kept_forN
    | with_reducible apply kept_foldl | with_reducible apply kept_getD | simp

@[simp] theorem Dev.mfStarts_kept (d : Dev) : (Dev.mfStarts d).kept = d.kept := by
  unfold Dev.mfStarts
  try dsimp only
  repeat' first
    | with_reducible rfl | (simp only [kept_eta, kept_mk, *]; done) | (simp [*]; done) | intro _
    | with_reducible apply kept_ite | with_reducible apply kept_ite2 | split | with_reducible apply kept_foldlSnd
    | with_reducible apply kept_foldlFst | with_reducible apply kept_forEach | with_reducible apply kept_forN
    | with_reducible apply kept_foldl | with_reducible apply kept_getD | simp

@[simp] theorem Dev.closeBeat_kept (d : Dev) : (Dev.closeBeat d).kept = d.kept := by
  unfold Dev.closeBeat
  split <;> simp

@[simp] theorem Dev.microframe_kept (d : Dev) : (Dev.microframe d).kept = d.kept := by
  unfold Dev.microframe
  try dsimp only
  repeat' first | with_reducible rfl | (simp [*]; done) | intro _ | with_reducible apply kept_ite | split

@[simp] theorem Dev.pollReport_kept (d : Dev) (n : Nat) : (Dev.pollReport d n).kept = d.kept := by
  unfold Dev.pollReport
  try dsimp only
  repeat' first
    | with_reducible rfl | (simp [*]; done) | intro _ | with_reducible apply kept_ite | with_reducible apply kept_ite2 | split
    | with_reducible apply kept_foldlSnd | with_reducible apply kept_foldlFst | with_reducible apply kept_forEach
    | with_reducible apply kept_forN | with_reducible apply kept_foldl | rw [Dev.takeClaim_kept ‹_›]
    | with_reducible apply kept_getD | simp

@[simp] theorem Dev.slotStrobe_kept (d : Dev) : (Dev.slotStrobe d).kept = d.kept := by
  unfold Dev.slotStrobe
  try dsimp only
  repeat' first
    | with_reducible rfl | (simp only [kept_eta, kept_mk, *]; done) | (simp [*]; done) | intro _
    | with_reducible apply kept_ite | with_reducible apply kept_ite2 | split | with_reducible apply kept_foldlSnd
    | with_reducible apply kept_foldlFst | with_reducible apply kept_forEach | with_reducible apply kept_forN
    | with_reducible apply kept_foldl | rw [Dev.advanceSlot_kept ‹_›] | with_reducible apply kept_getD | simp

@[simp] theorem Dev.planNext_kept (d : Dev) : (Dev.planNext d).kept = d.kept := by
  unfold Dev.planNext
  split <;> simp

@[simp] theorem Dev.beatEndStrobe_kept (d : Dev) : (Dev.beatEndStrobe d).kept = d.kept := by
  unfold Dev.beatEndStrobe
  try dsimp only
  repeat' first | with_reducible rfl | (simp [*]; done) | intro _ | with_reducible apply kept_ite

@[simp] theorem Dev.tallyOverrun_kept (d : Dev) : (Dev.tallyOverrun d).kept = d.kept := by
  unfold Dev.tallyOverrun
  simp

@[simp] theorem Dev.tallyDeferred_kept (d : Dev) (cycles : Nat) : (Dev.tallyDeferred d cycles).kept = d.kept := by
  unfold Dev.tallyDeferred
  split <;> simp

@[simp] theorem Dev.tallySkip_kept (d : Dev) : (Dev.tallySkip d).kept = d.kept := by
  unfold Dev.tallySkip
  try dsimp only
  repeat' first | with_reducible rfl | (simp [*]; done) | intro _ | with_reducible apply kept_ite

@[simp] theorem Dev.heartbeatRow_kept (d : Dev) (c : Nat) : (Dev.heartbeatRow d c).kept = d.kept := by
  unfold Dev.heartbeatRow
  try dsimp only
  repeat' first | with_reducible rfl | (simp [*]; done) | intro _ | with_reducible apply kept_ite | split

@[simp] theorem Dev.beatInEdge_kept (d : Dev) (time high : Nat) : (Dev.beatInEdge d time high).kept = d.kept := by
  unfold Dev.beatInEdge
  split <;> simp

@[simp] theorem Dev.couplerEdge_kept (d : Dev) (time : Nat) : (Dev.couplerEdge d time).kept = d.kept := by
  unfold Dev.couplerEdge
  try dsimp only
  repeat' first | with_reducible rfl | (simp [*]; done) | intro _ | with_reducible apply kept_ite | split

@[simp] theorem Dev.sourceEdge_kept (d : Dev) (time : Nat) (number : Option BeatNo) : (Dev.sourceEdge d time number).kept = d.kept := by
  unfold Dev.sourceEdge
  try dsimp only
  repeat' first | with_reducible rfl | (simp [*]; done) | intro _ | with_reducible apply kept_ite

/-! ## Banks -/

@[simp] theorem Dev.rotationStart_kept (d : Dev) : (Dev.rotationStart d).kept = d.kept := by
  unfold Dev.rotationStart
  split <;> simp

@[simp] theorem Dev.rotationDone_kept (d : Dev) : (Dev.rotationDone d).kept = d.kept := by
  unfold Dev.rotationDone
  split <;> simp

@[simp] theorem Dev.retireBank_kept (d : Dev) (b : Nat) : (Dev.retireBank d b).kept = d.kept := by
  unfold Dev.retireBank
  simp

@[simp] theorem Dev.noSpareLeft_kept (d : Dev) : (Dev.noSpareLeft d).kept = d.kept := by
  unfold Dev.noSpareLeft
  simp

@[simp] theorem Dev.replaceSpare_kept (d : Dev) : (Dev.replaceSpare d).kept = d.kept := by
  unfold Dev.replaceSpare
  split <;> simp

@[simp] theorem Dev.endSelftests_kept (d : Dev) (pass : Bool) : (Dev.endSelftests d pass).kept = d.kept := by
  unfold Dev.endSelftests
  try dsimp only
  repeat' first
    | with_reducible rfl | (simp [*]; done) | intro _ | with_reducible apply kept_ite | with_reducible apply kept_ite2 | split
    | with_reducible apply kept_foldlSnd | with_reducible apply kept_foldlFst | with_reducible apply kept_forEach

@[simp] theorem Dev.passCounted_kept (d : Dev) : (Dev.passCounted d).kept = d.kept := by
  unfold Dev.passCounted
  simp

@[simp] theorem Dev.rejoin_kept (d : Dev) (t b : Nat) (joining passed : List Nat) : (Dev.rejoin d t b joining passed).kept = d.kept := by
  unfold Dev.rejoin
  try dsimp only
  repeat' first | with_reducible rfl | (simp [*]; done) | intro _ | with_reducible apply kept_ite | split

@[simp] theorem Dev.sparePassEnd_kept (d : Dev) (b : Nat) (pass : Bool) : (Dev.sparePassEnd d b pass).kept = d.kept := by
  unfold Dev.sparePassEnd
  try dsimp only
  repeat' first | with_reducible rfl | (simp [*]; done) | intro _ | with_reducible apply kept_ite | split

@[simp] theorem Dev.passEnd_kept (d : Dev) (b : Nat) (pass : Bool) : (Dev.passEnd d b pass).kept = d.kept := by
  unfold Dev.passEnd
  try dsimp only
  repeat' first | with_reducible rfl | (simp [*]; done) | intro _ | with_reducible apply kept_ite | split

@[simp] theorem Dev.marchPass_kept (d : Dev) (b : Nat) (pass : Bool) : (Dev.marchPass d b pass).kept = d.kept := by
  unfold Dev.marchPass
  split <;> simp

@[simp] theorem Dev.pointerFault_kept (d : Dev) (queue : Option Nat) (bank : Nat) (table : Bool) : (Dev.pointerFault d queue bank table).kept = d.kept := by
  unfold Dev.pointerFault
  try dsimp only
  repeat' first
    | with_reducible rfl | (simp [*]; done) | intro _ | with_reducible apply kept_ite | with_reducible apply kept_ite2 | split
    | with_reducible apply kept_foldlSnd | with_reducible apply kept_foldlFst | with_reducible apply kept_forEach

@[simp] theorem Dev.sweepWatch_kept (d : Dev) : (Dev.sweepWatch d).kept = d.kept := by
  unfold Dev.sweepWatch
  try dsimp only
  repeat' first | with_reducible rfl | (simp [*]; done) | intro _ | with_reducible apply kept_ite

@[simp] theorem Dev.queueIdle_kept (d : Dev) (q : Nat) : (Dev.queueIdle d q).kept = d.kept := by
  unfold Dev.queueIdle
  try dsimp only
  repeat' first
    | with_reducible rfl | (simp [*]; done) | intro _ | with_reducible apply kept_ite | with_reducible apply kept_ite2 | split
    | with_reducible apply kept_foldlSnd | with_reducible apply kept_foldlFst | with_reducible apply kept_forEach

@[simp] theorem Dev.listRebuilt_kept (d : Dev) (k : Nat) : (Dev.listRebuilt d k).kept = d.kept := by
  unfold Dev.listRebuilt
  split <;> simp

@[simp] theorem Dev.growthDone_kept (d : Dev) : (Dev.growthDone d).kept = d.kept := by
  unfold Dev.growthDone
  try dsimp only
  repeat' first | with_reducible rfl | (simp [*]; done) | intro _ | with_reducible apply kept_ite | split

@[simp] theorem Dev.relocateAll_kept (d : Dev) (banks : Nat) : (Dev.relocateAll d banks).kept = d.kept := by
  unfold Dev.relocateAll
  try dsimp only
  repeat' first
    | with_reducible rfl | (simp [*]; done) | intro _ | with_reducible apply kept_ite | with_reducible apply kept_ite2 | split
    | with_reducible apply kept_foldlSnd | with_reducible apply kept_foldlFst | with_reducible apply kept_forEach
    | with_reducible apply kept_forN | with_reducible apply kept_foldl | with_reducible apply kept_getD | simp

@[simp] theorem Dev.emptyBanks_kept (d : Dev) (banks : Nat) (x0 : Nat) : (Dev.emptyBanks d banks x0).kept = d.kept := by
  induction x0 generalizing d banks with
  | zero => first | rfl
  | succ _ ih => 
    unfold Dev.emptyBanks
    try dsimp only
    repeat' first
    | with_reducible rfl | (simp only [kept_eta, kept_mk, *]; done) | (simp [*]; done) | (rw [ih]; simp; done) | intro _
    | with_reducible apply kept_ite | with_reducible apply kept_ite2 | split

@[simp] theorem Dev.drainDone_kept (d : Dev) : (Dev.drainDone d).kept = d.kept := by
  unfold Dev.drainDone
  repeat' first
    | with_reducible rfl | (simp only [kept_eta, kept_mk, *]; done) | (simp [*]; done) | intro _
    | with_reducible apply kept_ite | with_reducible apply kept_ite2 | split | with_reducible apply kept_foldlSnd
    | with_reducible apply kept_foldlFst | with_reducible apply kept_forEach | with_reducible apply kept_forN
    | with_reducible apply kept_foldl | with_reducible apply kept_getD | simp

/-! ## Engine -/

@[simp] theorem Dev.ttResult_kept (d : Dev) (k : Nat) (b : TtBuffer) (r : XactResult) : (Dev.ttResult d k b r).kept = d.kept := by
  unfold Dev.ttResult
  simp

@[simp] theorem Dev.ttResponse_kept (d : Dev) (n : Nat) (r : XactResult) : (Dev.ttResponse d n r).kept = d.kept := by
  unfold Dev.ttResponse
  try dsimp only
  repeat' first
    | with_reducible rfl | (simp [*]; done) | intro _ | with_reducible apply kept_ite | with_reducible apply kept_ite2 | split
    | with_reducible apply kept_foldlSnd | with_reducible apply kept_foldlFst | with_reducible apply kept_forEach
    | with_reducible apply kept_forN | with_reducible apply kept_foldl | rw [Dev.enqueue_kept ‹_›]
    | with_reducible apply kept_getD | simp

@[simp] theorem Dev.pipeResponse_kept (d : Dev) (n : Nat) (r : XactResult) : (Dev.pipeResponse d n r).kept = d.kept := by
  unfold Dev.pipeResponse
  try dsimp only
  repeat' first | with_reducible rfl | (simp [*]; done) | intro _ | with_reducible apply kept_ite

@[simp] theorem Dev.leftEnabled_kept (d : Dev) (n : Nat) : (Dev.leftEnabled d n).kept = d.kept := by
  unfold Dev.leftEnabled
  split <;> simp

@[simp] theorem Dev.lateTransfer_kept (d : Dev) (c : Nat) : (Dev.lateTransfer d c).kept = d.kept := by
  unfold Dev.lateTransfer
  try dsimp only
  repeat' first | with_reducible rfl | (simp [*]; done) | intro _ | with_reducible apply kept_ite | split

@[simp] theorem Dev.closeCtx_kept (d : Dev) (c : Nat) : (Dev.closeCtx d c).kept = d.kept := by
  unfold Dev.closeCtx
  try dsimp only
  repeat' first | with_reducible rfl | (simp [*]; done) | intro _ | with_reducible apply kept_ite

@[simp] theorem Dev.closeLate_kept (d : Dev) (c : Nat) : (Dev.closeLate d c).kept = d.kept := by
  unfold Dev.closeLate
  split <;> simp

@[simp] theorem Dev.response_kept (d : Dev) (n : Nat) (r : XactResult) (past : Bool) : (Dev.response d n r past).kept = d.kept := by
  unfold Dev.response
  try dsimp only
  repeat' first | with_reducible rfl | (simp [*]; done) | intro _ | with_reducible apply kept_ite | split

@[simp] theorem Dev.babble_kept (d : Dev) (n : Nat) : (Dev.babble d n).kept = d.kept := by
  unfold Dev.babble
  try dsimp only
  repeat' first | with_reducible rfl | (simp [*]; done) | intro _ | with_reducible apply kept_ite | split

@[simp] theorem Dev.holdEnd_kept (d : Dev) (dom addr : Nat) : (Dev.holdEnd d dom addr).kept = d.kept := by
  unfold Dev.holdEnd
  simp

@[simp] theorem Dev.connectSeen_kept (d : Dev) (n : Nat) : (Dev.connectSeen d n).kept = d.kept := by
  unfold Dev.connectSeen
  split <;> simp

@[simp] theorem Dev.connectDrop_kept (d : Dev) (n : Nat) : (Dev.connectDrop d n).kept = d.kept := by
  unfold Dev.connectDrop
  split <;> simp

@[simp] theorem Dev.debounceEnd_kept (d : Dev) (n : Nat) : (Dev.debounceEnd d n).kept = d.kept := by
  unfold Dev.debounceEnd
  try dsimp only
  repeat' first | with_reducible rfl | (simp [*]; done) | intro _ | with_reducible apply kept_ite

@[simp] theorem Dev.bindingFreed_kept (d : Dev) (dom : Nat) : (Dev.bindingFreed d dom).kept = d.kept := by
  unfold Dev.bindingFreed
  split <;> simp

@[simp] theorem Dev.hubResetDone_kept (d : Dev) (n sp : Nat) : (Dev.hubResetDone d n sp).kept = d.kept := by
  unfold Dev.hubResetDone
  try dsimp only
  repeat' first | with_reducible rfl | (simp [*]; done) | intro _ | with_reducible apply kept_ite

@[simp] theorem Dev.resetTaken_kept (d : Dev) (n v : Nat) : (Dev.resetTaken d n v).kept = d.kept := by
  unfold Dev.resetTaken
  try dsimp only
  repeat' first | with_reducible rfl | (simp [*]; done) | intro _ | with_reducible apply kept_ite | split

@[simp] theorem Dev.resetSignalled_kept (d : Dev) (n sp : Nat) : (Dev.resetSignalled d n sp).kept = d.kept := by
  unfold Dev.resetSignalled
  try dsimp only
  repeat' first | with_reducible rfl | (simp [*]; done) | intro _ | with_reducible apply kept_ite

@[simp] theorem Dev.resetsDone_kept (d : Dev) (n : Nat) : (Dev.resetsDone d n).kept = d.kept := by
  unfold Dev.resetsDone
  try dsimp only
  repeat' first
    | with_reducible rfl | (simp [*]; done) | intro _ | with_reducible apply kept_ite | with_reducible apply kept_ite2 | split
    | with_reducible apply kept_foldlSnd | with_reducible apply kept_foldlFst | with_reducible apply kept_forEach

@[simp] theorem Dev.resumesDone_kept (d : Dev) (n : Nat) : (Dev.resumesDone d n).kept = d.kept := by
  unfold Dev.resumesDone
  simp

@[simp] theorem Dev.sendU2Timeout_kept (d : Dev) (n : Nat) : (Dev.sendU2Timeout d n).kept = d.kept := by
  unfold Dev.sendU2Timeout
  split <;> simp

@[simp] theorem Dev.recovered_kept (d : Dev) (n : Nat) : (Dev.recovered d n).kept = d.kept := by
  unfold Dev.recovered
  try dsimp only
  repeat' first | with_reducible rfl | (simp [*]; done) | intro _ | with_reducible apply kept_ite

@[simp] theorem Dev.disconnectSeen_kept (d : Dev) (n : Nat) : (Dev.disconnectSeen d n).kept = d.kept := by
  unfold Dev.disconnectSeen
  try dsimp only
  repeat' first | with_reducible rfl | (simp [*]; done) | intro _ | with_reducible apply kept_ite

@[simp] theorem Dev.enabledAgain_kept (d : Dev) (n : Nat) : (Dev.enabledAgain d n).kept = d.kept := by
  unfold Dev.enabledAgain
  simp

@[simp] theorem Dev.ssUp_kept (d : Dev) (n : Nat) : (Dev.ssUp d n).kept = d.kept := by
  unfold Dev.ssUp
  try dsimp only
  repeat' first | with_reducible rfl | (simp [*]; done) | intro _ | with_reducible apply kept_ite

@[simp] theorem Dev.ssFailed_kept (d : Dev) (n : Nat) : (Dev.ssFailed d n).kept = d.kept := by
  unfold Dev.ssFailed
  split <;> simp

/-! ## LinkPower -/

@[simp] theorem Dev.l1Entry_kept (d : Dev) (n : Nat) : (Dev.l1Entry d n).kept = d.kept := by
  unfold Dev.l1Entry
  try dsimp only
  repeat' first | with_reducible rfl | (simp [*]; done) | intro _ | with_reducible apply kept_ite

@[simp] theorem Dev.lpmError_kept (d : Dev) (n : Nat) : (Dev.lpmError d n).kept = d.kept := by
  unfold Dev.lpmError
  split <;> simp

@[simp] theorem Dev.l1Exit_kept (d : Dev) (n : Nat) : (Dev.l1Exit d n).kept = d.kept := by
  unfold Dev.l1Exit
  split <;> simp

@[simp] theorem Dev.lpmAnswered_kept (d : Dev) (n : Nat) (a : LpmAnswer) : (Dev.lpmAnswered d n a).kept = d.kept := by
  unfold Dev.lpmAnswered
  try dsimp only
  repeat' first | with_reducible rfl | (simp [*]; done) | intro _ | with_reducible apply kept_ite | split

@[simp] theorem Dev.u1Timeout_kept (d : Dev) (n : Nat) : (Dev.u1Timeout d n).kept = d.kept := by
  unfold Dev.u1Timeout
  try dsimp only
  repeat' first | with_reducible rfl | (simp [*]; done) | intro _ | with_reducible apply kept_ite

@[simp] theorem Dev.u1u2Exit_kept (d : Dev) (n : Nat) : (Dev.u1u2Exit d n).kept = d.kept := by
  unfold Dev.u1u2Exit
  split <;> simp

@[simp] theorem Dev.suspendTimer_kept (d : Dev) (n : Nat) : (Dev.suspendTimer d n).kept = d.kept := by
  unfold Dev.suspendTimer
  try dsimp only
  repeat' first | with_reducible rfl | (simp [*]; done) | intro _ | with_reducible apply kept_ite

@[simp] theorem Dev.selectiveSuspend_kept (d : Dev) (n hub hp : Nat) : (Dev.selectiveSuspend d n hub hp).kept = d.kept := by
  unfold Dev.selectiveSuspend
  try dsimp only
  repeat' first | with_reducible rfl | (simp [*]; done) | intro _ | with_reducible apply kept_ite | split

@[simp] theorem Dev.wakeBelow_kept (d : Dev) (c : Nat) : (Dev.wakeBelow d c).kept = d.kept := by
  unfold Dev.wakeBelow
  try dsimp only
  repeat' first
    | with_reducible rfl | (simp [*]; done) | intro _ | with_reducible apply kept_ite | with_reducible apply kept_ite2 | split
    | with_reducible apply kept_foldlSnd | with_reducible apply kept_foldlFst | with_reducible apply kept_forEach

@[simp] theorem Dev.resumeEnd_kept (d : Dev) (n : Nat) : (Dev.resumeEnd d n).kept = d.kept := by
  unfold Dev.resumeEnd
  split <;> simp

@[simp] theorem Dev.mergedWake_kept (d : Dev) (n hub hp : Nat) : (Dev.mergedWake d n hub hp).kept = d.kept := by
  unfold Dev.mergedWake
  simp

@[simp] theorem Dev.remoteWakeRow_kept (d : Dev) (n : Nat) (sub : Option (Nat × Nat)) : (Dev.remoteWakeRow d n sub).kept = d.kept := by
  unfold Dev.remoteWakeRow
  try dsimp only
  repeat' first | with_reducible rfl | (simp [*]; done) | intro _ | with_reducible apply kept_ite | split

@[simp] theorem Dev.trimEntry_kept (d : Dev) : (Dev.trimEntry d).kept = d.kept := by
  unfold Dev.trimEntry
  try dsimp only
  repeat' first | with_reducible rfl | (simp [*]; done) | intro _ | with_reducible apply kept_ite

@[simp] theorem Dev.dozeEntry_kept (d : Dev) : (Dev.dozeEntry d).kept = d.kept := by
  unfold Dev.dozeEntry
  try dsimp only
  repeat' first | with_reducible rfl | (simp [*]; done) | intro _ | with_reducible apply kept_ite

@[simp] theorem Dev.avsAck_kept (d : Dev) (ok : Bool) : (Dev.avsAck d ok).kept = d.kept := by
  unfold Dev.avsAck
  try dsimp only
  repeat' first | with_reducible rfl | (simp [*]; done) | intro _ | with_reducible apply kept_ite | split

@[simp] theorem Dev.avsNoack_kept (d : Dev) (ok : Bool) : (Dev.avsNoack d ok).kept = d.kept := by
  unfold Dev.avsNoack
  try dsimp only
  repeat' first | with_reducible rfl | (simp [*]; done) | intro _ | with_reducible apply kept_ite | split

@[simp] theorem Dev.pdHibernate_kept (d : Dev) (n : Nat) : (Dev.pdHibernate d n).kept = d.kept := by
  unfold Dev.pdHibernate
  split <;> simp

/-! ## Links -/

@[simp] theorem Dev.noteHello_kept (d : Dev) (n : Nat) (p : List Byte) : (Dev.noteHello d n p).kept = d.kept := by
  unfold Dev.noteHello
  simp

@[simp] theorem Dev.hello_kept (d : Dev) (n : Nat) (f : List Byte) : (d.hello n f).kept = d.kept := by
  unfold Dev.hello
  refine Dev.rxControl_kept _ _ _ _ _ ?_
  intro a
  dsimp only
  repeat' first | with_reducible rfl | (simp; done) | with_reducible apply kept_ite | split

@[simp] theorem Dev.helloRepeat_kept (d : Dev) (n : Nat) : (Dev.helloRepeat d n).kept = d.kept := by
  unfold Dev.helloRepeat
  try dsimp only
  repeat' first | with_reducible rfl | (simp [*]; done) | intro _ | with_reducible apply kept_ite

@[simp] theorem Dev.chal_kept (d : Dev) (n : Nat) (f : List Byte) : (d.chal n f).kept = d.kept := by
  unfold Dev.chal
  refine Dev.rxControl_kept _ _ _ _ _ ?_
  intro a
  dsimp only
  repeat' first | with_reducible rfl | (simp; done) | with_reducible apply kept_ite | split

@[simp] theorem Dev.resp_kept (d : Dev) (n : Nat) (f : List Byte) : (d.resp n f).kept = d.kept := by
  unfold Dev.resp
  refine Dev.rxControl_kept _ _ _ _ _ ?_
  intro a
  dsimp only
  repeat' first | with_reducible rfl | (simp; done) | with_reducible apply kept_ite

@[simp] theorem Dev.authTimeout_kept (d : Dev) (n : Nat) : (Dev.authTimeout d n).kept = d.kept := by
  unfold Dev.authTimeout
  split <;> simp

@[simp] theorem Dev.authRetry_kept (d : Dev) (n : Nat) : (Dev.authRetry d n).kept = d.kept := by
  unfold Dev.authRetry
  try dsimp only
  repeat' first | with_reducible rfl | (simp [*]; done) | intro _ | with_reducible apply kept_ite

@[simp] theorem Dev.enableSeen_kept (d : Dev) (n : Nat) (f : List Byte) : (d.enableSeen n f).kept = d.kept := by
  unfold Dev.enableSeen
  refine Dev.rxControl_kept _ _ _ _ _ ?_
  intro a
  dsimp only
  repeat' first | with_reducible rfl | (simp; done) | with_reducible apply kept_ite

@[simp] theorem Dev.noteBeat_kept (d : Dev) (n hops beat : Nat) : (Dev.noteBeat d n hops beat).kept = d.kept := by
  unfold Dev.noteBeat
  split <;> simp

@[simp] theorem Dev.noteDelay_kept (d : Dev) (n : Nat) (x : Option Nat) : (Dev.noteDelay d n x).kept = d.kept := by
  unfold Dev.noteDelay
  try dsimp only
  repeat' first | with_reducible rfl | (simp [*]; done) | intro _ | with_reducible apply kept_ite | split

@[simp] theorem Dev.beatFrame_kept (d : Dev) (n : Nat) (f : List Byte) : (d.beatFrame n f).kept = d.kept := by
  unfold Dev.beatFrame
  refine Dev.rxControl_kept _ _ _ _ _ ?_
  intro a
  dsimp only
  repeat' first | with_reducible rfl | (simp; done) | with_reducible apply kept_ite

@[simp] theorem Dev.reportSeen_kept (d : Dev) (n : Nat) (p : List Byte) (t1 t4 : Nat) : (Dev.reportSeen d n p t1 t4).kept = d.kept := by
  unfold Dev.reportSeen
  try dsimp only
  repeat' first | with_reducible rfl | (simp [*]; done) | intro _ | with_reducible apply kept_ite

@[simp] theorem Dev.enumTimeout_kept (d : Dev) (n : Nat) : (Dev.enumTimeout d n).kept = d.kept := by
  unfold Dev.enumTimeout
  try dsimp only
  repeat' first | with_reducible rfl | (simp [*]; done) | intro _ | with_reducible apply kept_ite

@[simp] theorem Dev.claimRetry_kept (d : Dev) (n : Nat) : (Dev.claimRetry d n).kept = d.kept := by
  unfold Dev.claimRetry
  try dsimp only
  repeat' first | with_reducible rfl | (simp [*]; done) | intro _ | with_reducible apply kept_ite | split

@[simp] theorem Dev.graceExpiry_kept (d : Dev) (n : Nat) : (Dev.graceExpiry d n).kept = d.kept := by
  unfold Dev.graceExpiry
  try dsimp only
  repeat' first | with_reducible rfl | (simp [*]; done) | intro _ | with_reducible apply kept_ite

@[simp] theorem Dev.fwdTimeout_kept (d : Dev) (k : ReqKey) : (Dev.fwdTimeout d k).kept = d.kept := by
  unfold Dev.fwdTimeout
  try dsimp only
  repeat' first | with_reducible rfl | (simp [*]; done) | intro _ | with_reducible apply kept_ite | split

/-! ## Collect -/

@[simp] theorem Dev.lineFault_kept (d : Dev) (i : Nat) : (Dev.lineFault d i).kept = d.kept := by
  unfold Dev.lineFault
  try dsimp only
  repeat' first | with_reducible rfl | (simp [*]; done) | intro _ | with_reducible apply kept_ite

@[simp] theorem Dev.sourceAssert_kept (d : Dev) (i : Nat) (ctx : W32) : (Dev.sourceAssert d i ctx).kept = d.kept := by
  unfold Dev.sourceAssert
  split <;> simp

@[simp] theorem Dev.copyRecord_kept (d : Dev) : (Dev.copyRecord d).kept = d.kept := by
  unfold Dev.copyRecord
  try dsimp only
  repeat' first
    | with_reducible rfl | (simp only [kept_eta, kept_mk, *]; done) | (simp [*]; done) | intro _
    | with_reducible apply kept_ite | with_reducible apply kept_ite2 | split | with_reducible apply kept_foldlSnd
    | with_reducible apply kept_foldlFst | with_reducible apply kept_forEach | with_reducible apply kept_forN
    | with_reducible apply kept_foldl

@[simp] theorem Dev.u0Off_kept (d : Dev) : (Dev.u0Off d).kept = d.kept := by
  unfold Dev.u0Off
  simp

@[simp] theorem Dev.watermarkCopy_kept (d : Dev) : (Dev.watermarkCopy d).kept = d.kept := by
  unfold Dev.watermarkCopy
  try dsimp only
  repeat' first | with_reducible rfl | (simp [*]; done) | intro _ | with_reducible apply kept_ite | split

@[simp] theorem Dev.causeEnds_kept (d : Dev) (i : Nat) : (Dev.causeEnds d i).kept = d.kept := by
  unfold Dev.causeEnds
  split <;> simp

/-! ## Firmware -/

@[simp] theorem Dev.eraseFlash_base (d : Dev) (a size : Nat) : (Dev.eraseFlash d a size).kept.base = d.kept.base := by
  unfold Dev.eraseFlash
  simp [base_eta]

@[simp] theorem Dev.programFlash_base (d : Dev) (a : Nat) (x0 : List Byte) : (Dev.programFlash d a x0).kept.base = d.kept.base := by
  induction x0 generalizing d a with
  | nil => first | rfl
  | cons _ _ ih => 
    unfold Dev.programFlash
    try dsimp only
    repeat' first | with_reducible rfl | (simp only [base_eta, kept_eta, kept_mk, *]; done) | (simp [base_eta, *]; done)

@[simp] theorem Dev.writeDirectory_base (d : Dev) (x : Directory) : (Dev.writeDirectory d x).kept.base = d.kept.base := by
  unfold Dev.writeDirectory
  simp [base_eta]

@[simp] theorem Dev.bootDirectory_base (d : Dev) (millOnly : Bool) : (Dev.bootDirectory d millOnly).kept.base = d.kept.base := by
  unfold Dev.bootDirectory
  try dsimp only
  repeat' first | with_reducible rfl | (simp [base_eta, *]; done) | intro _ | with_reducible apply base_ite

@[simp] theorem Dev.countBoot_kept (d : Dev) : (Dev.countBoot d).kept = d.kept := by
  unfold Dev.countBoot
  simp

@[simp] theorem Dev.newEpoch_kept (d : Dev) : (Dev.newEpoch d).kept = d.kept := by
  unfold Dev.newEpoch
  try dsimp only
  repeat' first
    | with_reducible rfl | (simp [*]; done) | intro _ | with_reducible apply kept_ite | with_reducible apply kept_ite2 | split
    | with_reducible apply kept_foldlSnd | with_reducible apply kept_foldlFst | with_reducible apply kept_forEach

@[simp] theorem Dev.noteTrial_base (d : Dev) : (Dev.noteTrial d).kept.base = d.kept.base := by
  unfold Dev.noteTrial
  simp [base_eta]

@[simp] theorem Dev.couchOff_base (d : Dev) : d.couchOff.kept.base = d.kept.base := by
  have h : ∀ a : Dev, ∀ b : Boot, ((a.setReady 9 false).kept.base = a.kept.base) ∧ ({ a with boot := b } : Dev).kept.base = a.kept.base :=
    fun a b => ⟨Dev.setReady_base a 9 false, rfl⟩
  unfold Dev.couchOff
  dsimp only
  refine (h _ _).2.trans ((Dev.setReady_base _ _ _).trans ?_)
  refine base_forN (fun n a => ?_) (base_forN (fun n a => ?_) rfl)
  · refine base_ite ?_ rfl; simp
  · simp

@[simp] theorem Dev.holdCouch_base (d : Dev) : (Dev.holdCouch d).kept.base = d.kept.base := by
  unfold Dev.holdCouch
  simp [base_eta]

@[simp] theorem Dev.enterLimp_base (d : Dev) (st : BootState) : (d.enterLimp st).kept.base = d.kept.base := by
  unfold Dev.enterLimp
  dsimp only
  have h : ∀ a : Dev, ∀ b : Boot, ({ a with boot := b } : Dev).kept.base = a.kept.base := fun _ _ => rfl
  refine (h _ _).trans ((Dev.couchOff_base _).trans (base_forN (fun n a => ?_) ?_)) <;> simp

@[simp] theorem Dev.checkImage_base (d : Dev) (couch : Bool) : (Dev.checkImage d couch).kept.base = d.kept.base := by
  unfold Dev.checkImage
  simp [base_eta]

@[simp] theorem Dev.acceptMill_base (d : Dev) (k : Nat) : (Dev.acceptMill d k).kept.base = d.kept.base := by
  unfold Dev.acceptMill
  try dsimp only
  repeat' first | with_reducible rfl | (simp [base_eta, *]; done) | intro _ | with_reducible apply base_ite | split

@[simp] theorem Dev.acceptCouch_base (d : Dev) (k : Nat) : (Dev.acceptCouch d k).kept.base = d.kept.base := by
  unfold Dev.acceptCouch
  simp [base_eta]

@[simp] theorem Dev.slotDone_base (d : Dev) (k r : Nat) : (Dev.slotDone d k r).kept.base = d.kept.base := by
  unfold Dev.slotDone
  try dsimp only
  repeat' first | with_reducible rfl | (simp [base_eta, *]; done) | intro _ | with_reducible apply base_ite

end Sys2Proof.Machine
end

