-- ==== Sys2Proof/Laws/KeptTop.lean ====
section
/-! SUPPORT. The frame of the operations, continued: the operations of Bringup, Ingress, Transports, Service, SystemOps, AdminOps, PortOps, HostOps, UsbDevice. -/

namespace Sys2Proof.Machine

open Sys2Proof

/-! ## Bringup -/

@[simp] theorem Dev.quireCut_kept (d : Dev) : (Dev.quireCut d).kept = d.kept := by
  unfold Dev.quireCut
  try dsimp only
  repeat' first | with_reducible rfl | (simp [*]; done) | intro _ | with_reducible apply kept_ite | split

@[simp] theorem Dev.blank_base (d : Dev) (k : MainReset) : (Dev.blank d k).kept.base = d.kept.base := by
  unfold Dev.blank
  simp [base_eta]

@[simp] theorem Dev.keepWarm_base (d b : Dev) : (Dev.keepWarm d b).kept.base = b.kept.base := by
  unfold Dev.keepWarm
  try dsimp only
  repeat' first
    | with_reducible rfl | (simp only [base_eta, kept_eta, kept_mk, *]; done) | (simp [base_eta, *]; done) | intro _
    | with_reducible apply base_ite | split | with_reducible apply base_forEach | with_reducible apply base_forN

@[simp] theorem Dev.coldDies_kept (d b : Dev) : (d.coldDies b).kept = b.kept := by
  unfold Dev.coldDies
  try dsimp only
  repeat' first | with_reducible rfl | (simp; done) | intro _ | with_reducible apply kept_forN | rw [Dev.setEng_kept]

@[simp] theorem Dev.mainReset_base (d : Dev) (k : MainReset) : (Dev.mainReset d k).kept.base = d.kept.base := by
  unfold Dev.mainReset
  try dsimp only
  repeat' first
    | with_reducible rfl | (simp only [base_eta, kept_eta, kept_mk, *]; done) | (simp [base_eta, *]; done) | intro _
    | with_reducible apply base_ite | split | with_reducible apply base_forEach

@[simp] theorem Dev.causesAgain_kept (d : Dev) : (Dev.causesAgain d).kept = d.kept := by
  unfold Dev.causesAgain
  try dsimp only
  repeat' first
    | with_reducible rfl | (simp [*]; done) | intro _ | with_reducible apply kept_ite | with_reducible apply kept_ite2 | split
    | with_reducible apply kept_foldlSnd | with_reducible apply kept_foldlFst | with_reducible apply kept_forEach

@[simp] theorem Dev.strapCheck_kept (d : Dev) (st : Straps) : (Dev.strapCheck d st).kept = d.kept := by
  unfold Dev.strapCheck
  split <;> simp

@[simp] theorem Dev.spiIgnores_kept (d : Dev) (csLow : Bool) : (Dev.spiIgnores d csLow).kept = d.kept := by
  unfold Dev.spiIgnores
  simp

@[simp] theorem Dev.portUnpowered_kept (d : Dev) (n : Nat) : (Dev.portUnpowered d n).kept = d.kept := by
  unfold Dev.portUnpowered
  simp

@[simp] theorem Dev.pressLoss_kept (d : Dev) (x : Nat) : (Dev.pressLoss d x).kept = d.kept := by
  unfold Dev.pressLoss
  try dsimp only
  repeat' first
    | with_reducible rfl | (simp [*]; done) | intro _ | with_reducible apply kept_ite | with_reducible apply kept_ite2 | split
    | with_reducible apply kept_foldlSnd | with_reducible apply kept_foldlFst | with_reducible apply kept_forEach
    | with_reducible apply kept_forN

@[simp] theorem Dev.pressSettled_base (d : Dev) : (Dev.pressSettled d).kept.base = d.kept.base := by
  unfold Dev.pressSettled
  split <;> simp [base_eta]

@[simp] theorem Dev.pressArmed_base (d : Dev) (x : Nat) : (Dev.pressArmed d x).kept.base = d.kept.base := by
  unfold Dev.pressArmed
  try dsimp only
  repeat' first | with_reducible rfl | (simp [base_eta, *]; done) | intro _ | with_reducible apply base_ite

@[simp] theorem Dev.pressArmTimeout_base (d : Dev) (x : Nat) : (Dev.pressArmTimeout d x).kept.base = d.kept.base := by
  unfold Dev.pressArmTimeout
  try dsimp only
  repeat' first
    | with_reducible rfl | (simp [base_eta, *]; done) | intro _ | with_reducible apply base_ite | split
    | with_reducible apply base_forEach | with_reducible apply base_forN | simp

@[simp] theorem Dev.quireReadyRow_base (d : Dev) : (Dev.quireReadyRow d).kept.base = d.kept.base := by
  unfold Dev.quireReadyRow
  try dsimp only
  repeat' first
    | with_reducible rfl | (simp [base_eta, *]; done) | intro _ | with_reducible apply base_ite | split
    | with_reducible apply base_forEach

@[simp] theorem Dev.deckleReadyRow_base (d : Dev) : (Dev.deckleReadyRow d).kept.base = d.kept.base := by
  unfold Dev.deckleReadyRow
  split <;> simp [base_eta]

@[simp] theorem Dev.clearTripCounts_kept (d : Dev) (n : Nat) : (Dev.clearTripCounts d n).kept = d.kept := by
  unfold Dev.clearTripCounts
  simp

@[simp] theorem Dev.portDown_kept (d : Dev) (n : Nat) : (Dev.portDown d n).kept = d.kept := by
  unfold Dev.portDown
  try dsimp only
  repeat' first | with_reducible rfl | (simp [*]; done) | intro _ | with_reducible apply kept_ite | split

@[simp] theorem Dev.psbCheck_kept (d : Dev) (n : Nat) : (Dev.psbCheck d n).kept = d.kept := by
  unfold Dev.psbCheck
  split <;> simp

@[simp] theorem Dev.loadPort_kept (d : Dev) (n : Nat) : (Dev.loadPort d n).kept = d.kept := by
  unfold Dev.loadPort
  try dsimp only
  repeat' first | with_reducible rfl | (simp [*]; done) | intro _ | with_reducible apply kept_ite | split

@[simp] theorem Dev.pdRestart_kept (d : Dev) (n : Nat) : (Dev.pdRestart d n).kept = d.kept := by
  unfold Dev.pdRestart
  try dsimp only
  repeat' first | with_reducible rfl | (simp [*]; done) | intro _ | with_reducible apply kept_ite

@[simp] theorem Dev.pdReadyRow_base (d : Dev) : d.pdReadyRow.kept.base = d.kept.base := by
  have h : ∀ a : Dev, ∀ m : Bool, ({ a with maint := m } : Dev).kept.base = a.kept.base := fun _ _ => rfl
  unfold Dev.pdReadyRow
  refine base_ite ?_ rfl
  dsimp only
  refine (Dev.bootDirectory_base _ _).trans ((Dev.setReady_base _ _ _).trans ((h _ _).trans ?_))
  refine base_ite (base_forN (fun n a => ?_) rfl) ?_
  · simp
  · refine (congrArg Kept.base (Dev.pdRestart_kept _ _)).trans ((congrArg Kept.base (Dev.loadPortRegs_kept _ _)).trans ?_)
    refine base_forN (fun n a => ?_) ?_ <;> simp

@[simp] theorem Dev.startImages_base (d : Dev) (st : Straps) : (Dev.startImages d st).kept.base = d.kept.base := by
  unfold Dev.startImages
  split <;> simp [base_eta]

@[simp] theorem Dev.selftestDone_base (d : Dev) (st : Straps) (failed : BitVec 9) : (d.selftestDone st failed).kept.base = d.kept.base := by
  have h : ∀ a : Dev, ∀ v : Vat, ({ a with vat := v } : Dev).kept.base = a.kept.base := fun _ _ => rfl
  unfold Dev.selftestDone
  refine base_ite ?_ rfl
  extract_lets old v d1 newly d2 good b d3 v'
  have h2 : d2.kept.base = d.kept.base := base_forEach (fun b a => by simp) rfl
  split
  · exact h2
  · extract_lets depth k d4 d5 d6
    have h4 : d4.kept.base = d.kept.base := (h _ _).trans ((Dev.setReady_base _ _ _).trans (by simp [h2]))
    have h5 : d5.kept.base = d.kept.base := base_ite (by simp [h4]) h4
    have h6 : d6.kept.base = d.kept.base := base_ite (by simp [h5]) h5
    simp [h6]

@[simp] theorem Dev.ethLoad_kept (d : Dev) (e : Nat) : (Dev.ethLoad d e).kept = d.kept := by
  unfold Dev.ethLoad
  simp

@[simp] theorem Dev.millInitDone_base (d : Dev) : (Dev.millInitDone d).kept.base = d.kept.base := by
  unfold Dev.millInitDone
  try dsimp only
  repeat' first | with_reducible rfl | (simp [base_eta, *]; done) | intro _ | with_reducible apply base_ite | split

@[simp] theorem Dev.hostStart_base (d : Dev) : (Dev.hostStart d).kept.base = d.kept.base := by
  unfold Dev.hostStart
  split <;> simp [base_eta]

@[simp] theorem Dev.handKeys_kept (d : Dev) : (Dev.handKeys d).kept = d.kept := by
  unfold Dev.handKeys
  simp

@[simp] theorem Dev.couchStart_base (d : Dev) : d.couchStart.kept.base = d.kept.base := by
  have h : ∀ a : Dev, ∀ v : Boot, ({ a with boot := v } : Dev).kept.base = a.kept.base := fun _ _ => rfl
  unfold Dev.couchStart
  refine base_ite ?_ rfl
  extract_lets d1 b d2 d3
  have h1 : d1.kept.base = d.kept.base := base_forN (fun i a => by simp) (by simp)
  have h2 : d2.kept.base = d.kept.base := (Dev.setReady_base _ _ _).trans ((h _ _).trans h1)
  refine base_ite (base_ite ?_ ?_) ?_
  · simp [d3, h2]
  · simp [d3, h2]
  · simp [h2]

@[simp] theorem Dev.dropErases_base (d : Dev) : (Dev.dropErases d).kept.base = d.kept.base := by
  unfold Dev.dropErases
  try dsimp only
  repeat' first
    | with_reducible rfl | (simp [base_eta, *]; done) | intro _ | with_reducible apply base_ite | split
    | with_reducible apply base_forEach

@[simp] theorem Dev.dropWork_kept (d : Dev) : (Dev.dropWork d).kept = d.kept := by
  unfold Dev.dropWork
  try dsimp only
  repeat' first
    | with_reducible rfl | (simp only [kept_eta, kept_mk, *]; done) | (simp [*]; done) | intro _
    | with_reducible apply kept_ite | with_reducible apply kept_ite2 | split | with_reducible apply kept_foldlSnd
    | with_reducible apply kept_foldlFst | with_reducible apply kept_forEach | with_reducible apply kept_forN
    | with_reducible apply kept_foldl | with_reducible apply kept_getD | simp

@[simp] theorem Dev.resetSv0_kept (d : Dev) : (Dev.resetSv0 d).kept = d.kept := by
  unfold Dev.resetSv0
  try dsimp only
  repeat' first
    | with_reducible rfl | (simp [*]; done) | intro _ | with_reducible apply kept_ite | with_reducible apply kept_ite2 | split
    | with_reducible apply kept_foldlSnd | with_reducible apply kept_foldlFst | with_reducible apply kept_forEach

@[simp] theorem Dev.millWatchdog_base (d : Dev) : (Dev.millWatchdog d).kept.base = d.kept.base := by
  unfold Dev.millWatchdog
  split <;> simp [base_eta]

@[simp] theorem Dev.couchWatchdog_base (d : Dev) : d.couchWatchdog.kept.base = d.kept.base := by
  have h : ∀ a : Dev, ∀ v : Boot, ({ a with boot := v } : Dev).kept.base = a.kept.base := fun _ _ => rfl
  unfold Dev.couchWatchdog
  refine base_ite ?_ rfl
  extract_lets d1 d2 d3
  refine (h _ _).trans ((Dev.setReady_base _ _ _).trans (base_forN (fun n a => by simp) ?_))
  rw [Dev.handKeys_kept]
  exact base_forEach (fun q a => base_ite (by simp) rfl) (by simp [d1])

@[simp] theorem Dev.crossCore_kept (d : Dev) (k : ReqKey) : (Dev.crossCore d k).kept = d.kept := by
  unfold Dev.crossCore
  try dsimp only
  repeat' first | with_reducible rfl | (simp [*]; done) | intro _ | with_reducible apply kept_ite | split

@[simp] theorem Dev.u0VbusChange_kept (d : Dev) (present : Bool) : (Dev.u0VbusChange d present).kept = d.kept := by
  unfold Dev.u0VbusChange
  try dsimp only
  repeat' first | with_reducible rfl | (simp [*]; done) | intro _ | with_reducible apply kept_ite

/-! ## Ingress -/

@[simp] theorem Dev.spend_kept (d : Dev) (sub n : Nat) : (Dev.spend d sub n).kept = d.kept := by
  unfold Dev.spend
  split <;> simp

@[simp] theorem Dev.accept_kept (d : Dev) (n : Nat) (rq : Request) : (Dev.accept d n rq).kept = d.kept := by
  unfold Dev.accept
  simp

@[simp] theorem Dev.check15_kept (d : Dev) (n : Nat) (rq : Request) : (Dev.check15 d n rq).kept = d.kept := by
  unfold Dev.check15
  try dsimp only
  repeat' first
    | with_reducible rfl | (simp [*]; done) | intro _ | with_reducible apply kept_ite | with_reducible apply kept_ite2 | split
    | with_reducible apply kept_foldlSnd | with_reducible apply kept_foldlFst | with_reducible apply kept_forEach
    | with_reducible apply kept_forN | with_reducible apply kept_foldl | rw [Dev.takeClaim_kept ‹_›]
    | with_reducible apply kept_getD | simp

@[simp] theorem Dev.forward_kept (d : Dev) (e : Entry) (p : List Byte) (n : Nat) (rq : Request) (pos : Nat) : (Dev.forward d e p n rq pos).kept = d.kept := by
  unfold Dev.forward
  try dsimp only
  repeat' first
    | with_reducible rfl | (simp [*]; done) | intro _ | with_reducible apply kept_ite | with_reducible apply kept_ite2 | split
    | with_reducible apply kept_foldlSnd | with_reducible apply kept_foldlFst | with_reducible apply kept_forEach
    | with_reducible apply kept_forN | with_reducible apply kept_foldl | rw [Dev.enqueue_kept ‹_›]
    | with_reducible apply kept_getD | simp

@[simp] theorem Dev.judge_kept (d : Dev) (e : Entry) (p : List Byte) (n : Nat) (rq : Request) : (Dev.judge d e p n rq).kept = d.kept := by
  unfold Dev.judge
  try dsimp only
  repeat' first | with_reducible rfl | (simp [*]; done) | intro _ | with_reducible apply kept_ite | split

@[simp] theorem Dev.police_kept (d : Dev) (e : Entry) (p : List Byte) (rq : Request) : (Dev.police d e p rq).kept = d.kept := by
  unfold Dev.police
  try dsimp only
  repeat' first | with_reducible rfl | (simp [*]; done) | intro _ | with_reducible apply kept_ite

@[simp] theorem Dev.replayCheck_kept (d : Dev) (e : Entry) (p : List Byte) (rq : Request) : (Dev.replayCheck d e p rq).kept = d.kept := by
  unfold Dev.replayCheck
  try dsimp only
  repeat' first | with_reducible rfl | (simp [*]; done) | intro _ | with_reducible apply kept_ite | split

@[simp] theorem Dev.ingress_kept (d : Dev) (e : Entry) (p : List Byte) : (Dev.ingress d e p).kept = d.kept := by
  unfold Dev.ingress
  try dsimp only
  repeat' first | with_reducible rfl | (simp [*]; done) | intro _ | with_reducible apply kept_ite | split

@[simp] theorem Dev.arrive_kept (d : Dev) (e : Entry) (p : List Byte) : (Dev.arrive d e p).kept = d.kept := by
  unfold Dev.arrive
  split <;> simp

/-! ## Transports -/

theorem Dev.spiStep_kept (d : Dev) (act : Dev → Dev) (h_act : ∀ a0, (act a0).kept = a0.kept) : (Dev.spiStep d act).kept = d.kept := by
  unfold Dev.spiStep
  try dsimp only
  repeat' first | with_reducible rfl | (simp [*]; done) | intro _ | with_reducible apply kept_ite | split

@[simp] theorem Dev.setOut_kept (d : Dev) (bytes : List Byte) : (Dev.setOut d bytes).kept = d.kept := by
  unfold Dev.setOut
  simp

@[simp] theorem Dev.spiWrite_kept (d : Dev) (a : Nat) (x0 : List W32) : (Dev.spiWrite d a x0).kept = d.kept := by
  induction x0 generalizing d a with
  | nil => first | rfl
  | cons _ _ ih => 
    unfold Dev.spiWrite
    try dsimp only
    repeat' first | with_reducible rfl | (simp only [kept_eta, kept_mk, *]; done) | (simp [*]; done)

@[simp] theorem Dev.regWr_kept (d : Dev) (a : Nat) (ws : List W32) : (Dev.regWr d a ws).kept = d.kept := by
  unfold Dev.regWr
  split <;> simp

@[simp] theorem Dev.spiReadWord_kept (d : Dev) (st : Straps) (a : Nat) : (Dev.spiReadWord d st a).2.kept = d.kept := by
  unfold Dev.spiReadWord
  try dsimp only
  repeat' first | with_reducible rfl | (simp [*]; done) | intro _ | with_reducible apply kept_ite | split

@[simp] theorem Dev.spiRead_kept (d : Dev) (st : Straps) (notReady : Option Nat) (a i : Nat) (x0 : Nat) : (Dev.spiRead d st notReady a i x0).kept = d.kept := by
  induction x0 generalizing d st notReady a i with
  | zero => first | rfl
  | succ _ ih => 
    unfold Dev.spiRead
    try dsimp only
    repeat' first
    | with_reducible rfl | (simp only [kept_eta, kept_mk, *]; done) | (simp [*]; done) | (rw [ih]; simp; done) | intro _
    | with_reducible apply kept_ite

@[simp] theorem Dev.rdStatus_kept (d : Dev) : (Dev.rdStatus d).kept = d.kept := by
  unfold Dev.rdStatus
  simp

@[simp] theorem Dev.pktWr_kept (d : Dev) (st : Straps) (bytes : List Byte) : (d.pktWr st bytes).kept = d.kept := by
  unfold Dev.pktWr
  refine kept_ite (by simp) (kept_ite (by simp) ?_)
  split
  · rename_i h; simp [Dev.stage_kept h]
  · simp

@[simp] theorem Dev.pktRd_kept (d : Dev) (clocked : Nat) (bad : List Nat) : (Dev.pktRd d clocked bad).kept = d.kept := by
  unfold Dev.pktRd
  try dsimp only
  repeat' first | with_reducible rfl | (simp [*]; done) | intro _ | with_reducible apply kept_ite | split

@[simp] theorem Dev.dropFrame_kept (d : Dev) (e : Nat) : (Dev.dropFrame d e).kept = d.kept := by
  unfold Dev.dropFrame
  simp

@[simp] theorem Dev.wakeDrop_kept (d : Dev) : (Dev.wakeDrop d).kept = d.kept := by
  unfold Dev.wakeDrop
  simp

@[simp] theorem Dev.udpIn_kept (d : Dev) (e : Nat) (g : Datagram) : (d.udpIn e g).kept = d.kept := by
  unfold Dev.udpIn
  refine kept_ite rfl (kept_ite (kept_ite (by simp) (by simp)) ?_)
  extract_lets w
  have hw : w.2.kept = d.kept := by simp [w]
  split
  · rename_i d1 h
    have e : d1.kept = d.kept := by have := Dev.passFrame_kept w.2 e (Datagram.frame g e w.1); rw [h] at this; exact this.trans hw
    exact e
  · rename_i f d1 h
    have e' : d1.kept = d.kept := by have := Dev.passFrame_kept w.2 e (Datagram.frame g e w.1); rw [h] at this; exact this.trans hw
    refine kept_ite ?_ ?_ <;> simp [e']

@[simp] theorem Dev.netFrame_kept (d : Dev) (k : NetAnswer) (e : Nat) (q : NetQuery) : (Dev.netFrame d k e q).2.kept = d.kept := by
  unfold Dev.netFrame
  simp

theorem Dev.frameStarts_kept (d : Dev) (e n : Nat) (act : Dev → Dev) (h_act : ∀ a0, (act a0).kept = a0.kept) : (Dev.frameStarts d e n act).kept = d.kept := by
  unfold Dev.frameStarts
  try dsimp only
  repeat' first | with_reducible rfl | (simp [*]; done) | intro _ | with_reducible apply kept_ite

@[simp] theorem Dev.resolve_kept (d : Dev) (e : Nat) (k : NetAnswer) (v6 : Bool) (q : NetQuery) :
    (d.resolve e k v6 q).kept = d.kept := by
  unfold Dev.resolve
  refine kept_ite rfl (Dev.frameStarts_kept _ _ _ _ fun a => kept_ite (by simp) ?_)
  dsimp only
  refine kept_ite ?_ ?_ <;> simp

@[simp] theorem Dev.echo_kept (d : Dev) (e : Nat) (q : NetQuery) : (d.echo e q).kept = d.kept := by
  unfold Dev.echo
  refine kept_ite rfl (Dev.frameStarts_kept _ _ _ _ fun a => kept_ite (by simp) (kept_ite (by simp) ?_))
  simp

@[simp] theorem Dev.ptpIn_kept (d : Dev) (e : Nat) (m : PtpEvent) : (Dev.ptpIn d e m).kept = d.kept := by
  unfold Dev.ptpIn
  split <;> simp

@[simp] theorem Dev.ethLink_kept (d : Dev) (e : Nat) (on : Bool) : (Dev.ethLink d e on).kept = d.kept := by
  unfold Dev.ethLink
  split <;> simp

@[simp] theorem Dev.mgmtHold_kept (d : Dev) (l : Nat) : (Dev.mgmtHold d l).kept = d.kept := by
  unfold Dev.mgmtHold
  simp

@[simp] theorem Dev.bulkOutMgmt_kept (d : Dev) (l : Nat) (bytes : List Byte) : (d.bulkOutMgmt l bytes).kept = d.kept := by
  unfold Dev.bulkOutMgmt
  refine kept_ite rfl (kept_ite (by simp) (kept_ite (by simp) ?_))
  split
  · rename_i h; simp [Dev.stage_kept h]
  · simp

@[simp] theorem Dev.bulkInMgmt_kept (d : Dev) (l : Nat) (bad : List Nat) : (d.bulkInMgmt l bad).kept = d.kept := by
  unfold Dev.bulkInMgmt
  refine kept_ite rfl ?_
  split
  · rfl
  · dsimp only
    split
    · rfl
    · rename_i p out d1 h
      have e : d1.kept = d.kept := Dev.takePacket_kept h
      split <;> simp [e]

/-! ## Service -/

theorem Dev.responseIn_kept {d : Dev} {p : List Byte} {poison : Bool} {y : Dev} (h : Dev.responseIn d p poison = some y) : y.kept = d.kept := by
  unfold Dev.responseIn at h
  try dsimp only at h
  repeat' first | (cases h; simp [*]; done) | (split at h) | cases h

theorem Dev.notifIn_kept {d : Dev} {svc : Nat} {p : List Byte} {poison : Bool} {y : Dev} (h : d.notifIn svc p poison = some y) :
    y.kept = d.kept := by
  unfold Dev.notifIn at h
  dsimp only at h
  split at h
  · cases h; simp
  · generalize (if svc = 0 then 3 else svc) = c at h
    generalize ha : (if 64 ≤ d.unsent (pkSub p) then d.dropOldest (pkSub p) else d).openQueue _ _ _ _ _ _ = a at h
    have e : a.kept = d.kept := ha ▸ (Dev.openQueue_kept _ _ _ _ _ _ _).trans (kept_ite (by simp) rfl)
    split at h
    · split at h
      · rename_i d2 h2
        have e2 := (Dev.enqueue_kept h2).trans e
        cases h
        split <;> simp [e2]
      · cases h; simp [e]
    · cases h

theorem Dev.consume_kept {d : Dev} {f : List Byte} {poison : Bool} {y : Dev} (h : d.consume f poison = some y) : y.kept = d.kept := by
  unfold Dev.consume at h
  dsimp only at h
  repeat' first | (split at h) | exact Dev.responseIn_kept h | exact Dev.notifIn_kept h | (cases h; simp; done)

@[simp] theorem Dev.moveConsumed_kept (d : Dev) (n v : Nat) : (d.moveConsumed n v).kept = d.kept := by
  unfold Dev.moveConsumed
  split
  · rfl
  · rename_i r d1 h
    have e : d1.kept = d.kept := Dev.poolTake_kept h
    exact kept_getD (fun x hx => (Dev.consume_kept hx).trans e) rfl

@[simp] theorem Dev.frameIn_kept (d : Dev) (n : Nat) (f : List Byte) : (Dev.frameIn d n f).kept = d.kept := by
  unfold Dev.frameIn
  try dsimp only
  repeat' first | with_reducible rfl | (simp [*]; done) | intro _ | with_reducible apply kept_ite

@[simp] theorem Dev.serviceFrame_kept (d : Dev) (n : Nat) (low : Bool) (f : List Byte) : (Dev.serviceFrame d n low f).kept = d.kept := by
  unfold Dev.serviceFrame
  try dsimp only
  repeat' first | with_reducible rfl | (simp [*]; done) | intro _ | with_reducible apply kept_ite

@[simp] theorem Dev.sendService_kept (d : Dev) (n v : Nat) : (d.sendService n v).kept = d.kept := by
  unfold Dev.sendService
  split
  · rename_i x d1 h
    have e : d1.kept = d.kept := Dev.chooseUnit_kept h
    split
    · refine kept_ite ?_ rfl; simp [e]
    · rfl
  · rfl

@[simp] theorem Dev.relaySend_kept (d : Dev) (n v : Nat) : (Dev.relaySend d n v).kept = d.kept := by
  unfold Dev.relaySend
  try dsimp only
  repeat' first | with_reducible rfl | (simp [*]; done) | intro _ | with_reducible apply kept_ite | split

@[simp] theorem Dev.reportPoll_kept (d : Dev) (n t2 t3 : Nat) : (Dev.reportPoll d n t2 t3).kept = d.kept := by
  unfold Dev.reportPoll
  try dsimp only
  repeat' first | with_reducible rfl | (simp [*]; done) | intro _ | with_reducible apply kept_ite

/-! ## SystemOps -/

theorem Dev.opcodeRow_kept (d : Dev) (k : ReqKey) (o : Nat) (mine : List Byte → Bool) (run : Request → Dev → Dev) (h_run : ∀ a0 a1, (run a0 a1).kept = a1.kept) : (Dev.opcodeRow d k o mine run).kept = d.kept := by
  unfold Dev.opcodeRow
  try dsimp only
  repeat' first | with_reducible rfl | (simp [*]; done) | intro _ | with_reducible apply kept_ite | split

@[simp] theorem Dev.okWith_kept (d : Dev) (rq : Request) (params : List Byte) : (Dev.okWith d rq params).kept = d.kept := by
  unfold Dev.okWith
  simp

@[simp] theorem Dev.chipScope_kept (d : Dev) (rq : Request) : (Dev.chipScope d rq).kept = d.kept := by
  unfold Dev.chipScope
  simp

@[simp] theorem Dev.portSourcesReset_kept (d : Dev) (n : Nat) : (Dev.portSourcesReset d n).kept = d.kept := by
  unfold Dev.portSourcesReset
  try dsimp only
  repeat' first
    | with_reducible rfl | (simp [*]; done) | intro _ | with_reducible apply kept_ite | with_reducible apply kept_ite2 | split
    | with_reducible apply kept_foldlSnd | with_reducible apply kept_foldlFst | with_reducible apply kept_forEach

@[simp] theorem Dev.portScope_kept (d : Dev) (rq : Request) (n : Nat) : (Dev.portScope d rq n).kept = d.kept := by
  unfold Dev.portScope
  split <;> simp

@[simp] theorem Dev.readWord_kept (d : Dev) (st : Straps) (shadow : Bool) (a : Nat) : (Dev.readWord d st shadow a).2.kept = d.kept := by
  unfold Dev.readWord
  split <;> simp

@[simp] theorem Dev.readWords_kept (d : Dev) (st : Straps) (shadow : Bool) (a : Nat) (x0 : Nat) : (Dev.readWords d st shadow a x0).2.kept = d.kept := by
  induction x0 generalizing d st shadow a with
  | zero => first | rfl
  | succ _ ih => 
    unfold Dev.readWords
    try dsimp only
    repeat' first | with_reducible rfl | (simp only [kept_eta, kept_mk, *]; done) | (simp [*]; done)

@[simp] theorem Dev.writeWords_kept (d : Dev) (who : SubId × BitVec 16) (opened : Bool) (done st : Nat) (a : Nat) (x0 : List W32) : (Dev.writeWords d who opened done st a x0).2.2.kept = d.kept := by
  induction x0 generalizing d who opened done st a with
  | nil => first | rfl
  | cons _ _ ih => 
    unfold Dev.writeWords
    try dsimp only
    repeat' first
    | with_reducible rfl | (simp only [kept_eta, kept_mk, *]; done) | (simp [*]; done) | (rw [ih]; simp; done) | intro _
    | with_reducible apply kept_ite | with_reducible apply kept_ite2 | split

/-! ## AdminOps -/

@[simp] theorem Dev.writeQuireWords_kept (d : Dev) (who : SubId × BitVec 16) (done st w : Nat) (x0 : List W32) : (Dev.writeQuireWords d who done st w x0).2.2.kept = d.kept := by
  induction x0 generalizing d who done st w with
  | nil => first | rfl
  | cons _ _ ih => 
    unfold Dev.writeQuireWords
    try dsimp only
    repeat' first
    | with_reducible rfl | (simp only [kept_eta, kept_mk, *]; done) | (simp [*]; done) | (rw [ih]; simp; done) | intro _
    | with_reducible apply kept_ite | with_reducible apply kept_ite2 | split

@[simp] theorem Dev.guardedWrites_kept (d : Dev) (who : SubId × BitVec 16) (ws : List (Nat × W32)) : (Dev.guardedWrites d who ws).2.kept = d.kept := by
  unfold Dev.guardedWrites
  try dsimp only
  repeat' first
    | with_reducible rfl | (simp only [kept_eta, kept_mk, *]; done) | (simp [*]; done) | intro _
    | with_reducible apply kept_ite | with_reducible apply kept_ite2 | split | with_reducible apply kept_foldlSnd

@[simp] theorem Dev.fwWrite_base (d : Dev) (rq : Request) (x : Nat) : (Dev.fwWrite d rq x).kept.base = d.kept.base := by
  unfold Dev.fwWrite
  try dsimp only
  repeat' first | with_reducible rfl | (simp [base_eta, *]; done) | intro _ | with_reducible apply base_ite

@[simp] theorem Dev.eraseDone_base (d : Dev) (k : ReqKey) : (Dev.eraseDone d k).kept.base = d.kept.base := by
  unfold Dev.eraseDone
  try dsimp only
  repeat' first | with_reducible rfl | (simp [base_eta, *]; done) | intro _ | with_reducible apply base_ite | split

@[simp] theorem Dev.fwConfirm_base (d : Dev) : (Dev.fwConfirm d).kept.base = d.kept.base := by
  unfold Dev.fwConfirm
  split <;> simp [base_eta]

@[simp] theorem Dev.setRegs_kept (d : Dev) (a : Nat) (x0 : List W32) : (Dev.setRegs d a x0).kept = d.kept := by
  induction x0 generalizing d a with
  | nil => first | rfl
  | cons _ _ ih => 
    unfold Dev.setRegs
    try dsimp only
    repeat' first | with_reducible rfl | (simp only [kept_eta, kept_mk, *]; done) | (simp [*]; done)

@[simp] theorem Dev.linkEnable_kept (d : Dev) (rq : Request) (bit' : Nat) : (Dev.linkEnable d rq bit').kept = d.kept := by
  unfold Dev.linkEnable
  try dsimp only
  repeat' first | with_reducible rfl | (simp [*]; done) | intro _ | with_reducible apply kept_ite

@[simp] theorem Dev.wideValues_kept (d : Dev) (x0 : List W32) : (Dev.wideValues d x0).2.kept = d.kept := by
  induction x0 generalizing d with
  | nil => first | rfl
  | cons _ _ ih => 
    unfold Dev.wideValues
    try dsimp only
    repeat' first | with_reducible rfl | (simp only [kept_eta, kept_mk, *]; done) | (simp [*]; done)

/-! ## PortOps -/

@[simp] theorem Dev.portResetOp_kept (d : Dev) (k : ReqKey) (n : Nat) : (Dev.portResetOp d k n).kept = d.kept := by
  unfold Dev.portResetOp
  try dsimp only
  repeat' first | with_reducible rfl | (simp [*]; done) | intro _ | with_reducible apply kept_ite

@[simp] theorem Dev.disablePort_kept (d : Dev) (n : Nat) : (Dev.disablePort d n).kept = d.kept := by
  unfold Dev.disablePort
  try dsimp only
  repeat' first | with_reducible rfl | (simp [*]; done) | intro _ | with_reducible apply kept_ite

@[simp] theorem Dev.portSuspendOp_kept (d : Dev) (rq : Request) (n : Nat) : (Dev.portSuspendOp d rq n).kept = d.kept := by
  unfold Dev.portSuspendOp
  try dsimp only
  repeat' first | with_reducible rfl | (simp [*]; done) | intro _ | with_reducible apply kept_ite

@[simp] theorem Dev.pwrActive_kept (d : Dev) : (Dev.pwrActive d).kept = d.kept := by
  unfold Dev.pwrActive
  simp

@[simp] theorem Dev.pdAction_kept (d : Dev) (k : ReqKey) (n act : Nat) : (Dev.pdAction d k n act).kept = d.kept := by
  unfold Dev.pdAction
  try dsimp only
  repeat' first | with_reducible rfl | (simp [*]; done) | intro _ | with_reducible apply kept_ite

@[simp] theorem Dev.pdActionRow_kept (d : Dev) (k : ReqKey) (act : Nat) (mine : List Byte → Bool) :
    (d.pdActionRow k act mine).kept = d.kept := by
  unfold Dev.pdActionRow
  refine Dev.opcodeRow_kept _ _ _ _ _ fun rq a => ?_
  dsimp only
  refine kept_ite ?_ ?_ <;> simp

/-! ## HostOps -/

@[simp] theorem Dev.workFor_kept (d : Dev) (c : Nat) : (Dev.workFor d c).kept = d.kept := by
  unfold Dev.workFor
  simp

@[simp] theorem Dev.transferFor_kept (d : Dev) (c : Nat) : (Dev.transferFor d c).kept = d.kept := by
  unfold Dev.transferFor
  simp

theorem Dev.linkOut_kept {d : Dev} {c : Nat} {poison : Bool} {toggle : Nat} {x0 : List (List Byte)} {y : Dev} (h : Dev.linkOut d c poison toggle x0 = some y) : y.kept = d.kept := by
  induction x0 generalizing d c poison toggle y with
  | nil => unfold Dev.linkOut at h; first | (cases h; simp; done)
  | cons _ _ ih =>
    unfold Dev.linkOut at h
    try dsimp only at h
    repeat' first
    | (cases h; simp [*]; done) | (rw [ih h]; simp; done) | (rw [ih h, Dev.enqueue_kept ‹_›])
    | (rw [ih h]; simp [Dev.enqueue_kept ‹_›]; done) | (split at h) | cases h

@[simp] theorem Dev.startTransfer_kept (d : Dev) (rq : Request) (t : Transfer) (data : List Byte) :
    (d.startTransfer rq t data).kept = d.kept := by
  unfold Dev.startTransfer
  dsimp only
  refine kept_ite (by simp) ?_
  split
  · simp
  · rename_i h
    split
    · simp
    · rename_i h2
      simp [Dev.linkOut_kept h2, Dev.takeClaim_kept h]

@[simp] theorem Dev.controlOp_kept (d : Dev) (rq : Request) (c : Nat) : (Dev.controlOp d rq c).kept = d.kept := by
  unfold Dev.controlOp
  try dsimp only
  repeat' first | with_reducible rfl | (simp [*]; done) | intro _ | with_reducible apply kept_ite | split

@[simp] theorem Dev.bulkOutOp_kept (d : Dev) (rq : Request) (c : Nat) : (Dev.bulkOutOp d rq c).kept = d.kept := by
  unfold Dev.bulkOutOp
  try dsimp only
  repeat' first | with_reducible rfl | (simp [*]; done) | intro _ | with_reducible apply kept_ite

@[simp] theorem Dev.bulkInOp_kept (d : Dev) (rq : Request) (c : Nat) : (Dev.bulkInOp d rq c).kept = d.kept := by
  unfold Dev.bulkInOp
  simp

@[simp] theorem Dev.openBinding_kept (d : Dev) (rq : Request) (o : OpenParams) : (Dev.openBinding d rq o).kept = d.kept := by
  unfold Dev.openBinding
  try dsimp only
  repeat' first | with_reducible rfl | (simp [*]; done) | intro _ | with_reducible apply kept_ite

@[simp] theorem Dev.openOp_kept (d : Dev) (rq : Request) (o : OpenParams) (c0 : Nat) : (Dev.openOp d rq o c0).kept = d.kept := by
  unfold Dev.openOp
  try dsimp only
  repeat' first | with_reducible rfl | (simp [*]; done) | intro _ | with_reducible apply kept_ite | split

@[simp] theorem Dev.closeAll_kept (d : Dev) (k : ReqKey) (cs : List Nat) : (Dev.closeAll d k cs).kept = d.kept := by
  unfold Dev.closeAll
  try dsimp only
  repeat' first
    | with_reducible rfl | (simp [*]; done) | intro _ | with_reducible apply kept_ite | with_reducible apply kept_ite2 | split
    | with_reducible apply kept_foldlSnd | with_reducible apply kept_foldlFst | with_reducible apply kept_forEach

@[simp] theorem Dev.admitSub_kept (d : Dev) (rq : Request) (x : SubParams) (c : Nat) : (d.admitSub rq x c).kept = d.kept := by
  unfold Dev.admitSub
  dsimp only
  split
  · simp
  · split
    · simp
    · rename_i h; simp [Dev.claimSheet_kept h]

@[simp] theorem Dev.sheetWritten_kept (d : Dev) (c : Nat) (x : Subscription) (v : List Byte) (poison : Bool) : (Dev.sheetWritten d c x v poison).kept = d.kept := by
  unfold Dev.sheetWritten
  simp

/-! ## UsbDevice -/

@[simp] theorem Dev.configuredLink_kept (d : Dev) (l : Nat) : (Dev.configuredLink d l).kept = d.kept := by
  unfold Dev.configuredLink
  split <;> simp

@[simp] theorem Dev.turnResponse_kept (d : Dev) (q : Nat) : (d.turnResponse q).kept = d.kept := by
  unfold Dev.turnResponse
  split
  · rfl
  · rename_i r cells d1 h
    have e : d1.kept = d.kept := Dev.dequeue_kept h
    dsimp only
    split
    · simp [e]
    · refine kept_getD (fun x hx => ?_) rfl
      obtain ⟨a, ha, rfl⟩ := Option.map_eq_some_iff.1 hx
      simp [Dev.enqueue_kept ha, e]

@[simp] theorem Dev.turnResponses_kept (d : Dev) (l : Nat) : (Dev.turnResponses d l).kept = d.kept := by
  unfold Dev.turnResponses
  try dsimp only
  repeat' first
    | with_reducible rfl | (simp [*]; done) | intro _ | with_reducible apply kept_ite | with_reducible apply kept_ite2 | split
    | with_reducible apply kept_foldlSnd | with_reducible apply kept_foldlFst | with_reducible apply kept_forEach
    | with_reducible apply kept_forN

@[simp] theorem Dev.functionStd_kept (d : Dev) (l : Nat) (k : UsbKind) (s : Setup) : (Dev.functionStd d l k s).kept = d.kept := by
  unfold Dev.functionStd
  try dsimp only
  repeat' first | with_reducible rfl | (simp [*]; done) | intro _ | with_reducible apply kept_ite

@[simp] theorem Dev.functionRequest_kept (d : Dev) (l : Nat) (k : UsbKind) (s : Setup) : (Dev.functionRequest d l k s).kept = d.kept := by
  unfold Dev.functionRequest
  split <;> simp

@[simp] theorem Dev.functionReset_kept (d : Dev) (l : Nat) : (Dev.functionReset d l).kept = d.kept := by
  unfold Dev.functionReset
  simp

@[simp] theorem Dev.updHub_kept (d : Dev) (f : UsbFunction → UsbFunction) : (Dev.updHub d f).kept = d.kept := by
  unfold Dev.updHub
  simp

@[simp] theorem Dev.hubSays_kept (d : Dev) (r : UsbReply) : (Dev.hubSays d r).kept = d.kept := by
  unfold Dev.hubSays
  simp

@[simp] theorem Dev.hubPortsReset_kept (d : Dev) : (Dev.hubPortsReset d).kept = d.kept := by
  unfold Dev.hubPortsReset
  try dsimp only
  repeat' first
    | with_reducible rfl | (simp [*]; done) | intro _ | with_reducible apply kept_ite | with_reducible apply kept_ite2 | split
    | with_reducible apply kept_foldlSnd | with_reducible apply kept_foldlFst | with_reducible apply kept_forEach
    | with_reducible apply kept_forN

@[simp] theorem Dev.hubConnects_kept (d : Dev) : (Dev.hubConnects d).kept = d.kept := by
  unfold Dev.hubConnects
  try dsimp only
  repeat' first
    | with_reducible rfl | (simp [*]; done) | intro _ | with_reducible apply kept_ite | with_reducible apply kept_ite2 | split
    | with_reducible apply kept_foldlSnd | with_reducible apply kept_foldlFst | with_reducible apply kept_forEach
    | with_reducible apply kept_forN

@[simp] theorem Dev.hubLink_kept (d : Dev) (p v : Nat) : (Dev.hubLink d p v).kept = d.kept := by
  unfold Dev.hubLink
  split <;> simp

@[simp] theorem Dev.hubSuspend_kept (d : Dev) (p : Nat) : (Dev.hubSuspend d p).kept = d.kept := by
  unfold Dev.hubSuspend
  try dsimp only
  repeat' first | with_reducible rfl | (simp [*]; done) | intro _ | with_reducible apply kept_ite

@[simp] theorem Dev.hubResume_kept (d : Dev) (p : Nat) : (Dev.hubResume d p).kept = d.kept := by
  unfold Dev.hubResume
  split <;> simp

@[simp] theorem Dev.hubPortReset_kept (d : Dev) (p : Nat) (warm : Bool) : (Dev.hubPortReset d p warm).kept = d.kept := by
  unfold Dev.hubPortReset
  try dsimp only
  repeat' first | with_reducible rfl | (simp [*]; done) | intro _ | with_reducible apply kept_ite

@[simp] theorem Dev.setLinkState_kept (d : Dev) (p v : Nat) : (Dev.setLinkState d p v).kept = d.kept := by
  unfold Dev.setLinkState
  try dsimp only
  repeat' first | with_reducible rfl | (simp [*]; done) | intro _ | with_reducible apply kept_ite | split

@[simp] theorem Dev.setPortFeature_kept (d : Dev) (k : UsbKind) (p v arg : Nat) : (Dev.setPortFeature d k p v arg).kept = d.kept := by
  unfold Dev.setPortFeature
  try dsimp only
  repeat' first | with_reducible rfl | (simp [*]; done) | intro _ | with_reducible apply kept_ite | split

@[simp] theorem Dev.clearPortFeature_kept (d : Dev) (k : UsbKind) (p v : Nat) : (Dev.clearPortFeature d k p v).kept = d.kept := by
  unfold Dev.clearPortFeature
  try dsimp only
  repeat' first | with_reducible rfl | (simp [*]; done) | intro _ | with_reducible apply kept_ite | split

@[simp] theorem Dev.dropTtRecord_kept (d : Dev) (p : Nat) (b : TtBuffer) : (d.dropTtRecord p b).kept = d.kept := by
  unfold Dev.dropTtRecord
  have e : ∀ q, (match d.dequeue (rqHs 32) q with | some (_, _, d1) => d1 | none => d : Dev).kept = d.kept := by
    intro q
    split
    · rename_i h; exact Dev.dequeue_kept h
    · rfl
  dsimp only
  refine kept_ite (e _) ?_
  split
  · exact e _
  · rfl

@[simp] theorem Dev.clearOneTt_kept (d : Dev) (p : Nat) : (Dev.clearOneTt d p).kept = d.kept := by
  unfold Dev.clearOneTt
  split <;> simp

@[simp] theorem Dev.hubPortRequestIn_kept (d : Dev) (k : UsbKind) (s : Setup) : (Dev.hubPortRequestIn d k s).kept = d.kept := by
  unfold Dev.hubPortRequestIn
  try dsimp only
  repeat' first | with_reducible rfl | (simp [*]; done) | intro _ | with_reducible apply kept_ite

@[simp] theorem Dev.hubClassRequest_kept (d : Dev) (k : UsbKind) (s : Setup) : (Dev.hubClassRequest d k s).kept = d.kept := by
  unfold Dev.hubClassRequest
  try dsimp only
  repeat' first | with_reducible rfl | (simp [*]; done) | intro _ | with_reducible apply kept_ite

@[simp] theorem Dev.hubStd_kept (d : Dev) (k : UsbKind) (s : Setup) : (Dev.hubStd d k s).kept = d.kept := by
  unfold Dev.hubStd
  try dsimp only
  repeat' first | with_reducible rfl | (simp [*]; done) | intro _ | with_reducible apply kept_ite

@[simp] theorem Dev.hubFunctionRequest_kept (d : Dev) (s : Setup) : (Dev.hubFunctionRequest d s).kept = d.kept := by
  unfold Dev.hubFunctionRequest
  try dsimp only
  repeat' first | with_reducible rfl | (simp [*]; done) | intro _ | with_reducible apply kept_ite

@[simp] theorem Dev.u0LinkReset_kept (d : Dev) : (Dev.u0LinkReset d).kept = d.kept := by
  unfold Dev.u0LinkReset
  try dsimp only
  repeat' first | with_reducible rfl | (simp [*]; done) | intro _ | with_reducible apply kept_ite

@[simp] theorem Dev.u0Reset_kept (d : Dev) (speed : Nat) : (Dev.u0Reset d speed).kept = d.kept := by
  unfold Dev.u0Reset
  split <;> simp

@[simp] theorem Dev.transparentLinks_kept (d : Dev) (v : Nat) : (Dev.transparentLinks d v).kept = d.kept := by
  unfold Dev.transparentLinks
  try dsimp only
  repeat' first
    | with_reducible rfl | (simp [*]; done) | intro _ | with_reducible apply kept_ite | with_reducible apply kept_ite2 | split
    | with_reducible apply kept_foldlSnd | with_reducible apply kept_foldlFst | with_reducible apply kept_forEach

@[simp] theorem Dev.u0Suspended_kept (d : Dev) : (Dev.u0Suspended d).kept = d.kept := by
  unfold Dev.u0Suspended
  split <;> simp

@[simp] theorem Dev.u0Resumed_kept (d : Dev) : (Dev.u0Resumed d).kept = d.kept := by
  unfold Dev.u0Resumed
  try dsimp only
  repeat' first | with_reducible rfl | (simp [*]; done) | intro _ | with_reducible apply kept_ite | split

@[simp] theorem Dev.u0Request_kept (d : Dev) (function : Bool) (s : Setup) : (Dev.u0Request d function s).kept = d.kept := by
  unfold Dev.u0Request
  try dsimp only
  repeat' first | with_reducible rfl | (simp [*]; done) | intro _ | with_reducible apply kept_ite

@[simp] theorem Dev.openTt_kept (d : Dev) (p n : Nat) (periodic : Bool) : (Dev.openTt d p n periodic).kept = d.kept := by
  unfold Dev.openTt
  simp

@[simp] theorem Dev.splitStart_kept (d : Dev) (p n : Nat) (periodic isIn : Bool) (out : List Byte) :
    (d.splitStart p n periodic isIn out).kept = d.kept := by
  unfold Dev.splitStart
  dsimp only
  split
  · simp
  · rename_i d1 h
    have e : d1.kept = d.kept := by
      split at h
      · cases h
      · obtain ⟨a, ha, hb⟩ := Option.bind_eq_some_iff.1 h
        simp [Dev.enqueue_kept hb, Dev.takeClaim_kept ha]
    simp [e]

@[simp] theorem Dev.sendSplitData_kept (d : Dev) (p : Nat) (periodic : Bool) : (Dev.sendSplitData d p periodic).kept = d.kept := by
  unfold Dev.sendSplitData
  try dsimp only
  repeat' first | with_reducible rfl | (simp [*]; done) | intro _ | with_reducible apply kept_ite | split

@[simp] theorem Dev.splitComplete_kept (d : Dev) (p : Nat) (periodic : Bool) : (Dev.splitComplete d p periodic).kept = d.kept := by
  unfold Dev.splitComplete
  try dsimp only
  repeat' first | with_reducible rfl | (simp [*]; done) | intro _ | with_reducible apply kept_ite | split

@[simp] theorem Dev.split_kept (d : Dev) (p : Nat) (periodic : Bool) (kind : SplitKind) : (Dev.split d p periodic kind).kept = d.kept := by
  unfold Dev.split
  try dsimp only
  repeat' first | with_reducible rfl | (simp [*]; done) | intro _ | with_reducible apply kept_ite | split

@[simp] theorem Dev.ssPacket_kept (d : Dev) (p : Nat) (upstream : Bool) (bytes : List Byte) : (Dev.ssPacket d p upstream bytes).kept = d.kept := by
  unfold Dev.ssPacket
  try dsimp only
  repeat' first
    | with_reducible rfl | (simp [*]; done) | intro _ | with_reducible apply kept_ite | with_reducible apply kept_ite2 | split
    | with_reducible apply kept_foldlSnd | with_reducible apply kept_foldlFst | with_reducible apply kept_forEach
    | with_reducible apply kept_forN | with_reducible apply kept_foldl | rw [Dev.enqueue_kept ‹_›]
    | with_reducible apply kept_getD

@[simp] theorem Dev.hubWake_kept (d : Dev) (p : Nat) : (Dev.hubWake d p).kept = d.kept := by
  unfold Dev.hubWake
  try dsimp only
  repeat' first | with_reducible rfl | (simp [*]; done) | intro _ | with_reducible apply kept_ite | split

@[simp] theorem Dev.ufpControl_kept (d : Dev) (n : Nat) (s : Setup) : (Dev.ufpControl d n s).kept = d.kept := by
  unfold Dev.ufpControl
  split <;> simp

@[simp] theorem Dev.ufpReset_kept (d : Dev) (n : Nat) (superSpeed : Bool) : (Dev.ufpReset d n superSpeed).kept = d.kept := by
  unfold Dev.ufpReset
  split <;> simp

@[simp] theorem Dev.ufpSuspended_kept (d : Dev) (n : Nat) : (Dev.ufpSuspended d n).kept = d.kept := by
  unfold Dev.ufpSuspended
  split <;> simp

@[simp] theorem Dev.ufpResumed_kept (d : Dev) (n : Nat) : (Dev.ufpResumed d n).kept = d.kept := by
  unfold Dev.ufpResumed
  split <;> simp

end Sys2Proof.Machine
end

