-- ==== Sys2Proof/Laws/Tab.lean ====
section
/-! SUPPORT. The laws of sparse tables: a write keeps the canonical form, a read after a write gives the value written, and
every other key reads as before. -/

namespace Sys2Proof.Machine

variable {α : Type}

/-- A table is canonical above a bound when its first key is above the bound and no default, and its rest is canonical above
that key. -/
theorem wfAbove_cons [DecidableEq α] {d : Nat → α} {t : Tab α} {b : Option Nat} {k : Nat} {v : α} :
    wfAbove d b ((k, v) :: t) = true ↔ (∀ m, b = some m → m < k) ∧ v ≠ d k ∧ wfAbove d (some k) t = true := by
  cases b with
  | none => simp [wfAbove]
  | some m => simp [wfAbove, and_assoc]

/-- A canonical table all of whose keys lie above a key reads its default there. -/
theorem look_below [DecidableEq α] {d : Nat → α} {t : Tab α} {m k : Nat} (h : wfAbove d (some m) t = true) (hk : k ≤ m) :
    look d t k = d k := by
  cases t with
  | nil => rfl
  | cons e t =>
    obtain ⟨k', v⟩ := e
    have hlt : k < k' := Nat.lt_of_le_of_lt hk ((wfAbove_cons.1 h).1 m rfl)
    simp [look, hlt, Nat.ne_of_lt hlt]

/-- A write above the bound keeps the canonical form above the bound. -/
theorem wfAbove_put [DecidableEq α] {d : Nat → α} {t : Tab α} {b : Option Nat} {k : Nat} (v : α) (h : wfAbove d b t = true)
    (hb : ∀ m, b = some m → m < k) : wfAbove d b (put d t k v) = true := by
  induction t generalizing b with
  | nil =>
    by_cases hv : v = d k
    · simp [put, hv, wfAbove]
    · simpa [put, hv] using wfAbove_cons.2 ⟨hb, hv, rfl⟩
  | cons e t ih =>
    obtain ⟨k', v'⟩ := e
    obtain ⟨h1, h2, h3⟩ := wfAbove_cons.1 h
    unfold put
    by_cases hk : k = k'
    · subst hk
      by_cases hv : v = d k
      · cases t with
        | nil => simp [hv, wfAbove]
        | cons e t =>
          obtain ⟨k2, v2⟩ := e
          obtain ⟨g1, g2, g3⟩ := wfAbove_cons.1 h3
          simpa [hv] using wfAbove_cons.2 ⟨fun m hm => Nat.lt_trans (h1 m hm) (g1 k rfl), g2, g3⟩
      · simpa [hv] using wfAbove_cons.2 ⟨h1, hv, h3⟩
    · by_cases hlt : k < k'
      · by_cases hv : v = d k
        · simpa [hk, hlt, hv] using h
        · simpa [hk, hlt, hv] using
            wfAbove_cons.2 ⟨hb, hv, wfAbove_cons.2 ⟨fun m hm => by cases hm; exact hlt, h2, h3⟩⟩
      · have hgt : k' < k := by omega
        simpa [hk, hlt] using wfAbove_cons.2 ⟨h1, h2, ih h3 fun m hm => by cases hm; exact hgt⟩

/-- A write keeps the canonical form. -/
theorem wfTab_put [DecidableEq α] {d : Nat → α} {t : Tab α} (k : Nat) (v : α) (h : wfTab d t = true) :
    wfTab d (put d t k v) = true := wfAbove_put v h (fun _ hm => by cases hm)

/-- What a key reads as after a write above the bound. -/
theorem look_putAbove [DecidableEq α] {d : Nat → α} {t : Tab α} {b : Option Nat} {k j : Nat} (v : α)
    (h : wfAbove d b t = true) : look d (put d t k v) j = if j = k then v else look d t j := by
  induction t generalizing b with
  | nil =>
    by_cases hv : v = d k
    · by_cases hj : j = k
      · simp [put, hv, look, hj]
      · simp [put, hv, look, hj]
    · by_cases hj : j = k
      · simp [put, hv, look, hj]
      · simp [put, hv, look, hj]
  | cons e t ih =>
    obtain ⟨k', v'⟩ := e
    have ht : wfAbove d (some k') t = true := (wfAbove_cons.1 h).2.2
    unfold put
    by_cases hk : k = k'
    · subst hk
      by_cases hv : v = d k
      · by_cases hj : j = k
        · subst hj; simp [hv, look_below ht (Nat.le_refl _)]
        · by_cases hlt : j < k
          · simp [hv, hj, look, hlt, look_below ht (Nat.le_of_lt hlt)]
          · simp [hv, hj, look, hlt]
      · by_cases hj : j = k
        · simp [hv, look, hj]
        · by_cases hlt : j < k
          · simp [hv, hj, look, hlt]
          · simp [hv, hj, look, hlt]
    · by_cases hlt : k < k'
      · by_cases hv : v = d k
        · by_cases hj : j = k
          · subst hj; simp [hk, hlt, hv, look]
          · simp [hk, hlt, hv, hj]
        · by_cases hj : j = k
          · subst hj; simp [hk, hlt, hv, look]
          · by_cases hjk : j < k
            · have h1 : j < k' := by omega
              simp [hk, hlt, hv, hj, look, hjk, h1, Nat.ne_of_lt h1]
            · simp [hk, hlt, hv, hj, look, hjk]
      · by_cases hj : j = k'
        · subst hj; simp [hk, hlt, look, Ne.symm hk]
        · by_cases hjk : j < k'
          · have h1 : j ≠ k := by omega
            simp [hk, hlt, hj, look, hjk, h1]
          · simp [hk, hlt, hj, look, hjk, ih ht]

/-- A read after a write: the value written at its key, and what was there at every other key. -/
theorem look_put [DecidableEq α] {d : Nat → α} {t : Tab α} (k j : Nat) (v : α) (h : wfTab d t = true) :
    look d (put d t k v) j = if j = k then v else look d t j := look_putAbove v h

/-- Two canonical tables that read alike at every key are the same data. -/
theorem tab_ext [DecidableEq α] {d : Nat → α} {t u : Tab α} {b : Option Nat} (ht : wfAbove d b t = true)
    (hu : wfAbove d b u = true) (h : ∀ k, look d t k = look d u k) : t = u := by
  induction t generalizing u b with
  | nil =>
    cases u with
    | nil => rfl
    | cons e u =>
      obtain ⟨k, v⟩ := e
      have hv := (wfAbove_cons.1 hu).2.1
      exact absurd (by simpa [look] using (h k).symm) hv
  | cons e t ih =>
    obtain ⟨k, v⟩ := e
    have h1 : v ≠ d k ∧ wfAbove d (some k) t = true := (wfAbove_cons.1 ht).2
    cases u with
    | nil => exact absurd (by simpa [look] using h k) h1.1
    | cons e u =>
      obtain ⟨k', v'⟩ := e
      have h2 : v' ≠ d k' ∧ wfAbove d (some k') u = true := (wfAbove_cons.1 hu).2
      by_cases hk : k = k'
      · subst hk
        have hv : v = v' := by simpa [look] using h k
        subst hv
        have : t = u := ih h1.2 h2.2 fun j => by
          by_cases hj : k < j
          · have := h j
            have n1 : j ≠ k := by omega
            have n2 : ¬ j < k := by omega
            simpa [look, n1, n2] using this
          · rw [look_below h1.2 (by omega), look_below h2.2 (by omega)]
        rw [this]
      · rcases Nat.lt_or_gt_of_ne hk with hlt | hgt
        · exact absurd (by simpa [look, hk, hlt] using h k) h1.1
        · exact absurd (by simpa [look, Ne.symm hk, hgt] using (h k').symm) h2.1

end Sys2Proof.Machine
end

