-- ==== Sys2Proof/Laws/State.lean ====
section
/-! SUPPORT. The laws of State's updates: what each table write of Machine/Access.lean leaves alone (every other field, by
rfl), and what it makes the table read as. -/

namespace Sys2Proof.Machine

open Sys2Proof

/-! ## State -/

@[simp] theorem State.next_eq (s : State) (d : Dev) : s.next d = .next { s with dev := d } := rfl

/-! ## setPort -/

@[simp] theorem Dev.setPort_frame (d : Dev) (k : Nat) (v : Port) :
    (d.setPort k v).life = d.life ∧ (d.setPort k v).boot = d.boot ∧ (d.setPort k v).flash = d.flash ∧
    (d.setPort k v).regs = d.regs ∧ (d.setPort k v).shadow = d.shadow ∧ (d.setPort k v).counters = d.counters ∧
    (d.setPort k v).guards = d.guards ∧ (d.setPort k v).updates = d.updates ∧
    (d.setPort k v).updateLast = d.updateLast ∧ (d.setPort k v).mailbox = d.mailbox ∧
    (d.setPort k v).quire = d.quire ∧ (d.setPort k v).requests = d.requests ∧ (d.setPort k v).subs = d.subs ∧
    (d.setPort k v).spi = d.spi ∧ (d.setPort k v).vat = d.vat ∧ (d.setPort k v).deficit = d.deficit ∧
    (d.setPort k v).used = d.used ∧ (d.setPort k v).rrNext = d.rrNext ∧ (d.setPort k v).drrCur = d.drrCur ∧
    (d.setPort k v).sentUnit = d.sentUnit ∧ (d.setPort k v).sentBad = d.sentBad ∧ (d.setPort k v).deckle = d.deckle ∧
    (d.setPort k v).ctxs = d.ctxs ∧ (d.setPort k v).bindings = d.bindings ∧ (d.setPort k v).holds = d.holds ∧
    (d.setPort k v).transfers = d.transfers ∧ (d.setPort k v).subscriptions = d.subscriptions ∧
    (d.setPort k v).fuses = d.fuses ∧ (d.setPort k v).dies = d.dies ∧ (d.setPort k v).pd = d.pd ∧
    (d.setPort k v).psb = d.psb ∧ (d.setPort k v).vinLow = d.vinLow ∧ (d.setPort k v).fc = d.fc ∧
    (d.setPort k v).watermark = d.watermark ∧ (d.setPort k v).power = d.power ∧ (d.setPort k v).links = d.links ∧
    (d.setPort k v).funcs = d.funcs ∧ (d.setPort k v).u0 = d.u0 ∧ (d.setPort k v).eths = d.eths ∧
    (d.setPort k v).couchKeys = d.couchKeys ∧ (d.setPort k v).maint = d.maint ∧
    (d.setPort k v).resetDue = d.resetDue ∧ (d.setPort k v).chainDue = d.chainDue ∧ (d.setPort k v).jtag = d.jtag ∧
    (d.setPort k v).scan = d.scan ∧ (d.setPort k v).jtagOut = d.jtagOut ∧ (d.setPort k v).nonceCtr = d.nonceCtr ∧
    (d.setPort k v).freeCtr = d.freeCtr := by
  refine ⟨rfl, rfl, rfl, rfl, rfl, rfl, rfl, rfl, rfl, rfl, rfl, rfl, rfl, rfl, rfl, rfl, rfl, rfl, rfl, rfl, rfl, rfl, rfl, rfl, rfl, rfl, rfl, rfl, rfl, rfl, rfl, rfl, rfl, rfl, rfl, rfl, rfl, rfl, rfl, rfl, rfl, rfl, rfl, rfl, rfl, rfl, rfl, rfl⟩

@[simp] theorem Dev.setPort_ports (d : Dev) (k : Nat) (v : Port) : (d.setPort k v).ports = put portDflt d.ports k v := rfl

theorem Dev.port_setPort (d : Dev) (k j : Nat) (v : Port) (h : wfTab portDflt d.ports = true) :
    (d.setPort k v).port j = if j = k then v else d.port j := look_put k j v h

/-! ## setCtx -/

@[simp] theorem Dev.setCtx_frame (d : Dev) (k : Nat) (v : Ctx) :
    (d.setCtx k v).life = d.life ∧ (d.setCtx k v).boot = d.boot ∧ (d.setCtx k v).flash = d.flash ∧
    (d.setCtx k v).regs = d.regs ∧ (d.setCtx k v).shadow = d.shadow ∧ (d.setCtx k v).counters = d.counters ∧
    (d.setCtx k v).guards = d.guards ∧ (d.setCtx k v).updates = d.updates ∧
    (d.setCtx k v).updateLast = d.updateLast ∧ (d.setCtx k v).mailbox = d.mailbox ∧ (d.setCtx k v).quire = d.quire ∧
    (d.setCtx k v).requests = d.requests ∧ (d.setCtx k v).subs = d.subs ∧ (d.setCtx k v).spi = d.spi ∧
    (d.setCtx k v).vat = d.vat ∧ (d.setCtx k v).deficit = d.deficit ∧ (d.setCtx k v).used = d.used ∧
    (d.setCtx k v).rrNext = d.rrNext ∧ (d.setCtx k v).drrCur = d.drrCur ∧ (d.setCtx k v).sentUnit = d.sentUnit ∧
    (d.setCtx k v).sentBad = d.sentBad ∧ (d.setCtx k v).deckle = d.deckle ∧ (d.setCtx k v).bindings = d.bindings ∧
    (d.setCtx k v).holds = d.holds ∧ (d.setCtx k v).transfers = d.transfers ∧
    (d.setCtx k v).subscriptions = d.subscriptions ∧ (d.setCtx k v).ports = d.ports ∧
    (d.setCtx k v).fuses = d.fuses ∧ (d.setCtx k v).dies = d.dies ∧ (d.setCtx k v).pd = d.pd ∧
    (d.setCtx k v).psb = d.psb ∧ (d.setCtx k v).vinLow = d.vinLow ∧ (d.setCtx k v).fc = d.fc ∧
    (d.setCtx k v).watermark = d.watermark ∧ (d.setCtx k v).power = d.power ∧ (d.setCtx k v).links = d.links ∧
    (d.setCtx k v).funcs = d.funcs ∧ (d.setCtx k v).u0 = d.u0 ∧ (d.setCtx k v).eths = d.eths ∧
    (d.setCtx k v).couchKeys = d.couchKeys ∧ (d.setCtx k v).maint = d.maint ∧ (d.setCtx k v).resetDue = d.resetDue ∧
    (d.setCtx k v).chainDue = d.chainDue ∧ (d.setCtx k v).jtag = d.jtag ∧ (d.setCtx k v).scan = d.scan ∧
    (d.setCtx k v).jtagOut = d.jtagOut ∧ (d.setCtx k v).nonceCtr = d.nonceCtr ∧ (d.setCtx k v).freeCtr = d.freeCtr := by
  refine ⟨rfl, rfl, rfl, rfl, rfl, rfl, rfl, rfl, rfl, rfl, rfl, rfl, rfl, rfl, rfl, rfl, rfl, rfl, rfl, rfl, rfl, rfl, rfl, rfl, rfl, rfl, rfl, rfl, rfl, rfl, rfl, rfl, rfl, rfl, rfl, rfl, rfl, rfl, rfl, rfl, rfl, rfl, rfl, rfl, rfl, rfl, rfl, rfl⟩

@[simp] theorem Dev.setCtx_ctxs (d : Dev) (k : Nat) (v : Ctx) : (d.setCtx k v).ctxs = put ctxDflt d.ctxs k v := rfl

theorem Dev.ctx_setCtx (d : Dev) (k j : Nat) (v : Ctx) (h : wfTab ctxDflt d.ctxs = true) :
    (d.setCtx k v).ctx j = if j = k then v else d.ctx j := look_put k j v h

/-! ## setFuse -/

@[simp] theorem Dev.setFuse_frame (d : Dev) (k : Nat) (v : Fuse) :
    (d.setFuse k v).life = d.life ∧ (d.setFuse k v).boot = d.boot ∧ (d.setFuse k v).flash = d.flash ∧
    (d.setFuse k v).regs = d.regs ∧ (d.setFuse k v).shadow = d.shadow ∧ (d.setFuse k v).counters = d.counters ∧
    (d.setFuse k v).guards = d.guards ∧ (d.setFuse k v).updates = d.updates ∧
    (d.setFuse k v).updateLast = d.updateLast ∧ (d.setFuse k v).mailbox = d.mailbox ∧
    (d.setFuse k v).quire = d.quire ∧ (d.setFuse k v).requests = d.requests ∧ (d.setFuse k v).subs = d.subs ∧
    (d.setFuse k v).spi = d.spi ∧ (d.setFuse k v).vat = d.vat ∧ (d.setFuse k v).deficit = d.deficit ∧
    (d.setFuse k v).used = d.used ∧ (d.setFuse k v).rrNext = d.rrNext ∧ (d.setFuse k v).drrCur = d.drrCur ∧
    (d.setFuse k v).sentUnit = d.sentUnit ∧ (d.setFuse k v).sentBad = d.sentBad ∧ (d.setFuse k v).deckle = d.deckle ∧
    (d.setFuse k v).ctxs = d.ctxs ∧ (d.setFuse k v).bindings = d.bindings ∧ (d.setFuse k v).holds = d.holds ∧
    (d.setFuse k v).transfers = d.transfers ∧ (d.setFuse k v).subscriptions = d.subscriptions ∧
    (d.setFuse k v).ports = d.ports ∧ (d.setFuse k v).dies = d.dies ∧ (d.setFuse k v).pd = d.pd ∧
    (d.setFuse k v).psb = d.psb ∧ (d.setFuse k v).vinLow = d.vinLow ∧ (d.setFuse k v).fc = d.fc ∧
    (d.setFuse k v).watermark = d.watermark ∧ (d.setFuse k v).power = d.power ∧ (d.setFuse k v).links = d.links ∧
    (d.setFuse k v).funcs = d.funcs ∧ (d.setFuse k v).u0 = d.u0 ∧ (d.setFuse k v).eths = d.eths ∧
    (d.setFuse k v).couchKeys = d.couchKeys ∧ (d.setFuse k v).maint = d.maint ∧
    (d.setFuse k v).resetDue = d.resetDue ∧ (d.setFuse k v).chainDue = d.chainDue ∧ (d.setFuse k v).jtag = d.jtag ∧
    (d.setFuse k v).scan = d.scan ∧ (d.setFuse k v).jtagOut = d.jtagOut ∧ (d.setFuse k v).nonceCtr = d.nonceCtr ∧
    (d.setFuse k v).freeCtr = d.freeCtr := by
  refine ⟨rfl, rfl, rfl, rfl, rfl, rfl, rfl, rfl, rfl, rfl, rfl, rfl, rfl, rfl, rfl, rfl, rfl, rfl, rfl, rfl, rfl, rfl, rfl, rfl, rfl, rfl, rfl, rfl, rfl, rfl, rfl, rfl, rfl, rfl, rfl, rfl, rfl, rfl, rfl, rfl, rfl, rfl, rfl, rfl, rfl, rfl, rfl, rfl⟩

@[simp] theorem Dev.setFuse_fuses (d : Dev) (k : Nat) (v : Fuse) : (d.setFuse k v).fuses = put fuseDflt d.fuses k v := rfl

theorem Dev.fuse_setFuse (d : Dev) (k j : Nat) (v : Fuse) (h : wfTab fuseDflt d.fuses = true) :
    (d.setFuse k v).fuse j = if j = k then v else d.fuse j := look_put k j v h

/-! ## setDie -/

@[simp] theorem Dev.setDie_frame (d : Dev) (k : Nat) (v : Die) :
    (d.setDie k v).life = d.life ∧ (d.setDie k v).boot = d.boot ∧ (d.setDie k v).flash = d.flash ∧
    (d.setDie k v).regs = d.regs ∧ (d.setDie k v).shadow = d.shadow ∧ (d.setDie k v).counters = d.counters ∧
    (d.setDie k v).guards = d.guards ∧ (d.setDie k v).updates = d.updates ∧
    (d.setDie k v).updateLast = d.updateLast ∧ (d.setDie k v).mailbox = d.mailbox ∧ (d.setDie k v).quire = d.quire ∧
    (d.setDie k v).requests = d.requests ∧ (d.setDie k v).subs = d.subs ∧ (d.setDie k v).spi = d.spi ∧
    (d.setDie k v).vat = d.vat ∧ (d.setDie k v).deficit = d.deficit ∧ (d.setDie k v).used = d.used ∧
    (d.setDie k v).rrNext = d.rrNext ∧ (d.setDie k v).drrCur = d.drrCur ∧ (d.setDie k v).sentUnit = d.sentUnit ∧
    (d.setDie k v).sentBad = d.sentBad ∧ (d.setDie k v).deckle = d.deckle ∧ (d.setDie k v).ctxs = d.ctxs ∧
    (d.setDie k v).bindings = d.bindings ∧ (d.setDie k v).holds = d.holds ∧ (d.setDie k v).transfers = d.transfers ∧
    (d.setDie k v).subscriptions = d.subscriptions ∧ (d.setDie k v).ports = d.ports ∧
    (d.setDie k v).fuses = d.fuses ∧ (d.setDie k v).pd = d.pd ∧ (d.setDie k v).psb = d.psb ∧
    (d.setDie k v).vinLow = d.vinLow ∧ (d.setDie k v).fc = d.fc ∧ (d.setDie k v).watermark = d.watermark ∧
    (d.setDie k v).power = d.power ∧ (d.setDie k v).links = d.links ∧ (d.setDie k v).funcs = d.funcs ∧
    (d.setDie k v).u0 = d.u0 ∧ (d.setDie k v).eths = d.eths ∧ (d.setDie k v).couchKeys = d.couchKeys ∧
    (d.setDie k v).maint = d.maint ∧ (d.setDie k v).resetDue = d.resetDue ∧ (d.setDie k v).chainDue = d.chainDue ∧
    (d.setDie k v).jtag = d.jtag ∧ (d.setDie k v).scan = d.scan ∧ (d.setDie k v).jtagOut = d.jtagOut ∧
    (d.setDie k v).nonceCtr = d.nonceCtr ∧ (d.setDie k v).freeCtr = d.freeCtr := by
  refine ⟨rfl, rfl, rfl, rfl, rfl, rfl, rfl, rfl, rfl, rfl, rfl, rfl, rfl, rfl, rfl, rfl, rfl, rfl, rfl, rfl, rfl, rfl, rfl, rfl, rfl, rfl, rfl, rfl, rfl, rfl, rfl, rfl, rfl, rfl, rfl, rfl, rfl, rfl, rfl, rfl, rfl, rfl, rfl, rfl, rfl, rfl, rfl, rfl⟩

@[simp] theorem Dev.setDie_dies (d : Dev) (k : Nat) (v : Die) : (d.setDie k v).dies = put dieDflt d.dies k v := rfl

theorem Dev.die_setDie (d : Dev) (k j : Nat) (v : Die) (h : wfTab dieDflt d.dies = true) :
    (d.setDie k v).die j = if j = k then v else d.die j := look_put k j v h

/-! ## setEng -/

@[simp] theorem Dev.setEng_frame (d : Dev) (k : Nat) (v : Pd) :
    (d.setEng k v).life = d.life ∧ (d.setEng k v).boot = d.boot ∧ (d.setEng k v).flash = d.flash ∧
    (d.setEng k v).regs = d.regs ∧ (d.setEng k v).shadow = d.shadow ∧ (d.setEng k v).counters = d.counters ∧
    (d.setEng k v).guards = d.guards ∧ (d.setEng k v).updates = d.updates ∧
    (d.setEng k v).updateLast = d.updateLast ∧ (d.setEng k v).mailbox = d.mailbox ∧ (d.setEng k v).quire = d.quire ∧
    (d.setEng k v).requests = d.requests ∧ (d.setEng k v).subs = d.subs ∧ (d.setEng k v).spi = d.spi ∧
    (d.setEng k v).vat = d.vat ∧ (d.setEng k v).deficit = d.deficit ∧ (d.setEng k v).used = d.used ∧
    (d.setEng k v).rrNext = d.rrNext ∧ (d.setEng k v).drrCur = d.drrCur ∧ (d.setEng k v).sentUnit = d.sentUnit ∧
    (d.setEng k v).sentBad = d.sentBad ∧ (d.setEng k v).deckle = d.deckle ∧ (d.setEng k v).ctxs = d.ctxs ∧
    (d.setEng k v).bindings = d.bindings ∧ (d.setEng k v).holds = d.holds ∧ (d.setEng k v).transfers = d.transfers ∧
    (d.setEng k v).subscriptions = d.subscriptions ∧ (d.setEng k v).ports = d.ports ∧
    (d.setEng k v).fuses = d.fuses ∧ (d.setEng k v).dies = d.dies ∧ (d.setEng k v).psb = d.psb ∧
    (d.setEng k v).vinLow = d.vinLow ∧ (d.setEng k v).fc = d.fc ∧ (d.setEng k v).watermark = d.watermark ∧
    (d.setEng k v).power = d.power ∧ (d.setEng k v).links = d.links ∧ (d.setEng k v).funcs = d.funcs ∧
    (d.setEng k v).u0 = d.u0 ∧ (d.setEng k v).eths = d.eths ∧ (d.setEng k v).couchKeys = d.couchKeys ∧
    (d.setEng k v).maint = d.maint ∧ (d.setEng k v).resetDue = d.resetDue ∧ (d.setEng k v).chainDue = d.chainDue ∧
    (d.setEng k v).jtag = d.jtag ∧ (d.setEng k v).scan = d.scan ∧ (d.setEng k v).jtagOut = d.jtagOut ∧
    (d.setEng k v).nonceCtr = d.nonceCtr ∧ (d.setEng k v).freeCtr = d.freeCtr := by
  refine ⟨rfl, rfl, rfl, rfl, rfl, rfl, rfl, rfl, rfl, rfl, rfl, rfl, rfl, rfl, rfl, rfl, rfl, rfl, rfl, rfl, rfl, rfl, rfl, rfl, rfl, rfl, rfl, rfl, rfl, rfl, rfl, rfl, rfl, rfl, rfl, rfl, rfl, rfl, rfl, rfl, rfl, rfl, rfl, rfl, rfl, rfl, rfl, rfl⟩

@[simp] theorem Dev.setEng_pd (d : Dev) (k : Nat) (v : Pd) : (d.setEng k v).pd = put engDflt d.pd k v := rfl

theorem Dev.eng_setEng (d : Dev) (k j : Nat) (v : Pd) (h : wfTab engDflt d.pd = true) :
    (d.setEng k v).eng j = if j = k then v else d.eng j := look_put k j v h

/-! ## setLink -/

@[simp] theorem Dev.setLink_frame (d : Dev) (k : Nat) (v : Link) :
    (d.setLink k v).life = d.life ∧ (d.setLink k v).boot = d.boot ∧ (d.setLink k v).flash = d.flash ∧
    (d.setLink k v).regs = d.regs ∧ (d.setLink k v).shadow = d.shadow ∧ (d.setLink k v).counters = d.counters ∧
    (d.setLink k v).guards = d.guards ∧ (d.setLink k v).updates = d.updates ∧
    (d.setLink k v).updateLast = d.updateLast ∧ (d.setLink k v).mailbox = d.mailbox ∧
    (d.setLink k v).quire = d.quire ∧ (d.setLink k v).requests = d.requests ∧ (d.setLink k v).subs = d.subs ∧
    (d.setLink k v).spi = d.spi ∧ (d.setLink k v).vat = d.vat ∧ (d.setLink k v).deficit = d.deficit ∧
    (d.setLink k v).used = d.used ∧ (d.setLink k v).rrNext = d.rrNext ∧ (d.setLink k v).drrCur = d.drrCur ∧
    (d.setLink k v).sentUnit = d.sentUnit ∧ (d.setLink k v).sentBad = d.sentBad ∧ (d.setLink k v).deckle = d.deckle ∧
    (d.setLink k v).ctxs = d.ctxs ∧ (d.setLink k v).bindings = d.bindings ∧ (d.setLink k v).holds = d.holds ∧
    (d.setLink k v).transfers = d.transfers ∧ (d.setLink k v).subscriptions = d.subscriptions ∧
    (d.setLink k v).ports = d.ports ∧ (d.setLink k v).fuses = d.fuses ∧ (d.setLink k v).dies = d.dies ∧
    (d.setLink k v).pd = d.pd ∧ (d.setLink k v).psb = d.psb ∧ (d.setLink k v).vinLow = d.vinLow ∧
    (d.setLink k v).fc = d.fc ∧ (d.setLink k v).watermark = d.watermark ∧ (d.setLink k v).power = d.power ∧
    (d.setLink k v).funcs = d.funcs ∧ (d.setLink k v).u0 = d.u0 ∧ (d.setLink k v).eths = d.eths ∧
    (d.setLink k v).couchKeys = d.couchKeys ∧ (d.setLink k v).maint = d.maint ∧
    (d.setLink k v).resetDue = d.resetDue ∧ (d.setLink k v).chainDue = d.chainDue ∧ (d.setLink k v).jtag = d.jtag ∧
    (d.setLink k v).scan = d.scan ∧ (d.setLink k v).jtagOut = d.jtagOut ∧ (d.setLink k v).nonceCtr = d.nonceCtr ∧
    (d.setLink k v).freeCtr = d.freeCtr := by
  refine ⟨rfl, rfl, rfl, rfl, rfl, rfl, rfl, rfl, rfl, rfl, rfl, rfl, rfl, rfl, rfl, rfl, rfl, rfl, rfl, rfl, rfl, rfl, rfl, rfl, rfl, rfl, rfl, rfl, rfl, rfl, rfl, rfl, rfl, rfl, rfl, rfl, rfl, rfl, rfl, rfl, rfl, rfl, rfl, rfl, rfl, rfl, rfl, rfl⟩

@[simp] theorem Dev.setLink_links (d : Dev) (k : Nat) (v : Link) : (d.setLink k v).links = put linkDflt d.links k v := rfl

theorem Dev.link_setLink (d : Dev) (k j : Nat) (v : Link) (h : wfTab linkDflt d.links = true) :
    (d.setLink k v).link j = if j = k then v else d.link j := look_put k j v h

/-! ## setFunc -/

@[simp] theorem Dev.setFunc_frame (d : Dev) (k : Nat) (v : UsbFunction) :
    (d.setFunc k v).life = d.life ∧ (d.setFunc k v).boot = d.boot ∧ (d.setFunc k v).flash = d.flash ∧
    (d.setFunc k v).regs = d.regs ∧ (d.setFunc k v).shadow = d.shadow ∧ (d.setFunc k v).counters = d.counters ∧
    (d.setFunc k v).guards = d.guards ∧ (d.setFunc k v).updates = d.updates ∧
    (d.setFunc k v).updateLast = d.updateLast ∧ (d.setFunc k v).mailbox = d.mailbox ∧
    (d.setFunc k v).quire = d.quire ∧ (d.setFunc k v).requests = d.requests ∧ (d.setFunc k v).subs = d.subs ∧
    (d.setFunc k v).spi = d.spi ∧ (d.setFunc k v).vat = d.vat ∧ (d.setFunc k v).deficit = d.deficit ∧
    (d.setFunc k v).used = d.used ∧ (d.setFunc k v).rrNext = d.rrNext ∧ (d.setFunc k v).drrCur = d.drrCur ∧
    (d.setFunc k v).sentUnit = d.sentUnit ∧ (d.setFunc k v).sentBad = d.sentBad ∧ (d.setFunc k v).deckle = d.deckle ∧
    (d.setFunc k v).ctxs = d.ctxs ∧ (d.setFunc k v).bindings = d.bindings ∧ (d.setFunc k v).holds = d.holds ∧
    (d.setFunc k v).transfers = d.transfers ∧ (d.setFunc k v).subscriptions = d.subscriptions ∧
    (d.setFunc k v).ports = d.ports ∧ (d.setFunc k v).fuses = d.fuses ∧ (d.setFunc k v).dies = d.dies ∧
    (d.setFunc k v).pd = d.pd ∧ (d.setFunc k v).psb = d.psb ∧ (d.setFunc k v).vinLow = d.vinLow ∧
    (d.setFunc k v).fc = d.fc ∧ (d.setFunc k v).watermark = d.watermark ∧ (d.setFunc k v).power = d.power ∧
    (d.setFunc k v).links = d.links ∧ (d.setFunc k v).u0 = d.u0 ∧ (d.setFunc k v).eths = d.eths ∧
    (d.setFunc k v).couchKeys = d.couchKeys ∧ (d.setFunc k v).maint = d.maint ∧
    (d.setFunc k v).resetDue = d.resetDue ∧ (d.setFunc k v).chainDue = d.chainDue ∧ (d.setFunc k v).jtag = d.jtag ∧
    (d.setFunc k v).scan = d.scan ∧ (d.setFunc k v).jtagOut = d.jtagOut ∧ (d.setFunc k v).nonceCtr = d.nonceCtr ∧
    (d.setFunc k v).freeCtr = d.freeCtr := by
  refine ⟨rfl, rfl, rfl, rfl, rfl, rfl, rfl, rfl, rfl, rfl, rfl, rfl, rfl, rfl, rfl, rfl, rfl, rfl, rfl, rfl, rfl, rfl, rfl, rfl, rfl, rfl, rfl, rfl, rfl, rfl, rfl, rfl, rfl, rfl, rfl, rfl, rfl, rfl, rfl, rfl, rfl, rfl, rfl, rfl, rfl, rfl, rfl, rfl⟩

@[simp] theorem Dev.setFunc_funcs (d : Dev) (k : Nat) (v : UsbFunction) : (d.setFunc k v).funcs = put funcDflt d.funcs k v := rfl

theorem Dev.func_setFunc (d : Dev) (k j : Nat) (v : UsbFunction) (h : wfTab funcDflt d.funcs = true) :
    (d.setFunc k v).func j = if j = k then v else d.func j := look_put k j v h

/-! ## setEth -/

@[simp] theorem Dev.setEth_frame (d : Dev) (k : Nat) (v : Eth) :
    (d.setEth k v).life = d.life ∧ (d.setEth k v).boot = d.boot ∧ (d.setEth k v).flash = d.flash ∧
    (d.setEth k v).regs = d.regs ∧ (d.setEth k v).shadow = d.shadow ∧ (d.setEth k v).counters = d.counters ∧
    (d.setEth k v).guards = d.guards ∧ (d.setEth k v).updates = d.updates ∧
    (d.setEth k v).updateLast = d.updateLast ∧ (d.setEth k v).mailbox = d.mailbox ∧ (d.setEth k v).quire = d.quire ∧
    (d.setEth k v).requests = d.requests ∧ (d.setEth k v).subs = d.subs ∧ (d.setEth k v).spi = d.spi ∧
    (d.setEth k v).vat = d.vat ∧ (d.setEth k v).deficit = d.deficit ∧ (d.setEth k v).used = d.used ∧
    (d.setEth k v).rrNext = d.rrNext ∧ (d.setEth k v).drrCur = d.drrCur ∧ (d.setEth k v).sentUnit = d.sentUnit ∧
    (d.setEth k v).sentBad = d.sentBad ∧ (d.setEth k v).deckle = d.deckle ∧ (d.setEth k v).ctxs = d.ctxs ∧
    (d.setEth k v).bindings = d.bindings ∧ (d.setEth k v).holds = d.holds ∧ (d.setEth k v).transfers = d.transfers ∧
    (d.setEth k v).subscriptions = d.subscriptions ∧ (d.setEth k v).ports = d.ports ∧
    (d.setEth k v).fuses = d.fuses ∧ (d.setEth k v).dies = d.dies ∧ (d.setEth k v).pd = d.pd ∧
    (d.setEth k v).psb = d.psb ∧ (d.setEth k v).vinLow = d.vinLow ∧ (d.setEth k v).fc = d.fc ∧
    (d.setEth k v).watermark = d.watermark ∧ (d.setEth k v).power = d.power ∧ (d.setEth k v).links = d.links ∧
    (d.setEth k v).funcs = d.funcs ∧ (d.setEth k v).u0 = d.u0 ∧ (d.setEth k v).couchKeys = d.couchKeys ∧
    (d.setEth k v).maint = d.maint ∧ (d.setEth k v).resetDue = d.resetDue ∧ (d.setEth k v).chainDue = d.chainDue ∧
    (d.setEth k v).jtag = d.jtag ∧ (d.setEth k v).scan = d.scan ∧ (d.setEth k v).jtagOut = d.jtagOut ∧
    (d.setEth k v).nonceCtr = d.nonceCtr ∧ (d.setEth k v).freeCtr = d.freeCtr := by
  refine ⟨rfl, rfl, rfl, rfl, rfl, rfl, rfl, rfl, rfl, rfl, rfl, rfl, rfl, rfl, rfl, rfl, rfl, rfl, rfl, rfl, rfl, rfl, rfl, rfl, rfl, rfl, rfl, rfl, rfl, rfl, rfl, rfl, rfl, rfl, rfl, rfl, rfl, rfl, rfl, rfl, rfl, rfl, rfl, rfl, rfl, rfl, rfl, rfl⟩

@[simp] theorem Dev.setEth_eths (d : Dev) (k : Nat) (v : Eth) : (d.setEth k v).eths = put ethDflt d.eths k v := rfl

theorem Dev.eth_setEth (d : Dev) (k j : Nat) (v : Eth) (h : wfTab ethDflt d.eths = true) :
    (d.setEth k v).eth j = if j = k then v else d.eth j := look_put k j v h

/-! ## setSubr -/

@[simp] theorem Dev.setSubr_frame (d : Dev) (k : Nat) (v : Subscriber) :
    (d.setSubr k v).life = d.life ∧ (d.setSubr k v).boot = d.boot ∧ (d.setSubr k v).flash = d.flash ∧
    (d.setSubr k v).regs = d.regs ∧ (d.setSubr k v).shadow = d.shadow ∧ (d.setSubr k v).counters = d.counters ∧
    (d.setSubr k v).guards = d.guards ∧ (d.setSubr k v).updates = d.updates ∧
    (d.setSubr k v).updateLast = d.updateLast ∧ (d.setSubr k v).mailbox = d.mailbox ∧
    (d.setSubr k v).quire = d.quire ∧ (d.setSubr k v).requests = d.requests ∧ (d.setSubr k v).spi = d.spi ∧
    (d.setSubr k v).vat = d.vat ∧ (d.setSubr k v).deficit = d.deficit ∧ (d.setSubr k v).used = d.used ∧
    (d.setSubr k v).rrNext = d.rrNext ∧ (d.setSubr k v).drrCur = d.drrCur ∧ (d.setSubr k v).sentUnit = d.sentUnit ∧
    (d.setSubr k v).sentBad = d.sentBad ∧ (d.setSubr k v).deckle = d.deckle ∧ (d.setSubr k v).ctxs = d.ctxs ∧
    (d.setSubr k v).bindings = d.bindings ∧ (d.setSubr k v).holds = d.holds ∧
    (d.setSubr k v).transfers = d.transfers ∧ (d.setSubr k v).subscriptions = d.subscriptions ∧
    (d.setSubr k v).ports = d.ports ∧ (d.setSubr k v).fuses = d.fuses ∧ (d.setSubr k v).dies = d.dies ∧
    (d.setSubr k v).pd = d.pd ∧ (d.setSubr k v).psb = d.psb ∧ (d.setSubr k v).vinLow = d.vinLow ∧
    (d.setSubr k v).fc = d.fc ∧ (d.setSubr k v).watermark = d.watermark ∧ (d.setSubr k v).power = d.power ∧
    (d.setSubr k v).links = d.links ∧ (d.setSubr k v).funcs = d.funcs ∧ (d.setSubr k v).u0 = d.u0 ∧
    (d.setSubr k v).eths = d.eths ∧ (d.setSubr k v).couchKeys = d.couchKeys ∧ (d.setSubr k v).maint = d.maint ∧
    (d.setSubr k v).resetDue = d.resetDue ∧ (d.setSubr k v).chainDue = d.chainDue ∧ (d.setSubr k v).jtag = d.jtag ∧
    (d.setSubr k v).scan = d.scan ∧ (d.setSubr k v).jtagOut = d.jtagOut ∧ (d.setSubr k v).nonceCtr = d.nonceCtr ∧
    (d.setSubr k v).freeCtr = d.freeCtr := by
  refine ⟨rfl, rfl, rfl, rfl, rfl, rfl, rfl, rfl, rfl, rfl, rfl, rfl, rfl, rfl, rfl, rfl, rfl, rfl, rfl, rfl, rfl, rfl, rfl, rfl, rfl, rfl, rfl, rfl, rfl, rfl, rfl, rfl, rfl, rfl, rfl, rfl, rfl, rfl, rfl, rfl, rfl, rfl, rfl, rfl, rfl, rfl, rfl, rfl⟩

@[simp] theorem Dev.setSubr_subs (d : Dev) (k : Nat) (v : Subscriber) : (d.setSubr k v).subs = put subrDflt d.subs k v := rfl

theorem Dev.subr_setSubr (d : Dev) (k j : Nat) (v : Subscriber) (h : wfTab subrDflt d.subs = true) :
    (d.setSubr k v).subr j = if j = k then v else d.subr j := look_put k j v h

/-! ## setSubscription -/

@[simp] theorem Dev.setSubscription_frame (d : Dev) (k : Nat) (v : Option Subscription) :
    (d.setSubscription k v).life = d.life ∧ (d.setSubscription k v).boot = d.boot ∧
    (d.setSubscription k v).flash = d.flash ∧ (d.setSubscription k v).regs = d.regs ∧
    (d.setSubscription k v).shadow = d.shadow ∧ (d.setSubscription k v).counters = d.counters ∧
    (d.setSubscription k v).guards = d.guards ∧ (d.setSubscription k v).updates = d.updates ∧
    (d.setSubscription k v).updateLast = d.updateLast ∧ (d.setSubscription k v).mailbox = d.mailbox ∧
    (d.setSubscription k v).quire = d.quire ∧ (d.setSubscription k v).requests = d.requests ∧
    (d.setSubscription k v).subs = d.subs ∧ (d.setSubscription k v).spi = d.spi ∧
    (d.setSubscription k v).vat = d.vat ∧ (d.setSubscription k v).deficit = d.deficit ∧
    (d.setSubscription k v).used = d.used ∧ (d.setSubscription k v).rrNext = d.rrNext ∧
    (d.setSubscription k v).drrCur = d.drrCur ∧ (d.setSubscription k v).sentUnit = d.sentUnit ∧
    (d.setSubscription k v).sentBad = d.sentBad ∧ (d.setSubscription k v).deckle = d.deckle ∧
    (d.setSubscription k v).ctxs = d.ctxs ∧ (d.setSubscription k v).bindings = d.bindings ∧
    (d.setSubscription k v).holds = d.holds ∧ (d.setSubscription k v).transfers = d.transfers ∧
    (d.setSubscription k v).ports = d.ports ∧ (d.setSubscription k v).fuses = d.fuses ∧
    (d.setSubscription k v).dies = d.dies ∧ (d.setSubscription k v).pd = d.pd ∧ (d.setSubscription k v).psb = d.psb ∧
    (d.setSubscription k v).vinLow = d.vinLow ∧ (d.setSubscription k v).fc = d.fc ∧
    (d.setSubscription k v).watermark = d.watermark ∧ (d.setSubscription k v).power = d.power ∧
    (d.setSubscription k v).links = d.links ∧ (d.setSubscription k v).funcs = d.funcs ∧
    (d.setSubscription k v).u0 = d.u0 ∧ (d.setSubscription k v).eths = d.eths ∧
    (d.setSubscription k v).couchKeys = d.couchKeys ∧ (d.setSubscription k v).maint = d.maint ∧
    (d.setSubscription k v).resetDue = d.resetDue ∧ (d.setSubscription k v).chainDue = d.chainDue ∧
    (d.setSubscription k v).jtag = d.jtag ∧ (d.setSubscription k v).scan = d.scan ∧
    (d.setSubscription k v).jtagOut = d.jtagOut ∧ (d.setSubscription k v).nonceCtr = d.nonceCtr ∧
    (d.setSubscription k v).freeCtr = d.freeCtr := by
  refine ⟨rfl, rfl, rfl, rfl, rfl, rfl, rfl, rfl, rfl, rfl, rfl, rfl, rfl, rfl, rfl, rfl, rfl, rfl, rfl, rfl, rfl, rfl, rfl, rfl, rfl, rfl, rfl, rfl, rfl, rfl, rfl, rfl, rfl, rfl, rfl, rfl, rfl, rfl, rfl, rfl, rfl, rfl, rfl, rfl, rfl, rfl, rfl, rfl⟩

@[simp] theorem Dev.setSubscription_subscriptions (d : Dev) (k : Nat) (v : Option Subscription) : (d.setSubscription k v).subscriptions = put subscriptionDflt d.subscriptions k v := rfl

theorem Dev.subscription_setSubscription (d : Dev) (k j : Nat) (v : Option Subscription) (h : wfTab subscriptionDflt d.subscriptions = true) :
    (d.setSubscription k v).subscription j = if j = k then v else d.subscription j := look_put k j v h

/-! ## setBinding -/

@[simp] theorem Dev.setBinding_frame (d : Dev) (k : Nat) (v : Option Binding) :
    (d.setBinding k v).life = d.life ∧ (d.setBinding k v).boot = d.boot ∧ (d.setBinding k v).flash = d.flash ∧
    (d.setBinding k v).regs = d.regs ∧ (d.setBinding k v).shadow = d.shadow ∧
    (d.setBinding k v).counters = d.counters ∧ (d.setBinding k v).guards = d.guards ∧
    (d.setBinding k v).updates = d.updates ∧ (d.setBinding k v).updateLast = d.updateLast ∧
    (d.setBinding k v).mailbox = d.mailbox ∧ (d.setBinding k v).quire = d.quire ∧
    (d.setBinding k v).requests = d.requests ∧ (d.setBinding k v).subs = d.subs ∧ (d.setBinding k v).spi = d.spi ∧
    (d.setBinding k v).vat = d.vat ∧ (d.setBinding k v).deficit = d.deficit ∧ (d.setBinding k v).used = d.used ∧
    (d.setBinding k v).rrNext = d.rrNext ∧ (d.setBinding k v).drrCur = d.drrCur ∧
    (d.setBinding k v).sentUnit = d.sentUnit ∧ (d.setBinding k v).sentBad = d.sentBad ∧
    (d.setBinding k v).deckle = d.deckle ∧ (d.setBinding k v).ctxs = d.ctxs ∧ (d.setBinding k v).holds = d.holds ∧
    (d.setBinding k v).transfers = d.transfers ∧ (d.setBinding k v).subscriptions = d.subscriptions ∧
    (d.setBinding k v).ports = d.ports ∧ (d.setBinding k v).fuses = d.fuses ∧ (d.setBinding k v).dies = d.dies ∧
    (d.setBinding k v).pd = d.pd ∧ (d.setBinding k v).psb = d.psb ∧ (d.setBinding k v).vinLow = d.vinLow ∧
    (d.setBinding k v).fc = d.fc ∧ (d.setBinding k v).watermark = d.watermark ∧ (d.setBinding k v).power = d.power ∧
    (d.setBinding k v).links = d.links ∧ (d.setBinding k v).funcs = d.funcs ∧ (d.setBinding k v).u0 = d.u0 ∧
    (d.setBinding k v).eths = d.eths ∧ (d.setBinding k v).couchKeys = d.couchKeys ∧
    (d.setBinding k v).maint = d.maint ∧ (d.setBinding k v).resetDue = d.resetDue ∧
    (d.setBinding k v).chainDue = d.chainDue ∧ (d.setBinding k v).jtag = d.jtag ∧ (d.setBinding k v).scan = d.scan ∧
    (d.setBinding k v).jtagOut = d.jtagOut ∧ (d.setBinding k v).nonceCtr = d.nonceCtr ∧
    (d.setBinding k v).freeCtr = d.freeCtr := by
  refine ⟨rfl, rfl, rfl, rfl, rfl, rfl, rfl, rfl, rfl, rfl, rfl, rfl, rfl, rfl, rfl, rfl, rfl, rfl, rfl, rfl, rfl, rfl, rfl, rfl, rfl, rfl, rfl, rfl, rfl, rfl, rfl, rfl, rfl, rfl, rfl, rfl, rfl, rfl, rfl, rfl, rfl, rfl, rfl, rfl, rfl, rfl, rfl, rfl⟩

@[simp] theorem Dev.setBinding_bindings (d : Dev) (k : Nat) (v : Option Binding) : (d.setBinding k v).bindings = put bindingDflt d.bindings k v := rfl

theorem Dev.binding_setBinding (d : Dev) (k j : Nat) (v : Option Binding) (h : wfTab bindingDflt d.bindings = true) :
    (d.setBinding k v).binding j = if j = k then v else d.binding j := look_put k j v h

/-! ## setGuard -/

@[simp] theorem Dev.setGuard_frame (d : Dev) (k : Nat) (v : Nat) :
    (d.setGuard k v).life = d.life ∧ (d.setGuard k v).boot = d.boot ∧ (d.setGuard k v).flash = d.flash ∧
    (d.setGuard k v).regs = d.regs ∧ (d.setGuard k v).shadow = d.shadow ∧ (d.setGuard k v).counters = d.counters ∧
    (d.setGuard k v).updates = d.updates ∧ (d.setGuard k v).updateLast = d.updateLast ∧
    (d.setGuard k v).mailbox = d.mailbox ∧ (d.setGuard k v).quire = d.quire ∧
    (d.setGuard k v).requests = d.requests ∧ (d.setGuard k v).subs = d.subs ∧ (d.setGuard k v).spi = d.spi ∧
    (d.setGuard k v).vat = d.vat ∧ (d.setGuard k v).deficit = d.deficit ∧ (d.setGuard k v).used = d.used ∧
    (d.setGuard k v).rrNext = d.rrNext ∧ (d.setGuard k v).drrCur = d.drrCur ∧
    (d.setGuard k v).sentUnit = d.sentUnit ∧ (d.setGuard k v).sentBad = d.sentBad ∧
    (d.setGuard k v).deckle = d.deckle ∧ (d.setGuard k v).ctxs = d.ctxs ∧ (d.setGuard k v).bindings = d.bindings ∧
    (d.setGuard k v).holds = d.holds ∧ (d.setGuard k v).transfers = d.transfers ∧
    (d.setGuard k v).subscriptions = d.subscriptions ∧ (d.setGuard k v).ports = d.ports ∧
    (d.setGuard k v).fuses = d.fuses ∧ (d.setGuard k v).dies = d.dies ∧ (d.setGuard k v).pd = d.pd ∧
    (d.setGuard k v).psb = d.psb ∧ (d.setGuard k v).vinLow = d.vinLow ∧ (d.setGuard k v).fc = d.fc ∧
    (d.setGuard k v).watermark = d.watermark ∧ (d.setGuard k v).power = d.power ∧ (d.setGuard k v).links = d.links ∧
    (d.setGuard k v).funcs = d.funcs ∧ (d.setGuard k v).u0 = d.u0 ∧ (d.setGuard k v).eths = d.eths ∧
    (d.setGuard k v).couchKeys = d.couchKeys ∧ (d.setGuard k v).maint = d.maint ∧
    (d.setGuard k v).resetDue = d.resetDue ∧ (d.setGuard k v).chainDue = d.chainDue ∧
    (d.setGuard k v).jtag = d.jtag ∧ (d.setGuard k v).scan = d.scan ∧ (d.setGuard k v).jtagOut = d.jtagOut ∧
    (d.setGuard k v).nonceCtr = d.nonceCtr ∧ (d.setGuard k v).freeCtr = d.freeCtr := by
  refine ⟨rfl, rfl, rfl, rfl, rfl, rfl, rfl, rfl, rfl, rfl, rfl, rfl, rfl, rfl, rfl, rfl, rfl, rfl, rfl, rfl, rfl, rfl, rfl, rfl, rfl, rfl, rfl, rfl, rfl, rfl, rfl, rfl, rfl, rfl, rfl, rfl, rfl, rfl, rfl, rfl, rfl, rfl, rfl, rfl, rfl, rfl, rfl, rfl⟩

@[simp] theorem Dev.setGuard_guards (d : Dev) (k : Nat) (v : Nat) : (d.setGuard k v).guards = put guardDflt d.guards k v := rfl

theorem Dev.guard_setGuard (d : Dev) (k j : Nat) (v : Nat) (h : wfTab guardDflt d.guards = true) :
    (d.setGuard k v).guard j = if j = k then v else d.guard j := look_put k j v h

/-! ## setCounter -/

@[simp] theorem Dev.setCounter_frame (d : Dev) (k : Nat) (v : Nat) :
    (d.setCounter k v).life = d.life ∧ (d.setCounter k v).boot = d.boot ∧ (d.setCounter k v).flash = d.flash ∧
    (d.setCounter k v).regs = d.regs ∧ (d.setCounter k v).shadow = d.shadow ∧ (d.setCounter k v).guards = d.guards ∧
    (d.setCounter k v).updates = d.updates ∧ (d.setCounter k v).updateLast = d.updateLast ∧
    (d.setCounter k v).mailbox = d.mailbox ∧ (d.setCounter k v).quire = d.quire ∧
    (d.setCounter k v).requests = d.requests ∧ (d.setCounter k v).subs = d.subs ∧ (d.setCounter k v).spi = d.spi ∧
    (d.setCounter k v).vat = d.vat ∧ (d.setCounter k v).deficit = d.deficit ∧ (d.setCounter k v).used = d.used ∧
    (d.setCounter k v).rrNext = d.rrNext ∧ (d.setCounter k v).drrCur = d.drrCur ∧
    (d.setCounter k v).sentUnit = d.sentUnit ∧ (d.setCounter k v).sentBad = d.sentBad ∧
    (d.setCounter k v).deckle = d.deckle ∧ (d.setCounter k v).ctxs = d.ctxs ∧
    (d.setCounter k v).bindings = d.bindings ∧ (d.setCounter k v).holds = d.holds ∧
    (d.setCounter k v).transfers = d.transfers ∧ (d.setCounter k v).subscriptions = d.subscriptions ∧
    (d.setCounter k v).ports = d.ports ∧ (d.setCounter k v).fuses = d.fuses ∧ (d.setCounter k v).dies = d.dies ∧
    (d.setCounter k v).pd = d.pd ∧ (d.setCounter k v).psb = d.psb ∧ (d.setCounter k v).vinLow = d.vinLow ∧
    (d.setCounter k v).fc = d.fc ∧ (d.setCounter k v).watermark = d.watermark ∧ (d.setCounter k v).power = d.power ∧
    (d.setCounter k v).links = d.links ∧ (d.setCounter k v).funcs = d.funcs ∧ (d.setCounter k v).u0 = d.u0 ∧
    (d.setCounter k v).eths = d.eths ∧ (d.setCounter k v).couchKeys = d.couchKeys ∧
    (d.setCounter k v).maint = d.maint ∧ (d.setCounter k v).resetDue = d.resetDue ∧
    (d.setCounter k v).chainDue = d.chainDue ∧ (d.setCounter k v).jtag = d.jtag ∧ (d.setCounter k v).scan = d.scan ∧
    (d.setCounter k v).jtagOut = d.jtagOut ∧ (d.setCounter k v).nonceCtr = d.nonceCtr ∧
    (d.setCounter k v).freeCtr = d.freeCtr := by
  refine ⟨rfl, rfl, rfl, rfl, rfl, rfl, rfl, rfl, rfl, rfl, rfl, rfl, rfl, rfl, rfl, rfl, rfl, rfl, rfl, rfl, rfl, rfl, rfl, rfl, rfl, rfl, rfl, rfl, rfl, rfl, rfl, rfl, rfl, rfl, rfl, rfl, rfl, rfl, rfl, rfl, rfl, rfl, rfl, rfl, rfl, rfl, rfl, rfl⟩

@[simp] theorem Dev.setCounter_counters (d : Dev) (k : Nat) (v : Nat) : (d.setCounter k v).counters = put counterDflt d.counters k v := rfl

theorem Dev.counter_setCounter (d : Dev) (k j : Nat) (v : Nat) (h : wfTab counterDflt d.counters = true) :
    (d.setCounter k v).counter j = if j = k then v else d.counter j := look_put k j v h

/-! ## setCouchKey -/

@[simp] theorem Dev.setCouchKey_frame (d : Dev) (k : Nat) (v : Option Key) :
    (d.setCouchKey k v).life = d.life ∧ (d.setCouchKey k v).boot = d.boot ∧ (d.setCouchKey k v).flash = d.flash ∧
    (d.setCouchKey k v).regs = d.regs ∧ (d.setCouchKey k v).shadow = d.shadow ∧
    (d.setCouchKey k v).counters = d.counters ∧ (d.setCouchKey k v).guards = d.guards ∧
    (d.setCouchKey k v).updates = d.updates ∧ (d.setCouchKey k v).updateLast = d.updateLast ∧
    (d.setCouchKey k v).mailbox = d.mailbox ∧ (d.setCouchKey k v).quire = d.quire ∧
    (d.setCouchKey k v).requests = d.requests ∧ (d.setCouchKey k v).subs = d.subs ∧ (d.setCouchKey k v).spi = d.spi ∧
    (d.setCouchKey k v).vat = d.vat ∧ (d.setCouchKey k v).deficit = d.deficit ∧ (d.setCouchKey k v).used = d.used ∧
    (d.setCouchKey k v).rrNext = d.rrNext ∧ (d.setCouchKey k v).drrCur = d.drrCur ∧
    (d.setCouchKey k v).sentUnit = d.sentUnit ∧ (d.setCouchKey k v).sentBad = d.sentBad ∧
    (d.setCouchKey k v).deckle = d.deckle ∧ (d.setCouchKey k v).ctxs = d.ctxs ∧
    (d.setCouchKey k v).bindings = d.bindings ∧ (d.setCouchKey k v).holds = d.holds ∧
    (d.setCouchKey k v).transfers = d.transfers ∧ (d.setCouchKey k v).subscriptions = d.subscriptions ∧
    (d.setCouchKey k v).ports = d.ports ∧ (d.setCouchKey k v).fuses = d.fuses ∧ (d.setCouchKey k v).dies = d.dies ∧
    (d.setCouchKey k v).pd = d.pd ∧ (d.setCouchKey k v).psb = d.psb ∧ (d.setCouchKey k v).vinLow = d.vinLow ∧
    (d.setCouchKey k v).fc = d.fc ∧ (d.setCouchKey k v).watermark = d.watermark ∧
    (d.setCouchKey k v).power = d.power ∧ (d.setCouchKey k v).links = d.links ∧ (d.setCouchKey k v).funcs = d.funcs ∧
    (d.setCouchKey k v).u0 = d.u0 ∧ (d.setCouchKey k v).eths = d.eths ∧ (d.setCouchKey k v).maint = d.maint ∧
    (d.setCouchKey k v).resetDue = d.resetDue ∧ (d.setCouchKey k v).chainDue = d.chainDue ∧
    (d.setCouchKey k v).jtag = d.jtag ∧ (d.setCouchKey k v).scan = d.scan ∧ (d.setCouchKey k v).jtagOut = d.jtagOut ∧
    (d.setCouchKey k v).nonceCtr = d.nonceCtr ∧ (d.setCouchKey k v).freeCtr = d.freeCtr := by
  refine ⟨rfl, rfl, rfl, rfl, rfl, rfl, rfl, rfl, rfl, rfl, rfl, rfl, rfl, rfl, rfl, rfl, rfl, rfl, rfl, rfl, rfl, rfl, rfl, rfl, rfl, rfl, rfl, rfl, rfl, rfl, rfl, rfl, rfl, rfl, rfl, rfl, rfl, rfl, rfl, rfl, rfl, rfl, rfl, rfl, rfl, rfl, rfl, rfl⟩

@[simp] theorem Dev.setCouchKey_couchKeys (d : Dev) (k : Nat) (v : Option Key) : (d.setCouchKey k v).couchKeys = put couchKeyDflt d.couchKeys k v := rfl

theorem Dev.couchKey_setCouchKey (d : Dev) (k j : Nat) (v : Option Key) (h : wfTab couchKeyDflt d.couchKeys = true) :
    (d.setCouchKey k v).couchKey j = if j = k then v else d.couchKey j := look_put k j v h

/-! ## setUnit -/

@[simp] theorem Dev.setUnit_frame (d : Dev) (k : Nat) (v : List Byte) :
    (d.setUnit k v).life = d.life ∧ (d.setUnit k v).boot = d.boot ∧ (d.setUnit k v).flash = d.flash ∧
    (d.setUnit k v).regs = d.regs ∧ (d.setUnit k v).shadow = d.shadow ∧ (d.setUnit k v).counters = d.counters ∧
    (d.setUnit k v).guards = d.guards ∧ (d.setUnit k v).updates = d.updates ∧
    (d.setUnit k v).updateLast = d.updateLast ∧ (d.setUnit k v).mailbox = d.mailbox ∧
    (d.setUnit k v).quire = d.quire ∧ (d.setUnit k v).requests = d.requests ∧ (d.setUnit k v).subs = d.subs ∧
    (d.setUnit k v).spi = d.spi ∧ (d.setUnit k v).vat = d.vat ∧ (d.setUnit k v).deficit = d.deficit ∧
    (d.setUnit k v).used = d.used ∧ (d.setUnit k v).rrNext = d.rrNext ∧ (d.setUnit k v).drrCur = d.drrCur ∧
    (d.setUnit k v).sentBad = d.sentBad ∧ (d.setUnit k v).deckle = d.deckle ∧ (d.setUnit k v).ctxs = d.ctxs ∧
    (d.setUnit k v).bindings = d.bindings ∧ (d.setUnit k v).holds = d.holds ∧
    (d.setUnit k v).transfers = d.transfers ∧ (d.setUnit k v).subscriptions = d.subscriptions ∧
    (d.setUnit k v).ports = d.ports ∧ (d.setUnit k v).fuses = d.fuses ∧ (d.setUnit k v).dies = d.dies ∧
    (d.setUnit k v).pd = d.pd ∧ (d.setUnit k v).psb = d.psb ∧ (d.setUnit k v).vinLow = d.vinLow ∧
    (d.setUnit k v).fc = d.fc ∧ (d.setUnit k v).watermark = d.watermark ∧ (d.setUnit k v).power = d.power ∧
    (d.setUnit k v).links = d.links ∧ (d.setUnit k v).funcs = d.funcs ∧ (d.setUnit k v).u0 = d.u0 ∧
    (d.setUnit k v).eths = d.eths ∧ (d.setUnit k v).couchKeys = d.couchKeys ∧ (d.setUnit k v).maint = d.maint ∧
    (d.setUnit k v).resetDue = d.resetDue ∧ (d.setUnit k v).chainDue = d.chainDue ∧ (d.setUnit k v).jtag = d.jtag ∧
    (d.setUnit k v).scan = d.scan ∧ (d.setUnit k v).jtagOut = d.jtagOut ∧ (d.setUnit k v).nonceCtr = d.nonceCtr ∧
    (d.setUnit k v).freeCtr = d.freeCtr := by
  refine ⟨rfl, rfl, rfl, rfl, rfl, rfl, rfl, rfl, rfl, rfl, rfl, rfl, rfl, rfl, rfl, rfl, rfl, rfl, rfl, rfl, rfl, rfl, rfl, rfl, rfl, rfl, rfl, rfl, rfl, rfl, rfl, rfl, rfl, rfl, rfl, rfl, rfl, rfl, rfl, rfl, rfl, rfl, rfl, rfl, rfl, rfl, rfl, rfl⟩

@[simp] theorem Dev.setUnit_sentUnit (d : Dev) (k : Nat) (v : List Byte) : (d.setUnit k v).sentUnit = put unitDflt d.sentUnit k v := rfl

theorem Dev.unit_setUnit (d : Dev) (k j : Nat) (v : List Byte) (h : wfTab unitDflt d.sentUnit = true) :
    (d.setUnit k v).unit j = if j = k then v else d.unit j := look_put k j v h

/-! ## setDeficitOf -/

@[simp] theorem Dev.setDeficitOf_frame (d : Dev) (k : Nat) (v : Int) :
    (d.setDeficitOf k v).life = d.life ∧ (d.setDeficitOf k v).boot = d.boot ∧ (d.setDeficitOf k v).flash = d.flash ∧
    (d.setDeficitOf k v).regs = d.regs ∧ (d.setDeficitOf k v).shadow = d.shadow ∧
    (d.setDeficitOf k v).counters = d.counters ∧ (d.setDeficitOf k v).guards = d.guards ∧
    (d.setDeficitOf k v).updates = d.updates ∧ (d.setDeficitOf k v).updateLast = d.updateLast ∧
    (d.setDeficitOf k v).mailbox = d.mailbox ∧ (d.setDeficitOf k v).quire = d.quire ∧
    (d.setDeficitOf k v).requests = d.requests ∧ (d.setDeficitOf k v).subs = d.subs ∧
    (d.setDeficitOf k v).spi = d.spi ∧ (d.setDeficitOf k v).vat = d.vat ∧ (d.setDeficitOf k v).used = d.used ∧
    (d.setDeficitOf k v).rrNext = d.rrNext ∧ (d.setDeficitOf k v).drrCur = d.drrCur ∧
    (d.setDeficitOf k v).sentUnit = d.sentUnit ∧ (d.setDeficitOf k v).sentBad = d.sentBad ∧
    (d.setDeficitOf k v).deckle = d.deckle ∧ (d.setDeficitOf k v).ctxs = d.ctxs ∧
    (d.setDeficitOf k v).bindings = d.bindings ∧ (d.setDeficitOf k v).holds = d.holds ∧
    (d.setDeficitOf k v).transfers = d.transfers ∧ (d.setDeficitOf k v).subscriptions = d.subscriptions ∧
    (d.setDeficitOf k v).ports = d.ports ∧ (d.setDeficitOf k v).fuses = d.fuses ∧
    (d.setDeficitOf k v).dies = d.dies ∧ (d.setDeficitOf k v).pd = d.pd ∧ (d.setDeficitOf k v).psb = d.psb ∧
    (d.setDeficitOf k v).vinLow = d.vinLow ∧ (d.setDeficitOf k v).fc = d.fc ∧
    (d.setDeficitOf k v).watermark = d.watermark ∧ (d.setDeficitOf k v).power = d.power ∧
    (d.setDeficitOf k v).links = d.links ∧ (d.setDeficitOf k v).funcs = d.funcs ∧ (d.setDeficitOf k v).u0 = d.u0 ∧
    (d.setDeficitOf k v).eths = d.eths ∧ (d.setDeficitOf k v).couchKeys = d.couchKeys ∧
    (d.setDeficitOf k v).maint = d.maint ∧ (d.setDeficitOf k v).resetDue = d.resetDue ∧
    (d.setDeficitOf k v).chainDue = d.chainDue ∧ (d.setDeficitOf k v).jtag = d.jtag ∧
    (d.setDeficitOf k v).scan = d.scan ∧ (d.setDeficitOf k v).jtagOut = d.jtagOut ∧
    (d.setDeficitOf k v).nonceCtr = d.nonceCtr ∧ (d.setDeficitOf k v).freeCtr = d.freeCtr := by
  refine ⟨rfl, rfl, rfl, rfl, rfl, rfl, rfl, rfl, rfl, rfl, rfl, rfl, rfl, rfl, rfl, rfl, rfl, rfl, rfl, rfl, rfl, rfl, rfl, rfl, rfl, rfl, rfl, rfl, rfl, rfl, rfl, rfl, rfl, rfl, rfl, rfl, rfl, rfl, rfl, rfl, rfl, rfl, rfl, rfl, rfl, rfl, rfl, rfl⟩

@[simp] theorem Dev.setDeficitOf_deficit (d : Dev) (k : Nat) (v : Int) : (d.setDeficitOf k v).deficit = put deficitOfDflt d.deficit k v := rfl

theorem Dev.deficitOf_setDeficitOf (d : Dev) (k j : Nat) (v : Int) (h : wfTab deficitOfDflt d.deficit = true) :
    (d.setDeficitOf k v).deficitOf j = if j = k then v else d.deficitOf j := look_put k j v h

/-! ## setUsedOf -/

@[simp] theorem Dev.setUsedOf_frame (d : Dev) (k : Nat) (v : Nat) :
    (d.setUsedOf k v).life = d.life ∧ (d.setUsedOf k v).boot = d.boot ∧ (d.setUsedOf k v).flash = d.flash ∧
    (d.setUsedOf k v).regs = d.regs ∧ (d.setUsedOf k v).shadow = d.shadow ∧ (d.setUsedOf k v).counters = d.counters ∧
    (d.setUsedOf k v).guards = d.guards ∧ (d.setUsedOf k v).updates = d.updates ∧
    (d.setUsedOf k v).updateLast = d.updateLast ∧ (d.setUsedOf k v).mailbox = d.mailbox ∧
    (d.setUsedOf k v).quire = d.quire ∧ (d.setUsedOf k v).requests = d.requests ∧ (d.setUsedOf k v).subs = d.subs ∧
    (d.setUsedOf k v).spi = d.spi ∧ (d.setUsedOf k v).vat = d.vat ∧ (d.setUsedOf k v).deficit = d.deficit ∧
    (d.setUsedOf k v).rrNext = d.rrNext ∧ (d.setUsedOf k v).drrCur = d.drrCur ∧
    (d.setUsedOf k v).sentUnit = d.sentUnit ∧ (d.setUsedOf k v).sentBad = d.sentBad ∧
    (d.setUsedOf k v).deckle = d.deckle ∧ (d.setUsedOf k v).ctxs = d.ctxs ∧ (d.setUsedOf k v).bindings = d.bindings ∧
    (d.setUsedOf k v).holds = d.holds ∧ (d.setUsedOf k v).transfers = d.transfers ∧
    (d.setUsedOf k v).subscriptions = d.subscriptions ∧ (d.setUsedOf k v).ports = d.ports ∧
    (d.setUsedOf k v).fuses = d.fuses ∧ (d.setUsedOf k v).dies = d.dies ∧ (d.setUsedOf k v).pd = d.pd ∧
    (d.setUsedOf k v).psb = d.psb ∧ (d.setUsedOf k v).vinLow = d.vinLow ∧ (d.setUsedOf k v).fc = d.fc ∧
    (d.setUsedOf k v).watermark = d.watermark ∧ (d.setUsedOf k v).power = d.power ∧
    (d.setUsedOf k v).links = d.links ∧ (d.setUsedOf k v).funcs = d.funcs ∧ (d.setUsedOf k v).u0 = d.u0 ∧
    (d.setUsedOf k v).eths = d.eths ∧ (d.setUsedOf k v).couchKeys = d.couchKeys ∧ (d.setUsedOf k v).maint = d.maint ∧
    (d.setUsedOf k v).resetDue = d.resetDue ∧ (d.setUsedOf k v).chainDue = d.chainDue ∧
    (d.setUsedOf k v).jtag = d.jtag ∧ (d.setUsedOf k v).scan = d.scan ∧ (d.setUsedOf k v).jtagOut = d.jtagOut ∧
    (d.setUsedOf k v).nonceCtr = d.nonceCtr ∧ (d.setUsedOf k v).freeCtr = d.freeCtr := by
  refine ⟨rfl, rfl, rfl, rfl, rfl, rfl, rfl, rfl, rfl, rfl, rfl, rfl, rfl, rfl, rfl, rfl, rfl, rfl, rfl, rfl, rfl, rfl, rfl, rfl, rfl, rfl, rfl, rfl, rfl, rfl, rfl, rfl, rfl, rfl, rfl, rfl, rfl, rfl, rfl, rfl, rfl, rfl, rfl, rfl, rfl, rfl, rfl, rfl⟩

@[simp] theorem Dev.setUsedOf_used (d : Dev) (k : Nat) (v : Nat) : (d.setUsedOf k v).used = put usedOfDflt d.used k v := rfl

theorem Dev.usedOf_setUsedOf (d : Dev) (k j : Nat) (v : Nat) (h : wfTab usedOfDflt d.used = true) :
    (d.setUsedOf k v).usedOf j = if j = k then v else d.usedOf j := look_put k j v h

/-! ## setRrOf -/

@[simp] theorem Dev.setRrOf_frame (d : Dev) (k : Nat) (v : Nat) :
    (d.setRrOf k v).life = d.life ∧ (d.setRrOf k v).boot = d.boot ∧ (d.setRrOf k v).flash = d.flash ∧
    (d.setRrOf k v).regs = d.regs ∧ (d.setRrOf k v).shadow = d.shadow ∧ (d.setRrOf k v).counters = d.counters ∧
    (d.setRrOf k v).guards = d.guards ∧ (d.setRrOf k v).updates = d.updates ∧
    (d.setRrOf k v).updateLast = d.updateLast ∧ (d.setRrOf k v).mailbox = d.mailbox ∧
    (d.setRrOf k v).quire = d.quire ∧ (d.setRrOf k v).requests = d.requests ∧ (d.setRrOf k v).subs = d.subs ∧
    (d.setRrOf k v).spi = d.spi ∧ (d.setRrOf k v).vat = d.vat ∧ (d.setRrOf k v).deficit = d.deficit ∧
    (d.setRrOf k v).used = d.used ∧ (d.setRrOf k v).drrCur = d.drrCur ∧ (d.setRrOf k v).sentUnit = d.sentUnit ∧
    (d.setRrOf k v).sentBad = d.sentBad ∧ (d.setRrOf k v).deckle = d.deckle ∧ (d.setRrOf k v).ctxs = d.ctxs ∧
    (d.setRrOf k v).bindings = d.bindings ∧ (d.setRrOf k v).holds = d.holds ∧
    (d.setRrOf k v).transfers = d.transfers ∧ (d.setRrOf k v).subscriptions = d.subscriptions ∧
    (d.setRrOf k v).ports = d.ports ∧ (d.setRrOf k v).fuses = d.fuses ∧ (d.setRrOf k v).dies = d.dies ∧
    (d.setRrOf k v).pd = d.pd ∧ (d.setRrOf k v).psb = d.psb ∧ (d.setRrOf k v).vinLow = d.vinLow ∧
    (d.setRrOf k v).fc = d.fc ∧ (d.setRrOf k v).watermark = d.watermark ∧ (d.setRrOf k v).power = d.power ∧
    (d.setRrOf k v).links = d.links ∧ (d.setRrOf k v).funcs = d.funcs ∧ (d.setRrOf k v).u0 = d.u0 ∧
    (d.setRrOf k v).eths = d.eths ∧ (d.setRrOf k v).couchKeys = d.couchKeys ∧ (d.setRrOf k v).maint = d.maint ∧
    (d.setRrOf k v).resetDue = d.resetDue ∧ (d.setRrOf k v).chainDue = d.chainDue ∧ (d.setRrOf k v).jtag = d.jtag ∧
    (d.setRrOf k v).scan = d.scan ∧ (d.setRrOf k v).jtagOut = d.jtagOut ∧ (d.setRrOf k v).nonceCtr = d.nonceCtr ∧
    (d.setRrOf k v).freeCtr = d.freeCtr := by
  refine ⟨rfl, rfl, rfl, rfl, rfl, rfl, rfl, rfl, rfl, rfl, rfl, rfl, rfl, rfl, rfl, rfl, rfl, rfl, rfl, rfl, rfl, rfl, rfl, rfl, rfl, rfl, rfl, rfl, rfl, rfl, rfl, rfl, rfl, rfl, rfl, rfl, rfl, rfl, rfl, rfl, rfl, rfl, rfl, rfl, rfl, rfl, rfl, rfl⟩

@[simp] theorem Dev.setRrOf_rrNext (d : Dev) (k : Nat) (v : Nat) : (d.setRrOf k v).rrNext = put rrOfDflt d.rrNext k v := rfl

theorem Dev.rrOf_setRrOf (d : Dev) (k j : Nat) (v : Nat) (h : wfTab rrOfDflt d.rrNext = true) :
    (d.setRrOf k v).rrOf j = if j = k then v else d.rrOf j := look_put k j v h

/-! ## setDrrOf -/

@[simp] theorem Dev.setDrrOf_frame (d : Dev) (k : Nat) (v : Nat) :
    (d.setDrrOf k v).life = d.life ∧ (d.setDrrOf k v).boot = d.boot ∧ (d.setDrrOf k v).flash = d.flash ∧
    (d.setDrrOf k v).regs = d.regs ∧ (d.setDrrOf k v).shadow = d.shadow ∧ (d.setDrrOf k v).counters = d.counters ∧
    (d.setDrrOf k v).guards = d.guards ∧ (d.setDrrOf k v).updates = d.updates ∧
    (d.setDrrOf k v).updateLast = d.updateLast ∧ (d.setDrrOf k v).mailbox = d.mailbox ∧
    (d.setDrrOf k v).quire = d.quire ∧ (d.setDrrOf k v).requests = d.requests ∧ (d.setDrrOf k v).subs = d.subs ∧
    (d.setDrrOf k v).spi = d.spi ∧ (d.setDrrOf k v).vat = d.vat ∧ (d.setDrrOf k v).deficit = d.deficit ∧
    (d.setDrrOf k v).used = d.used ∧ (d.setDrrOf k v).rrNext = d.rrNext ∧ (d.setDrrOf k v).sentUnit = d.sentUnit ∧
    (d.setDrrOf k v).sentBad = d.sentBad ∧ (d.setDrrOf k v).deckle = d.deckle ∧ (d.setDrrOf k v).ctxs = d.ctxs ∧
    (d.setDrrOf k v).bindings = d.bindings ∧ (d.setDrrOf k v).holds = d.holds ∧
    (d.setDrrOf k v).transfers = d.transfers ∧ (d.setDrrOf k v).subscriptions = d.subscriptions ∧
    (d.setDrrOf k v).ports = d.ports ∧ (d.setDrrOf k v).fuses = d.fuses ∧ (d.setDrrOf k v).dies = d.dies ∧
    (d.setDrrOf k v).pd = d.pd ∧ (d.setDrrOf k v).psb = d.psb ∧ (d.setDrrOf k v).vinLow = d.vinLow ∧
    (d.setDrrOf k v).fc = d.fc ∧ (d.setDrrOf k v).watermark = d.watermark ∧ (d.setDrrOf k v).power = d.power ∧
    (d.setDrrOf k v).links = d.links ∧ (d.setDrrOf k v).funcs = d.funcs ∧ (d.setDrrOf k v).u0 = d.u0 ∧
    (d.setDrrOf k v).eths = d.eths ∧ (d.setDrrOf k v).couchKeys = d.couchKeys ∧ (d.setDrrOf k v).maint = d.maint ∧
    (d.setDrrOf k v).resetDue = d.resetDue ∧ (d.setDrrOf k v).chainDue = d.chainDue ∧
    (d.setDrrOf k v).jtag = d.jtag ∧ (d.setDrrOf k v).scan = d.scan ∧ (d.setDrrOf k v).jtagOut = d.jtagOut ∧
    (d.setDrrOf k v).nonceCtr = d.nonceCtr ∧ (d.setDrrOf k v).freeCtr = d.freeCtr := by
  refine ⟨rfl, rfl, rfl, rfl, rfl, rfl, rfl, rfl, rfl, rfl, rfl, rfl, rfl, rfl, rfl, rfl, rfl, rfl, rfl, rfl, rfl, rfl, rfl, rfl, rfl, rfl, rfl, rfl, rfl, rfl, rfl, rfl, rfl, rfl, rfl, rfl, rfl, rfl, rfl, rfl, rfl, rfl, rfl, rfl, rfl, rfl, rfl, rfl⟩

@[simp] theorem Dev.setDrrOf_drrCur (d : Dev) (k : Nat) (v : Nat) : (d.setDrrOf k v).drrCur = put drrOfDflt d.drrCur k v := rfl

theorem Dev.drrOf_setDrrOf (d : Dev) (k j : Nat) (v : Nat) (h : wfTab drrOfDflt d.drrCur = true) :
    (d.setDrrOf k v).drrOf j = if j = k then v else d.drrOf j := look_put k j v h

/-! ## setCell -/

@[simp] theorem Dev.setCell_frame (d : Dev) (k : Nat) (v : Byte) :
    (d.setCell k v).life = d.life ∧ (d.setCell k v).boot = d.boot ∧ (d.setCell k v).regs = d.regs ∧
    (d.setCell k v).shadow = d.shadow ∧ (d.setCell k v).counters = d.counters ∧ (d.setCell k v).guards = d.guards ∧
    (d.setCell k v).updates = d.updates ∧ (d.setCell k v).updateLast = d.updateLast ∧
    (d.setCell k v).mailbox = d.mailbox ∧ (d.setCell k v).quire = d.quire ∧ (d.setCell k v).requests = d.requests ∧
    (d.setCell k v).subs = d.subs ∧ (d.setCell k v).spi = d.spi ∧ (d.setCell k v).vat = d.vat ∧
    (d.setCell k v).deficit = d.deficit ∧ (d.setCell k v).used = d.used ∧ (d.setCell k v).rrNext = d.rrNext ∧
    (d.setCell k v).drrCur = d.drrCur ∧ (d.setCell k v).sentUnit = d.sentUnit ∧ (d.setCell k v).sentBad = d.sentBad ∧
    (d.setCell k v).deckle = d.deckle ∧ (d.setCell k v).ctxs = d.ctxs ∧ (d.setCell k v).bindings = d.bindings ∧
    (d.setCell k v).holds = d.holds ∧ (d.setCell k v).transfers = d.transfers ∧
    (d.setCell k v).subscriptions = d.subscriptions ∧ (d.setCell k v).ports = d.ports ∧
    (d.setCell k v).fuses = d.fuses ∧ (d.setCell k v).dies = d.dies ∧ (d.setCell k v).pd = d.pd ∧
    (d.setCell k v).psb = d.psb ∧ (d.setCell k v).vinLow = d.vinLow ∧ (d.setCell k v).fc = d.fc ∧
    (d.setCell k v).watermark = d.watermark ∧ (d.setCell k v).power = d.power ∧ (d.setCell k v).links = d.links ∧
    (d.setCell k v).funcs = d.funcs ∧ (d.setCell k v).u0 = d.u0 ∧ (d.setCell k v).eths = d.eths ∧
    (d.setCell k v).couchKeys = d.couchKeys ∧ (d.setCell k v).maint = d.maint ∧
    (d.setCell k v).resetDue = d.resetDue ∧ (d.setCell k v).chainDue = d.chainDue ∧ (d.setCell k v).jtag = d.jtag ∧
    (d.setCell k v).scan = d.scan ∧ (d.setCell k v).jtagOut = d.jtagOut ∧ (d.setCell k v).nonceCtr = d.nonceCtr ∧
    (d.setCell k v).freeCtr = d.freeCtr := by
  refine ⟨rfl, rfl, rfl, rfl, rfl, rfl, rfl, rfl, rfl, rfl, rfl, rfl, rfl, rfl, rfl, rfl, rfl, rfl, rfl, rfl, rfl, rfl, rfl, rfl, rfl, rfl, rfl, rfl, rfl, rfl, rfl, rfl, rfl, rfl, rfl, rfl, rfl, rfl, rfl, rfl, rfl, rfl, rfl, rfl, rfl, rfl, rfl, rfl⟩

@[simp] theorem Dev.setCell_flash (d : Dev) (k : Nat) (v : Byte) : (d.setCell k v).flash = put cellDflt d.flash k v := rfl

theorem Dev.cell_setCell (d : Dev) (k j : Nat) (v : Byte) (h : wfTab cellDflt d.flash = true) :
    (d.setCell k v).cell j = if j = k then v else d.cell j := look_put k j v h

/-! ## setQueue -/

@[simp] theorem Dev.setQueue_frame (d : Dev) (k : Nat) (v : Queue) :
    (d.setQueue k v).life = d.life ∧ (d.setQueue k v).boot = d.boot ∧ (d.setQueue k v).flash = d.flash ∧
    (d.setQueue k v).regs = d.regs ∧ (d.setQueue k v).shadow = d.shadow ∧ (d.setQueue k v).counters = d.counters ∧
    (d.setQueue k v).guards = d.guards ∧ (d.setQueue k v).updates = d.updates ∧
    (d.setQueue k v).updateLast = d.updateLast ∧ (d.setQueue k v).mailbox = d.mailbox ∧
    (d.setQueue k v).quire = d.quire ∧ (d.setQueue k v).requests = d.requests ∧ (d.setQueue k v).subs = d.subs ∧
    (d.setQueue k v).spi = d.spi ∧ (d.setQueue k v).deficit = d.deficit ∧ (d.setQueue k v).used = d.used ∧
    (d.setQueue k v).rrNext = d.rrNext ∧ (d.setQueue k v).drrCur = d.drrCur ∧
    (d.setQueue k v).sentUnit = d.sentUnit ∧ (d.setQueue k v).sentBad = d.sentBad ∧
    (d.setQueue k v).deckle = d.deckle ∧ (d.setQueue k v).ctxs = d.ctxs ∧ (d.setQueue k v).bindings = d.bindings ∧
    (d.setQueue k v).holds = d.holds ∧ (d.setQueue k v).transfers = d.transfers ∧
    (d.setQueue k v).subscriptions = d.subscriptions ∧ (d.setQueue k v).ports = d.ports ∧
    (d.setQueue k v).fuses = d.fuses ∧ (d.setQueue k v).dies = d.dies ∧ (d.setQueue k v).pd = d.pd ∧
    (d.setQueue k v).psb = d.psb ∧ (d.setQueue k v).vinLow = d.vinLow ∧ (d.setQueue k v).fc = d.fc ∧
    (d.setQueue k v).watermark = d.watermark ∧ (d.setQueue k v).power = d.power ∧ (d.setQueue k v).links = d.links ∧
    (d.setQueue k v).funcs = d.funcs ∧ (d.setQueue k v).u0 = d.u0 ∧ (d.setQueue k v).eths = d.eths ∧
    (d.setQueue k v).couchKeys = d.couchKeys ∧ (d.setQueue k v).maint = d.maint ∧
    (d.setQueue k v).resetDue = d.resetDue ∧ (d.setQueue k v).chainDue = d.chainDue ∧
    (d.setQueue k v).jtag = d.jtag ∧ (d.setQueue k v).scan = d.scan ∧ (d.setQueue k v).jtagOut = d.jtagOut ∧
    (d.setQueue k v).nonceCtr = d.nonceCtr ∧ (d.setQueue k v).freeCtr = d.freeCtr := by
  refine ⟨rfl, rfl, rfl, rfl, rfl, rfl, rfl, rfl, rfl, rfl, rfl, rfl, rfl, rfl, rfl, rfl, rfl, rfl, rfl, rfl, rfl, rfl, rfl, rfl, rfl, rfl, rfl, rfl, rfl, rfl, rfl, rfl, rfl, rfl, rfl, rfl, rfl, rfl, rfl, rfl, rfl, rfl, rfl, rfl, rfl, rfl, rfl, rfl⟩

@[simp] theorem Dev.setQueue_vat_frame (d : Dev) (k : Nat) (v : Queue) :
    (d.setQueue k v).vat.depth = d.vat.depth ∧ (d.setQueue k v).vat.change = d.vat.change ∧
    (d.setQueue k v).vat.slots = d.vat.slots ∧ (d.setQueue k v).vat.spare = d.vat.spare ∧
    (d.setQueue k v).vat.coming = d.vat.coming ∧ (d.setQueue k v).vat.retired = d.vat.retired ∧
    (d.setQueue k v).vat.noSpare = d.vat.noSpare ∧ (d.setQueue k v).vat.rotSlot = d.vat.rotSlot ∧
    (d.setQueue k v).vat.migrating = d.vat.migrating ∧ (d.setQueue k v).vat.beatsSinceRot = d.vat.beatsSinceRot ∧
    (d.setQueue k v).vat.sparePassed = d.vat.sparePassed ∧ (d.setQueue k v).vat.front = d.vat.front ∧
    (d.setQueue k v).vat.marchPasses = d.vat.marchPasses ∧ (d.setQueue k v).vat.marchLastOk = d.vat.marchLastOk ∧
    (d.setQueue k v).vat.beatParity = d.vat.beatParity ∧ (d.setQueue k v).vat.parityDue = d.vat.parityDue ∧
    (d.setQueue k v).vat.banks = d.vat.banks ∧ (d.setQueue k v).vat.arbiters = d.vat.arbiters ∧
    (d.setQueue k v).vat.free = d.vat.free ∧ (d.setQueue k v).vat.books = d.vat.books ∧
    (d.setQueue k v).vat.copy = d.vat.copy ∧ (d.setQueue k v).vat.claims = d.vat.claims ∧
    (d.setQueue k v).vat.held = d.vat.held ∧ (d.setQueue k v).vat.used = d.vat.used ∧
    (d.setQueue k v).vat.halves = d.vat.halves ∧ (d.setQueue k v).vat.tallyDue = d.vat.tallyDue ∧
    (d.setQueue k v).vat.lastDefer = d.vat.lastDefer ∧ (d.setQueue k v).vat.serial = d.vat.serial := by
  refine ⟨rfl, rfl, rfl, rfl, rfl, rfl, rfl, rfl, rfl, rfl, rfl, rfl, rfl, rfl, rfl, rfl, rfl, rfl, rfl, rfl, rfl, rfl, rfl, rfl, rfl, rfl, rfl, rfl⟩

@[simp] theorem Dev.setQueue_vat_queues (d : Dev) (k : Nat) (v : Queue) : (d.setQueue k v).vat.queues = put queueDflt d.vat.queues k v := rfl

theorem Dev.queue_setQueue (d : Dev) (k j : Nat) (v : Queue) (h : wfTab queueDflt d.vat.queues = true) :
    (d.setQueue k v).queue j = if j = k then v else d.queue j := look_put k j v h

/-! ## setFreeList -/

@[simp] theorem Dev.setFreeList_frame (d : Dev) (k : Nat) (v : FreeList) :
    (d.setFreeList k v).life = d.life ∧ (d.setFreeList k v).boot = d.boot ∧ (d.setFreeList k v).flash = d.flash ∧
    (d.setFreeList k v).regs = d.regs ∧ (d.setFreeList k v).shadow = d.shadow ∧
    (d.setFreeList k v).counters = d.counters ∧ (d.setFreeList k v).guards = d.guards ∧
    (d.setFreeList k v).updates = d.updates ∧ (d.setFreeList k v).updateLast = d.updateLast ∧
    (d.setFreeList k v).mailbox = d.mailbox ∧ (d.setFreeList k v).quire = d.quire ∧
    (d.setFreeList k v).requests = d.requests ∧ (d.setFreeList k v).subs = d.subs ∧ (d.setFreeList k v).spi = d.spi ∧
    (d.setFreeList k v).deficit = d.deficit ∧ (d.setFreeList k v).used = d.used ∧
    (d.setFreeList k v).rrNext = d.rrNext ∧ (d.setFreeList k v).drrCur = d.drrCur ∧
    (d.setFreeList k v).sentUnit = d.sentUnit ∧ (d.setFreeList k v).sentBad = d.sentBad ∧
    (d.setFreeList k v).deckle = d.deckle ∧ (d.setFreeList k v).ctxs = d.ctxs ∧
    (d.setFreeList k v).bindings = d.bindings ∧ (d.setFreeList k v).holds = d.holds ∧
    (d.setFreeList k v).transfers = d.transfers ∧ (d.setFreeList k v).subscriptions = d.subscriptions ∧
    (d.setFreeList k v).ports = d.ports ∧ (d.setFreeList k v).fuses = d.fuses ∧ (d.setFreeList k v).dies = d.dies ∧
    (d.setFreeList k v).pd = d.pd ∧ (d.setFreeList k v).psb = d.psb ∧ (d.setFreeList k v).vinLow = d.vinLow ∧
    (d.setFreeList k v).fc = d.fc ∧ (d.setFreeList k v).watermark = d.watermark ∧
    (d.setFreeList k v).power = d.power ∧ (d.setFreeList k v).links = d.links ∧ (d.setFreeList k v).funcs = d.funcs ∧
    (d.setFreeList k v).u0 = d.u0 ∧ (d.setFreeList k v).eths = d.eths ∧ (d.setFreeList k v).couchKeys = d.couchKeys ∧
    (d.setFreeList k v).maint = d.maint ∧ (d.setFreeList k v).resetDue = d.resetDue ∧
    (d.setFreeList k v).chainDue = d.chainDue ∧ (d.setFreeList k v).jtag = d.jtag ∧
    (d.setFreeList k v).scan = d.scan ∧ (d.setFreeList k v).jtagOut = d.jtagOut ∧
    (d.setFreeList k v).nonceCtr = d.nonceCtr ∧ (d.setFreeList k v).freeCtr = d.freeCtr := by
  refine ⟨rfl, rfl, rfl, rfl, rfl, rfl, rfl, rfl, rfl, rfl, rfl, rfl, rfl, rfl, rfl, rfl, rfl, rfl, rfl, rfl, rfl, rfl, rfl, rfl, rfl, rfl, rfl, rfl, rfl, rfl, rfl, rfl, rfl, rfl, rfl, rfl, rfl, rfl, rfl, rfl, rfl, rfl, rfl, rfl, rfl, rfl, rfl, rfl⟩

@[simp] theorem Dev.setFreeList_vat_frame (d : Dev) (k : Nat) (v : FreeList) :
    (d.setFreeList k v).vat.depth = d.vat.depth ∧ (d.setFreeList k v).vat.change = d.vat.change ∧
    (d.setFreeList k v).vat.slots = d.vat.slots ∧ (d.setFreeList k v).vat.spare = d.vat.spare ∧
    (d.setFreeList k v).vat.coming = d.vat.coming ∧ (d.setFreeList k v).vat.retired = d.vat.retired ∧
    (d.setFreeList k v).vat.noSpare = d.vat.noSpare ∧ (d.setFreeList k v).vat.rotSlot = d.vat.rotSlot ∧
    (d.setFreeList k v).vat.migrating = d.vat.migrating ∧
    (d.setFreeList k v).vat.beatsSinceRot = d.vat.beatsSinceRot ∧
    (d.setFreeList k v).vat.sparePassed = d.vat.sparePassed ∧ (d.setFreeList k v).vat.front = d.vat.front ∧
    (d.setFreeList k v).vat.marchPasses = d.vat.marchPasses ∧
    (d.setFreeList k v).vat.marchLastOk = d.vat.marchLastOk ∧ (d.setFreeList k v).vat.beatParity = d.vat.beatParity ∧
    (d.setFreeList k v).vat.parityDue = d.vat.parityDue ∧ (d.setFreeList k v).vat.banks = d.vat.banks ∧
    (d.setFreeList k v).vat.arbiters = d.vat.arbiters ∧ (d.setFreeList k v).vat.queues = d.vat.queues ∧
    (d.setFreeList k v).vat.books = d.vat.books ∧ (d.setFreeList k v).vat.copy = d.vat.copy ∧
    (d.setFreeList k v).vat.claims = d.vat.claims ∧ (d.setFreeList k v).vat.held = d.vat.held ∧
    (d.setFreeList k v).vat.used = d.vat.used ∧ (d.setFreeList k v).vat.halves = d.vat.halves ∧
    (d.setFreeList k v).vat.tallyDue = d.vat.tallyDue ∧ (d.setFreeList k v).vat.lastDefer = d.vat.lastDefer ∧
    (d.setFreeList k v).vat.serial = d.vat.serial := by
  refine ⟨rfl, rfl, rfl, rfl, rfl, rfl, rfl, rfl, rfl, rfl, rfl, rfl, rfl, rfl, rfl, rfl, rfl, rfl, rfl, rfl, rfl, rfl, rfl, rfl, rfl, rfl, rfl, rfl⟩

@[simp] theorem Dev.setFreeList_vat_free (d : Dev) (k : Nat) (v : FreeList) : (d.setFreeList k v).vat.free = put freeListDflt d.vat.free k v := rfl

theorem Dev.freeList_setFreeList (d : Dev) (k j : Nat) (v : FreeList) (h : wfTab freeListDflt d.vat.free = true) :
    (d.setFreeList k v).freeList j = if j = k then v else d.freeList j := look_put k j v h

/-! ## setClaim -/

@[simp] theorem Dev.setClaim_frame (d : Dev) (k : Nat) (v : Nat) :
    (d.setClaim k v).life = d.life ∧ (d.setClaim k v).boot = d.boot ∧ (d.setClaim k v).flash = d.flash ∧
    (d.setClaim k v).regs = d.regs ∧ (d.setClaim k v).shadow = d.shadow ∧ (d.setClaim k v).counters = d.counters ∧
    (d.setClaim k v).guards = d.guards ∧ (d.setClaim k v).updates = d.updates ∧
    (d.setClaim k v).updateLast = d.updateLast ∧ (d.setClaim k v).mailbox = d.mailbox ∧
    (d.setClaim k v).quire = d.quire ∧ (d.setClaim k v).requests = d.requests ∧ (d.setClaim k v).subs = d.subs ∧
    (d.setClaim k v).spi = d.spi ∧ (d.setClaim k v).deficit = d.deficit ∧ (d.setClaim k v).used = d.used ∧
    (d.setClaim k v).rrNext = d.rrNext ∧ (d.setClaim k v).drrCur = d.drrCur ∧
    (d.setClaim k v).sentUnit = d.sentUnit ∧ (d.setClaim k v).sentBad = d.sentBad ∧
    (d.setClaim k v).deckle = d.deckle ∧ (d.setClaim k v).ctxs = d.ctxs ∧ (d.setClaim k v).bindings = d.bindings ∧
    (d.setClaim k v).holds = d.holds ∧ (d.setClaim k v).transfers = d.transfers ∧
    (d.setClaim k v).subscriptions = d.subscriptions ∧ (d.setClaim k v).ports = d.ports ∧
    (d.setClaim k v).fuses = d.fuses ∧ (d.setClaim k v).dies = d.dies ∧ (d.setClaim k v).pd = d.pd ∧
    (d.setClaim k v).psb = d.psb ∧ (d.setClaim k v).vinLow = d.vinLow ∧ (d.setClaim k v).fc = d.fc ∧
    (d.setClaim k v).watermark = d.watermark ∧ (d.setClaim k v).power = d.power ∧ (d.setClaim k v).links = d.links ∧
    (d.setClaim k v).funcs = d.funcs ∧ (d.setClaim k v).u0 = d.u0 ∧ (d.setClaim k v).eths = d.eths ∧
    (d.setClaim k v).couchKeys = d.couchKeys ∧ (d.setClaim k v).maint = d.maint ∧
    (d.setClaim k v).resetDue = d.resetDue ∧ (d.setClaim k v).chainDue = d.chainDue ∧
    (d.setClaim k v).jtag = d.jtag ∧ (d.setClaim k v).scan = d.scan ∧ (d.setClaim k v).jtagOut = d.jtagOut ∧
    (d.setClaim k v).nonceCtr = d.nonceCtr ∧ (d.setClaim k v).freeCtr = d.freeCtr := by
  refine ⟨rfl, rfl, rfl, rfl, rfl, rfl, rfl, rfl, rfl, rfl, rfl, rfl, rfl, rfl, rfl, rfl, rfl, rfl, rfl, rfl, rfl, rfl, rfl, rfl, rfl, rfl, rfl, rfl, rfl, rfl, rfl, rfl, rfl, rfl, rfl, rfl, rfl, rfl, rfl, rfl, rfl, rfl, rfl, rfl, rfl, rfl, rfl, rfl⟩

@[simp] theorem Dev.setClaim_vat_frame (d : Dev) (k : Nat) (v : Nat) :
    (d.setClaim k v).vat.depth = d.vat.depth ∧ (d.setClaim k v).vat.change = d.vat.change ∧
    (d.setClaim k v).vat.slots = d.vat.slots ∧ (d.setClaim k v).vat.spare = d.vat.spare ∧
    (d.setClaim k v).vat.coming = d.vat.coming ∧ (d.setClaim k v).vat.retired = d.vat.retired ∧
    (d.setClaim k v).vat.noSpare = d.vat.noSpare ∧ (d.setClaim k v).vat.rotSlot = d.vat.rotSlot ∧
    (d.setClaim k v).vat.migrating = d.vat.migrating ∧ (d.setClaim k v).vat.beatsSinceRot = d.vat.beatsSinceRot ∧
    (d.setClaim k v).vat.sparePassed = d.vat.sparePassed ∧ (d.setClaim k v).vat.front = d.vat.front ∧
    (d.setClaim k v).vat.marchPasses = d.vat.marchPasses ∧ (d.setClaim k v).vat.marchLastOk = d.vat.marchLastOk ∧
    (d.setClaim k v).vat.beatParity = d.vat.beatParity ∧ (d.setClaim k v).vat.parityDue = d.vat.parityDue ∧
    (d.setClaim k v).vat.banks = d.vat.banks ∧ (d.setClaim k v).vat.arbiters = d.vat.arbiters ∧
    (d.setClaim k v).vat.queues = d.vat.queues ∧ (d.setClaim k v).vat.free = d.vat.free ∧
    (d.setClaim k v).vat.books = d.vat.books ∧ (d.setClaim k v).vat.copy = d.vat.copy ∧
    (d.setClaim k v).vat.held = d.vat.held ∧ (d.setClaim k v).vat.used = d.vat.used ∧
    (d.setClaim k v).vat.halves = d.vat.halves ∧ (d.setClaim k v).vat.tallyDue = d.vat.tallyDue ∧
    (d.setClaim k v).vat.lastDefer = d.vat.lastDefer ∧ (d.setClaim k v).vat.serial = d.vat.serial := by
  refine ⟨rfl, rfl, rfl, rfl, rfl, rfl, rfl, rfl, rfl, rfl, rfl, rfl, rfl, rfl, rfl, rfl, rfl, rfl, rfl, rfl, rfl, rfl, rfl, rfl, rfl, rfl, rfl, rfl⟩

@[simp] theorem Dev.setClaim_vat_claims (d : Dev) (k : Nat) (v : Nat) : (d.setClaim k v).vat.claims = put claimDflt d.vat.claims k v := rfl

theorem Dev.claim_setClaim (d : Dev) (k j : Nat) (v : Nat) (h : wfTab claimDflt d.vat.claims = true) :
    (d.setClaim k v).claim j = if j = k then v else d.claim j := look_put k j v h

/-! ## setHeldOf -/

@[simp] theorem Dev.setHeldOf_frame (d : Dev) (k : Nat) (v : Nat) :
    (d.setHeldOf k v).life = d.life ∧ (d.setHeldOf k v).boot = d.boot ∧ (d.setHeldOf k v).flash = d.flash ∧
    (d.setHeldOf k v).regs = d.regs ∧ (d.setHeldOf k v).shadow = d.shadow ∧ (d.setHeldOf k v).counters = d.counters ∧
    (d.setHeldOf k v).guards = d.guards ∧ (d.setHeldOf k v).updates = d.updates ∧
    (d.setHeldOf k v).updateLast = d.updateLast ∧ (d.setHeldOf k v).mailbox = d.mailbox ∧
    (d.setHeldOf k v).quire = d.quire ∧ (d.setHeldOf k v).requests = d.requests ∧ (d.setHeldOf k v).subs = d.subs ∧
    (d.setHeldOf k v).spi = d.spi ∧ (d.setHeldOf k v).deficit = d.deficit ∧ (d.setHeldOf k v).used = d.used ∧
    (d.setHeldOf k v).rrNext = d.rrNext ∧ (d.setHeldOf k v).drrCur = d.drrCur ∧
    (d.setHeldOf k v).sentUnit = d.sentUnit ∧ (d.setHeldOf k v).sentBad = d.sentBad ∧
    (d.setHeldOf k v).deckle = d.deckle ∧ (d.setHeldOf k v).ctxs = d.ctxs ∧ (d.setHeldOf k v).bindings = d.bindings ∧
    (d.setHeldOf k v).holds = d.holds ∧ (d.setHeldOf k v).transfers = d.transfers ∧
    (d.setHeldOf k v).subscriptions = d.subscriptions ∧ (d.setHeldOf k v).ports = d.ports ∧
    (d.setHeldOf k v).fuses = d.fuses ∧ (d.setHeldOf k v).dies = d.dies ∧ (d.setHeldOf k v).pd = d.pd ∧
    (d.setHeldOf k v).psb = d.psb ∧ (d.setHeldOf k v).vinLow = d.vinLow ∧ (d.setHeldOf k v).fc = d.fc ∧
    (d.setHeldOf k v).watermark = d.watermark ∧ (d.setHeldOf k v).power = d.power ∧
    (d.setHeldOf k v).links = d.links ∧ (d.setHeldOf k v).funcs = d.funcs ∧ (d.setHeldOf k v).u0 = d.u0 ∧
    (d.setHeldOf k v).eths = d.eths ∧ (d.setHeldOf k v).couchKeys = d.couchKeys ∧ (d.setHeldOf k v).maint = d.maint ∧
    (d.setHeldOf k v).resetDue = d.resetDue ∧ (d.setHeldOf k v).chainDue = d.chainDue ∧
    (d.setHeldOf k v).jtag = d.jtag ∧ (d.setHeldOf k v).scan = d.scan ∧ (d.setHeldOf k v).jtagOut = d.jtagOut ∧
    (d.setHeldOf k v).nonceCtr = d.nonceCtr ∧ (d.setHeldOf k v).freeCtr = d.freeCtr := by
  refine ⟨rfl, rfl, rfl, rfl, rfl, rfl, rfl, rfl, rfl, rfl, rfl, rfl, rfl, rfl, rfl, rfl, rfl, rfl, rfl, rfl, rfl, rfl, rfl, rfl, rfl, rfl, rfl, rfl, rfl, rfl, rfl, rfl, rfl, rfl, rfl, rfl, rfl, rfl, rfl, rfl, rfl, rfl, rfl, rfl, rfl, rfl, rfl, rfl⟩

@[simp] theorem Dev.setHeldOf_vat_frame (d : Dev) (k : Nat) (v : Nat) :
    (d.setHeldOf k v).vat.depth = d.vat.depth ∧ (d.setHeldOf k v).vat.change = d.vat.change ∧
    (d.setHeldOf k v).vat.slots = d.vat.slots ∧ (d.setHeldOf k v).vat.spare = d.vat.spare ∧
    (d.setHeldOf k v).vat.coming = d.vat.coming ∧ (d.setHeldOf k v).vat.retired = d.vat.retired ∧
    (d.setHeldOf k v).vat.noSpare = d.vat.noSpare ∧ (d.setHeldOf k v).vat.rotSlot = d.vat.rotSlot ∧
    (d.setHeldOf k v).vat.migrating = d.vat.migrating ∧ (d.setHeldOf k v).vat.beatsSinceRot = d.vat.beatsSinceRot ∧
    (d.setHeldOf k v).vat.sparePassed = d.vat.sparePassed ∧ (d.setHeldOf k v).vat.front = d.vat.front ∧
    (d.setHeldOf k v).vat.marchPasses = d.vat.marchPasses ∧ (d.setHeldOf k v).vat.marchLastOk = d.vat.marchLastOk ∧
    (d.setHeldOf k v).vat.beatParity = d.vat.beatParity ∧ (d.setHeldOf k v).vat.parityDue = d.vat.parityDue ∧
    (d.setHeldOf k v).vat.banks = d.vat.banks ∧ (d.setHeldOf k v).vat.arbiters = d.vat.arbiters ∧
    (d.setHeldOf k v).vat.queues = d.vat.queues ∧ (d.setHeldOf k v).vat.free = d.vat.free ∧
    (d.setHeldOf k v).vat.books = d.vat.books ∧ (d.setHeldOf k v).vat.copy = d.vat.copy ∧
    (d.setHeldOf k v).vat.claims = d.vat.claims ∧ (d.setHeldOf k v).vat.used = d.vat.used ∧
    (d.setHeldOf k v).vat.halves = d.vat.halves ∧ (d.setHeldOf k v).vat.tallyDue = d.vat.tallyDue ∧
    (d.setHeldOf k v).vat.lastDefer = d.vat.lastDefer ∧ (d.setHeldOf k v).vat.serial = d.vat.serial := by
  refine ⟨rfl, rfl, rfl, rfl, rfl, rfl, rfl, rfl, rfl, rfl, rfl, rfl, rfl, rfl, rfl, rfl, rfl, rfl, rfl, rfl, rfl, rfl, rfl, rfl, rfl, rfl, rfl, rfl⟩

@[simp] theorem Dev.setHeldOf_vat_held (d : Dev) (k : Nat) (v : Nat) : (d.setHeldOf k v).vat.held = put heldOfDflt d.vat.held k v := rfl

theorem Dev.heldOf_setHeldOf (d : Dev) (k j : Nat) (v : Nat) (h : wfTab heldOfDflt d.vat.held = true) :
    (d.setHeldOf k v).heldOf j = if j = k then v else d.heldOf j := look_put k j v h

/-! ## setParityOf -/

@[simp] theorem Dev.setParityOf_frame (d : Dev) (k : Nat) (v : Nat) :
    (d.setParityOf k v).life = d.life ∧ (d.setParityOf k v).boot = d.boot ∧ (d.setParityOf k v).flash = d.flash ∧
    (d.setParityOf k v).regs = d.regs ∧ (d.setParityOf k v).shadow = d.shadow ∧
    (d.setParityOf k v).counters = d.counters ∧ (d.setParityOf k v).guards = d.guards ∧
    (d.setParityOf k v).updates = d.updates ∧ (d.setParityOf k v).updateLast = d.updateLast ∧
    (d.setParityOf k v).mailbox = d.mailbox ∧ (d.setParityOf k v).quire = d.quire ∧
    (d.setParityOf k v).requests = d.requests ∧ (d.setParityOf k v).subs = d.subs ∧ (d.setParityOf k v).spi = d.spi ∧
    (d.setParityOf k v).deficit = d.deficit ∧ (d.setParityOf k v).used = d.used ∧
    (d.setParityOf k v).rrNext = d.rrNext ∧ (d.setParityOf k v).drrCur = d.drrCur ∧
    (d.setParityOf k v).sentUnit = d.sentUnit ∧ (d.setParityOf k v).sentBad = d.sentBad ∧
    (d.setParityOf k v).deckle = d.deckle ∧ (d.setParityOf k v).ctxs = d.ctxs ∧
    (d.setParityOf k v).bindings = d.bindings ∧ (d.setParityOf k v).holds = d.holds ∧
    (d.setParityOf k v).transfers = d.transfers ∧ (d.setParityOf k v).subscriptions = d.subscriptions ∧
    (d.setParityOf k v).ports = d.ports ∧ (d.setParityOf k v).fuses = d.fuses ∧ (d.setParityOf k v).dies = d.dies ∧
    (d.setParityOf k v).pd = d.pd ∧ (d.setParityOf k v).psb = d.psb ∧ (d.setParityOf k v).vinLow = d.vinLow ∧
    (d.setParityOf k v).fc = d.fc ∧ (d.setParityOf k v).watermark = d.watermark ∧
    (d.setParityOf k v).power = d.power ∧ (d.setParityOf k v).links = d.links ∧ (d.setParityOf k v).funcs = d.funcs ∧
    (d.setParityOf k v).u0 = d.u0 ∧ (d.setParityOf k v).eths = d.eths ∧ (d.setParityOf k v).couchKeys = d.couchKeys ∧
    (d.setParityOf k v).maint = d.maint ∧ (d.setParityOf k v).resetDue = d.resetDue ∧
    (d.setParityOf k v).chainDue = d.chainDue ∧ (d.setParityOf k v).jtag = d.jtag ∧
    (d.setParityOf k v).scan = d.scan ∧ (d.setParityOf k v).jtagOut = d.jtagOut ∧
    (d.setParityOf k v).nonceCtr = d.nonceCtr ∧ (d.setParityOf k v).freeCtr = d.freeCtr := by
  refine ⟨rfl, rfl, rfl, rfl, rfl, rfl, rfl, rfl, rfl, rfl, rfl, rfl, rfl, rfl, rfl, rfl, rfl, rfl, rfl, rfl, rfl, rfl, rfl, rfl, rfl, rfl, rfl, rfl, rfl, rfl, rfl, rfl, rfl, rfl, rfl, rfl, rfl, rfl, rfl, rfl, rfl, rfl, rfl, rfl, rfl, rfl, rfl, rfl⟩

@[simp] theorem Dev.setParityOf_vat_frame (d : Dev) (k : Nat) (v : Nat) :
    (d.setParityOf k v).vat.depth = d.vat.depth ∧ (d.setParityOf k v).vat.change = d.vat.change ∧
    (d.setParityOf k v).vat.slots = d.vat.slots ∧ (d.setParityOf k v).vat.spare = d.vat.spare ∧
    (d.setParityOf k v).vat.coming = d.vat.coming ∧ (d.setParityOf k v).vat.retired = d.vat.retired ∧
    (d.setParityOf k v).vat.noSpare = d.vat.noSpare ∧ (d.setParityOf k v).vat.rotSlot = d.vat.rotSlot ∧
    (d.setParityOf k v).vat.migrating = d.vat.migrating ∧
    (d.setParityOf k v).vat.beatsSinceRot = d.vat.beatsSinceRot ∧
    (d.setParityOf k v).vat.sparePassed = d.vat.sparePassed ∧ (d.setParityOf k v).vat.front = d.vat.front ∧
    (d.setParityOf k v).vat.marchPasses = d.vat.marchPasses ∧
    (d.setParityOf k v).vat.marchLastOk = d.vat.marchLastOk ∧ (d.setParityOf k v).vat.parityDue = d.vat.parityDue ∧
    (d.setParityOf k v).vat.banks = d.vat.banks ∧ (d.setParityOf k v).vat.arbiters = d.vat.arbiters ∧
    (d.setParityOf k v).vat.queues = d.vat.queues ∧ (d.setParityOf k v).vat.free = d.vat.free ∧
    (d.setParityOf k v).vat.books = d.vat.books ∧ (d.setParityOf k v).vat.copy = d.vat.copy ∧
    (d.setParityOf k v).vat.claims = d.vat.claims ∧ (d.setParityOf k v).vat.held = d.vat.held ∧
    (d.setParityOf k v).vat.used = d.vat.used ∧ (d.setParityOf k v).vat.halves = d.vat.halves ∧
    (d.setParityOf k v).vat.tallyDue = d.vat.tallyDue ∧ (d.setParityOf k v).vat.lastDefer = d.vat.lastDefer ∧
    (d.setParityOf k v).vat.serial = d.vat.serial := by
  refine ⟨rfl, rfl, rfl, rfl, rfl, rfl, rfl, rfl, rfl, rfl, rfl, rfl, rfl, rfl, rfl, rfl, rfl, rfl, rfl, rfl, rfl, rfl, rfl, rfl, rfl, rfl, rfl, rfl⟩

@[simp] theorem Dev.setParityOf_vat_beatParity (d : Dev) (k : Nat) (v : Nat) : (d.setParityOf k v).vat.beatParity = put parityOfDflt d.vat.beatParity k v := rfl

theorem Dev.parityOf_setParityOf (d : Dev) (k j : Nat) (v : Nat) (h : wfTab parityOfDflt d.vat.beatParity = true) :
    (d.setParityOf k v).parityOf j = if j = k then v else d.parityOf j := look_put k j v h

/-! ## setSlotResult -/

@[simp] theorem Dev.setSlotResult_frame (d : Dev) (k : Nat) (v : Nat) :
    (d.setSlotResult k v).life = d.life ∧ (d.setSlotResult k v).flash = d.flash ∧
    (d.setSlotResult k v).regs = d.regs ∧ (d.setSlotResult k v).shadow = d.shadow ∧
    (d.setSlotResult k v).counters = d.counters ∧ (d.setSlotResult k v).guards = d.guards ∧
    (d.setSlotResult k v).updates = d.updates ∧ (d.setSlotResult k v).updateLast = d.updateLast ∧
    (d.setSlotResult k v).mailbox = d.mailbox ∧ (d.setSlotResult k v).quire = d.quire ∧
    (d.setSlotResult k v).requests = d.requests ∧ (d.setSlotResult k v).subs = d.subs ∧
    (d.setSlotResult k v).spi = d.spi ∧ (d.setSlotResult k v).vat = d.vat ∧
    (d.setSlotResult k v).deficit = d.deficit ∧ (d.setSlotResult k v).used = d.used ∧
    (d.setSlotResult k v).rrNext = d.rrNext ∧ (d.setSlotResult k v).drrCur = d.drrCur ∧
    (d.setSlotResult k v).sentUnit = d.sentUnit ∧ (d.setSlotResult k v).sentBad = d.sentBad ∧
    (d.setSlotResult k v).deckle = d.deckle ∧ (d.setSlotResult k v).ctxs = d.ctxs ∧
    (d.setSlotResult k v).bindings = d.bindings ∧ (d.setSlotResult k v).holds = d.holds ∧
    (d.setSlotResult k v).transfers = d.transfers ∧ (d.setSlotResult k v).subscriptions = d.subscriptions ∧
    (d.setSlotResult k v).ports = d.ports ∧ (d.setSlotResult k v).fuses = d.fuses ∧
    (d.setSlotResult k v).dies = d.dies ∧ (d.setSlotResult k v).pd = d.pd ∧ (d.setSlotResult k v).psb = d.psb ∧
    (d.setSlotResult k v).vinLow = d.vinLow ∧ (d.setSlotResult k v).fc = d.fc ∧
    (d.setSlotResult k v).watermark = d.watermark ∧ (d.setSlotResult k v).power = d.power ∧
    (d.setSlotResult k v).links = d.links ∧ (d.setSlotResult k v).funcs = d.funcs ∧ (d.setSlotResult k v).u0 = d.u0 ∧
    (d.setSlotResult k v).eths = d.eths ∧ (d.setSlotResult k v).couchKeys = d.couchKeys ∧
    (d.setSlotResult k v).maint = d.maint ∧ (d.setSlotResult k v).resetDue = d.resetDue ∧
    (d.setSlotResult k v).chainDue = d.chainDue ∧ (d.setSlotResult k v).jtag = d.jtag ∧
    (d.setSlotResult k v).scan = d.scan ∧ (d.setSlotResult k v).jtagOut = d.jtagOut ∧
    (d.setSlotResult k v).nonceCtr = d.nonceCtr ∧ (d.setSlotResult k v).freeCtr = d.freeCtr := by
  refine ⟨rfl, rfl, rfl, rfl, rfl, rfl, rfl, rfl, rfl, rfl, rfl, rfl, rfl, rfl, rfl, rfl, rfl, rfl, rfl, rfl, rfl, rfl, rfl, rfl, rfl, rfl, rfl, rfl, rfl, rfl, rfl, rfl, rfl, rfl, rfl, rfl, rfl, rfl, rfl, rfl, rfl, rfl, rfl, rfl, rfl, rfl, rfl, rfl⟩

@[simp] theorem Dev.setSlotResult_boot_frame (d : Dev) (k : Nat) (v : Nat) :
    (d.setSlotResult k v).boot.state = d.boot.state ∧ (d.setSlotResult k v).boot.ready = d.boot.ready ∧
    (d.setSlotResult k v).boot.pinMask = d.boot.pinMask ∧ (d.setSlotResult k v).boot.reverted = d.boot.reverted ∧
    (d.setSlotResult k v).boot.trial = d.boot.trial ∧ (d.setSlotResult k v).boot.verified = d.boot.verified ∧
    (d.setSlotResult k v).boot.position = d.boot.position ∧ (d.setSlotResult k v).boot.erasing = d.boot.erasing ∧
    (d.setSlotResult k v).boot.checking = d.boot.checking ∧ (d.setSlotResult k v).boot.first = d.boot.first ∧
    (d.setSlotResult k v).boot.millOnly = d.boot.millOnly ∧ (d.setSlotResult k v).boot.mill = d.boot.mill ∧
    (d.setSlotResult k v).boot.couch = d.boot.couch ∧ (d.setSlotResult k v).boot.millSlotB = d.boot.millSlotB ∧
    (d.setSlotResult k v).boot.couchSlotB = d.boot.couchSlotB ∧
    (d.setSlotResult k v).boot.millChosen = d.boot.millChosen ∧
    (d.setSlotResult k v).boot.couchChosen = d.boot.couchChosen ∧
    (d.setSlotResult k v).boot.wdogArmed = d.boot.wdogArmed ∧ (d.setSlotResult k v).boot.millFrom = d.boot.millFrom ∧
    (d.setSlotResult k v).boot.couchFrom = d.boot.couchFrom ∧ (d.setSlotResult k v).boot.hostRuns = d.boot.hostRuns ∧
    (d.setSlotResult k v).boot.stopped = d.boot.stopped ∧ (d.setSlotResult k v).boot.warm = d.boot.warm := by
  refine ⟨rfl, rfl, rfl, rfl, rfl, rfl, rfl, rfl, rfl, rfl, rfl, rfl, rfl, rfl, rfl, rfl, rfl, rfl, rfl, rfl, rfl, rfl, rfl⟩

@[simp] theorem Dev.setSlotResult_boot_result (d : Dev) (k : Nat) (v : Nat) : (d.setSlotResult k v).boot.result = put slotResultDflt d.boot.result k v := rfl

theorem Dev.slotResult_setSlotResult (d : Dev) (k j : Nat) (v : Nat) (h : wfTab slotResultDflt d.boot.result = true) :
    (d.setSlotResult k v).slotResult j = if j = k then v else d.slotResult j := look_put k j v h

/-! ## setSlotVerified -/

@[simp] theorem Dev.setSlotVerified_frame (d : Dev) (k : Nat) (v : Bool) :
    (d.setSlotVerified k v).life = d.life ∧ (d.setSlotVerified k v).flash = d.flash ∧
    (d.setSlotVerified k v).regs = d.regs ∧ (d.setSlotVerified k v).shadow = d.shadow ∧
    (d.setSlotVerified k v).counters = d.counters ∧ (d.setSlotVerified k v).guards = d.guards ∧
    (d.setSlotVerified k v).updates = d.updates ∧ (d.setSlotVerified k v).updateLast = d.updateLast ∧
    (d.setSlotVerified k v).mailbox = d.mailbox ∧ (d.setSlotVerified k v).quire = d.quire ∧
    (d.setSlotVerified k v).requests = d.requests ∧ (d.setSlotVerified k v).subs = d.subs ∧
    (d.setSlotVerified k v).spi = d.spi ∧ (d.setSlotVerified k v).vat = d.vat ∧
    (d.setSlotVerified k v).deficit = d.deficit ∧ (d.setSlotVerified k v).used = d.used ∧
    (d.setSlotVerified k v).rrNext = d.rrNext ∧ (d.setSlotVerified k v).drrCur = d.drrCur ∧
    (d.setSlotVerified k v).sentUnit = d.sentUnit ∧ (d.setSlotVerified k v).sentBad = d.sentBad ∧
    (d.setSlotVerified k v).deckle = d.deckle ∧ (d.setSlotVerified k v).ctxs = d.ctxs ∧
    (d.setSlotVerified k v).bindings = d.bindings ∧ (d.setSlotVerified k v).holds = d.holds ∧
    (d.setSlotVerified k v).transfers = d.transfers ∧ (d.setSlotVerified k v).subscriptions = d.subscriptions ∧
    (d.setSlotVerified k v).ports = d.ports ∧ (d.setSlotVerified k v).fuses = d.fuses ∧
    (d.setSlotVerified k v).dies = d.dies ∧ (d.setSlotVerified k v).pd = d.pd ∧ (d.setSlotVerified k v).psb = d.psb ∧
    (d.setSlotVerified k v).vinLow = d.vinLow ∧ (d.setSlotVerified k v).fc = d.fc ∧
    (d.setSlotVerified k v).watermark = d.watermark ∧ (d.setSlotVerified k v).power = d.power ∧
    (d.setSlotVerified k v).links = d.links ∧ (d.setSlotVerified k v).funcs = d.funcs ∧
    (d.setSlotVerified k v).u0 = d.u0 ∧ (d.setSlotVerified k v).eths = d.eths ∧
    (d.setSlotVerified k v).couchKeys = d.couchKeys ∧ (d.setSlotVerified k v).maint = d.maint ∧
    (d.setSlotVerified k v).resetDue = d.resetDue ∧ (d.setSlotVerified k v).chainDue = d.chainDue ∧
    (d.setSlotVerified k v).jtag = d.jtag ∧ (d.setSlotVerified k v).scan = d.scan ∧
    (d.setSlotVerified k v).jtagOut = d.jtagOut ∧ (d.setSlotVerified k v).nonceCtr = d.nonceCtr ∧
    (d.setSlotVerified k v).freeCtr = d.freeCtr := by
  refine ⟨rfl, rfl, rfl, rfl, rfl, rfl, rfl, rfl, rfl, rfl, rfl, rfl, rfl, rfl, rfl, rfl, rfl, rfl, rfl, rfl, rfl, rfl, rfl, rfl, rfl, rfl, rfl, rfl, rfl, rfl, rfl, rfl, rfl, rfl, rfl, rfl, rfl, rfl, rfl, rfl, rfl, rfl, rfl, rfl, rfl, rfl, rfl, rfl⟩

@[simp] theorem Dev.setSlotVerified_boot_frame (d : Dev) (k : Nat) (v : Bool) :
    (d.setSlotVerified k v).boot.state = d.boot.state ∧ (d.setSlotVerified k v).boot.ready = d.boot.ready ∧
    (d.setSlotVerified k v).boot.pinMask = d.boot.pinMask ∧ (d.setSlotVerified k v).boot.reverted = d.boot.reverted ∧
    (d.setSlotVerified k v).boot.trial = d.boot.trial ∧ (d.setSlotVerified k v).boot.result = d.boot.result ∧
    (d.setSlotVerified k v).boot.position = d.boot.position ∧ (d.setSlotVerified k v).boot.erasing = d.boot.erasing ∧
    (d.setSlotVerified k v).boot.checking = d.boot.checking ∧ (d.setSlotVerified k v).boot.first = d.boot.first ∧
    (d.setSlotVerified k v).boot.millOnly = d.boot.millOnly ∧ (d.setSlotVerified k v).boot.mill = d.boot.mill ∧
    (d.setSlotVerified k v).boot.couch = d.boot.couch ∧ (d.setSlotVerified k v).boot.millSlotB = d.boot.millSlotB ∧
    (d.setSlotVerified k v).boot.couchSlotB = d.boot.couchSlotB ∧
    (d.setSlotVerified k v).boot.millChosen = d.boot.millChosen ∧
    (d.setSlotVerified k v).boot.couchChosen = d.boot.couchChosen ∧
    (d.setSlotVerified k v).boot.wdogArmed = d.boot.wdogArmed ∧
    (d.setSlotVerified k v).boot.millFrom = d.boot.millFrom ∧
    (d.setSlotVerified k v).boot.couchFrom = d.boot.couchFrom ∧
    (d.setSlotVerified k v).boot.hostRuns = d.boot.hostRuns ∧ (d.setSlotVerified k v).boot.stopped = d.boot.stopped ∧
    (d.setSlotVerified k v).boot.warm = d.boot.warm := by
  refine ⟨rfl, rfl, rfl, rfl, rfl, rfl, rfl, rfl, rfl, rfl, rfl, rfl, rfl, rfl, rfl, rfl, rfl, rfl, rfl, rfl, rfl, rfl, rfl⟩

@[simp] theorem Dev.setSlotVerified_boot_verified (d : Dev) (k : Nat) (v : Bool) : (d.setSlotVerified k v).boot.verified = put slotVerifiedDflt d.boot.verified k v := rfl

theorem Dev.slotVerified_setSlotVerified (d : Dev) (k j : Nat) (v : Bool) (h : wfTab slotVerifiedDflt d.boot.verified = true) :
    (d.setSlotVerified k v).slotVerified j = if j = k then v else d.slotVerified j := look_put k j v h

/-! ## setSlotPosition -/

@[simp] theorem Dev.setSlotPosition_frame (d : Dev) (k : Nat) (v : Nat) :
    (d.setSlotPosition k v).life = d.life ∧ (d.setSlotPosition k v).flash = d.flash ∧
    (d.setSlotPosition k v).regs = d.regs ∧ (d.setSlotPosition k v).shadow = d.shadow ∧
    (d.setSlotPosition k v).counters = d.counters ∧ (d.setSlotPosition k v).guards = d.guards ∧
    (d.setSlotPosition k v).updates = d.updates ∧ (d.setSlotPosition k v).updateLast = d.updateLast ∧
    (d.setSlotPosition k v).mailbox = d.mailbox ∧ (d.setSlotPosition k v).quire = d.quire ∧
    (d.setSlotPosition k v).requests = d.requests ∧ (d.setSlotPosition k v).subs = d.subs ∧
    (d.setSlotPosition k v).spi = d.spi ∧ (d.setSlotPosition k v).vat = d.vat ∧
    (d.setSlotPosition k v).deficit = d.deficit ∧ (d.setSlotPosition k v).used = d.used ∧
    (d.setSlotPosition k v).rrNext = d.rrNext ∧ (d.setSlotPosition k v).drrCur = d.drrCur ∧
    (d.setSlotPosition k v).sentUnit = d.sentUnit ∧ (d.setSlotPosition k v).sentBad = d.sentBad ∧
    (d.setSlotPosition k v).deckle = d.deckle ∧ (d.setSlotPosition k v).ctxs = d.ctxs ∧
    (d.setSlotPosition k v).bindings = d.bindings ∧ (d.setSlotPosition k v).holds = d.holds ∧
    (d.setSlotPosition k v).transfers = d.transfers ∧ (d.setSlotPosition k v).subscriptions = d.subscriptions ∧
    (d.setSlotPosition k v).ports = d.ports ∧ (d.setSlotPosition k v).fuses = d.fuses ∧
    (d.setSlotPosition k v).dies = d.dies ∧ (d.setSlotPosition k v).pd = d.pd ∧ (d.setSlotPosition k v).psb = d.psb ∧
    (d.setSlotPosition k v).vinLow = d.vinLow ∧ (d.setSlotPosition k v).fc = d.fc ∧
    (d.setSlotPosition k v).watermark = d.watermark ∧ (d.setSlotPosition k v).power = d.power ∧
    (d.setSlotPosition k v).links = d.links ∧ (d.setSlotPosition k v).funcs = d.funcs ∧
    (d.setSlotPosition k v).u0 = d.u0 ∧ (d.setSlotPosition k v).eths = d.eths ∧
    (d.setSlotPosition k v).couchKeys = d.couchKeys ∧ (d.setSlotPosition k v).maint = d.maint ∧
    (d.setSlotPosition k v).resetDue = d.resetDue ∧ (d.setSlotPosition k v).chainDue = d.chainDue ∧
    (d.setSlotPosition k v).jtag = d.jtag ∧ (d.setSlotPosition k v).scan = d.scan ∧
    (d.setSlotPosition k v).jtagOut = d.jtagOut ∧ (d.setSlotPosition k v).nonceCtr = d.nonceCtr ∧
    (d.setSlotPosition k v).freeCtr = d.freeCtr := by
  refine ⟨rfl, rfl, rfl, rfl, rfl, rfl, rfl, rfl, rfl, rfl, rfl, rfl, rfl, rfl, rfl, rfl, rfl, rfl, rfl, rfl, rfl, rfl, rfl, rfl, rfl, rfl, rfl, rfl, rfl, rfl, rfl, rfl, rfl, rfl, rfl, rfl, rfl, rfl, rfl, rfl, rfl, rfl, rfl, rfl, rfl, rfl, rfl, rfl⟩

@[simp] theorem Dev.setSlotPosition_boot_frame (d : Dev) (k : Nat) (v : Nat) :
    (d.setSlotPosition k v).boot.state = d.boot.state ∧ (d.setSlotPosition k v).boot.ready = d.boot.ready ∧
    (d.setSlotPosition k v).boot.pinMask = d.boot.pinMask ∧ (d.setSlotPosition k v).boot.reverted = d.boot.reverted ∧
    (d.setSlotPosition k v).boot.trial = d.boot.trial ∧ (d.setSlotPosition k v).boot.result = d.boot.result ∧
    (d.setSlotPosition k v).boot.verified = d.boot.verified ∧ (d.setSlotPosition k v).boot.erasing = d.boot.erasing ∧
    (d.setSlotPosition k v).boot.checking = d.boot.checking ∧ (d.setSlotPosition k v).boot.first = d.boot.first ∧
    (d.setSlotPosition k v).boot.millOnly = d.boot.millOnly ∧ (d.setSlotPosition k v).boot.mill = d.boot.mill ∧
    (d.setSlotPosition k v).boot.couch = d.boot.couch ∧ (d.setSlotPosition k v).boot.millSlotB = d.boot.millSlotB ∧
    (d.setSlotPosition k v).boot.couchSlotB = d.boot.couchSlotB ∧
    (d.setSlotPosition k v).boot.millChosen = d.boot.millChosen ∧
    (d.setSlotPosition k v).boot.couchChosen = d.boot.couchChosen ∧
    (d.setSlotPosition k v).boot.wdogArmed = d.boot.wdogArmed ∧
    (d.setSlotPosition k v).boot.millFrom = d.boot.millFrom ∧
    (d.setSlotPosition k v).boot.couchFrom = d.boot.couchFrom ∧
    (d.setSlotPosition k v).boot.hostRuns = d.boot.hostRuns ∧ (d.setSlotPosition k v).boot.stopped = d.boot.stopped ∧
    (d.setSlotPosition k v).boot.warm = d.boot.warm := by
  refine ⟨rfl, rfl, rfl, rfl, rfl, rfl, rfl, rfl, rfl, rfl, rfl, rfl, rfl, rfl, rfl, rfl, rfl, rfl, rfl, rfl, rfl, rfl, rfl⟩

@[simp] theorem Dev.setSlotPosition_boot_position (d : Dev) (k : Nat) (v : Nat) : (d.setSlotPosition k v).boot.position = put slotPositionDflt d.boot.position k v := rfl

theorem Dev.slotPosition_setSlotPosition (d : Dev) (k j : Nat) (v : Nat) (h : wfTab slotPositionDflt d.boot.position = true) :
    (d.setSlotPosition k v).slotPosition j = if j = k then v else d.slotPosition j := look_put k j v h

/-! ## setSlotErasing -/

@[simp] theorem Dev.setSlotErasing_frame (d : Dev) (k : Nat) (v : Option ReqKey) :
    (d.setSlotErasing k v).life = d.life ∧ (d.setSlotErasing k v).flash = d.flash ∧
    (d.setSlotErasing k v).regs = d.regs ∧ (d.setSlotErasing k v).shadow = d.shadow ∧
    (d.setSlotErasing k v).counters = d.counters ∧ (d.setSlotErasing k v).guards = d.guards ∧
    (d.setSlotErasing k v).updates = d.updates ∧ (d.setSlotErasing k v).updateLast = d.updateLast ∧
    (d.setSlotErasing k v).mailbox = d.mailbox ∧ (d.setSlotErasing k v).quire = d.quire ∧
    (d.setSlotErasing k v).requests = d.requests ∧ (d.setSlotErasing k v).subs = d.subs ∧
    (d.setSlotErasing k v).spi = d.spi ∧ (d.setSlotErasing k v).vat = d.vat ∧
    (d.setSlotErasing k v).deficit = d.deficit ∧ (d.setSlotErasing k v).used = d.used ∧
    (d.setSlotErasing k v).rrNext = d.rrNext ∧ (d.setSlotErasing k v).drrCur = d.drrCur ∧
    (d.setSlotErasing k v).sentUnit = d.sentUnit ∧ (d.setSlotErasing k v).sentBad = d.sentBad ∧
    (d.setSlotErasing k v).deckle = d.deckle ∧ (d.setSlotErasing k v).ctxs = d.ctxs ∧
    (d.setSlotErasing k v).bindings = d.bindings ∧ (d.setSlotErasing k v).holds = d.holds ∧
    (d.setSlotErasing k v).transfers = d.transfers ∧ (d.setSlotErasing k v).subscriptions = d.subscriptions ∧
    (d.setSlotErasing k v).ports = d.ports ∧ (d.setSlotErasing k v).fuses = d.fuses ∧
    (d.setSlotErasing k v).dies = d.dies ∧ (d.setSlotErasing k v).pd = d.pd ∧ (d.setSlotErasing k v).psb = d.psb ∧
    (d.setSlotErasing k v).vinLow = d.vinLow ∧ (d.setSlotErasing k v).fc = d.fc ∧
    (d.setSlotErasing k v).watermark = d.watermark ∧ (d.setSlotErasing k v).power = d.power ∧
    (d.setSlotErasing k v).links = d.links ∧ (d.setSlotErasing k v).funcs = d.funcs ∧
    (d.setSlotErasing k v).u0 = d.u0 ∧ (d.setSlotErasing k v).eths = d.eths ∧
    (d.setSlotErasing k v).couchKeys = d.couchKeys ∧ (d.setSlotErasing k v).maint = d.maint ∧
    (d.setSlotErasing k v).resetDue = d.resetDue ∧ (d.setSlotErasing k v).chainDue = d.chainDue ∧
    (d.setSlotErasing k v).jtag = d.jtag ∧ (d.setSlotErasing k v).scan = d.scan ∧
    (d.setSlotErasing k v).jtagOut = d.jtagOut ∧ (d.setSlotErasing k v).nonceCtr = d.nonceCtr ∧
    (d.setSlotErasing k v).freeCtr = d.freeCtr := by
  refine ⟨rfl, rfl, rfl, rfl, rfl, rfl, rfl, rfl, rfl, rfl, rfl, rfl, rfl, rfl, rfl, rfl, rfl, rfl, rfl, rfl, rfl, rfl, rfl, rfl, rfl, rfl, rfl, rfl, rfl, rfl, rfl, rfl, rfl, rfl, rfl, rfl, rfl, rfl, rfl, rfl, rfl, rfl, rfl, rfl, rfl, rfl, rfl, rfl⟩

@[simp] theorem Dev.setSlotErasing_boot_frame (d : Dev) (k : Nat) (v : Option ReqKey) :
    (d.setSlotErasing k v).boot.state = d.boot.state ∧ (d.setSlotErasing k v).boot.ready = d.boot.ready ∧
    (d.setSlotErasing k v).boot.pinMask = d.boot.pinMask ∧ (d.setSlotErasing k v).boot.reverted = d.boot.reverted ∧
    (d.setSlotErasing k v).boot.trial = d.boot.trial ∧ (d.setSlotErasing k v).boot.result = d.boot.result ∧
    (d.setSlotErasing k v).boot.verified = d.boot.verified ∧ (d.setSlotErasing k v).boot.position = d.boot.position ∧
    (d.setSlotErasing k v).boot.checking = d.boot.checking ∧ (d.setSlotErasing k v).boot.first = d.boot.first ∧
    (d.setSlotErasing k v).boot.millOnly = d.boot.millOnly ∧ (d.setSlotErasing k v).boot.mill = d.boot.mill ∧
    (d.setSlotErasing k v).boot.couch = d.boot.couch ∧ (d.setSlotErasing k v).boot.millSlotB = d.boot.millSlotB ∧
    (d.setSlotErasing k v).boot.couchSlotB = d.boot.couchSlotB ∧
    (d.setSlotErasing k v).boot.millChosen = d.boot.millChosen ∧
    (d.setSlotErasing k v).boot.couchChosen = d.boot.couchChosen ∧
    (d.setSlotErasing k v).boot.wdogArmed = d.boot.wdogArmed ∧
    (d.setSlotErasing k v).boot.millFrom = d.boot.millFrom ∧
    (d.setSlotErasing k v).boot.couchFrom = d.boot.couchFrom ∧
    (d.setSlotErasing k v).boot.hostRuns = d.boot.hostRuns ∧ (d.setSlotErasing k v).boot.stopped = d.boot.stopped ∧
    (d.setSlotErasing k v).boot.warm = d.boot.warm := by
  refine ⟨rfl, rfl, rfl, rfl, rfl, rfl, rfl, rfl, rfl, rfl, rfl, rfl, rfl, rfl, rfl, rfl, rfl, rfl, rfl, rfl, rfl, rfl, rfl⟩

@[simp] theorem Dev.setSlotErasing_boot_erasing (d : Dev) (k : Nat) (v : Option ReqKey) : (d.setSlotErasing k v).boot.erasing = put slotErasingDflt d.boot.erasing k v := rfl

theorem Dev.slotErasing_setSlotErasing (d : Dev) (k j : Nat) (v : Option ReqKey) (h : wfTab slotErasingDflt d.boot.erasing = true) :
    (d.setSlotErasing k v).slotErasing j = if j = k then v else d.slotErasing j := look_put k j v h

/-! ## setSrc -/

@[simp] theorem Dev.setSrc_frame (d : Dev) (i : Nat) (v : Source) :
    (d.setSrc i v).life = d.life ∧ (d.setSrc i v).boot = d.boot ∧ (d.setSrc i v).flash = d.flash ∧
    (d.setSrc i v).regs = d.regs ∧ (d.setSrc i v).shadow = d.shadow ∧ (d.setSrc i v).counters = d.counters ∧
    (d.setSrc i v).guards = d.guards ∧ (d.setSrc i v).updates = d.updates ∧
    (d.setSrc i v).updateLast = d.updateLast ∧ (d.setSrc i v).mailbox = d.mailbox ∧ (d.setSrc i v).quire = d.quire ∧
    (d.setSrc i v).requests = d.requests ∧ (d.setSrc i v).subs = d.subs ∧ (d.setSrc i v).spi = d.spi ∧
    (d.setSrc i v).vat = d.vat ∧ (d.setSrc i v).deficit = d.deficit ∧ (d.setSrc i v).used = d.used ∧
    (d.setSrc i v).rrNext = d.rrNext ∧ (d.setSrc i v).drrCur = d.drrCur ∧ (d.setSrc i v).sentUnit = d.sentUnit ∧
    (d.setSrc i v).sentBad = d.sentBad ∧ (d.setSrc i v).deckle = d.deckle ∧ (d.setSrc i v).ctxs = d.ctxs ∧
    (d.setSrc i v).bindings = d.bindings ∧ (d.setSrc i v).holds = d.holds ∧ (d.setSrc i v).transfers = d.transfers ∧
    (d.setSrc i v).subscriptions = d.subscriptions ∧ (d.setSrc i v).ports = d.ports ∧
    (d.setSrc i v).fuses = d.fuses ∧ (d.setSrc i v).dies = d.dies ∧ (d.setSrc i v).pd = d.pd ∧
    (d.setSrc i v).psb = d.psb ∧ (d.setSrc i v).vinLow = d.vinLow ∧ (d.setSrc i v).watermark = d.watermark ∧
    (d.setSrc i v).power = d.power ∧ (d.setSrc i v).links = d.links ∧ (d.setSrc i v).funcs = d.funcs ∧
    (d.setSrc i v).u0 = d.u0 ∧ (d.setSrc i v).eths = d.eths ∧ (d.setSrc i v).couchKeys = d.couchKeys ∧
    (d.setSrc i v).maint = d.maint ∧ (d.setSrc i v).resetDue = d.resetDue ∧ (d.setSrc i v).chainDue = d.chainDue ∧
    (d.setSrc i v).jtag = d.jtag ∧ (d.setSrc i v).scan = d.scan ∧ (d.setSrc i v).jtagOut = d.jtagOut ∧
    (d.setSrc i v).nonceCtr = d.nonceCtr ∧ (d.setSrc i v).freeCtr = d.freeCtr := by
  refine ⟨rfl, rfl, rfl, rfl, rfl, rfl, rfl, rfl, rfl, rfl, rfl, rfl, rfl, rfl, rfl, rfl, rfl, rfl, rfl, rfl, rfl, rfl, rfl, rfl, rfl, rfl, rfl, rfl, rfl, rfl, rfl, rfl, rfl, rfl, rfl, rfl, rfl, rfl, rfl, rfl, rfl, rfl, rfl, rfl, rfl, rfl, rfl, rfl⟩

@[simp] theorem Dev.setSrc_fc_frame (d : Dev) (i : Nat) (v : Source) :
    (d.setSrc i v).fc.chipSafe = d.fc.chipSafe ∧ (d.setSrc i v).fc.self = d.fc.self ∧
    (d.setSrc i v).fc.safeSrc = d.fc.safeSrc ∧ (d.setSrc i v).fc.copying = d.fc.copying ∧
    (d.setSrc i v).fc.result = d.fc.result ∧ (d.setSrc i v).fc.event = d.fc.event ∧
    (d.setSrc i v).fc.showRecord = d.fc.showRecord := by
  refine ⟨rfl, rfl, rfl, rfl, rfl, rfl, rfl⟩

@[simp] theorem Dev.setSrc_fc_src (d : Dev) (i : Nat) (v : Source) : (d.setSrc i v).fc.src = put srcDflt d.fc.src i v := rfl

theorem Dev.src_setSrc (d : Dev) (i j : Nat) (v : Source) (h : wfTab srcDflt d.fc.src = true) :
    (d.setSrc i v).src j = if j = i then v else d.src j := look_put i j v h

/-! ## setQword -/

@[simp] theorem Dev.setQword_frame (d : Dev) (w : Nat) (v : W32) :
    (d.setQword w v).life = d.life ∧ (d.setQword w v).boot = d.boot ∧ (d.setQword w v).flash = d.flash ∧
    (d.setQword w v).regs = d.regs ∧ (d.setQword w v).shadow = d.shadow ∧ (d.setQword w v).counters = d.counters ∧
    (d.setQword w v).guards = d.guards ∧ (d.setQword w v).updates = d.updates ∧
    (d.setQword w v).updateLast = d.updateLast ∧ (d.setQword w v).mailbox = d.mailbox ∧
    (d.setQword w v).requests = d.requests ∧ (d.setQword w v).subs = d.subs ∧ (d.setQword w v).spi = d.spi ∧
    (d.setQword w v).vat = d.vat ∧ (d.setQword w v).deficit = d.deficit ∧ (d.setQword w v).used = d.used ∧
    (d.setQword w v).rrNext = d.rrNext ∧ (d.setQword w v).drrCur = d.drrCur ∧
    (d.setQword w v).sentUnit = d.sentUnit ∧ (d.setQword w v).sentBad = d.sentBad ∧
    (d.setQword w v).deckle = d.deckle ∧ (d.setQword w v).ctxs = d.ctxs ∧ (d.setQword w v).bindings = d.bindings ∧
    (d.setQword w v).holds = d.holds ∧ (d.setQword w v).transfers = d.transfers ∧
    (d.setQword w v).subscriptions = d.subscriptions ∧ (d.setQword w v).ports = d.ports ∧
    (d.setQword w v).fuses = d.fuses ∧ (d.setQword w v).dies = d.dies ∧ (d.setQword w v).pd = d.pd ∧
    (d.setQword w v).psb = d.psb ∧ (d.setQword w v).vinLow = d.vinLow ∧ (d.setQword w v).fc = d.fc ∧
    (d.setQword w v).watermark = d.watermark ∧ (d.setQword w v).power = d.power ∧ (d.setQword w v).links = d.links ∧
    (d.setQword w v).funcs = d.funcs ∧ (d.setQword w v).u0 = d.u0 ∧ (d.setQword w v).eths = d.eths ∧
    (d.setQword w v).couchKeys = d.couchKeys ∧ (d.setQword w v).maint = d.maint ∧
    (d.setQword w v).resetDue = d.resetDue ∧ (d.setQword w v).chainDue = d.chainDue ∧
    (d.setQword w v).jtag = d.jtag ∧ (d.setQword w v).scan = d.scan ∧ (d.setQword w v).jtagOut = d.jtagOut ∧
    (d.setQword w v).nonceCtr = d.nonceCtr ∧ (d.setQword w v).freeCtr = d.freeCtr := by
  refine ⟨rfl, rfl, rfl, rfl, rfl, rfl, rfl, rfl, rfl, rfl, rfl, rfl, rfl, rfl, rfl, rfl, rfl, rfl, rfl, rfl, rfl, rfl, rfl, rfl, rfl, rfl, rfl, rfl, rfl, rfl, rfl, rfl, rfl, rfl, rfl, rfl, rfl, rfl, rfl, rfl, rfl, rfl, rfl, rfl, rfl, rfl, rfl, rfl⟩

@[simp] theorem Dev.setQword_quire_frame (d : Dev) (w : Nat) (v : W32) :
    (d.setQword w v).quire.wear = d.quire.wear ∧ (d.setQword w v).quire.busy = d.quire.busy ∧
    (d.setQword w v).quire.keyPart = d.quire.keyPart := by
  refine ⟨rfl, rfl, rfl⟩

@[simp] theorem Dev.setQword_quire_words (d : Dev) (w : Nat) (v : W32) : (d.setQword w v).quire.words = put quireDefault d.quire.words w v := rfl

theorem Dev.qword_setQword (d : Dev) (w j : Nat) (v : W32) (h : wfTab quireDefault d.quire.words = true) :
    (d.setQword w v).qword j = if j = w then v else d.qword j := look_put w j v h

/-! ## setKeyPart -/

@[simp] theorem Dev.setKeyPart_frame (d : Dev) (k : Nat) (v : BitVec 4) :
    (d.setKeyPart k v).life = d.life ∧ (d.setKeyPart k v).boot = d.boot ∧ (d.setKeyPart k v).flash = d.flash ∧
    (d.setKeyPart k v).regs = d.regs ∧ (d.setKeyPart k v).shadow = d.shadow ∧
    (d.setKeyPart k v).counters = d.counters ∧ (d.setKeyPart k v).guards = d.guards ∧
    (d.setKeyPart k v).updates = d.updates ∧ (d.setKeyPart k v).updateLast = d.updateLast ∧
    (d.setKeyPart k v).mailbox = d.mailbox ∧ (d.setKeyPart k v).requests = d.requests ∧
    (d.setKeyPart k v).subs = d.subs ∧ (d.setKeyPart k v).spi = d.spi ∧ (d.setKeyPart k v).vat = d.vat ∧
    (d.setKeyPart k v).deficit = d.deficit ∧ (d.setKeyPart k v).used = d.used ∧
    (d.setKeyPart k v).rrNext = d.rrNext ∧ (d.setKeyPart k v).drrCur = d.drrCur ∧
    (d.setKeyPart k v).sentUnit = d.sentUnit ∧ (d.setKeyPart k v).sentBad = d.sentBad ∧
    (d.setKeyPart k v).deckle = d.deckle ∧ (d.setKeyPart k v).ctxs = d.ctxs ∧
    (d.setKeyPart k v).bindings = d.bindings ∧ (d.setKeyPart k v).holds = d.holds ∧
    (d.setKeyPart k v).transfers = d.transfers ∧ (d.setKeyPart k v).subscriptions = d.subscriptions ∧
    (d.setKeyPart k v).ports = d.ports ∧ (d.setKeyPart k v).fuses = d.fuses ∧ (d.setKeyPart k v).dies = d.dies ∧
    (d.setKeyPart k v).pd = d.pd ∧ (d.setKeyPart k v).psb = d.psb ∧ (d.setKeyPart k v).vinLow = d.vinLow ∧
    (d.setKeyPart k v).fc = d.fc ∧ (d.setKeyPart k v).watermark = d.watermark ∧ (d.setKeyPart k v).power = d.power ∧
    (d.setKeyPart k v).links = d.links ∧ (d.setKeyPart k v).funcs = d.funcs ∧ (d.setKeyPart k v).u0 = d.u0 ∧
    (d.setKeyPart k v).eths = d.eths ∧ (d.setKeyPart k v).couchKeys = d.couchKeys ∧
    (d.setKeyPart k v).maint = d.maint ∧ (d.setKeyPart k v).resetDue = d.resetDue ∧
    (d.setKeyPart k v).chainDue = d.chainDue ∧ (d.setKeyPart k v).jtag = d.jtag ∧ (d.setKeyPart k v).scan = d.scan ∧
    (d.setKeyPart k v).jtagOut = d.jtagOut ∧ (d.setKeyPart k v).nonceCtr = d.nonceCtr ∧
    (d.setKeyPart k v).freeCtr = d.freeCtr := by
  refine ⟨rfl, rfl, rfl, rfl, rfl, rfl, rfl, rfl, rfl, rfl, rfl, rfl, rfl, rfl, rfl, rfl, rfl, rfl, rfl, rfl, rfl, rfl, rfl, rfl, rfl, rfl, rfl, rfl, rfl, rfl, rfl, rfl, rfl, rfl, rfl, rfl, rfl, rfl, rfl, rfl, rfl, rfl, rfl, rfl, rfl, rfl, rfl, rfl⟩

@[simp] theorem Dev.setKeyPart_quire_frame (d : Dev) (k : Nat) (v : BitVec 4) :
    (d.setKeyPart k v).quire.words = d.quire.words ∧ (d.setKeyPart k v).quire.wear = d.quire.wear ∧
    (d.setKeyPart k v).quire.busy = d.quire.busy := by
  refine ⟨rfl, rfl, rfl⟩

@[simp] theorem Dev.setKeyPart_quire_keyPart (d : Dev) (k : Nat) (v : BitVec 4) : (d.setKeyPart k v).quire.keyPart = put keyPartDflt d.quire.keyPart k v := rfl

theorem Dev.keyPart_setKeyPart (d : Dev) (k j : Nat) (v : BitVec 4) (h : wfTab keyPartDflt d.quire.keyPart = true) :
    (d.setKeyPart k v).keyPart j = if j = k then v else d.keyPart j := look_put k j v h

/-! ## setReg -/

@[simp] theorem Dev.setReg_frame (d : Dev) (a : Nat) (v : W32) :
    (d.setReg a v).life = d.life ∧ (d.setReg a v).boot = d.boot ∧ (d.setReg a v).flash = d.flash ∧
    (d.setReg a v).shadow = d.shadow ∧ (d.setReg a v).counters = d.counters ∧ (d.setReg a v).guards = d.guards ∧
    (d.setReg a v).updates = d.updates ∧ (d.setReg a v).updateLast = d.updateLast ∧
    (d.setReg a v).mailbox = d.mailbox ∧ (d.setReg a v).quire = d.quire ∧ (d.setReg a v).requests = d.requests ∧
    (d.setReg a v).subs = d.subs ∧ (d.setReg a v).spi = d.spi ∧ (d.setReg a v).vat = d.vat ∧
    (d.setReg a v).deficit = d.deficit ∧ (d.setReg a v).used = d.used ∧ (d.setReg a v).rrNext = d.rrNext ∧
    (d.setReg a v).drrCur = d.drrCur ∧ (d.setReg a v).sentUnit = d.sentUnit ∧ (d.setReg a v).sentBad = d.sentBad ∧
    (d.setReg a v).deckle = d.deckle ∧ (d.setReg a v).ctxs = d.ctxs ∧ (d.setReg a v).bindings = d.bindings ∧
    (d.setReg a v).holds = d.holds ∧ (d.setReg a v).transfers = d.transfers ∧
    (d.setReg a v).subscriptions = d.subscriptions ∧ (d.setReg a v).ports = d.ports ∧
    (d.setReg a v).fuses = d.fuses ∧ (d.setReg a v).dies = d.dies ∧ (d.setReg a v).pd = d.pd ∧
    (d.setReg a v).psb = d.psb ∧ (d.setReg a v).vinLow = d.vinLow ∧ (d.setReg a v).fc = d.fc ∧
    (d.setReg a v).watermark = d.watermark ∧ (d.setReg a v).power = d.power ∧ (d.setReg a v).links = d.links ∧
    (d.setReg a v).funcs = d.funcs ∧ (d.setReg a v).u0 = d.u0 ∧ (d.setReg a v).eths = d.eths ∧
    (d.setReg a v).couchKeys = d.couchKeys ∧ (d.setReg a v).maint = d.maint ∧ (d.setReg a v).resetDue = d.resetDue ∧
    (d.setReg a v).chainDue = d.chainDue ∧ (d.setReg a v).jtag = d.jtag ∧ (d.setReg a v).scan = d.scan ∧
    (d.setReg a v).jtagOut = d.jtagOut ∧ (d.setReg a v).nonceCtr = d.nonceCtr ∧ (d.setReg a v).freeCtr = d.freeCtr := by
  refine ⟨rfl, rfl, rfl, rfl, rfl, rfl, rfl, rfl, rfl, rfl, rfl, rfl, rfl, rfl, rfl, rfl, rfl, rfl, rfl, rfl, rfl, rfl, rfl, rfl, rfl, rfl, rfl, rfl, rfl, rfl, rfl, rfl, rfl, rfl, rfl, rfl, rfl, rfl, rfl, rfl, rfl, rfl, rfl, rfl, rfl, rfl, rfl, rfl⟩

@[simp] theorem Dev.setReg_regs (d : Dev) (a : Nat) (v : W32) : (d.setReg a v).regs = put resetValue d.regs a v := rfl

theorem Dev.reg_setReg (d : Dev) (a j : Nat) (v : W32) (h : wfTab resetValue d.regs = true) :
    (d.setReg a v).reg j = if j = a then v else d.reg j := look_put a j v h

/-! ## setShadow -/

@[simp] theorem Dev.setShadow_frame (d : Dev) (a : Nat) (v : Option W32) :
    (d.setShadow a v).life = d.life ∧ (d.setShadow a v).boot = d.boot ∧ (d.setShadow a v).flash = d.flash ∧
    (d.setShadow a v).regs = d.regs ∧ (d.setShadow a v).counters = d.counters ∧ (d.setShadow a v).guards = d.guards ∧
    (d.setShadow a v).updates = d.updates ∧ (d.setShadow a v).updateLast = d.updateLast ∧
    (d.setShadow a v).mailbox = d.mailbox ∧ (d.setShadow a v).quire = d.quire ∧
    (d.setShadow a v).requests = d.requests ∧ (d.setShadow a v).subs = d.subs ∧ (d.setShadow a v).spi = d.spi ∧
    (d.setShadow a v).vat = d.vat ∧ (d.setShadow a v).deficit = d.deficit ∧ (d.setShadow a v).used = d.used ∧
    (d.setShadow a v).rrNext = d.rrNext ∧ (d.setShadow a v).drrCur = d.drrCur ∧
    (d.setShadow a v).sentUnit = d.sentUnit ∧ (d.setShadow a v).sentBad = d.sentBad ∧
    (d.setShadow a v).deckle = d.deckle ∧ (d.setShadow a v).ctxs = d.ctxs ∧ (d.setShadow a v).bindings = d.bindings ∧
    (d.setShadow a v).holds = d.holds ∧ (d.setShadow a v).transfers = d.transfers ∧
    (d.setShadow a v).subscriptions = d.subscriptions ∧ (d.setShadow a v).ports = d.ports ∧
    (d.setShadow a v).fuses = d.fuses ∧ (d.setShadow a v).dies = d.dies ∧ (d.setShadow a v).pd = d.pd ∧
    (d.setShadow a v).psb = d.psb ∧ (d.setShadow a v).vinLow = d.vinLow ∧ (d.setShadow a v).fc = d.fc ∧
    (d.setShadow a v).watermark = d.watermark ∧ (d.setShadow a v).power = d.power ∧
    (d.setShadow a v).links = d.links ∧ (d.setShadow a v).funcs = d.funcs ∧ (d.setShadow a v).u0 = d.u0 ∧
    (d.setShadow a v).eths = d.eths ∧ (d.setShadow a v).couchKeys = d.couchKeys ∧ (d.setShadow a v).maint = d.maint ∧
    (d.setShadow a v).resetDue = d.resetDue ∧ (d.setShadow a v).chainDue = d.chainDue ∧
    (d.setShadow a v).jtag = d.jtag ∧ (d.setShadow a v).scan = d.scan ∧ (d.setShadow a v).jtagOut = d.jtagOut ∧
    (d.setShadow a v).nonceCtr = d.nonceCtr ∧ (d.setShadow a v).freeCtr = d.freeCtr := by
  refine ⟨rfl, rfl, rfl, rfl, rfl, rfl, rfl, rfl, rfl, rfl, rfl, rfl, rfl, rfl, rfl, rfl, rfl, rfl, rfl, rfl, rfl, rfl, rfl, rfl, rfl, rfl, rfl, rfl, rfl, rfl, rfl, rfl, rfl, rfl, rfl, rfl, rfl, rfl, rfl, rfl, rfl, rfl, rfl, rfl, rfl, rfl, rfl, rfl⟩

@[simp] theorem Dev.setShadow_shadow (d : Dev) (a : Nat) (v : Option W32) : (d.setShadow a v).shadow = put shadowDflt d.shadow a v := rfl

/-! ## updVat, sendUnit -/

@[simp] theorem Dev.updVat_frame (d : Dev) (f : Vat → Vat) :
    (d.updVat f).life = d.life ∧ (d.updVat f).boot = d.boot ∧ (d.updVat f).flash = d.flash ∧
    (d.updVat f).regs = d.regs ∧ (d.updVat f).shadow = d.shadow ∧ (d.updVat f).counters = d.counters ∧
    (d.updVat f).guards = d.guards ∧ (d.updVat f).updates = d.updates ∧ (d.updVat f).updateLast = d.updateLast ∧
    (d.updVat f).mailbox = d.mailbox ∧ (d.updVat f).quire = d.quire ∧ (d.updVat f).requests = d.requests ∧
    (d.updVat f).subs = d.subs ∧ (d.updVat f).spi = d.spi ∧ (d.updVat f).deficit = d.deficit ∧
    (d.updVat f).used = d.used ∧ (d.updVat f).rrNext = d.rrNext ∧ (d.updVat f).drrCur = d.drrCur ∧
    (d.updVat f).sentUnit = d.sentUnit ∧ (d.updVat f).sentBad = d.sentBad ∧ (d.updVat f).deckle = d.deckle ∧
    (d.updVat f).ctxs = d.ctxs ∧ (d.updVat f).bindings = d.bindings ∧ (d.updVat f).holds = d.holds ∧
    (d.updVat f).transfers = d.transfers ∧ (d.updVat f).subscriptions = d.subscriptions ∧
    (d.updVat f).ports = d.ports ∧ (d.updVat f).fuses = d.fuses ∧ (d.updVat f).dies = d.dies ∧
    (d.updVat f).pd = d.pd ∧ (d.updVat f).psb = d.psb ∧ (d.updVat f).vinLow = d.vinLow ∧ (d.updVat f).fc = d.fc ∧
    (d.updVat f).watermark = d.watermark ∧ (d.updVat f).power = d.power ∧ (d.updVat f).links = d.links ∧
    (d.updVat f).funcs = d.funcs ∧ (d.updVat f).u0 = d.u0 ∧ (d.updVat f).eths = d.eths ∧
    (d.updVat f).couchKeys = d.couchKeys ∧ (d.updVat f).maint = d.maint ∧ (d.updVat f).resetDue = d.resetDue ∧
    (d.updVat f).chainDue = d.chainDue ∧ (d.updVat f).jtag = d.jtag ∧ (d.updVat f).scan = d.scan ∧
    (d.updVat f).jtagOut = d.jtagOut ∧ (d.updVat f).nonceCtr = d.nonceCtr ∧ (d.updVat f).freeCtr = d.freeCtr := by
  refine ⟨rfl, rfl, rfl, rfl, rfl, rfl, rfl, rfl, rfl, rfl, rfl, rfl, rfl, rfl, rfl, rfl, rfl, rfl, rfl, rfl, rfl, rfl, rfl, rfl, rfl, rfl, rfl, rfl, rfl, rfl, rfl, rfl, rfl, rfl, rfl, rfl, rfl, rfl, rfl, rfl, rfl, rfl, rfl, rfl, rfl, rfl, rfl, rfl⟩

@[simp] theorem Dev.updVat_vat (d : Dev) (f : Vat → Vat) : (d.updVat f).vat = f d.vat := rfl

@[simp] theorem Dev.sendUnit_frame (d : Dev) (k : Nat) (v : List Byte) (bad : Bool) :
    (d.sendUnit k v bad).life = d.life ∧ (d.sendUnit k v bad).boot = d.boot ∧ (d.sendUnit k v bad).flash = d.flash ∧
    (d.sendUnit k v bad).regs = d.regs ∧ (d.sendUnit k v bad).shadow = d.shadow ∧
    (d.sendUnit k v bad).counters = d.counters ∧ (d.sendUnit k v bad).guards = d.guards ∧
    (d.sendUnit k v bad).updates = d.updates ∧ (d.sendUnit k v bad).updateLast = d.updateLast ∧
    (d.sendUnit k v bad).mailbox = d.mailbox ∧ (d.sendUnit k v bad).quire = d.quire ∧
    (d.sendUnit k v bad).requests = d.requests ∧ (d.sendUnit k v bad).subs = d.subs ∧
    (d.sendUnit k v bad).spi = d.spi ∧ (d.sendUnit k v bad).vat = d.vat ∧ (d.sendUnit k v bad).deficit = d.deficit ∧
    (d.sendUnit k v bad).used = d.used ∧ (d.sendUnit k v bad).rrNext = d.rrNext ∧
    (d.sendUnit k v bad).drrCur = d.drrCur ∧ (d.sendUnit k v bad).deckle = d.deckle ∧
    (d.sendUnit k v bad).ctxs = d.ctxs ∧ (d.sendUnit k v bad).bindings = d.bindings ∧
    (d.sendUnit k v bad).holds = d.holds ∧ (d.sendUnit k v bad).transfers = d.transfers ∧
    (d.sendUnit k v bad).subscriptions = d.subscriptions ∧ (d.sendUnit k v bad).ports = d.ports ∧
    (d.sendUnit k v bad).fuses = d.fuses ∧ (d.sendUnit k v bad).dies = d.dies ∧ (d.sendUnit k v bad).pd = d.pd ∧
    (d.sendUnit k v bad).psb = d.psb ∧ (d.sendUnit k v bad).vinLow = d.vinLow ∧ (d.sendUnit k v bad).fc = d.fc ∧
    (d.sendUnit k v bad).watermark = d.watermark ∧ (d.sendUnit k v bad).power = d.power ∧
    (d.sendUnit k v bad).links = d.links ∧ (d.sendUnit k v bad).funcs = d.funcs ∧ (d.sendUnit k v bad).u0 = d.u0 ∧
    (d.sendUnit k v bad).eths = d.eths ∧ (d.sendUnit k v bad).couchKeys = d.couchKeys ∧
    (d.sendUnit k v bad).maint = d.maint ∧ (d.sendUnit k v bad).resetDue = d.resetDue ∧
    (d.sendUnit k v bad).chainDue = d.chainDue ∧ (d.sendUnit k v bad).jtag = d.jtag ∧
    (d.sendUnit k v bad).scan = d.scan ∧ (d.sendUnit k v bad).jtagOut = d.jtagOut ∧
    (d.sendUnit k v bad).nonceCtr = d.nonceCtr ∧ (d.sendUnit k v bad).freeCtr = d.freeCtr := by
  refine ⟨rfl, rfl, rfl, rfl, rfl, rfl, rfl, rfl, rfl, rfl, rfl, rfl, rfl, rfl, rfl, rfl, rfl, rfl, rfl, rfl, rfl, rfl, rfl, rfl, rfl, rfl, rfl, rfl, rfl, rfl, rfl, rfl, rfl, rfl, rfl, rfl, rfl, rfl, rfl, rfl, rfl, rfl, rfl, rfl, rfl, rfl, rfl⟩

@[simp] theorem Dev.sendUnit_sentUnit (d : Dev) (k : Nat) (v : List Byte) (bad : Bool) :
    (d.sendUnit k v bad).sentUnit = put unitDflt d.sentUnit k v ∧
      (d.sendUnit k v bad).sentBad = put unitBadDflt d.sentBad k bad := ⟨rfl, rfl⟩

end Sys2Proof.Machine
end

