-- ==== Sys2Proof/Laws/Opcodes.lean ====
section
/-! SUPPORT. Check 15 claims the response of a request and accepts it, or refuses; a row whose request has its turn runs. -/

namespace Sys2Proof.Machine

open Sys2Proof

/-- The name of the request that a key finds is that key. -/
theorem findReq_name {d : Dev} {k : ReqKey} {rq : Request} (h : d.findReq k = some rq) : rq.name = k := by
  have h1 := List.find?_some h
  simp only [Request.isFor, Bool.and_eq_true, decide_eq_true_eq] at h1
  cases k
  simp only [Request.name, h1.1, h1.2]

/-- A row runs on the request whose turn has come. -/
theorem opcodeRow_runs {d : Dev} {k : ReqKey} {rq : Request} {o : Nat} {mine : List Byte → Bool} {run : Request → Dev → Dev}
    (h : Safety.turn d k rq o) (hm : mine rq.params = true) : d.opcodeRow k o mine run = run rq d := by
  obtain ⟨h1, h2, h3, h4, h5, h6⟩ := h
  subst h2
  simp [Dev.opcodeRow, h1, h3, h4, h5, h6, hm]

/-- After a chip-scope RESET has been accepted the row ends its request with RESET_ABORTED. -/
theorem opcodeRow_aborts {d : Dev} {k : ReqKey} {rq : Request} {o : Nat} {mine : List Byte → Bool} {run : Request → Dev → Dev}
    (h1 : d.findReq k = some rq) (h2 : rq.opcode.toNat = o) (h3 : d.mayStart rq = true) (h4 : d.executes = true)
    (h5 : d.resetDue.isSome = true) (hm : mine rq.params = true) : d.opcodeRow k o mine run = d.fail k stResetAborted := by
  simp [Dev.opcodeRow, h1, h2, h3, h4, h5, hm]

/-- A row leaves the device alone when its request is another row's or has no turn. -/
theorem opcodeRow_idle {d : Dev} {k : ReqKey} {o : Nat} {mine : List Byte → Bool} {run : Request → Dev → Dev}
    (h : ∀ rq, d.findReq k = some rq → rq.opcode.toNat ≠ o ∨ mine rq.params = false ∨ d.mayStart rq = false ∨ d.executes = false) :
    d.opcodeRow k o mine run = d := by
  unfold Dev.opcodeRow
  split
  · rename_i rq hq
    rcases h rq hq with h | h | h | h <;> simp [h]
  · rfl

/-- Check 15 passes: the response is claimed, and the request is accepted with its claim. -/
theorem check15_accepts {d : Dev} {n : Nat} {rq : Request} {k : Nat} (h1 : d.params15 rq = (true, k))
    (h2 : d.canClaim 0 (d.replySegs rq k) = true) :
    d.check15 n rq = (d.addClaim 0 (d.replySegs rq k)).accept n { rq with claim := d.replySegs rq k } := by
  simp [Dev.check15, h1, Dev.takeClaim, h2]

/-- Check 15 refuses bad parameters. -/
theorem check15_bad {d : Dev} {n : Nat} {rq : Request} (h : (d.params15 rq).1 = false) : d.check15 n rq = d.refuse rq stBadParam := by
  simp [Dev.check15, h]

/-- Check 15 refuses a request whose response has no room. -/
theorem check15_full {d : Dev} {n : Nat} {rq : Request} {k : Nat} (h1 : d.params15 rq = (true, k))
    (h2 : d.canClaim 0 (d.replySegs rq k) = false) : d.check15 n rq = d.refuse rq stBusy := by
  simp [Dev.check15, h1, Dev.takeClaim, h2]

end Sys2Proof.Machine
end

