-- ==== Sys2Proof/Tests/Slice0.lean ====
section
/-! SUPPORT. Tests of one operation or one step each, the terms that well-formedness refuses, and for every clause of every
statement with hypotheses a state and operands that meet them together. Expected values come from the spec's examples and tables, or
from the published check values of CRC-32C and CMAC. -/

namespace Sys2Proof.Tests

open Sys2Proof Sys2Proof.Machine

set_option Elab.async false

/-! ## Small devices -/

/-- A running image. -/
def hdr : ImageHdr := { version := 0, avvEpoch := 1, relayEpoch := 1, ownEpoch := 1, partnerEpoch := 1 }
/-- The main die up, every READY flag set, in NORMAL. -/
def up : Dev := { Dev.reset with
  boot := { Boot.reset with state := .normal, ready := 0x3FF, mill := some hdr, couch := some hdr, millChosen := true, couchChosen := true, wdogArmed := true }
  vat := { Vat.reset with depth := 2, slots := [0, 1, 2, 3, 4, 5, 6, 7], spare := some 8, sparePassed := true }
  deckle := { Deckle.reset with running := true }
  u0 := { U0.reset with relayEn := true } }
/-- The state of a device. -/
def stOf (d : Dev) : State := { State.reset with dev := d }
/-- The request of subscriber 0 with tag 0. -/
def K : ReqKey := ⟨0, 0⟩
/-- That request, accepted from the SPI. -/
def r (o : BitVec 16) (ps : List Byte) : Request :=
  { sub := 0, tag := 0, opcode := o, keyslot := 0, key := none, route := .spi, dest := 0, params := ps, target := 0, claim := 0,
    born := 0, lastSeq := none, poison := false, bad := [], phase := .accepted }
/-- A device with one request. -/
def on (d : Dev) (q : Request) : State := stOf { d with requests := [q] }
/-- The main die up with one request. -/
def one (q : Request) : State := on up q
/-- Port 31 as an EMBEDDED port of domain 3 at high speed, with a device of address 127. -/
def usb : Dev :=
  let ep (x : Ctx) : Ctx := { x with state := 1, domain := 3, addr := 127, port := 31, speed := 2, mps := 512, owned := true }
  let d := up.updPort 31 fun p => { p with alloc := 1, domain := 3, hubPort := 15, state := .enabled, speed := 2, present := true }
  ((((d.setCtx 9193 (ep Ctx.reset)).setCtx 9194 (ep { Ctx.reset with type := 2, ep := 15 })).setCtx 9195
    (ep { Ctx.reset with type := 2, ep := 15, dirIn := true })).setCtx 9196
    { ep { Ctx.reset with type := 3, ep := 14, dirIn := true, interval := 4 } with mps := 64 }).setCtx 9197
    { ep { Ctx.reset with type := 3, ep := 13, interval := 4 } with mps := 64 }
/-- A request to that device. -/
def r' (o : BitVec 16) (ps : List Byte) : Request := { r o ps with dest := 4096, target := 512 }
/-- A subscription of context c of it. -/
def sub0 : Subscription :=
  { owner := 0, delivery := 0, cls := 1, unitBeats := true, period := 0, phase := 0, mf := 0, slot := 0, mask := [], heartbeat := 1,
    maxChg := 4, outRepeat := false, isOut := false, tokens := [], order := 0, place := [(0, 0)], sheetLen := 0, empty := true, sheetPoison := false,
    updBeat := 0, updMf := 0, updSlot := 0, pending := false, written := false, acked := false, gap := false, quietBeats := 0,
    beatDone := false, answered := 0, entries := 0, nIssued := 0, nData := 0, nNak := 0, nSkipped := 0, ended := false }
/-- The main die with other READY flags. -/
def ready (m : BitVec 10) : Dev := { up with boot := { up.boot with ready := m } }
/-- The boot ROM checking a slot. -/
def checking (x : FwSlot) : Dev := { up with boot := { up.boot with checking := some x, couch := none } }
/-- A packet to this chip. -/
def pkt (opcode : Nat) : List Byte := sealPkt (header 0 opcode 7 0 0 1 0 0x7FFF 0 0) [] none
/-- A device with an address on E1. -/
def eth : Dev := up.setEth 1 { Eth.reset with linkUp := true, configured := true, ip4Addr := 7, ip6Addr := 9 }
/-- A datagram, and a question, for it. -/
def gram : Datagram :=
  { srcMac := 1, vlan := none, ipv6 := false, srcIp := 8, dstIp := 7, dscp := 0, srcPort := 5, dstPort := 41930, checksumZero := false
    checksumOk := true, fragmented := false, extHeaders := false, payload := [] }
/-- A question for it. -/
def ask : NetQuery := { srcMac := 1, vlan := none, ipv6 := false, srcIp := 8, target := 7, length := 1500, body := [] }
/-- The Management function on U0 serves an external host. -/
def usbHost : Dev :=
  ({ up with u0 := { up.u0 with vbus := true, speed := 3 } }).setFunc 4 { UsbFunction.reset with config := 1, addr := 1 }
/-- The device with the response of a request queued. -/
def answered (d : Dev) (q : Request) : Dev := { d with requests := [q] }.answer q.name 0 []
/-- At the last microframe of a beat. -/
def lastMf (d : Dev) : Dev := d.updDk fun x => { x with mf := 127 }
/-- Key slot 0 valid, with every group permitted. -/
def keyed : Dev := (up.setQword 0x098 1).setQword 0x1C1 0xFFF
/-- Queue q holds one record, in the first segment of logical bank 0. -/
def laid (d : Dev) (q cls out : Nat) (x : Rec) : Dev :=
  let c := x.cells
  let row (i : Nat) : Nat × List Cell10 := (i, (c.drop (32 * i)).take 32 ++ List.replicate (32 - min 32 (c.length - 32 * i)) 0)
  let b := d.vat.slotBank 0
  let d1 := (d.setQueue q { Queue.reset with cls := cls, state := .active, segs := 1, stamps := [(0, 0)], output := out }).updFreeList 0
    fun f => { f with count := 8191 }
  ((d1.onBooks fun k => ((k.setHead 0 1).setEntry 0 ⟨.linked, q⟩).setPtr q (⟨0, 0⟩, ⟨0, c.length⟩)).updUsedSegs cls (· + 1)).updVat
    fun v => { v with banks := [(b, { fill := .lost b, rows := [row 0, row 1, row 2, row 3], background := false })], serial := 1 }
/-- The response of opcode 1 to request K, with parameters. -/
def reply (ps : List Byte) : Rec := ⟨2, false, true, 0, sealPkt (header 1 1 0 0 0 1 ps.length 0x7FFF 0 0) ps none⟩
/-- A device whose request K is answered, and the answer waits in a queue. -/
def waits (d : Dev) (q : Nat) (ps : List Byte) : Dev :=
  laid { d with requests := [{ r 1 [] with phase := .answered }] } q 0 q (reply ps)
/-- A response waits for the SPI. -/
def sent : Dev := waits up 35 []
/-- What the Headbox and a queue give. -/
def unit (d : Dev) : Cand × Dev := (d.nextUnit 35).getD (⟨0, 0, 0, .response⟩, d)
/-- What a queue gives as a packet. -/
def taken (d : Dev) (who q : Nat) (bad : List Nat) (whole : Bool) : List Byte × Option (List Byte × Bool) × Dev :=
  (d.takePacket who q bad whole).getD ([], none, d)
/-- What a queue gives. -/
def head (d : Dev) (who q : Nat) (bad : List Nat) : Rec × List Cell10 × Dev :=
  (d.dequeue who q bad).getD (⟨0, false, true, 0, []⟩, [], d)
/-- A response waits for bulk IN on U0. -/
def usbSent : Dev := waits usbHost 32 []
/-- A notification of SV3 waits for the SPI. -/
def noted : Dev := laid (up.updSubr 0 fun x => { x with route := some (.spi, 0, false) }) (notifQueue 3 0) 3 35
  ⟨2, false, true, 0, sealPkt (header 2 0 0 0 0 1 0 0x7FFF 0 0) [] none⟩
/-- A pending UPDATE. -/
def upd (g : BitVec 8) : PendingUpdate := { groups := g, whenSel := 0, atBeat := 0, requester := none, born := 0 }
/-- A Vat at its least depth with every other bank retired. -/
def small : Dev := { up with shadow := [(aVatCfg, some 2)], vat := { up.vat with depth := 0, retired := 0x1FF } }
/-- Locked to a source. -/
def source (n : W32) (f : Deckle → Deckle) : Dev := (up.setReg aDkCfg (0x700 + n)).updDk fun x => f { x with state := .locked }
/-- Port 31 changed. -/
def p31 (f : Port → Port) : Dev := usb.updPort 31 f
/-- Port 7 as a SuperSpeed root port. -/
def p7 (f : Port → Port) : Dev :=
  up.updPort 7 fun p => f { p with alloc := 1, hubPort := 7, state := .enabled, speed := 3, ss := true, present := true }
/-- A transaction on the wire. -/
def xact (c : Nat) (poll : Bool) : Xact :=
  { ctx := c, poll := poll, part := 0, beat := 0, mf := 0, slot := 0, got := [], poisoned := false, orphan := false, out := [], pid := .data0
    born := 0, cls := 5, claim := 0 }
/-- A started BULK_IN of request K with a deadline. -/
def job : Transfer :=
  { purpose := .request K, ctx := 9195, control := false, setup := ⟨0, 0, 0, 0, 0⟩, total := 0, moved := 0, want := 512, zlp := false
    stage := 1, started := true, timeout := 8, deadline := some 0, notBefore := 0, poisonTries := 0, splitOpen := false
    claimed := none, held := 0, dropped := 0 }
/-- That transfer on the wire. -/
def busy (poll : Bool) : Dev := { p31 fun p => { p with inflight := [xact 9195 poll] } with transfers := [job] }
/-- An address-0 binding. -/
def bound (n : Nat) : Binding :=
  { port := n, speed := 2, parentHub := 0, parentPort := 0, ttValid := false, ttMulti := false, ttHub := 0, ttPort := 0, route := 0 }
/-- Link 4 and a frame for it. -/
def l4 (f : Link → Link) : Dev := up.updLink 4 f
/-- A frame with its FCRC. -/
def frame (b2 : Byte) (p : List Byte) : List Byte :=
  let h := [0, 0, b2, 0] ++ leBytes 2 p.length ++ zeros 6
  h ++ leBytes 4 (crc32c (h ++ p)) ++ p
/-- Link 4 ENABLED with a pool. -/
def relayed (f : Link → Link) : Dev :=
  (l4 fun x => f { x with state := .enabled, svc0 := { x.svc0 with own := 64 }, allowance := true }).setReg aChainPos 0x80000000
/-- Engine 31 as an EMBEDDED port's, attached and talking PD. -/
def e31 (f : Pd → Pd) : Dev :=
  (usb.setReg (aPdCfg 31) 0x6F3).updEng 31 fun e => f { e with tc := .attachedSrc, source := true, partnerPd := true, rev := 2 }
/-- Engine 32 attached as a sink. -/
def e32 (f : Pd → Pd) : Dev := (up.setReg (aPdCfg 32) 0x3).updEng 32 fun e => f { e with tc := .attachedSnk, partnerPd := true, rev := 2 }
/-- A contract of 5 V at 3 A. -/
def deal : Contract := { position := 1, volt := 250, current := 300, pps := false, ppsMin := 0 }
/-- The fuse of port 31, and a die. -/
def f31 (f : Fuse → Fuse) : Dev := usb.updFuse 31 f
/-- Die 3 changed. -/
def die3 (f : Die → Die) : Dev := up.updDie 3 f
/-- The guard of the SPI is open. -/
def opened : Dev := up.setGuard 0 2
/-- U0 at SuperSpeed, the hub function configured. -/
def hub (f : U0 → U0) : Dev :=
  { up with u0 := f { up.u0 with vbus := true, speed := 3, hub := { UsbFunction.reset with config := 1, addr := 1 } } }
/-- Port n serves behind hub port k. -/
def behind (k n : Nat) (d : Dev) : Dev :=
  ((d.updPort n fun p => { p with alloc := 2, hubPort := k, present := true }).updEng n fun e =>
    { e with tc := .attachedSrc, source := true, dfp := true }).updFuse n fun f => { f with pg := true }
/-- Port 7 behind hub port 15. -/
def through (f : U0 → U0) : Dev := behind 15 7 (hub f)
/-- Port 3 as a COUPLER port acting as UFP. -/
def ufp (f : UsbFunction → UsbFunction) : Dev :=
  (up.updPort 3 fun p => { p with alloc := 3, present := true }).updFunc 3 f
/-- A frame of link 4 for this chip waits in its pool. -/
def pooled : Dev := laid (relayed id) (rxQueue 4 5 0) 0 36 ⟨3, false, true, 0, frame 0 (pkt 1)⟩
/-- What its pool gives. -/
def fromPool : Rec × Dev := (pooled.poolTake 4 5 0).getD ({ kind := 0, poison := false, last := true, attr := 0, payload := [] }, pooled)
/-- A dual-role engine on port 31. -/
def dual (f : Pd → Pd) : Dev :=
  (usb.setReg (aPdCfg 31) 0x6DB).updEng 31 fun e => f { e with tc := .attachedSrc, source := true, dfp := true, partnerPd := true, rev := 2 }
/-- Port 31 behind hub port 16, enabled, with buffers in its translator. -/
def ttWith (bs : List TtBuffer) : Dev := (behind 16 31 (hub id)).updHubPort 16 fun p => { p with status := 2, ttBuffers := bs }
/-- A buffer of it. -/
def split : TtBuffer := { periodic := true, isIn := false, sent := false, result := none, cls := 2, claim := 1 }
/-- The SPI as a packet's way in, and a device once the replay rule has taken a packet from there. -/
def spiIn : Entry := { route := .spi, mustAuth := false, poison := false }
def past (d : Dev) (p : List Byte) : Dev :=
  d.setSubr (pkSub p) { ((d.subr (pkSub p)).replay d.epoch (pkSeq p)).getD (d.subr (pkSub p)) with route := some (.spi, pkSlot p, false) }
/-- A packet with parameters for this chip. -/
def pktOf (opcode : Nat) (ps : List Byte) : List Byte := sealPkt (header 0 opcode 7 0 0 1 ps.length 0x7FFF 0 0) ps none
/-- The main die in DOZE. -/
def dozing (d : Dev) : Dev := { d with power := { d.power with state := .doze } }
/-- No segment of class c is left to claim. -/
def full (d : Dev) (c : Nat) : Dev := d.setClaim c 65536
/-- The response of a forwarded request waits in the pool of link 4, and SV0 has no room for it. -/
def stuck : Dev := full { laid (relayed id) (rxQueue 4 5 0) 0 36 ⟨3, false, true, 0, frame 0 (reply []).payload⟩ with
  requests := [{ r 1 [] with phase := .forwarded 4 0 }] } 0
/-- A response with one parameter byte waits for the SPI. -/
def sent7 : Dev := waits up 35 [7]
/-- Frames of a stream through the hub's SuperSpeed side. -/
def ssHub : Dev := (through id).updHubPort 15 fun p => { p with status := 2 }
/-- A frame waits for link 4, whose neighbour's pool has n segments. -/
def relaying (n : Nat) : Dev :=
  laid (relayed fun x => { x with svc0 := { x.svc0 with pool := n } }) (relayQueue 4 0) 0 32 ⟨3, false, true, 0, frame 0 (pkt 1)⟩
/-- What the Headbox chooses of it. -/
def chosen : Cand × Dev :=
  ((relaying 64).chooseUnit (linkOutput 4) fun a => a.linkCands 4 (a.rivals 4 0)).getD (⟨0, 0, 0, .response⟩, up)
/-- What an operation gives is what it gives. -/
theorem got {α : Type} {o : Option α} {x : α} (h : o.isSome = true) : o = some (o.getD x) := by
  cases o with
  | none => cases h
  | some a => rfl

/-- The device after a row that answered a next state. -/
def devAfter (o : Host.Outcome State Fault Refusal) : Option Dev :=
  match o with
  | .next t => some t.dev
  | _ => none

/-! ## Well-formedness: the reset queue's terms, and one ill-formed term for each check -/

theorem test_wf_reg_wr_empty : Instr.wf (.regWr 0 []) = false := by decide
theorem test_wf_reg_wr_long : Instr.wf (.regWr 0 (List.replicate 17 0)) = false := by decide
theorem test_wf_reg_wr : Instr.wf (.regWr 0 (List.replicate 16 0)) = true := by decide
theorem test_wf_reg_rd : Instr.wf (.regRd 0 0 none) = false := by decide
theorem test_wf_bad_instr : Instr.wf (.badInstr 0x0B) = false := by decide
theorem test_wf_u0_bus_reset : Instr.wf (.u0BusReset 0) = false := by decide
theorem test_wf_reset_signalling_end : Instr.wf (.resetSignallingEnd 0 3) = false := by decide
theorem test_wf_source_capabilities : Instr.wf (.sourceCapabilities 0 false (List.replicate 8 0)) = false := by decide
theorem test_wf_sink_capabilities : Instr.wf (.sinkCapabilities 0 []) = false := by decide
theorem test_wf_heartbeat : Instr.wf (.heartbeat 12256) = false := by decide
theorem test_wf_transfer_timeout : Instr.wf (.transferTimeout 12288) = false := by decide
theorem test_wf_update_apply : Instr.wf (.updateApply 0) = false := by decide

/-! ## Worked examples of the spec and published check values -/

/-- The check value of R85, over the nine ASCII bytes 123456789. -/
theorem test_crc32c : crc32c [0x31, 0x32, 0x33, 0x34, 0x35, 0x36, 0x37, 0x38, 0x39] = 0xE3069283 := by decide +kernel

/-- NIST SP 800-38B, AES-128, the empty message and the first block. -/
def nistKey : Key := BitVec.ofNat 128 (leNat [0x2B, 0x7E, 0x15, 0x16, 0x28, 0xAE, 0xD2, 0xA6, 0xAB, 0xF7, 0x15, 0x88, 0x09, 0xCF, 0x4F, 0x3C])
theorem test_cmac_empty : cmac nistKey [] =
    [0xBB, 0x1D, 0x69, 0x29, 0xE9, 0x59, 0x37, 0x28, 0x7F, 0xA3, 0x7D, 0x12, 0x9B, 0x75, 0x67, 0x46] := by decide +kernel
theorem test_cmac_block : cmac nistKey [0x6B, 0xC1, 0xBE, 0xE2, 0x2E, 0x40, 0x9F, 0x96, 0xE9, 0x3D, 0x7E, 0x11, 0x73, 0x93, 0x17, 0x2A] =
    [0x07, 0x0A, 0x16, 0xB4, 0x6B, 0x4D, 0x41, 0x44, 0xF7, 0x9B, 0xDD, 0x9D, 0xD0, 0x4A, 0x28, 0x7C] := by decide +kernel

/-- The STATUS request of the example behind R86: its fields, and its header bytes 0 to 27. -/
theorem test_header : header 4 2 0x21 17 3 0x0117000000000A31 0 0x8005 0 0 =
    [3, 4, 2, 0, 0x21, 0, 0x11, 0x0C, 0x31, 0x0A, 0, 0, 0, 0, 0x17, 1, 0, 0, 5, 0x80, 0, 0, 0, 0, 0, 0, 0, 0] := by decide

/-- The worked beat (R165, R171): LOCKED, F = 1,150, q = 9 and r = 6; the edge at +40 makes F 1,152, and the plan of the next beat
is q = 9 and r = 10. -/
def worked : Dev := source 1 fun x => { x with
  lastEdge := some 0, beatStart := 7681150, prevBeatStart := 1, f := 1150, planQ := 9, planR := 6 }
theorem test_edge : (devAfter (execBeatInEdge 7681190 48 (stOf worked))).map (fun d => (d.deckle.f, d.deckle.lastE)) =
    some (1152, 40) := by decide +kernel
theorem test_plan : (devAfter (execPlanNextBeat (stOf ((lastMf worked).updDk fun x => { x with f := 1152, lastE := 40 })))).map
    (fun d => (d.deckle.nextQ, d.deckle.nextR)) = some (9, 10) := by decide +kernel
/-- Microframe 21 of that beat lasts 60,010 bit times, microframe 22 lasts 60,009, and the beat 7,681,158. -/
theorem test_mf_len : (worked.updDk fun x => { x with mf := 21 }).mfLen = 60010 ∧
    (worked.updDk fun x => { x with mf := 22 }).mfLen = 60009 ∧ worked.beatBits = 7681158 := by decide +kernel

/-- The port budget of the worked car (R236 to R241): subscriptions A, B and C are admitted on P12; D does not fit in slot 7, slot 6
is the latest that fits, and AUTO places it in slot 3, from 22,970. -/
def hvac : Dev :=
  let ep (x : Ctx) : Ctx := { x with state := 1, type := 3, dirIn := true, addr := 6, port := 12, speed := 2 }
  let d := up.updPort 12 fun p => { p with alloc := 1, state := .enabled, speed := 2 }
  let s (p mf sl : Nat) (ts : List Token) (o : Nat) : Option Subscription :=
    some { sub0 with unitBeats := false, period := p, phase := mf, slot := sl, tokens := ts, order := o }
  let d := (((d.setCtx 1 (ep { Ctx.reset with ep := 1, mps := 64 })).setCtx 2 (ep { Ctx.reset with ep := 2, mps := 512 })).setCtx 3
    { ep { Ctx.reset with ep := 1, mps := 16 } with addr := 7, speed := 1, ttValid := true, ttHub := 5, ttPort := 1 }).setCtx 4
    (ep { Ctx.reset with ep := 3, mps := 1024 })
  ((d.setSubscription 1 (s 1 0 0 [⟨4, 200, 1078⟩] 1)).setSubscription 2 (s 3 4 1 [⟨4, 7500, 5259⟩] 2)).setSubscription 3
    (s 3 2 3 [⟨2, 22500, 320⟩, ⟨4, 22500, 470⟩] 3)
theorem test_charges : hvac.charges 1 = [(0, 1078)] ∧ hvac.charges 2 = [(0, 5259)] ∧
    hvac.charges 3 = [(0, 320), (2, 470), (3, 470), (4, 470)] ∧ hvac.ttCharge 3 = 270 ∧ hvac.charges 4 = [(0, 10038)] := by
  decide +kernel
theorem test_slot_refused : (hvac.placeAll 4 7 4 (hvac.touched 4 [4])).toOption = none ∧ hvac.latestSlot 4 4 (4, some 10038) = 6 := by decide +kernel
theorem test_slot_auto : [0, 1, 2, 3].map (fun s => (hvac.placeAll 4 s 4 (hvac.touched 4 [4])).toOption) =
    [none, none, none, some [⟨4, 22970, 10038⟩]] := by decide +kernel

/-- SUBSCRIBE of the example behind R432: context 2, phase 0, MF 0, slot 2, PLANNED 15,000, MAXLOAD 555. -/
def door : Dev :=
  let ep (x : Ctx) : Ctx := { x with state := 1, addr := 6, port := 9, speed := 2 }
  let d := up.updPort 9 fun p => { p with alloc := 1, state := .enabled, speed := 2 }
  (d.setCtx 1 (ep { Ctx.reset with mps := 64 })).setCtx 2
    (ep { Ctx.reset with type := 3, dirIn := true, ep := 1, mps := 8, interval := 3, owned := true, owner := 17 })
def doorReq : Request := { r 0x401 [0x00, 0x06, 0x81, 0x00, 0x01, 0x02, 0x00, 0x03, 0x00, 0x00, 0x00, 0x00, 0x02, 0x04, 0x40, 0x00, 0x00,
  0x00, 0x00, 0x00, 0x0F, 0x00, 0x00, 0x00, 0x00, 0x00, 0x00, 0x00] with sub := 17, dest := 0x8004, target := 7 }
theorem test_subscribe : ((devAfter (execSubscribe ⟨17, 0⟩ (on door doorReq))).bind fun d =>
    (d.subscription 2).map fun x => d.subscribedBytes 2 x) =
    some [0x02, 0x00, 0x00, 0x00, 0x00, 0x00, 0x02, 0x00, 0x98, 0x3A, 0x00, 0x00, 0x2B, 0x02, 0x00, 0x00] := by
  decide +kernel

/-- The damaged cable (R357, R363): an inrush trip backs off 128 ms, the next one 256 ms. -/
theorem test_backoff : (devAfter (execInrushExpiry 22 0x0F0 0x042
    (stOf (up.updFuse 22 fun f => { f with state := .inrush, consec := 1 })))).map
    (fun d => ((d.fuse 22).state, (d.fuse 22).backoffMs, (d.fuse 22).consec)) = some (.backoff, 256, 2) := by decide +kernel

/-- Frame costs of the credits example (R283). -/
theorem test_frame_cost : frameCost 48 = 1 ∧ frameCost 4048 = 32 := by decide

/-- The selector example behind R407, and the level configurations behind R395. -/
theorem test_selector : selector 0x26 1 22 = 0x26010016 := by decide
theorem test_fc_cfg : Safety.resetsTo (aSrcCfg (96 + 12 * 22 + 1)) 0x1906FA00 ∧ Safety.resetsTo (aSrcCfg 0) 0x24010000 := by
  unfold Safety.resetsTo; decide +kernel

/-- The outlet that keeps tripping (R379): the sixth trip within 8 s reaches PORT_OFF, one 9,150 ms after the first opens a window. -/
theorem test_sixth_trip : countWindow 0x1906FA00 37904 5 0 = (6, 0, 3) ∧ countWindow 0x1906FA00 73200 6 0 = (1, 73200, 1) := by
  decide

/-! ## Statements whose hypotheses are not decided: a state and operands that meet them -/

theorem witness_CommandsComplete : State.reset.pending = [] := rfl
/-- A release of RESET_N that samples another strap. -/
def held : State := stOf { up with life := .reset }
theorem witness_StrapsChange : ∃ (i : Instr) (s t : State), exec i s = .next t ∧ t.straps ≠ s.straps :=
  ⟨.resetNRelease { Straps.open with cfg := 0 } false, held, _, rfl, by decide +kernel⟩
theorem witness_LifeFrame : ∃ (i : Instr) (s t : State), exec i s = .next t ∧ Safety.changesLife i = false :=
  ⟨.microframeStart, stOf up, _, rfl, rfl⟩
theorem witness_FlashFrame : ∃ (i : Instr) (s t : State), exec i s = .next t ∧ Safety.writesFlash i = false :=
  ⟨.microframeStart, stOf up, _, rfl, rfl⟩
theorem witness_ScanFrame : ∃ (i : Instr) (s t : State), exec i s = .next t ∧ ∀ c l, i ≠ .boundaryScan c l :=
  ⟨.microframeStart, stOf up, _, rfl, fun _ _ h => by cases h⟩
theorem witness_FlashCanonical : ∃ s t : State, (Safety.flashOk s ∧ Safety.queueOk s) ∧ step s = .next t :=
  ⟨{ stOf (up.setCell 5 0) with pending := [.microframeStart, .updateApply 1] }, _, ⟨by unfold Safety.flashOk; decide +kernel,
    by unfold Safety.queueOk; simp [Instr.wf]⟩, rfl⟩
theorem witness_BeatPlan_frame : ∃ (s : State) (d : State), s.dev.deckle.running = true ∧ s.dev.deckle.mf + 1 = s.dev.beatLen ∧
    exec .planNextBeat s = .next d :=
  ⟨stOf (lastMf up), _, by decide +kernel, by decide +kernel, rfl⟩
theorem witness_AnswerEndsRequest : ∃ (d : Dev) (k : ReqKey) (rq : Request), d.findReq k = some rq ∧ rq.phase ≠ .answered ∧
    ∀ a b, rq.phase ≠ .done a b :=
  ⟨{ up with requests := [r 1 []] }, K, r 1 [], by decide +kernel, by decide, fun _ _ h => by cases h⟩
theorem witness_CollectorRows_clear : ∃ (s : State) (i : Fin 512), s.dev.up = true ∧
    ∀ x k, srcKind i.val = some (2, x, k) → k ≠ 10 :=
  ⟨stOf up, 0, rfl, fun _ _ h => by revert h; simp [srcKind]⟩
theorem witness_QuireRows_field : ∃ (s : State) (w : Fin 4096) (v : W32), Safety.writes s.dev .spi ∧
    ((∃ m, quireKind w.val = .field m) ∨ ∃ a, quireKind w.val = .supplies a) ∧ s.dev.quireJudge w.val v = true ∧
    Safety.unlocked s.dev .spi ∧ s.dev.wear w.val < 1000000 :=
  ⟨stOf opened, 1, 0x103FF, by unfold Safety.writes; decide +kernel, .inl ⟨0x000103FF, by decide⟩, by decide +kernel,
    by unfold Safety.unlocked; decide +kernel, by decide +kernel⟩

theorem witness_RequestAccepted : ∃ (a d : Dev) (e : Entry) (p : List Byte) (target n : Nat), Safety.passes a d e p target ∧
    (let rq := { d.requestOf e p none with target := target }; d.params15 rq = (true, n) ∧ d.canClaim 0 (d.replySegs rq n) = true) :=
  ⟨keyed, past keyed (pkt 1), spiIn, pkt 1, 0, 40, by
    unfold Safety.passes
    exact ⟨by decide +kernel, by decide +kernel, by decide +kernel, by decide +kernel, ⟨_, got (x := up.subr 0) (by decide +kernel), rfl⟩, by decide +kernel,
      by decide +kernel, by decide +kernel, by decide +kernel, by decide +kernel, by decide +kernel, by decide +kernel⟩, by
    dsimp only; decide +kernel⟩
theorem witness_OpcodeRefusals_params : ∃ (a d : Dev) (e : Entry) (p : List Byte) (target : Nat), Safety.passes a d e p target ∧
    (let rq := { d.requestOf e p none with target := target }; (d.params15 rq).1 = false) :=
  ⟨keyed, past keyed (pktOf 1 [7]), spiIn, pktOf 1 [7], 0, by
    unfold Safety.passes
    exact ⟨by decide +kernel, by decide +kernel, by decide +kernel, by decide +kernel, ⟨_, got (x := up.subr 0) (by decide +kernel), rfl⟩, by decide +kernel,
      by decide +kernel, by decide +kernel, by decide +kernel, by decide +kernel, by decide +kernel, by decide +kernel⟩, by
    dsimp only; decide +kernel⟩
theorem witness_OpcodeRefusals_room : ∃ (a d : Dev) (e : Entry) (p : List Byte) (target n : Nat), Safety.passes a d e p target ∧
    (let rq := { d.requestOf e p none with target := target }; d.params15 rq = (true, n) ∧ d.canClaim 0 (d.replySegs rq n) = false) :=
  ⟨full keyed 0, past (full keyed 0) (pkt 1), spiIn, pkt 1, 0, 40, by
    unfold Safety.passes
    exact ⟨by decide +kernel, by decide +kernel, by decide +kernel, by decide +kernel, ⟨_, got (x := up.subr 0) (by decide +kernel), rfl⟩, by decide +kernel,
      by decide +kernel, by decide +kernel, by decide +kernel, by decide +kernel, by decide +kernel, by decide +kernel⟩, by
    dsimp only; decide +kernel⟩

/-! ## Statements with decided hypotheses: one state and its operands for each clause, at a boundary where there is one -/

theorem witness_StepRunsHead :
    ∃ (c : Instr) (rest : List Instr) (s : State), s.pending = c :: rest :=
  ⟨.microframeStart, [], { State.reset with pending := [.microframeStart] }, by decide +kernel⟩

theorem witness_StrapsSampledAtReset :
    ∃ (s : State), s.dev.life = .reset :=
  ⟨stOf ({ up with life := .reset }), by decide +kernel⟩

theorem witness_SystemOpcodes :
    (∃ (k : ReqKey) (rq : Request) (s : State), Safety.turn s.dev k rq 0x0001 ∧ rq.params = [] ∧ s.dev.dead = false) ∧
    (∃ (k : ReqKey) (rq : Request) (s : State), Safety.turn s.dev k rq 0x0001 ∧ rq.params = [] ∧ s.dev.dead = true) ∧
    (∃ (k : ReqKey) (rq : Request) (s : State), Safety.turn s.dev k rq 0x0002 ∧ rq.params = [] ∧ s.dev.dead = false) ∧
    (∃ (k : ReqKey) (rq : Request) (s : State) (c u p0 p1 p2 p3 : Byte), Safety.turn s.dev k rq 0x0005 ∧ c.toNat < 128 ∧ u.toNat
      < 2 ∧ rq.params = [c, 0, 0, 0, p0, p1, p2, p3, u, 0, 0, 0, 0, 0, 0, 0]) ∧
    (∃ (k : ReqKey) (rq : Request) (s : State), Safety.turn s.dev k rq 0x0003 ∧ rq.params = [0, 0, 0, 0]) ∧
    (∃ (k : ReqKey) (rq : Request) (s : State) (n : Byte), Safety.turn s.dev k rq 0x0003 ∧ n.toNat < 32 ∧ rq.params = [1, n, 0,
      0]) ∧
    (∃ (s : State) (j : ReqKey) (t : Nat), s.dev.up = true ∧ s.dev.resetDue = some (j, t) ∧ (s.dev.findReq j = none ∨ t ≤
      s.dev.deckle.mfCount)) :=
  ⟨⟨K, r 1 [], one (r 1 []), by unfold Safety.turn; decide +kernel⟩,
    ⟨K, r 1 [], on ({ up with life := .deadBattery }) (r 1 []), by unfold Safety.turn; decide +kernel⟩,
    ⟨K, r 2 [], one (r 2 []), by unfold Safety.turn; decide +kernel⟩,
    ⟨K, r 5 [127, 0, 0, 0, 255, 255, 255, 255, 1, 0, 0, 0, 0, 0, 0, 0], one (r 5 [127, 0, 0, 0, 255, 255, 255, 255, 1, 0, 0, 0,
      0, 0, 0, 0]), 127, 1, 255, 255, 255, 255, by unfold Safety.turn; decide +kernel⟩,
    ⟨K, r 3 [0, 0, 0, 0], one (r 3 [0, 0, 0, 0]), by unfold Safety.turn; decide +kernel⟩,
    ⟨K, r 3 [1, 31, 0, 0], one (r 3 [1, 31, 0, 0]), 31, by unfold Safety.turn; decide +kernel⟩,
    ⟨on ({ up with resetDue := some (K, 0) }) (r 1 []), K, 0, by decide +kernel⟩⟩

theorem witness_ReadyOpcode :
    (∃ (k : ReqKey) (rq : Request) (s : State) (m : BitVec 10) (w : BitVec 20), Safety.turn s.dev k rq 0x0004 ∧ m ≠ 0 ∧ rq.params
      = leBytes 2 m.toNat ++ [0, 0] ++ leBytes 4 w.toNat) ∧
    (∃ (k : ReqKey) (rq : Request) (s : State) (m : BitVec 10) (t : Nat), s.dev.findReq k = some rq ∧ rq.phase = .waitReady m t ∧
      s.dev.boot.ready &&& m = m) ∧
    (∃ (k : ReqKey) (rq : Request) (s : State) (m : BitVec 10) (t : Nat), s.dev.findReq k = some rq ∧ rq.phase = .waitReady m t ∧
      s.dev.boot.ready &&& m ≠ m ∧ t ≤ s.dev.deckle.mfCount) :=
  ⟨⟨K, r 4 [0xFF, 3, 0, 0, 0xFF, 0xFF, 0xF, 0], one (r 4 [0xFF, 3, 0, 0, 0xFF, 0xFF, 0xF, 0]), 0x3FF, 0xFFFFF,
      by unfold Safety.turn; decide +kernel⟩,
    ⟨K, { r 4 [] with phase := .waitReady 0x3FF 0 }, one ({ r 4 [] with phase := .waitReady 0x3FF 0 }), 0x3FF, 0,
      by decide +kernel⟩,
    ⟨K, { r 4 [] with phase := .waitReady 1 0 }, on ({ up with boot := Boot.reset }) ({ r 4 [] with phase := .waitReady 1 0 }),
      1, 0, by decide +kernel⟩⟩

theorem witness_RegisterOpcodes :
    (∃ (k : ReqKey) (rq : Request) (s : State) (a n : Nat) (shadow : Bool), Safety.turn s.dev k rq 0x0101 ∧ a < 2 ^ 24 ∧ 1 ≤ n ∧
      n ≤ 1000 ∧ rq.params = leBytes 4 a ++ leBytes 2 n ++ [if shadow then 1 else 0, 0] ∧ (∀ i < n, mapped (a + 4 * i) = true ∧
      isMailbox (a + 4 * i) = false)) ∧
    (∃ (k : ReqKey) (rq : Request) (s : State) (a : Nat) (ws : List W32), Safety.turn s.dev k rq 0x0102 ∧ a < 2 ^ 24 ∧ 1 ≤
      ws.length ∧ ws.length ≤ 1000 ∧ rq.params = leBytes 4 a ++ leBytes 2 ws.length ++ [0, 0] ++ wordsBytes ws) ∧
    (∃ (k : ReqKey) (rq : Request) (s : State) (x : W32) (ws : List W32), Safety.turn s.dev k rq 0x0103 ∧ rq.params = wordBytes x
      ∧ (s.dev.wideValue x).1 = some ws) ∧
    (∃ (k : ReqKey) (rq : Request) (s : State) (g : Byte) (w : BitVec 2) (b : BeatNo), Safety.turn s.dev k rq 0x0104 ∧ (w ≠ 3 → b
      = 0) ∧ rq.params = [g, BitVec.ofNat 8 w.toNat, 0, 0] ++ leBytes 6 b.toNat ++ [0, 0]) ∧
    (∃ (k : ReqKey) (rq : Request) (s : State) (g : Byte), Safety.turn s.dev k rq 0x0104 ∧ rq.params = [g, 0, 1, 0, 0, 0, 0, 0,
      0, 0, 0, 0]) :=
  ⟨⟨K, r 0x101 (leBytes 4 0x100 ++ [1, 0, 1, 0]), one (r 0x101 (leBytes 4 0x100 ++ [1, 0, 1, 0])), 0x100, 1, true,
      by unfold Safety.turn; decide +kernel⟩,
    ⟨K, r 0x102 (leBytes 4 0x010004 ++ [1, 0, 0, 0, 7, 0, 0, 0]), one (r 0x102 (leBytes 4 0x010004 ++ [1, 0, 0, 0, 7, 0, 0, 0])),
      0x010004, [7], by unfold Safety.turn; decide +kernel⟩,
    ⟨K, r 0x103 [0, 0, 0, 0x25], one (r 0x103 [0, 0, 0, 0x25]), 0x25000000, [0, 0, 0, 0], by unfold Safety.turn; decide +kernel⟩,
    ⟨K, r 0x104 ([255, 3, 0, 0] ++ leBytes 6 (2 ^ 48 - 1) ++ [0, 0]), one (r 0x104 ([255, 3, 0, 0] ++ leBytes 6 (2 ^ 48 - 1) ++
      [0, 0])), 255, 3, 0xFFFFFFFFFFFF, by unfold Safety.turn; decide +kernel⟩,
    ⟨K, r 0x104 [255, 0, 1, 0, 0, 0, 0, 0, 0, 0, 0, 0], one (r 0x104 [255, 0, 1, 0, 0, 0, 0, 0, 0, 0, 0, 0]), 255,
      by unfold Safety.turn; decide +kernel⟩⟩

theorem witness_PortOpcodes :
    (∃ (k : ReqKey) (rq : Request) (s : State) (n : Byte), Safety.turn s.dev k rq 0x0201 ∧ rq.params = [n, 0, 0, 0] ∧
      s.dev.isEmbedded n.toNat = true ∧ ((s.dev.port n.toNat).state = .connected ∨ (s.dev.port n.toNat).state = .enabled ∨
      (s.dev.port n.toNat).state = .suspended ∨ (s.dev.port n.toNat).state = .error) ∧ (∀ b, s.dev.binding (s.dev.port
      n.toNat).domain = some b → b.port = n.toNat)) ∧
    (∃ (k : ReqKey) (rq : Request) (s : State) (p t : Nat), s.dev.findReq k = some rq ∧ rq.phase = .portReset p t ∧ t ≤
      s.dev.deckle.mfCount) ∧
    (∃ (k : ReqKey) (rq : Request) (s : State) (n : Byte), Safety.turn s.dev k rq 0x0202 ∧ rq.params = [n, 0, 0, 0] ∧
      s.dev.isEmbedded n.toNat = true) ∧
    (∃ (k : ReqKey) (rq : Request) (s : State) (n : Byte), Safety.turn s.dev k rq 0x0203 ∧ rq.params = [n, 0, 0, 0] ∧
      s.dev.isRoot n.toNat = true ∧ s.dev.isCoupler n.toNat = false ∧ s.dev.maySuspend n.toNat = true) ∧
    (∃ (k : ReqKey) (rq : Request) (s : State) (n : Byte), Safety.turn s.dev k rq 0x0204 ∧ rq.params = [n, 0, 0, 0] ∧
      s.dev.isRoot n.toNat = true ∧ (s.dev.port n.toNat).state = .suspended) ∧
    (∃ (k : ReqKey) (rq : Request) (s : State) (n : Byte), Safety.turn s.dev k rq 0x0205 ∧ rq.params = [n, 0, 0, 0] ∧ n.toNat <
      32) ∧
    (∃ (k : ReqKey) (rq : Request) (s : State), Safety.turn s.dev k rq 0x0205 ∧ rq.params = [32, 0, 0, 0]) ∧
    (∃ (k : ReqKey) (rq : Request) (s : State) (n : Byte), Safety.turn s.dev k rq 0x0206 ∧ rq.params = [n, 0, 0, 0] ∧ n.toNat <
      32) ∧
    (∃ (k : ReqKey) (rq : Request) (s : State) (n : Byte), Safety.turn s.dev k rq 0x0206 ∧ rq.params = [n, 1, 0, 0] ∧ n.toNat <
      32) :=
  ⟨⟨K, r 0x201 [31, 0, 0, 0], on (usb) (r 0x201 [31, 0, 0, 0]), 31, by unfold Safety.turn; decide +kernel⟩,
    ⟨K, { r 0x201 [31, 0, 0, 0] with phase := .portReset 31 0 }, on (usb)
      ({ r 0x201 [31, 0, 0, 0] with phase := .portReset 31 0 }), 31, 0, by decide +kernel⟩,
    ⟨K, r 0x202 [31, 0, 0, 0], on (usb) (r 0x202 [31, 0, 0, 0]), 31, by unfold Safety.turn; decide +kernel⟩,
    ⟨K, r 0x203 [31, 0, 0, 0], on (usb) (r 0x203 [31, 0, 0, 0]), 31, by unfold Safety.turn; decide +kernel⟩,
    ⟨K, r 0x204 [31, 0, 0, 0], on (usb.updPort 31 fun p => { p with state := .suspended }) (r 0x204 [31, 0, 0, 0]), 31,
      by unfold Safety.turn; decide +kernel⟩,
    ⟨K, r 0x205 [31, 0, 0, 0], on (usb) (r 0x205 [31, 0, 0, 0]), 31, by unfold Safety.turn; decide +kernel⟩,
    ⟨K, r 0x205 [32, 0, 0, 0], on (usb) (r 0x205 [32, 0, 0, 0]), by unfold Safety.turn; decide +kernel⟩,
    ⟨K, r 0x206 [31, 0, 0, 0], on (usb) (r 0x206 [31, 0, 0, 0]), 31, by unfold Safety.turn; decide +kernel⟩,
    ⟨K, r 0x206 [31, 1, 0, 0], on (usb) (r 0x206 [31, 1, 0, 0]), 31, by unfold Safety.turn; decide +kernel⟩⟩

theorem witness_TransferOpcodes :
    (∃ (k : ReqKey) (rq : Request) (s : State) (c : Nat) (dom adr : Byte) (w : BitVec 20) (su : Setup) (data : List Byte),
      (dom.toNat < 4 ∧ adr.toNat < 128 ∧ rq.byTdi = false ∨ dom = 0 ∧ adr = 0) ∧ s.dev.attached rq = some c ∧ Safety.turn s.dev k
      rq 0x0301 ∧ rq.params = [dom, adr, 0, 0] ++ leBytes 4 w.toNat ++ [su.bmRequestType, su.bRequest] ++ leBytes 2
      su.wValue.toNat ++ leBytes 2 su.wIndex.toNat ++ leBytes 2 su.wLength.toNat ++ data ∧ bit su.bmRequestType 7 = false ∧
      su.wLength.toNat = data.length ∧ data.length ≤ 4032 ∧ setsAddress su = false) ∧
    (∃ (k : ReqKey) (rq : Request) (s : State) (c : Nat) (dom adr : Byte) (w : BitVec 20) (su : Setup), (dom.toNat < 4 ∧
      adr.toNat < 128 ∧ rq.byTdi = false ∨ dom = 0 ∧ adr = 0) ∧ s.dev.attached rq = some c ∧ Safety.turn s.dev k rq 0x0301 ∧
      rq.params = [dom, adr, 0, 0] ++ leBytes 4 w.toNat ++ [su.bmRequestType, su.bRequest] ++ leBytes 2 su.wValue.toNat ++
      leBytes 2 su.wIndex.toNat ++ leBytes 2 su.wLength.toNat ∧ bit su.bmRequestType 7 = true ∧ su.wLength.toNat ≤ 4096) ∧
    (∃ (k : ReqKey) (rq : Request) (s : State) (c : Nat) (dom adr ep : Byte) (w : BitVec 20) (data : List Byte) (x : Nat),
      (dom.toNat < 4 ∧ adr.toNat < 128 ∧ rq.byTdi = false ∨ dom = 0 ∧ adr = 0) ∧ s.dev.attached rq = some c ∧ Safety.turn s.dev k
      rq 0x0302 ∧ ep.toNat < 16 ∧ data ≠ [] ∧ data.length ≤ 4036 ∧ rq.params = [dom, adr, ep, 0] ++ leBytes 4 w.toNat ++ [0, 0,
      0, 0] ++ data ∧ s.dev.target rq = some x ∧ (s.dev.ctx x).type = 2 ∧ (s.dev.ctx x).dirIn = false ∧ (s.dev.ctx x).state = 1 ∧
      s.dev.mayUse rq x = true) ∧
    (∃ (k : ReqKey) (rq : Request) (s : State) (c : Nat) (dom adr ep : Byte) (w : BitVec 20) (n x : Nat), (dom.toNat < 4 ∧
      adr.toNat < 128 ∧ rq.byTdi = false ∨ dom = 0 ∧ adr = 0) ∧ s.dev.attached rq = some c ∧ Safety.turn s.dev k rq 0x0303 ∧ 128
      ≤ ep.toNat ∧ ep.toNat % 128 < 16 ∧ ep.toNat ≠ 128 ∧ 1 ≤ n ∧ n ≤ 65536 ∧ rq.params = [dom, adr, ep, 0] ++ leBytes 4 w.toNat
      ++ leBytes 4 n ∧ s.dev.target rq = some x ∧ (s.dev.ctx x).type = 2 ∧ (s.dev.ctx x).dirIn = true ∧ (s.dev.ctx x).state = 1 ∧
      s.dev.mayUse rq x = true) :=
  ⟨⟨K, r' 0x301 [3, 127, 0, 0, 255, 255, 15, 0, 0x21, 9, 0, 0, 0, 0, 1, 0, 7], on (usb) (r' 0x301 [3, 127, 0, 0, 255, 255, 15,
      0, 0x21, 9, 0, 0, 0, 0, 1, 0, 7]), 9193, 3, 127, 0xFFFFF, ⟨0x21, 9, 0, 0, 1⟩, [7], by unfold Safety.turn; decide +kernel⟩,
    ⟨K, r' 0x301 [3, 127, 0, 0, 255, 255, 15, 0, 0x80, 6, 0, 1, 0, 0, 18, 0], on (usb) (r' 0x301 [3, 127, 0, 0, 255, 255, 15, 0,
      0x80, 6, 0, 1, 0, 0, 18, 0]), 9193, 3, 127, 0xFFFFF, ⟨0x80, 6, 0x100, 0, 18⟩, by unfold Safety.turn; decide +kernel⟩,
    ⟨K, r' 0x302 [3, 127, 15, 0, 255, 255, 15, 0, 0, 0, 0, 0, 7], on (usb) (r' 0x302 [3, 127, 15, 0, 255, 255, 15, 0, 0, 0, 0, 0,
      7]), 9193, 3, 127, 15, 0xFFFFF, [7], 9194, by unfold Safety.turn; decide +kernel⟩,
    ⟨K, r' 0x303 [3, 127, 0x8F, 0, 255, 255, 15, 0, 0, 2, 0, 0], on (usb) (r' 0x303 [3, 127, 0x8F, 0, 255, 255, 15, 0, 0, 2, 0,
      0]), 9193, 3, 127, 0x8F, 0xFFFFF, 512, 9195, by unfold Safety.turn; decide +kernel⟩⟩

theorem witness_EndpointOpcodes :
    (∃ (k : ReqKey) (rq : Request) (s : State) (c : Nat) (x : _), s.dev.attached rq = some c ∧ Safety.turn s.dev k rq 0x0304 ∧
      rq.openOk = true ∧ (openParams rq.params).type ≠ 1 ∧ rq.ep ≠ 0 ∧ (openParams rq.params).fits (s.dev.ctx c).speed = true ∧
      s.dev.epCtx rq.dom rq.addr rq.ep (rq.dirIn && (openParams rq.params).type ≠ 0) = none ∧ s.dev.freeCtx rq.dom = some x) ∧
    (∃ (k : ReqKey) (rq : Request) (s : State) (c : Nat), s.dev.attached rq = some c ∧ Safety.turn s.dev k rq 0x0304 ∧ rq.openOk
      = true ∧ (openParams rq.params).type = 1) ∧
    (∃ (k : ReqKey) (rq : Request) (s : State) (c : Nat) (x : _), s.dev.attached rq = some c ∧ Safety.turn s.dev k rq 0x0305 ∧
      rq.tgtOk = true ∧ rq.params.drop 4 = [0, 0, 0, 0] ∧ s.dev.target rq = some x ∧ s.dev.mayUse rq x = true) ∧
    (∃ (k : ReqKey) (rq : Request) (s : State) (c : Nat), s.dev.attached rq = some c ∧ Safety.turn s.dev k rq 0x0305 ∧ rq.tgtOk =
      true ∧ rq.params.drop 4 = [1, 0, 0, 0]) :=
  ⟨⟨K, r' 0x304 ([3, 127, 0x81, 0, 2, 0, 0, 2] ++ zeros 16), on (usb) (r' 0x304 ([3, 127, 0x81, 0, 2, 0, 0, 2] ++ zeros 16)),
      9193, 9198, by unfold Safety.turn; decide +kernel⟩,
    ⟨K, r' 0x304 ([3, 127, 0x81, 0, 1, 0, 0, 2] ++ zeros 16), on (usb) (r' 0x304 ([3, 127, 0x81, 0, 1, 0, 0, 2] ++ zeros 16)),
      9193, by unfold Safety.turn; decide +kernel⟩,
    ⟨K, r' 0x305 [3, 127, 0x8F, 0, 0, 0, 0, 0], on (usb) (r' 0x305 [3, 127, 0x8F, 0, 0, 0, 0, 0]), 9193, 9195,
      by unfold Safety.turn; decide +kernel⟩,
    ⟨K, r' 0x305 [3, 127, 0, 0, 1, 0, 0, 0], on (usb) (r' 0x305 [3, 127, 0, 0, 1, 0, 0, 0]), 9193,
      by unfold Safety.turn; decide +kernel⟩⟩

theorem witness_PeriodicOpcodes :
    (∃ (k : ReqKey) (rq : Request) (s : State) (c0 c ph mf sl : Nat) (ts : List Token), s.dev.attached rq = some c0 ∧
      s.dev.target rq = some c ∧ s.dev.mayUse rq c = true ∧ Safety.turn s.dev k rq 0x0401 ∧ s.dev.subscribeOk rq = true ∧
      s.dev.subRefusal rq (subParams rq.params) c = none ∧ s.dev.place c (s.dev.nextOrder (s.dev.ctx c).port) ((subParams
      rq.params).unit = 1) (subParams rq.params).period (if leAt rq.params 8 2 = 0xFFFF then none else some (leAt rq.params 8 2))
      (if leAt rq.params 10 2 = 0xFFFF then none else some (leAt rq.params 10 2)) (if byteAt rq.params 12 = 8 then none else some
      (byteAt rq.params 12)) = .ok (ph, mf, sl, ts) ∧ s.dev.claimSheet (subParams rq.params).cls (s.dev.ctx c).payload ≠ none) ∧
    (∃ (k : ReqKey) (rq : Request) (s : State) (c0 c : Nat) (x : Subscription), s.dev.attached rq = some c0 ∧ s.dev.target rq =
      some c ∧ s.dev.mayUse rq c = true ∧ s.dev.subscription c = some x ∧ x.ended = false ∧ Safety.turn s.dev k rq 0x0402 ∧
      rq.params.length = 4) ∧
    (∃ (k : ReqKey) (rq : Request) (s : State) (c0 c : Nat) (x : Subscription) (v : List Byte) (d : Dev), s.dev.attached rq =
      some c0 ∧ s.dev.target rq = some c ∧ s.dev.mayUse rq c = true ∧ s.dev.subscription c = some x ∧ x.ended = false ∧
      Safety.turn s.dev k rq 0x0403 ∧ s.dev.readSheet rqMill false x.place x.sheetLen = (v, false, d) ∧ x.sheetPoison = false) ∧
    (∃ (k : ReqKey) (rq : Request) (s : State) (c0 c : Nat) (x : Subscription) (v : List Byte) (bad : Bool) (d : Dev),
      s.dev.attached rq = some c0 ∧ s.dev.target rq = some c ∧ s.dev.mayUse rq c = true ∧ s.dev.subscription c = some x ∧ x.ended
      = false ∧ Safety.turn s.dev k rq 0x0403 ∧ s.dev.readSheet rqMill false x.place x.sheetLen = (v, bad, d) ∧ (x.sheetPoison =
      true ∨ bad = true)) ∧
    (∃ (k : ReqKey) (rq : Request) (s : State) (c0 c : Nat) (x : Subscription), s.dev.attached rq = some c0 ∧ s.dev.target rq =
      some c ∧ s.dev.mayUse rq c = true ∧ s.dev.subscription c = some x ∧ x.ended = false ∧ Safety.turn s.dev k rq 0x0404 ∧
      x.isOut = true ∧ 5 ≤ rq.params.length ∧ rq.params.length - 4 ≤ (s.dev.ctx c).payload) :=
  ⟨⟨K, r' 0x401 ([3, 127, 0x8E, 0, 0, 1, 1, 0, 0xFF, 0xFF, 0, 0, 8, 0, 0, 0] ++ zeros 4), on (usb) (r' 0x401 ([3, 127, 0x8E, 0,
      0, 1, 1, 0, 0xFF, 0xFF, 0, 0, 8, 0, 0, 0] ++ zeros 4)), 9193, 9196, 0, 0, 0, [⟨0, 200, 1078⟩],
      by unfold Safety.turn; decide +kernel⟩,
    ⟨K, r' 0x402 [3, 127, 0x8E, 0], on (usb.setSubscription 9196 (some sub0)) (r' 0x402 [3, 127, 0x8E, 0]), 9193, 9196, sub0,
      by unfold Safety.turn; decide +kernel⟩,
    ⟨K, r' 0x403 [3, 127, 0x8E, 0], on (usb.setSubscription 9196 (some sub0)) (r' 0x403 [3, 127, 0x8E, 0]), 9193, 9196, sub0, [],
      ((on (usb.setSubscription 9196 (some sub0)) (r' 0x403 [3, 127, 0x8E, 0])).dev.readSheet rqMill false [(0, 0)] 0).2.2,
      by unfold Safety.turn; decide +kernel⟩,
    ⟨K, r' 0x403 [3, 127, 0x8E, 0], on (usb.setSubscription 9196 (some { sub0 with sheetPoison := true })) (r' 0x403 [3, 127,
      0x8E, 0]), 9193, 9196, { sub0 with sheetPoison := true }, [], false, ((on (usb.setSubscription 9196 (some
      { sub0 with sheetPoison := true })) (r' 0x403 [3, 127, 0x8E, 0])).dev.readSheet rqMill false [(0, 0)] 0).2.2,
      by unfold Safety.turn; decide +kernel⟩,
    ⟨K, r' 0x404 [3, 127, 0x0D, 0, 7], on (usb.setSubscription 9197 (some { sub0 with isOut := true })) (r' 0x404 [3, 127, 0x0D,
      0, 7]), 9193, 9197, { sub0 with isOut := true }, by unfold Safety.turn; decide +kernel⟩⟩

theorem witness_PowerOpcodes :
    (∃ (k : ReqKey) (rq : Request) (s : State), Safety.turn s.dev k rq 0x0501 ∧ rq.params = [0, 0, 0, 0]) ∧
    (∃ (k : ReqKey) (rq : Request) (s : State), Safety.turn s.dev k rq 0x0501 ∧ rq.params = [2, 0, 0, 0]) ∧
    (∃ (k : ReqKey) (rq : Request) (s : State) (n : Byte), Safety.turn s.dev k rq 0x0502 ∧ rq.params = [n, 0, 0, 0] ∧ n.toNat ≤
      32) :=
  ⟨⟨K, r 0x501 [0, 0, 0, 0], one (r 0x501 [0, 0, 0, 0]), by unfold Safety.turn; decide +kernel⟩,
    ⟨K, r 0x501 [2, 0, 0, 0], one (r 0x501 [2, 0, 0, 0]), by unfold Safety.turn; decide +kernel⟩,
    ⟨K, r 0x502 [32, 0, 0, 0], one (r 0x502 [32, 0, 0, 0]), 32, by unfold Safety.turn; decide +kernel⟩⟩

theorem witness_PdActionOpcodes :
    (∃ (k : ReqKey) (rq : Request) (s : State) (n act : Byte), Safety.turn s.dev k rq 0x0503 ∧ act.toNat < 8 ∧ rq.params = [n,
      act, 0, 0] ∧ (n.toNat < 32 ∨ n.toNat = 32 ∧ (act.toNat = 2 ∨ act.toNat = 3 ∨ act.toNat = 5)) ∧ s.dev.tcUnattached n.toNat =
      false ∧ s.dev.actionFits n.toNat act.toNat = true ∧ s.dev.pdMustWait n.toNat act.toNat = false ∧ (act.toNat = 7 ∨
      s.dev.pdTalks n.toNat = true)) ∧
    (∃ (k : ReqKey) (rq : Request) (s : State) (n act : Byte), Safety.turn s.dev k rq 0x0503 ∧ act.toNat < 8 ∧ rq.params = [n,
      act, 0, 0] ∧ (n.toNat < 32 ∨ n.toNat = 32 ∧ (act.toNat = 2 ∨ act.toNat = 3 ∨ act.toNat = 5)) ∧ s.dev.tcUnattached n.toNat =
      true ∧ s.dev.pdMustWait n.toNat act.toNat = false) :=
  ⟨⟨K, r 0x503 [31, 0, 0, 0], on ((up.updEng 31 fun e => { e with tc := .attachedSrc, source := true }).flag (aPdCfg 31) 1) (r
      0x503 [31, 0, 0, 0]), 31, 0, by unfold Safety.turn; decide +kernel⟩,
    ⟨K, r 0x503 [32, 5, 0, 0], one (r 0x503 [32, 5, 0, 0]), 32, 5, by unfold Safety.turn; decide +kernel⟩⟩

theorem witness_FaultOpcodes :
    (∃ (k : ReqKey) (rq : Request) (s : State) (i : Nat) (n : _), i < 512 ∧ Safety.turn s.dev k rq 0x0601 ∧ i + n ≤ 512 ∧
      rq.params = leBytes 2 i ++ leBytes 2 n) ∧
    (∃ (k : ReqKey) (rq : Request) (s : State) (i : Nat), i < 512 ∧ Safety.turn s.dev k rq 0x0602 ∧ rq.params = leBytes 2 i ++
      [0, 0] ∧ (s.dev.src i).level ≠ 4) ∧
    (∃ (k : ReqKey) (rq : Request) (s : State) (i : Nat), i < 512 ∧ Safety.turn s.dev k rq 0x0602 ∧ rq.params = leBytes 2 i ++
      [0, 0] ∧ (s.dev.src i).level = 4) ∧
    (∃ (k : ReqKey) (rq : Request) (s : State) (i : Nat), i < 512 ∧ Safety.turn s.dev k rq 0x0602 ∧ rq.params = leBytes 2 i ++
      [1, 0]) ∧
    (∃ (k : ReqKey) (rq : Request) (s : State) (i : Nat), i < 512 ∧ Safety.turn s.dev k rq 0x0602 ∧ rq.params = [0, 0, 2, 0]) ∧
    (∃ (k : ReqKey) (rq : Request) (s : State) (i : Nat), i < 512 ∧ Safety.turn s.dev k rq 0x0603 ∧ srcUsed i = true ∧ rq.params
      = leBytes 2 i ++ [0, 0]) ∧
    (∃ (k : ReqKey) (rq : Request) (s : State) (i : Nat) (x : _), i < 512 ∧ Safety.turn s.dev k rq 0x0603 ∧ srcUsed i = true ∧
      srcKind i = some x ∧ x.1 ≠ 0 ∧ rq.params = leBytes 2 i ++ [1, 0]) :=
  ⟨⟨K, r 0x601 [255, 1, 1, 0], one (r 0x601 [255, 1, 1, 0]), 511, 1, by unfold Safety.turn; decide +kernel⟩,
    ⟨K, r 0x602 [255, 1, 0, 0], one (r 0x602 [255, 1, 0, 0]), 511, by unfold Safety.turn; decide +kernel⟩,
    ⟨K, r 0x602 [255, 1, 0, 0], on (up.setSrc 511 { Source.reset with level := 4 }) (r 0x602 [255, 1, 0, 0]), 511,
      by unfold Safety.turn; decide +kernel⟩,
    ⟨K, r 0x602 [255, 1, 1, 0], one (r 0x602 [255, 1, 1, 0]), 511, by unfold Safety.turn; decide +kernel⟩,
    ⟨K, r 0x602 [0, 0, 2, 0], one (r 0x602 [0, 0, 2, 0]), 511, by unfold Safety.turn; decide +kernel⟩,
    ⟨K, r 0x603 [0, 0, 0, 0], one (r 0x603 [0, 0, 0, 0]), 0, by unfold Safety.turn; decide +kernel⟩,
    ⟨K, r 0x603 [64, 0, 1, 0], one (r 0x603 [64, 0, 1, 0]), 64, (srcKind 64).getD (0, 0, 0),
      by unfold Safety.turn; decide +kernel⟩⟩

theorem witness_KeyOpcodes :
    (∃ (k : ReqKey) (rq : Request) (s : State) (w : Nat) (ws : List W32), wfTab quireDefault s.dev.quire.words = true ∧
      Safety.turn s.dev k rq 0x0701 ∧ 1 ≤ ws.length ∧ ws.length ≤ 64 ∧ w + ws.length ≤ 4096 ∧ rq.params = leBytes 2 w ++ leBytes
      2 ws.length ++ wordsBytes ws) ∧
    (∃ (k : ReqKey) (rq : Request) (s : State) (w : Nat) (v : W32), wfTab quireDefault s.dev.quire.words = true ∧ Safety.turn
      s.dev k rq 0x0701 ∧ w < 4096 ∧ rq.params = leBytes 2 w ++ [1, 0] ++ wordBytes v ∧ quireBarred w = false ∧ s.dev.quireJudge
      w v = true ∧ s.dev.wear w < 1000000 ∧ ((∃ m, quireKind w = .field m) ∨ (∃ a, quireKind w = .supplies a))) ∧
    (∃ (s : State) (w : Nat), wfTab quireDefault s.dev.quire.words = true ∧ quireBarred w = true) ∧
    (∃ (k : ReqKey) (rq : Request) (s : State) (n : Byte) (k0 k1 k2 k3 : W32) (lo hi : BitVec 10) (perm : BitVec 12), wfTab
      quireDefault s.dev.quire.words = true ∧ Safety.turn s.dev k rq 0x0702 ∧ n.toNat < 64 ∧ lo.toNat ≤ hi.toNat ∧ rq.params =
      [n, 0, 0, 0] ++ wordBytes k0 ++ wordBytes k1 ++ wordBytes k2 ++ wordBytes k3 ++ leBytes 2 lo.toNat ++ leBytes 2 hi.toNat ++
      leBytes 2 perm.toNat ++ [0, 0] ∧ (∀ w < 4096, s.dev.wear w < 1000000)) ∧
    (∃ (k : ReqKey) (rq : Request) (s : State) (x : Bool) (k0 k1 k2 k3 : W32), wfTab quireDefault s.dev.quire.words = true ∧
      Safety.turn s.dev k rq 0x0702 ∧ rq.params = [if x then 0x81 else 0x80, 0, 0, 0] ++ wordBytes k0 ++ wordBytes k1 ++
      wordBytes k2 ++ wordBytes k3 ++ List.replicate 8 0 ∧ (∀ w < 4096, s.dev.wear w < 1000000)) ∧
    (∃ (k : ReqKey) (rq : Request) (s : State) (n : Byte) (i : _), wfTab quireDefault s.dev.quire.words = true ∧ Safety.turn
      s.dev k rq 0x0703 ∧ n.toNat < 64 ∧ rq.params = [n, 0, 0, 0] ∧ (∀ w < 4096, s.dev.wear w < 1000000) ∧ i < 4) ∧
    (∃ (k : ReqKey) (rq : Request) (s : State) (x : Bool) (i : _), wfTab quireDefault s.dev.quire.words = true ∧ Safety.turn
      s.dev k rq 0x0703 ∧ rq.params = [if x then 0x81 else 0x80, 0, 0, 0] ∧ (∀ w < 4096, s.dev.wear w < 1000000) ∧ i < 4) :=
  ⟨⟨K, r 0x701 (leBytes 2 4095 ++ [1, 0, 7, 0, 0, 0]), one (r 0x701 (leBytes 2 4095 ++ [1, 0, 7, 0, 0, 0])), 4095, [7],
      by unfold Safety.turn; decide +kernel⟩,
    ⟨K, r 0x701 [1, 0, 1, 0, 255, 3, 1, 0], one (r 0x701 [1, 0, 1, 0, 255, 3, 1, 0]), 1, 0x103FF,
      by unfold Safety.turn; refine ⟨by decide +kernel, by decide +kernel, by decide, by decide +kernel, by decide, by decide +kernel, by decide +kernel, .inl ⟨0x000103FF, by decide⟩⟩⟩,
    ⟨one (r 1 []), 0x8F, by decide +kernel⟩,
    ⟨K, r 0x702 ([63, 0, 0, 0] ++ zeros 16 ++ [255, 3, 255, 3, 255, 15, 0, 0]), one (r 0x702 ([63, 0, 0, 0] ++ zeros 16 ++ [255,
      3, 255, 3, 255, 15, 0, 0])), 63, 0, 0, 0, 0, 1023, 1023, 4095,
      by unfold Safety.turn; (repeat' apply And.intro) <;> first | (intro w _; show (0 : Nat) < 1000000; decide) | decide +kernel⟩,
    ⟨K, r 0x702 ([0x81, 0, 0, 0] ++ zeros 24), one (r 0x702 ([0x81, 0, 0, 0] ++ zeros 24)), true, 0, 0, 0, 0,
      by unfold Safety.turn; (repeat' apply And.intro) <;> first | (intro w _; show (0 : Nat) < 1000000; decide) | decide +kernel⟩,
    ⟨K, r 0x703 [63, 0, 0, 0], one (r 0x703 [63, 0, 0, 0]), 63, 3,
      by unfold Safety.turn; (repeat' apply And.intro) <;> first | (intro w _; show (0 : Nat) < 1000000; decide) | decide +kernel⟩,
    ⟨K, r 0x703 [0x80, 0, 0, 0], one (r 0x703 [0x80, 0, 0, 0]), false, 3,
      by unfold Safety.turn; (repeat' apply And.intro) <;> first | (intro w _; show (0 : Nat) < 1000000; decide) | decide +kernel⟩⟩

theorem witness_FirmwareOpcodes :
    (∃ (k : ReqKey) (rq : Request) (s : State) (img sl : Byte) (x : Nat), (img = 1 ∨ img = 2) ∧ (sl = 0 ∨ sl = 1) ∧ x = 2 *
      (img.toNat - 1) + sl.toNat ∧ Safety.turn s.dev k rq 0x0801 ∧ rq.params = []) ∧
    (∃ (k : ReqKey) (rq : Request) (s : State) (img sl : Byte) (x : Nat) (data : List Byte), (img = 1 ∨ img = 2) ∧ (sl = 0 ∨ sl =
      1) ∧ x = 2 * (img.toNat - 1) + sl.toNat ∧ Safety.turn s.dev k rq 0x0802 ∧ 1 ≤ data.length ∧ data.length ≤ 4040 ∧
      s.dev.slotRuns x = false ∧ s.dev.slotErasing x = none ∧ rq.params = [img, sl, 0, 0, 0, 0, 0, 0] ++ data) ∧
    (∃ (k : ReqKey) (rq : Request) (s : State) (img sl : Byte) (x off : Nat) (data : List Byte), (img = 1 ∨ img = 2) ∧ (sl = 0 ∨
      sl = 1) ∧ x = 2 * (img.toNat - 1) + sl.toNat ∧ Safety.turn s.dev k rq 0x0802 ∧ 1 ≤ data.length ∧ data.length ≤ 4040 ∧ 0 <
      off ∧ off = s.dev.slotPosition x ∧ off + data.length ≤ slotSize x ∧ s.dev.slotRuns x = false ∧ s.dev.slotErasing x = none ∧
      rq.params = [img, sl, 0, 0] ++ leBytes 4 off ++ data) ∧
    (∃ (k : ReqKey) (rq : Request) (s : State) (img sl : Byte) (x : Nat), (img = 1 ∨ img = 2) ∧ (sl = 0 ∨ sl = 1) ∧ x = 2 *
      (img.toNat - 1) + sl.toNat ∧ s.dev.findReq k = some rq ∧ rq.phase = .fwErase (slotAt x) ∧ Safety.flashOk s) ∧
    (∃ (k : ReqKey) (rq : Request) (s : State) (img sl : Byte) (x : Nat), (img = 1 ∨ img = 2) ∧ (sl = 0 ∨ sl = 1) ∧ x = 2 *
      (img.toNat - 1) + sl.toNat ∧ Safety.turn s.dev k rq 0x0803 ∧ s.dev.slotErasing x = none ∧ rq.params = [img, sl, 0, 0]) ∧
    (∃ (k : ReqKey) (rq : Request) (s : State) (img sl : Byte) (x : Nat) (m : Byte), (img = 1 ∨ img = 2) ∧ (sl = 0 ∨ sl = 1) ∧ x
      = 2 * (img.toNat - 1) + sl.toNat ∧ (m = 0 ∨ m = 1) ∧ Safety.turn s.dev k rq 0x0804 ∧ s.dev.slotVerified x = true ∧
      s.dev.slotErasing x = none ∧ rq.params = [img, sl, m, 0]) ∧
    (∃ (k : ReqKey) (rq : Request) (s : State) (img sl : Byte) (x : Nat) (m : Byte), (img = 1 ∨ img = 2) ∧ (sl = 0 ∨ sl = 1) ∧ x
      = 2 * (img.toNat - 1) + sl.toNat ∧ (m = 0 ∨ m = 1) ∧ Safety.turn s.dev k rq 0x0804 ∧ s.dev.slotVerified x = false ∧
      rq.params = [img, sl, m, 0]) ∧
    (∃ (k : ReqKey) (rq : Request) (s : State) (img sl : Byte) (x : Nat), (img = 1 ∨ img = 2) ∧ (sl = 0 ∨ sl = 1) ∧ x = 2 *
      (img.toNat - 1) + sl.toNat ∧ Safety.turn s.dev k rq 0x0805 ∧ rq.params = [] ∧ s.dev.boot.trial = true) :=
  ⟨⟨K, r 0x801 [], one (r 0x801 []), 2, 1, 3, by unfold Safety.turn; decide +kernel⟩,
    ⟨K, r 0x802 [2, 1, 0, 0, 0, 0, 0, 0, 7], one (r 0x802 [2, 1, 0, 0, 0, 0, 0, 0, 7]), 2, 1, 3, [7],
      by unfold Safety.turn; decide +kernel⟩,
    ⟨K, r 0x802 [2, 1, 0, 0, 4, 0, 0, 0, 7], on (up.setSlotPosition 3 4) (r 0x802 [2, 1, 0, 0, 4, 0, 0, 0, 7]), 2, 1, 3, 4, [7],
      by unfold Safety.turn; decide +kernel⟩,
    ⟨K, { r 0x802 [2, 1, 0, 0, 0, 0, 0, 0, 7] with phase := .fwErase (slotAt 3) }, one
      ({ r 0x802 [2, 1, 0, 0, 0, 0, 0, 0, 7] with phase := .fwErase (slotAt 3) }), 2, 1, 3,
      by unfold Safety.flashOk; decide +kernel⟩,
    ⟨K, r 0x803 [2, 1, 0, 0], one (r 0x803 [2, 1, 0, 0]), 2, 1, 3, by unfold Safety.turn; decide +kernel⟩,
    ⟨K, r 0x804 [2, 1, 1, 0], on (up.setSlotVerified 3 true) (r 0x804 [2, 1, 1, 0]), 2, 1, 3, 1,
      by unfold Safety.turn; decide +kernel⟩,
    ⟨K, r 0x804 [2, 1, 1, 0], one (r 0x804 [2, 1, 1, 0]), 2, 1, 3, 1, by unfold Safety.turn; decide +kernel⟩,
    ⟨K, r 0x805 [], on ({ up with boot := { up.boot with trial := true } }) (r 0x805 []), 2, 1, 3,
      by unfold Safety.turn; decide +kernel⟩⟩

theorem witness_SelftestOpcodes :
    (∃ (k : ReqKey) (rq : Request) (s : State), Safety.turn s.dev k rq 0x0901 ∧ rq.params = [0, 0, 0, 0] ∧ s.dev.vat.spare ≠
      none) ∧
    (∃ (k : ReqKey) (rq : Request) (s : State), Safety.turn s.dev k rq 0x0901 ∧ rq.params = [0, 0, 0, 0] ∧ s.dev.vat.spare =
      none) ∧
    (∃ (k : ReqKey) (rq : Request) (s : State) (n : Byte), Safety.turn s.dev k rq 0x0901 ∧ rq.params = [1, n, 0, 0] ∧ n.toNat <
      4) ∧
    (∃ (k : ReqKey) (rq : Request) (s : State) (n : Byte), Safety.turn s.dev k rq 0x0901 ∧ rq.params = [2, n, 0, 0] ∧ n.toNat <
      32) ∧
    (∃ (k : ReqKey) (rq : Request) (s : State) (n : Byte), Safety.turn s.dev k rq 0x0901 ∧ rq.params = [3, n, 0, 0] ∧ n.toNat <
      32 ∧ s.dev.isHeld n.toNat = false ∧ ((s.dev.fuse n.toNat).state = .off ∨ (s.dev.fuse n.toNat).state = .latched ∨
      (s.dev.fuse n.toNat).state = .backoff)) ∧
    (∃ (k : ReqKey) (rq : Request) (s : State), Safety.turn s.dev k rq 0x0901 ∧ rq.params = [4, 0, 0, 0]) ∧
    (∃ (k : ReqKey) (rq : Request) (s : State), Safety.turn s.dev k rq 0x0902 ∧ rq.params = [1, 0, 0, 0] ∧ (∀ p < 32,
      s.dev.isDisabled p = true) ∧ (∀ e ∈ s.dev.subscriptions, e.2 = none) ∧ (∀ e ∈ s.dev.ctxs, e.2.state = 0)) ∧
    (∃ (k : ReqKey) (rq : Request) (s : State), Safety.turn s.dev k rq 0x0902 ∧ rq.params = [1, 0, 0, 0] ∧ ((∃ p < 32,
      s.dev.isDisabled p = false) ∨ (∃ e ∈ s.dev.subscriptions, e.2 ≠ none) ∨ (∃ e ∈ s.dev.ctxs, e.2.state ≠ 0))) ∧
    (∃ (k : ReqKey) (rq : Request) (s : State), Safety.turn s.dev k rq 0x0902 ∧ rq.params = [0, 0, 0, 0]) :=
  ⟨⟨K, r 0x901 [0, 0, 0, 0], one (r 0x901 [0, 0, 0, 0]), by unfold Safety.turn; decide +kernel⟩,
    ⟨K, r 0x901 [0, 0, 0, 0], on ({ up with vat := { up.vat with spare := none } }) (r 0x901 [0, 0, 0, 0]),
      by unfold Safety.turn; decide +kernel⟩,
    ⟨K, r 0x901 [1, 3, 0, 0], one (r 0x901 [1, 3, 0, 0]), 3, by unfold Safety.turn; decide +kernel⟩,
    ⟨K, r 0x901 [2, 31, 0, 0], one (r 0x901 [2, 31, 0, 0]), 31, by unfold Safety.turn; decide +kernel⟩,
    ⟨K, r 0x901 [3, 31, 0, 0], one (r 0x901 [3, 31, 0, 0]), 31, by unfold Safety.turn; decide +kernel⟩,
    ⟨K, r 0x901 [4, 0, 0, 0], one (r 0x901 [4, 0, 0, 0]), by unfold Safety.turn; decide +kernel⟩,
    ⟨K, r 0x902 [1, 0, 0, 0], one (r 0x902 [1, 0, 0, 0]), by unfold Safety.turn; decide +kernel⟩,
    ⟨K, r 0x902 [1, 0, 0, 0], on (usb) (r 0x902 [1, 0, 0, 0]),
      by unfold Safety.turn; refine ⟨by decide +kernel, by decide, .inl ⟨31, by decide, by decide +kernel⟩⟩⟩,
    ⟨K, r 0x902 [0, 0, 0, 0], one (r 0x902 [0, 0, 0, 0]), by unfold Safety.turn; decide +kernel⟩⟩

theorem witness_ChainOpcodes :
    (∃ (k : ReqKey) (rq : Request) (s : State) (v : Bool) (p : BitVec 6), Safety.turn s.dev k rq 0x0A01 ∧ rq.params =
      [BitVec.ofNat 8 (b2n v * 128 + p.toNat), 0, 0, 0]) ∧
    (∃ (k : ReqKey) (s : State) (v : W32) (t : Nat), s.dev.chainDue = some (k, v, t) ∧ (s.dev.findReq k = none ∨ t ≤
      s.dev.deckle.mfCount)) ∧
    (∃ (k : ReqKey) (rq : Request) (s : State) (f : Nat) (es : List Byte), Safety.turn s.dev k rq 0x0A02 ∧ 1 ≤ es.length ∧ f +
      es.length ≤ 64 ∧ rq.params = [BitVec.ofNat 8 f, BitVec.ofNat 8 es.length, 0, 0] ++ es ∧ (∀ e ∈ es, bits e 3 4 = 0) ∧
      s.dev.encAll (0x1E0100 + 4 * f) (es.map routeValue) = true) ∧
    (∃ (k : ReqKey) (rq : Request) (s : State) (f : Nat) (es : List W32), Safety.turn s.dev k rq 0x0A03 ∧ 1 ≤ es.length ∧
      es.length ≤ 1000 ∧ f + es.length ≤ 4096 ∧ rq.params = leBytes 2 f ++ leBytes 2 es.length ++ wordsBytes es ∧ (∀ e ∈ es, e
      &&& 0x7FC0FC80 = 0) ∧ s.dev.encAll (0x0F0000 + 4 * f) es = true) ∧
    (∃ (k : ReqKey) (rq : Request) (s : State) (n : Nat) (f : _), Safety.turn s.dev k rq 0x0A04 ∧ f + n ≤ 4096 ∧ rq.params =
      leBytes 2 f ++ leBytes 2 n) ∧
    (∃ (k : ReqKey) (rq : Request) (s : State) (n : Nat) (act : Fin 3), Safety.turn s.dev k rq 0x0A05 ∧ n < 5 ∧ (n < 4 →
      s.dev.isCoupler n = true) ∧ (n = 4 → s.dev.u0.relayEn = true) ∧ rq.params = [BitVec.ofNat 8 n, BitVec.ofNat 8 act.val, 0,
      0]) ∧
    (∃ (k : ReqKey) (rq : Request) (s : State), Safety.turn s.dev k rq 0x0A06 ∧ rq.params = []) ∧
    (∃ (k : ReqKey) (rq : Request) (s : State) (xs : List W32) (bs : List Byte), Safety.turn s.dev k rq 0x0B01 ∧ 1 ≤ xs.length ∧
      xs.length ≤ 252 ∧ rq.params = leBytes 2 xs.length ++ [0, 0] ++ wordsBytes xs ∧ (s.dev.wideValues xs).1 = some bs) :=
  ⟨⟨K, r 0xA01 [191, 0, 0, 0], one (r 0xA01 [191, 0, 0, 0]), true, 63, by unfold Safety.turn; decide +kernel⟩,
    ⟨K, on ({ up with chainDue := some (K, 1, 0) }) (r 0xA01 []), 1, 0, by decide +kernel⟩,
    ⟨K, r 0xA02 [63, 1, 0, 0, 0], one (r 0xA02 [63, 1, 0, 0, 0]), 63, [0], by unfold Safety.turn; decide +kernel⟩,
    ⟨K, r 0xA03 (leBytes 2 4095 ++ [1, 0, 0, 0, 0, 0]), one (r 0xA03 (leBytes 2 4095 ++ [1, 0, 0, 0, 0, 0])), 4095, [0],
      by unfold Safety.turn; exact ⟨by decide +kernel, by decide, by decide, by decide, by decide, by simp, by decide +kernel⟩⟩,
    ⟨K, r 0xA04 (leBytes 2 4095 ++ [1, 0]), one (r 0xA04 (leBytes 2 4095 ++ [1, 0])), 1, 4095,
      by unfold Safety.turn; decide +kernel⟩,
    ⟨K, r 0xA05 [4, 2, 0, 0], one (r 0xA05 [4, 2, 0, 0]), 4, 2, by unfold Safety.turn; decide +kernel⟩,
    ⟨K, r 0xA06 [], one (r 0xA06 []), by unfold Safety.turn; decide +kernel⟩,
    ⟨K, r 0xB01 [1, 0, 0, 0, 0, 0, 0, 0x25], one (r 0xB01 [1, 0, 0, 0, 0, 0, 0, 0x25]), [0x25000000], zeros 16,
      by unfold Safety.turn; decide +kernel⟩⟩

theorem witness_ResetAborts :
    ∃ (k : ReqKey) (rq : Request) (s : State) (x : Instr × Nat), x ∈ [(Instr.identify k, 0x0001), (.regRead k, 0x0101),
      (.portInfo k, 0x0205), (.controlXfer k, 0x0301), (.subscribe k, 0x0401), (.pdInfo k, 0x0502), (.faultRead k, 0x0601),
      (.keyWrite k, 0x0702), (.fwInfo k, 0x0801), (.chainInfo k, 0x0A06), (.statsRead k, 0x0B01)] ∧ s.dev.findReq k = some rq ∧
      rq.opcode.toNat = x.2 ∧ s.dev.mayStart rq = true ∧ s.dev.executes = true ∧ s.dev.resetDue ≠ none :=
  ⟨K, r 0x0B01 [], on ({ up with resetDue := some (K, 0) }) (r 0x0B01 []), (.statsRead K, 0x0B01), by decide +kernel⟩

theorem witness_ResetRows :
    ∃ (s : State), s.dev.life ≠ .unpowered ∧ s.dev.life ≠ .deadBattery ∧ s.dev.quire.busy = none :=
  ⟨stOf up, by decide +kernel⟩

theorem witness_ReleaseRows :
    (∃ (s : State), s.dev.life = .reset) ∧
    (∃ (s : State) (src : WakeSrc), s.dev.life = .hibernate ∧ (src = .ccOrPd ∨ src = .vinMon ∨ src = .beatIn ∨ src = .msCsN)) :=
  ⟨⟨stOf ({ up with life := .reset }), by decide +kernel⟩,
    ⟨stOf ({ up with life := .hibernate }), WakeSrc.msCsN, by decide +kernel⟩⟩

theorem witness_DeadBatteryRows :
    (∃ (s : State), (s.dev.life = .unpowered ∨ s.dev.life = .reset)) ∧
    (∃ (s : State), s.dev.life = .deadBattery) ∧
    (∃ (s : State), s.dev.life ≠ .deadBattery ∧ s.dev.life ≠ .running) ∧
    (∃ (s : State), s.dev.life = .running) :=
  ⟨⟨stOf ({ up with life := .reset }), by decide +kernel⟩,
    ⟨stOf ({ up with life := .deadBattery }), by decide +kernel⟩,
    ⟨stOf ({ up with life := .testHold }), by decide +kernel⟩,
    ⟨stOf up, by decide +kernel⟩⟩

theorem witness_PressRows :
    (∃ (x : Fin 4) (s : State), (s.dev.die x.val).powered = true ∧ (s.dev.up = false ∨ (s.dev.die x.val).linkUp = false)) ∧
    (∃ (x : Fin 4) (s : State), (s.dev.die x.val).powered = true ∧ s.dev.up = true ∧ (s.dev.die x.val).linkUp = true) ∧
    (∃ (x : Fin 4) (s : State), (s.dev.die x.val).powered = false) ∧
    (∃ (x : Fin 4) (s : State), s.dev.up = true ∧ (s.dev.die x.val).powered = true ∧ (s.dev.die x.val).armed = false ∧ (s.dev.die
      x.val).lost = false) ∧
    (∃ (x : Fin 4) (s : State), s.dev.up = true ∧ (s.dev.die x.val).armed = false ∧ (s.dev.die x.val).lost = false ∧
      s.dev.boot.ready.getLsbD 0 = false) ∧
    (∃ (s : State), (∀ y < 4, (s.dev.die y).armed = true ∨ (s.dev.die y).lost = true)) :=
  ⟨⟨3, stOf ({ up with life := .testHold }), by decide +kernel⟩,
    ⟨3, stOf (up.setDie 3 { up.die 3 with linkUp := true, powered := true }), by decide +kernel⟩,
    ⟨3, stOf (up.setDie 3 { Die.reset with powered := false }), by decide +kernel⟩,
    ⟨3, stOf (up.setDie 3 { Die.reset with powered := true }), by decide +kernel⟩,
    ⟨3, stOf (Dev.reset), by decide +kernel⟩,
    ⟨stOf (forN 4 (fun i d => d.updDie i fun x => { x with armed := true }) up), by decide +kernel⟩⟩

theorem witness_BringUpRows :
    (∃ (s : State), s.dev.up = true ∧ s.dev.boot.ready.getLsbD 0 = true ∧ s.dev.boot.ready.getLsbD 3 = false) ∧
    (∃ (s : State), s.dev.up = true ∧ s.dev.boot.ready.getLsbD 3 = true ∧ s.dev.boot.ready.getLsbD 1 = false) ∧
    (∃ (s : State), s.dev.up = true ∧ s.dev.boot.ready.getLsbD 1 = true ∧ s.dev.boot.ready.getLsbD 2 = false) ∧
    (∃ (s : State) (failed : BitVec 9), s.dev.up = true ∧ s.dev.boot.ready.getLsbD 2 = true ∧ s.dev.boot.ready.getLsbD 4 = false
      ∧ s.dev.boot.stopped = false ∧ failed = 0 ∧ bits (s.dev.qword 3) 0 9 = 0 ∧ bits s.straps.cfg 2 2 ≠ 2) ∧
    (∃ (s : State), s.dev.up = true ∧ s.dev.boot.ready.getLsbD 4 = true ∧ s.dev.boot.ready.getLsbD 6 = false) ∧
    (∃ (s : State), s.dev.up = true ∧ s.dev.boot.ready.getLsbD 4 = true ∧ s.dev.boot.ready.getLsbD 7 = false) :=
  ⟨⟨stOf (ready 1), by decide +kernel⟩,
    ⟨stOf (ready 0x9), by decide +kernel⟩,
    ⟨stOf (ready 0xB), by decide +kernel⟩,
    ⟨stOf (ready 0xF), 0, by decide +kernel⟩,
    ⟨stOf (ready 0x1F), by decide +kernel⟩,
    ⟨stOf (ready 0x1F), by decide +kernel⟩⟩

theorem witness_ImageRows :
    (∃ (s : State) (slot : FwSlot), s.dev.up = true ∧ s.dev.boot.checking = some slot ∧ (slot = .millA ∨ slot = .millB) ∧
      s.dev.boot.couch = none) ∧
    (∃ (s : State) (slot : FwSlot), s.dev.up = true ∧ s.dev.boot.checking = some slot ∧ (slot = .couchA ∨ slot = .couchB) ∧
      s.dev.boot.first = some slot) ∧
    (∃ (s : State) (slot : FwSlot), s.dev.up = true ∧ s.dev.boot.checking = some slot ∧ (slot = .couchA ∨ slot = .couchB) ∧
      s.dev.boot.first ≠ some slot) ∧
    (∃ (s : State), s.dev.up = true ∧ s.dev.boot.millChosen = true ∧ s.dev.boot.ready.getLsbD 8 = false ∧ s.dev.boot.millOnly =
      false) ∧
    (∃ (s : State), s.dev.up = true ∧ s.dev.boot.ready.getLsbD 8 = true ∧ s.dev.boot.ready.getLsbD 5 = false) ∧
    (∃ (s : State), s.dev.up = true ∧ s.dev.boot.couchChosen = true ∧ s.dev.boot.ready.getLsbD 5 = true ∧
      s.dev.boot.ready.getLsbD 9 = false) :=
  ⟨⟨stOf (checking .millB), .millB, by decide +kernel⟩,
    ⟨stOf ({ checking .couchA with boot := { (checking .couchA).boot with first := some .couchA } }), .couchA, by decide +kernel⟩,
    ⟨stOf (checking .couchA), .couchA, by decide +kernel⟩,
    ⟨stOf (ready 0xFF), by decide +kernel⟩,
    ⟨stOf (ready 0x1DF), by decide +kernel⟩,
    ⟨stOf (ready 0x1FF), by decide +kernel⟩⟩

theorem witness_WatchdogRows :
    (∃ (s : State), s.dev.up = true ∧ s.dev.halted = false ∧ s.dev.boot.wdogArmed = true ∧ s.dev.boot.millFrom + 800 ≤
      s.dev.deckle.mfCount) ∧
    (∃ (s : State), s.dev.up = true ∧ s.dev.halted = false ∧ s.dev.boot.ready.getLsbD 9 = true ∧ s.dev.boot.couchFrom + 800 ≤
      s.dev.deckle.mfCount) ∧
    (∃ (s : State) (k : _) (rq : _), s.dev.findReq k = some rq ∧ rq.born + 80 ≤ s.dev.deckle.mfCount ∧ rq.phase = .accepted) ∧
    (∃ (s : State) (k : _) (rq : _) (l : _) (t : _), s.dev.findReq k = some rq ∧ rq.born + 80 ≤ s.dev.deckle.mfCount ∧ rq.phase =
      .forwarded l t) :=
  ⟨⟨stOf (up.updDk fun x => { x with mfCount := 800 }), by decide +kernel⟩,
    ⟨stOf (up.updDk fun x => { x with mfCount := 800 }), by decide +kernel⟩,
    ⟨on (up.updDk fun x => { x with mfCount := 80 }) (r 1 []), K, r 1 [], by decide +kernel⟩,
    ⟨on (up.updDk fun x => { x with mfCount := 80 }) { r 1 [] with phase := .forwarded 4 7 }, K,
      { r 1 [] with phase := .forwarded 4 7 }, 4, 7, by decide +kernel⟩⟩

theorem witness_PinLevels :
    (∃ (s : State), (s.dev.jtag ≠ .extest ∨ s.dev.life ≠ .reset)) ∧
    (∃ (s : State), s.straps.cplDb = false ∧ ((s.dev.die 0).powered = false ∨ s.dev.life = .unpowered ∨ s.dev.life = .reset) ∧
      (s.dev.life = .reset → s.dev.boot.ready.getLsbD 2 = false)) :=
  ⟨⟨stOf up, by decide +kernel⟩,
    ⟨{ stOf { up with life := .reset, boot := Boot.reset } with straps := { Straps.open with cplDb := false } },
      by decide +kernel⟩⟩

theorem witness_SpiRegisterRows :
    (∃ (s : State) (ws : List W32), Safety.spi s.dev ∧ ws.length ≤ 16 ∧ s.dev.halted = false) ∧
    (∃ (s : State), Safety.spi s.dev ∧ s.dev.halted = true) ∧
    (∃ (s : State) (a : BitVec 24), Safety.spi s.dev ∧ s.dev.boot.ready.getLsbD 3 = true ∧ s.dev.halted = false ∧ mapped a.toNat
      = true) ∧
    (∃ (s : State) (n : Nat), Safety.spi s.dev ∧ s.dev.boot.ready.getLsbD 3 = true ∧ s.dev.halted = false ∧ 1 ≤ n) ∧
    (∃ (s : State) (c : Byte), Safety.spi s.dev ∧ c ≠ 2 ∧ c ≠ 3 ∧ c ≠ 5 ∧ c ≠ 0x0A ∧ c ≠ 0x0B) :=
  ⟨⟨stOf up, List.replicate 16 7, by unfold Safety.spi; decide +kernel⟩,
    ⟨stOf ({ up with power := { up.power with state := .doze } }), by unfold Safety.spi; decide +kernel⟩,
    ⟨stOf up, 0x000010, by unfold Safety.spi; decide +kernel⟩,
    ⟨stOf up, 1, by unfold Safety.spi; decide +kernel⟩,
    ⟨stOf up, 1, by unfold Safety.spi; decide +kernel⟩⟩

theorem witness_SpiPacketRows :
    (∃ (s : State) (p q : List Byte) (x : Bool) (d : Dev), Safety.spi s.dev ∧ p.length ≤ 8192 ∧ s.dev.halted = false ∧ p.length =
      4 * ((packetLen p + 3) / 4) ∧ s.dev.stage rqSpi rqMill 0 2 (p.take (packetLen p)) = some (q, x, d)) ∧
    (∃ (s : State) (p : List Byte), Safety.spi s.dev ∧ p.length ≤ 8192 ∧ s.dev.halted = false ∧ p.length ≠ 4 * ((packetLen p + 3)
      / 4)) ∧
    (∃ (s : State) (p : List Byte), Safety.spi s.dev ∧ (8192 < p.length ∨ s.dev.halted = true)) ∧
    (∃ (s : State) (n : _), Safety.spi s.dev ∧ s.dev.spi.rsp = [] ∧ 1 ≤ n ∧ s.dev.halted = false) ∧
    (∃ (s : State) (p : _) (rest : _) (bad : List Nat), Safety.spi s.dev ∧ s.dev.spi.rsp = p :: rest ∧ p.length ≤ 4096 ∧
      s.dev.halted = false ∧ (∀ i ∈ bad, (p.length + 3) / 4 ≤ i)) ∧
    (∃ (s : State) (p : _) (rest : _) (n : _), Safety.spi s.dev ∧ s.dev.spi.rsp = p :: rest ∧ n < (p.length + 3) / 4 + 2 ∧
      s.dev.halted = false) :=
  ⟨⟨stOf up, pkt 1, ((up.stage rqSpi rqMill 0 2 (pkt 1)).getD ([], true, up)).1, ((up.stage rqSpi rqMill 0 2 (pkt 1)).getD ([],
      true, up)).2.1, ((up.stage rqSpi rqMill 0 2 (pkt 1)).getD ([], true, up)).2.2,
      by unfold Safety.spi; (repeat' apply And.intro) <;> first | decide +kernel | exact got (x := ([], true, up)) (by decide +kernel)⟩,
    ⟨stOf up, [], by unfold Safety.spi; decide +kernel⟩,
    ⟨stOf up, zeros 8193, by unfold Safety.spi; decide +kernel⟩,
    ⟨stOf up, 1, by unfold Safety.spi; decide +kernel⟩,
    ⟨stOf ({ up with spi := { Spi.reset with rsp := [[1, 2, 3, 4, 5]] } }), [1, 2, 3, 4, 5], [], [2],
      by unfold Safety.spi; decide +kernel⟩,
    ⟨stOf ({ up with spi := { Spi.reset with rsp := [[1, 2, 3, 4, 5]] } }), [1, 2, 3, 4, 5], [], 3,
      by unfold Safety.spi; decide +kernel⟩⟩

theorem witness_DatagramRows :
    (∃ (e : Fin 2) (s : State) (g : Datagram), Safety.eth s.dev e ∧ s.dev.halted = false ∧ Safety.takes s.dev e.val g) ∧
    (∃ (e : Fin 2) (s : State) (g : Datagram), Safety.eth s.dev e ∧ s.dev.halted = false ∧ ¬ Safety.takes s.dev e.val g) ∧
    (∃ (e : Fin 2) (s : State) (g : Datagram),
      let a := s.dev.freeWord.2;
      let r := a.passFrame e.val (Datagram.frame g e.val s.dev.freeWord.1);
      Safety.eth s.dev e ∧ r.1 = none) ∧
    (∃ (e : Fin 2) (s : State) (g : Datagram), Safety.eth s.dev e ∧ s.dev.halted = true ∧ Safety.takes s.dev e.val g) ∧
    (∃ (e : Fin 2) (s : State) (g : Datagram), Safety.eth s.dev e ∧ s.dev.halted = true ∧ ¬ Safety.takes s.dev e.val g) :=
  ⟨⟨1, stOf (eth), gram, by unfold Safety.eth Safety.takes; decide +kernel⟩,
    ⟨1, stOf (eth), { gram with dstIp := 6 }, by unfold Safety.eth Safety.takes; decide +kernel⟩,
    ⟨1, stOf (full eth 7), gram, by unfold Safety.eth; dsimp only; decide +kernel⟩,
    ⟨1, stOf (dozing eth), gram, by unfold Safety.eth Safety.takes; decide +kernel⟩,
    ⟨1, stOf (dozing eth), { gram with dstIp := 6 }, by unfold Safety.eth Safety.takes; decide +kernel⟩⟩

theorem witness_EthernetRows :
    (∃ (e : Fin 2) (s : State) (q : NetQuery),
      let mine := s.dev.ownAddr e.val q.ipv6 q.target = true ∧ s.dev.vlanOk e.val q.vlan = true;
      let room (n : Nat) := s.dev.halted = false ∧ s.dev.rxRoom e.val n = true;
      Safety.eth s.dev e ∧ room (18 + q.length) ∧ q.ipv6 = false ∧ mine) ∧
    (∃ (e : Fin 2) (s : State) (q : NetQuery),
      let mine := s.dev.ownAddr e.val q.ipv6 q.target = true ∧ s.dev.vlanOk e.val q.vlan = true;
      let room (n : Nat) := s.dev.halted = false ∧ s.dev.rxRoom e.val n = true;
      Safety.eth s.dev e ∧ room (18 + q.length) ∧ q.ipv6 = true ∧ mine) ∧
    (∃ (e : Fin 2) (s : State) (q : NetQuery),
      let mine := s.dev.ownAddr e.val q.ipv6 q.target = true ∧ s.dev.vlanOk e.val q.vlan = true;
      let room (n : Nat) := s.dev.halted = false ∧ s.dev.rxRoom e.val n = true;
      Safety.eth s.dev e ∧ room (18 + q.length) ∧ mine ∧ q.length ≤ (s.dev.eth e.val).mtu) ∧
    (∃ (e : Fin 2) (s : State) (q : NetQuery),
      let mine := s.dev.ownAddr e.val q.ipv6 q.target = true ∧ s.dev.vlanOk e.val q.vlan = true;
      let room (n : Nat) := s.dev.halted = false ∧ s.dev.rxRoom e.val n = true;
      Safety.eth s.dev e ∧ room (18 + q.length) ∧ (¬ mine ∨ (s.dev.eth e.val).mtu < q.length)) ∧
    (∃ (e : Fin 2) (s : State) (q : NetQuery),
      let mine := s.dev.ownAddr e.val q.ipv6 q.target = true ∧ s.dev.vlanOk e.val q.vlan = true;
      let room (n : Nat) := s.dev.halted = false ∧ s.dev.rxRoom e.val n = true;
      Safety.eth s.dev e ∧ room (18 + q.length) ∧ ¬ mine) ∧
    (∃ (e : Fin 2) (s : State) (q : NetQuery),
      let mine := s.dev.ownAddr e.val q.ipv6 q.target = true ∧ s.dev.vlanOk e.val q.vlan = true;
      Safety.eth s.dev e ∧ s.dev.halted = true ∧ q.ipv6 = false ∧ mine) ∧
    (∃ (e : Fin 2) (s : State) (q : NetQuery),
      let mine := s.dev.ownAddr e.val q.ipv6 q.target = true ∧ s.dev.vlanOk e.val q.vlan = true;
      Safety.eth s.dev e ∧ s.dev.halted = true ∧ q.ipv6 = true ∧ mine) ∧
    (∃ (e : Fin 2) (s : State) (q : NetQuery),
      let mine := s.dev.ownAddr e.val q.ipv6 q.target = true ∧ s.dev.vlanOk e.val q.vlan = true;
      Safety.eth s.dev e ∧ s.dev.halted = true ∧ mine ∧ q.length ≤ (s.dev.eth e.val).mtu) ∧
    (∃ (e : Fin 2) (s : State) (q : NetQuery), Safety.eth s.dev e ∧ s.dev.halted = false ∧ s.dev.rxRoom e.val (18 + q.length) =
      false) ∧
    (∃ (e : Fin 2) (s : State),
      let room (n : Nat) := s.dev.halted = false ∧ s.dev.rxRoom e.val n = true;
      Safety.eth s.dev e ∧ (room 0 ∨ s.dev.halted = true)) :=
  ⟨⟨1, stOf (eth), ask, by unfold Safety.eth; dsimp only; decide +kernel⟩,
    ⟨1, stOf (eth), { ask with ipv6 := true, target := 9 },
      by unfold Safety.eth; dsimp only; exact ⟨by decide +kernel, by decide +kernel, by decide, Bool.or_true _, by decide +kernel⟩⟩,
    ⟨1, stOf (eth), ask, by unfold Safety.eth; dsimp only; decide +kernel⟩,
    ⟨1, stOf (eth), { ask with target := 8 }, by unfold Safety.eth; dsimp only; decide +kernel⟩,
    ⟨1, stOf (eth), { ask with target := 8 }, by unfold Safety.eth; dsimp only; decide +kernel⟩,
    ⟨1, stOf (dozing eth), ask, by unfold Safety.eth; dsimp only; decide +kernel⟩,
    ⟨1, stOf (dozing eth), { ask with ipv6 := true, target := 9 },
      by unfold Safety.eth; dsimp only; exact ⟨by decide +kernel, by decide +kernel, by decide, Bool.or_true _, by decide +kernel⟩⟩,
    ⟨1, stOf (dozing eth), ask, by unfold Safety.eth; dsimp only; decide +kernel⟩,
    ⟨1, stOf (full eth 7), ask, by unfold Safety.eth; decide +kernel⟩,
    ⟨1, stOf (eth), by unfold Safety.eth; dsimp only; decide +kernel⟩⟩

theorem witness_EthernetClockRows :
    (∃ (s : State), s.dev.up = true) ∧
    (∃ (s : State), s.dev.up = true ∧ s.dev.boot.ready.getLsbD 8 = true ∧ (s.dev.eth 0).linkUp = true) ∧
    (∃ (s : State), s.dev.up = true ∧ s.dev.boot.ready.getLsbD 8 = true ∧ (s.dev.eth 1).linkUp = true) :=
  ⟨⟨stOf up, by decide +kernel⟩,
    ⟨stOf (up.setEth 0 { Eth.reset with linkUp := true }), by decide +kernel⟩,
    ⟨stOf (up.setEth 1 { Eth.reset with linkUp := true }), by decide +kernel⟩⟩

theorem witness_ManagementRows :
    (∃ (l : Fin 5) (s : State) (p q : List Byte) (x : Bool) (d : Dev),
      let wide := s.dev.mgmtSuper l.val;
      let room := s.dev.halted = false ∧ s.dev.canClaim 0 (recSegs (if wide then 1024 else 512)) = true;
      s.dev.mgmtOpen l.val = true ∧ room ∧ ¬ 1 ∈ (s.dev.func l.val).halted ∧ 32 ≤ p.length ∧ p.length ≤ 4096 ∧ p.length =
      packetLen p ∧ s.dev.stage (rqHs (linkOutput l.val)) rqMill 0 2 p = some (q, x, d)) ∧
    (∃ (l : Fin 5) (s : State) (p : List Byte),
      let wide := s.dev.mgmtSuper l.val;
      let room := s.dev.halted = false ∧ s.dev.canClaim 0 (recSegs (if wide then 1024 else 512)) = true;
      s.dev.mgmtOpen l.val = true ∧ room ∧ ¬ 1 ∈ (s.dev.func l.val).halted ∧ (p.length < 32 ∨ 4096 < p.length ∨ p.length ≠
      packetLen p)) ∧
    (∃ (l : Fin 5) (s : State),
      let wide := s.dev.mgmtSuper l.val;
      let room := s.dev.halted = false ∧ s.dev.canClaim 0 (recSegs (if wide then 1024 else 512)) = true;
      s.dev.mgmtOpen l.val = true ∧ ¬ room ∧ ¬ 1 ∈ (s.dev.func l.val).halted) ∧
    (∃ (l : Fin 5) (s : State) (bad : List Nat) (q : Nat) (p sent : List Byte) (corrupt : Bool) (d : Dev), s.dev.mgmtOpen l.val =
      true ∧ s.dev.halted = false ∧ ¬ 0x81 ∈ (s.dev.func l.val).halted ∧ s.dev.oldestOf (s.dev.mgmtQueues l.val) = some (q, none)
      ∧ s.dev.takePacket (rqHs (linkOutput l.val)) q bad false = some (p, some (sent, corrupt), d)) ∧
    (∃ (l : Fin 5) (s : State), s.dev.mgmtOpen l.val = true ∧ s.dev.halted = false ∧ ¬ 0x81 ∈ (s.dev.func l.val).halted ∧
      s.dev.oldestOf (s.dev.mgmtQueues l.val) = none) :=
  ⟨⟨4, stOf usbHost, pkt 1, ((usbHost.stage (rqHs (linkOutput 4)) rqMill 0 2 (pkt 1)).getD ([], true, up)).1, ((usbHost.stage
      (rqHs (linkOutput 4)) rqMill 0 2 (pkt 1)).getD ([], true, up)).2.1, ((usbHost.stage (rqHs (linkOutput 4)) rqMill 0 2 (pkt
      1)).getD ([], true, up)).2.2,
      by dsimp only; (repeat' apply And.intro) <;> first | decide +kernel | exact got (x := ([], true, up)) (by decide +kernel)⟩,
    ⟨4, stOf (usbHost), [], by dsimp only; decide +kernel⟩,
    ⟨4, stOf (dozing usbHost), by dsimp only; decide +kernel⟩,
    ⟨4, stOf usbSent, ([] : List Nat), 32, (taken usbSent (rqHs (linkOutput 4)) 32 [] false).1, ((taken usbSent (rqHs (linkOutput
      4)) 32 [] false).2.1.getD ([], true)).1, ((taken usbSent (rqHs (linkOutput 4)) 32 [] false).2.1.getD ([], true)).2, (taken
      usbSent (rqHs (linkOutput 4)) 32 [] false).2.2, by decide +kernel⟩,
    ⟨4, stOf (usbHost), by decide +kernel⟩⟩

theorem witness_OpcodeRefusals :
    (∃ (rq : Request) (x : _), x ∈ [(0x0001, 40), (0x0002, 32), (0x0801, 104), (0x0805, 0), (0x0A06, 84)] ∧ rq.opcode.toNat =
      x.1) ∧
    (∃ (rq : Request) (n : Byte) (lo hi : BitVec 10) (key : List Byte) (perm : BitVec 12), rq.opcode.toNat = 0x0702 ∧ n.toNat <
      64 ∧ key.length = 16 ∧ rq.params = [n, 0, 0, 0] ++ key ++ leBytes 2 lo.toNat ++ leBytes 2 hi.toNat ++ leBytes 2 perm.toNat
      ++ [0, 0]) :=
  ⟨⟨r 1 [], (0x0001, 40), by decide +kernel⟩,
    ⟨r 0x702 ([63, 0, 0, 0] ++ zeros 16 ++ [255, 3, 255, 3, 255, 15, 0, 0]), 63, 1023, 1023, zeros 16, 4095, by decide +kernel⟩⟩

theorem witness_BadFramesCounted :
    ∃ (d : Dev) (e : Entry) (p : List Byte) (k : Nat), d.servesRoute e.route = true ∧ d.frameFault e p = some k :=
  ⟨up, spiIn, [], 0, by decide +kernel⟩

theorem witness_UnsupportedOpcodes :
    ∃ (p : List Byte) (s : State) (x : Subscriber),
      let e : Entry := { route := .spi, mustAuth := s.straps.cfg.getLsbD 0, poison := false };
      let d := s.dev.setSubr (pkSub p) { x with route := some (.spi, pkSlot p, false) };
      s.dev.up = true ∧ s.dev.servesRoute .spi = true ∧ isOpcode (pkOpcode p) = false ∧ s.dev.frameFault e p = none ∧
      s.dev.verify e p = some none ∧ s.dev.passesOn e p = false ∧ (s.dev.subr (pkSub p)).replay s.dev.epoch (pkSeq p) = some x ∧
      d.affords (pkSub p) (chargeOf e p) = true ∧ fieldsOk p = true :=
  ⟨pkt 0xFFFF, { stOf up with straps := { Straps.open with cfg := 0xE } }, { Subscriber.reset with high := 1, mask := 3 },
    by dsimp only; decide +kernel⟩

theorem witness_MicroframeRows :
    (∃ (s : State), s.dev.deckle.running = true ∧ s.dev.deckle.mf + 1 < s.dev.beatLen) ∧
    (∃ (s : State), s.dev.deckle.running = true ∧ s.dev.deckle.mf + 1 = s.dev.beatLen ∧ s.dev.deckle.beatEnded = true) ∧
    (∃ (s : State), s.dev.deckle.running = true ∧ s.dev.halted = true ∧ s.dev.deckle.strobed = false) ∧
    (∃ (s : State),
      let d := (s.dev.updDk fun x => { x with slot := x.slot + 1 }).strobePolls;
      s.dev.deckle.running = true ∧ s.dev.halted = false ∧ s.dev.deckle.strobed = true ∧ s.dev.deckle.slot < 7 ∧ d.deckle.slot ≠
      0) ∧
    (∃ (s : State), s.dev.deckle.running = true ∧ s.dev.deckle.strobed = true ∧ s.dev.deckle.slot = 7) :=
  ⟨⟨stOf up, by decide +kernel⟩,
    ⟨stOf ((lastMf up).updDk fun x => { x with beatEnded := true }), by decide +kernel⟩,
    ⟨stOf ({ up with power := { up.power with state := .doze } }), by decide +kernel⟩,
    ⟨stOf (up.updDk fun x => { x with slot := 6, strobed := true }), by dsimp only; decide +kernel⟩,
    ⟨stOf (up.updDk fun x => { x with slot := 7, strobed := true }), by decide +kernel⟩⟩

theorem witness_BeatPlan :
    (∃ (s : State), s.dev.deckle.running = true ∧ s.dev.deckle.mf + 1 = s.dev.beatLen ∧ s.dev.deckle.state = .free) ∧
    (∃ (s : State), s.dev.deckle.running = true ∧ s.dev.deckle.mf + 1 = s.dev.beatLen ∧ s.dev.deckle.state = .coast) ∧
    (∃ (s : State), s.dev.deckle.running = true ∧ s.dev.deckle.mf + 1 = s.dev.beatLen ∧ s.dev.deckle.state = .locked) :=
  ⟨⟨stOf (lastMf up), by decide +kernel⟩,
    ⟨stOf ((lastMf up).updDk fun x => { x with state := .coast }), by decide +kernel⟩,
    ⟨stOf ((lastMf up).updDk fun x => { x with state := .locked, lastE := -15000 }), by decide +kernel⟩⟩

theorem witness_BeatEndRows :
    (∃ (s : State), s.dev.deckle.running = true ∧ s.dev.deckle.mf + 1 = s.dev.beatLen ∧ s.dev.deckle.beatEnded = false ∧
      s.dev.halted = false) ∧
    (∃ (s : State), s.dev.deckle.running = true ∧ s.dev.deckle.mf + 1 = s.dev.beatLen ∧ s.dev.deckle.beatEnded = false ∧
      s.dev.halted = true) ∧
    (∃ (s : State) (n : _), n ≤ 4096 ∧ s.dev.vat.tallyDue = true ∧ s.dev.windowOpen = false) ∧
    (∃ (s : State), s.dev.vat.tallyDue = true ∧ wfTab counterDflt s.dev.counters = true) ∧
    (∃ (d : Dev),
      let free := d.freeAll;
      let linked := d.inUse;
      let used := (List.range 8).foldl (fun n c => n + d.usedSegs c) 0;
      let claimed := (List.range 8).foldl (fun n c => n + d.claim c) 0;
      let all := 8192 * depthBanks d.vat.depth;
      free + linked = all ∧ used = linked + claimed) ∧
    (∃ (d : Dev),
      let free := d.freeAll;
      let linked := d.inUse;
      let all := 8192 * depthBanks d.vat.depth;
      free + linked ≠ all) ∧
    (∃ (d : Dev),
      let free := d.freeAll;
      let linked := d.inUse;
      let used := (List.range 8).foldl (fun n c => n + d.usedSegs c) 0;
      let claimed := (List.range 8).foldl (fun n c => n + d.claim c) 0;
      let all := 8192 * depthBanks d.vat.depth;
      free + linked = all ∧ used ≠ linked + claimed) :=
  ⟨⟨stOf (lastMf up), by decide +kernel⟩,
    ⟨stOf (dozing (lastMf up)), by decide +kernel⟩,
    ⟨stOf (up.updVat fun v => { v with tallyDue := true }), 4096, by decide +kernel⟩,
    ⟨stOf (up.updVat fun v => { v with tallyDue := true }), by decide +kernel⟩,
    ⟨up, by dsimp only; decide +kernel⟩,
    ⟨up.updFreeList 7 fun f => { f with count := 1 }, by dsimp only; decide +kernel⟩,
    ⟨up.updUsedSegs 7 fun _ => 1, by dsimp only; decide +kernel⟩⟩

theorem witness_HeartbeatRow :
    ∃ (c : Nat) (x : Subscription) (s : State), s.dev.subscription c = some x ∧ s.dev.deckle.running = true ∧
      s.dev.deckle.beatEnded = false ∧ x.heartbeatDue = true :=
  ⟨9196, { sub0 with delivery := 1 }, stOf (usb.setSubscription 9196 (some { sub0 with delivery := 1 })), by decide +kernel⟩

theorem witness_SourceEdgeRows :
    (∃ (s : State) (t : Nat) (p : _), s.dev.deckle.running = true ∧ s.dev.deckle.state = .locked ∧ (s.dev.dkSrc = 2 ∨ s.dev.dkSrc
      = 3 ∨ s.dev.dkSrc = 5) ∧ s.dev.srcAbsent = false ∧ s.dev.predicted = some p ∧ -15000 ≤ (t : Int) - p ∧ (t : Int) - p ≤
      15000 ∧ -4096 ≤ (s.dev.phase t).1 ∧ (s.dev.phase t).1 ≤ 4096) ∧
    (∃ (s : State) (h : Nat), s.dev.deckle.running = true ∧ 48 ≤ h ∧ s.dev.dkSrc = 1) ∧
    (∃ (s : State) (h : Nat), s.dev.deckle.running = true ∧ h < 48) ∧
    (∃ (s : State), s.dev.deckle.running = true ∧ s.dev.dkSrc = 4 ∧ (s.dev.link s.dev.dkPort).ufp = true ∧ s.dev.deckle.linkDelay
      = none) ∧
    (∃ (s : State) (x : Nat), s.dev.deckle.running = true ∧ s.dev.dkSrc = 4 ∧ (s.dev.link s.dev.dkPort).ufp = true ∧
      s.dev.deckle.linkDelay = some x) ∧
    (∃ (s : State), s.dev.deckle.running = true ∧ s.dev.dkSrc ≠ 0 ∧ s.dev.deckle.state = .locked ∧ s.dev.deckle.misses = 0) ∧
    (∃ (s : State), s.dev.deckle.running = true ∧ s.dev.dkSrc ≠ 0 ∧ (s.dev.deckle.state = .locked ∨ s.dev.deckle.state =
      .walking) ∧ 1 ≤ s.dev.deckle.misses) :=
  ⟨⟨stOf
      ({ source 5 fun x => { x with lastEdge := some 0, beatStart := 7680000 } with u0 := { U0.reset with vbus := true, speed := 2 } }),
      7684096, 7680000, by decide +kernel⟩,
    ⟨stOf (source 1 id), 48, by decide +kernel⟩,
    ⟨stOf up, 47, by decide +kernel⟩,
    ⟨stOf ((source 4 id).updLink 0 fun x => { x with ufp := true }), by decide +kernel⟩,
    ⟨stOf ((source 4 fun y => { y with linkDelay := some 5 }).updLink 0 fun x => { x with ufp := true }), 5, by decide +kernel⟩,
    ⟨stOf (source 1 id), by decide +kernel⟩,
    ⟨stOf (source 1 fun x => { x with misses := 1 }), by decide +kernel⟩⟩

theorem witness_UpdateRows :
    (∃ (s : State) (g : BitVec 8) (u : PendingUpdate), (s.dev.updates.find? fun x => x.groups = g) = some u ∧ s.dev.updateDue u =
      true ∧ s.dev.stateCheck g = none) ∧
    (∃ (s : State) (g : BitVec 8) (u : PendingUpdate) (st : Nat), (s.dev.updates.find? fun x => x.groups = g) = some u ∧
      s.dev.updateDue u = true ∧ s.dev.stateCheck g = some st) ∧
    (∃ (s : State) (g : BitVec 8) (a : Nat) (v : W32) (n : Nat), s.dev.shadow = [(a, some v)] ∧ groupAt a = some n ∧ g.getLsbD n
      = true ∧ wfTab resetValue s.dev.regs = true) :=
  ⟨⟨stOf ({ up with updates := [upd 128] }), 128, upd 128, by decide +kernel⟩,
    ⟨stOf ({ small with updates := [upd 64] }), 64, upd 64, stNoResource, by decide +kernel⟩,
    ⟨stOf ({ up with shadow := [(aVatCfg, some 2)] }), 64, aVatCfg, 2, 6, by decide +kernel⟩⟩

theorem witness_UpdateChecks :
    (∃ (d : Dev) (g : BitVec 8) (w : Nat) (b : BeatNo),
      let spans : Prop := (g.getLsbD 6 = true → (List.range 8).foldl (fun n i => n + bits (d.shadowOf (aVatRsv i)) 0 10) 0 ≤ 1008) ∧ (g.getLsbD 1 = true → ∀ o < 36, (List.range 5).foldl (fun n i => n + bits (d.shadowOf (aShare o (i + 3))) 8 7) 0 ≤ 64);
      (g = 0 ∨ (w = 3 ∧ b.toNat ≤ d.deckle.beat.toNat) ∨ ¬ spans)) ∧
    (∃ (d : Dev) (g : BitVec 8) (w : Nat) (b : BeatNo),
      let spans : Prop := (g.getLsbD 6 = true → (List.range 8).foldl (fun n i => n + bits (d.shadowOf (aVatRsv i)) 0 10) 0 ≤ 1008) ∧ (g.getLsbD 1 = true → ∀ o < 36, (List.range 5).foldl (fun n i => n + bits (d.shadowOf (aShare o (i + 3))) 8 7) 0 ≤ 64);
      g ≠ 0 ∧ (w = 3 → d.deckle.beat.toNat < b.toNat) ∧ spans ∧ (d.pendingGroups &&& g ≠ 0 ∨ 4 ≤ d.updates.length)) ∧
    (∃ (d : Dev) (g : BitVec 8) (w : Nat) (b : BeatNo),
      let spans : Prop := (g.getLsbD 6 = true → (List.range 8).foldl (fun n i => n + bits (d.shadowOf (aVatRsv i)) 0 10) 0 ≤ 1008) ∧ (g.getLsbD 1 = true → ∀ o < 36, (List.range 5).foldl (fun n i => n + bits (d.shadowOf (aShare o (i + 3))) 8 7) 0 ≤ 64);
      g ≠ 0 ∧ (w = 3 → d.deckle.beat.toNat < b.toNat) ∧ spans ∧ d.pendingGroups &&& g = 0 ∧ d.updates.length < 4 ∧ g.getLsbD 0 =
      true ∧ bits (d.shadowOf aDkCfg) 8 4 ≠ d.fld aDkCfg 8 4 ∧ ((d.subscriptions.any fun kv => kv.2.isSome) = true ∨
      d.linkAdmitted = true)) ∧
    (∃ (d : Dev) (g : BitVec 8) (w : Nat) (b : BeatNo),
      let spans : Prop := (g.getLsbD 6 = true → (List.range 8).foldl (fun n i => n + bits (d.shadowOf (aVatRsv i)) 0 10) 0 ≤ 1008) ∧ (g.getLsbD 1 = true → ∀ o < 36, (List.range 5).foldl (fun n i => n + bits (d.shadowOf (aShare o (i + 3))) 8 7) 0 ≤ 64);
      g ≠ 0 ∧ (w = 3 → d.deckle.beat.toNat < b.toNat) ∧ spans ∧ d.pendingGroups &&& g = 0 ∧ d.updates.length < 4 ∧ g = 4 ∧ (∃ n <
      32, (d.shadowOf (aPortCfg n)).getLsbD 0 = true ∧ d.burst n = false ∧ d.burstOk n = false)) ∧
    (∃ (d : Dev) (g : BitVec 8) (w : Nat) (b : BeatNo),
      let spans : Prop := (g.getLsbD 6 = true → (List.range 8).foldl (fun n i => n + bits (d.shadowOf (aVatRsv i)) 0 10) 0 ≤ 1008) ∧ (g.getLsbD 1 = true → ∀ o < 36, (List.range 5).foldl (fun n i => n + bits (d.shadowOf (aShare o (i + 3))) 8 7) 0 ≤ 64);
      g ≠ 0 ∧ (w = 3 → d.deckle.beat.toNat < b.toNat) ∧ spans ∧ d.pendingGroups &&& g = 0 ∧ d.updates.length < 4 ∧ g = 64 ∧
      d.depthOk (bits (d.shadowOf aVatCfg) 0 2) = false) ∧
    (∃ (d : Dev) (g : BitVec 8) (w : Nat) (b : BeatNo),
      let spans : Prop := (g.getLsbD 6 = true → (List.range 8).foldl (fun n i => n + bits (d.shadowOf (aVatRsv i)) 0 10) 0 ≤ 1008) ∧ (g.getLsbD 1 = true → ∀ o < 36, (List.range 5).foldl (fun n i => n + bits (d.shadowOf (aShare o (i + 3))) 8 7) 0 ≤ 64);
      g ≠ 0 ∧ (w = 3 → d.deckle.beat.toNat < b.toNat) ∧ spans ∧ d.pendingGroups &&& g = 0 ∧ d.updates.length < 4 ∧ d.stateCheck g
      = none) :=
  ⟨⟨{ up with updates := [upd 128] }, 128, 3, 0, by dsimp only; decide +kernel⟩,
    ⟨{ up with updates := [upd 128] }, 128, 3, 1, by dsimp only; decide +kernel⟩,
    ⟨{ usb.setSubscription 9196 (some sub0) with shadow := [(aDkCfg, some 0x600)] }, 1, 2, 0, by dsimp only; decide +kernel⟩,
    ⟨{ usb.setSubscription 9196 (some { sub0 with tokens := [⟨0, 59000, 2000⟩, ⟨0, 0, 1000⟩] }) with shadow := [(aPortCfg 31, some 1)] },
      4, 0, 0, by dsimp only; decide +kernel⟩,
    ⟨small, 64, 0, 0, by dsimp only; decide +kernel⟩,
    ⟨up, 255, 3, 0xFFFFFFFFFFFF, by dsimp only; decide +kernel⟩⟩

theorem witness_RotationRows :
    (∃ (s : State) (sp : _), Safety.vat s.dev ∧ s.dev.atBeat = true ∧ s.dev.vat.spare = some sp ∧ s.dev.vat.sparePassed = true ∧
      s.dev.vat.change = .stable ∧ (s.dev.reg aVatCfg).getLsbD 4 = true ∧ s.dev.vat.migrating = none ∧ s.dev.vat.front = [] ∧
      s.dev.rotBeats ≤ s.dev.vat.beatsSinceRot) ∧
    (∃ (s : State) (sp : _) (k : _) (l : _), Safety.vat s.dev ∧ s.dev.atBeat = true ∧ s.dev.vat.spare = some sp ∧
      s.dev.vat.sparePassed = true ∧ s.dev.vat.change = .stable ∧ (s.dev.reg aVatCfg).getLsbD 4 = true ∧ s.dev.vat.migrating =
      none ∧ s.dev.vat.front = k :: l) ∧
    (∃ (s : State) (m : Migration) (sp : _), s.dev.vat.migrating = some m ∧ s.dev.vat.spare = some sp) :=
  ⟨⟨stOf ((up.setReg aVatCfg 0x12).updVat fun v => { v with beatsSinceRot := 2 ^ 24 }), 8, by unfold Safety.vat; decide +kernel⟩,
    ⟨stOf ((up.setReg aVatCfg 0x12).updVat fun v => { v with front := [3, 5] }), 8, 3, [5], by unfold Safety.vat; decide +kernel⟩,
    ⟨stOf (up.updVat fun v => { v with migrating := some ⟨7, 0, none⟩, rotSlot := 7 }), ⟨7, 0, none⟩, 8, by decide +kernel⟩⟩

theorem witness_MarchRows :
    (∃ (b : Fin 9) (s : State), Safety.vat s.dev ∧ s.dev.vat.change = .stable ∧ s.dev.vat.spare = some b.val ∧
      s.dev.vat.migrating = none ∧ (∀ r ∈ s.dev.requests, r.phase ≠ .selftest)) ∧
    (∃ (b : Fin 9) (s : State), Safety.vat s.dev ∧ s.dev.vat.change = .stable ∧ s.dev.vat.spare = some b.val ∧
      s.dev.vat.migrating = none ∧ s.dev.vat.retired.getLsbD b.val = false) ∧
    (∃ (b : Fin 9) (s : State), Safety.vat s.dev ∧ s.dev.vat.change = .stable ∧ s.dev.vat.spare ≠ some b.val ∧ s.dev.vat.coming =
      some b.val) :=
  ⟨⟨8, stOf up, by unfold Safety.vat; decide +kernel⟩,
    ⟨8, stOf up, by unfold Safety.vat; decide +kernel⟩,
    ⟨8, stOf (up.updVat fun v => { v with spare := none, coming := some 8 }), by unfold Safety.vat; decide +kernel⟩⟩

theorem witness_BankAccess :
    (∃ (v : Vat) (slot : Nat) (m : Migration), v.migrating = some m ∧ m.slot ≠ slot) ∧
    (∃ (v : Vat) (slot r : Nat) (m : Migration) (sp : Nat) (row : List Cell10), v.migrating = some m ∧ v.spare = some sp ∧ m.slot
      = slot ∧ m.held = some (r, row)) ∧
    (∃ (v : Vat) (slot r : Nat) (m : Migration) (sp : Nat), v.migrating = some m ∧ v.spare = some sp ∧ m.slot = slot ∧ (m.held =
      none ∨ (∃ k row, m.held = some (k, row) ∧ k ≠ r))) ∧
    (∃ (a : Arbiter) (x : BankReq), a.holder = none ∧ x ∈ a.waiting ∧ (∀ y ∈ a.waiting, y = x ∨ y.prio < x.prio ∨ (y.prio =
      x.prio ∧ (x.raised < y.raised ∨ (x.raised = y.raised ∧ x.who < y.who))))) ∧
    (∃ (a : Arbiter) (h : Nat), a.holder = some h) :=
  ⟨⟨{ up.vat with migrating := some ⟨7, 0, none⟩ }, 6, ⟨7, 0, none⟩, by decide +kernel⟩,
    ⟨{ up.vat with migrating := some ⟨7, 1, some (0, [])⟩ }, 7, 0, ⟨7, 1, some (0, [])⟩, 8, [], by decide +kernel⟩,
    ⟨{ up.vat with migrating := some ⟨7, 1, some (0, [])⟩ }, 7, 32767, ⟨7, 1, some (0, [])⟩, 8,
      by exact ⟨by decide +kernel, by decide +kernel, rfl, .inr ⟨0, [], rfl, by decide⟩⟩⟩,
    ⟨{ Arbiter.reset with waiting := [⟨45, 0, 0, false⟩, ⟨31, 0, 0, true⟩] }, ⟨31, 0, 0, true⟩, by decide +kernel⟩,
    ⟨{ Arbiter.reset with holder := some 31 }, 31, by decide +kernel⟩⟩

theorem witness_QueueFaultRows :
    (∃ (s : State) (b : Fin 9) (k : _), Safety.vat s.dev ∧ s.dev.vat.slots.findIdx? (· = b.val) = some k) ∧
    (∃ (s : State) (b : Fin 9) (k : _) (q : _), Safety.vat s.dev ∧ s.dev.vat.slots.findIdx? (· = b.val) = some k ∧ s.dev.queuesIn
      k = [q]) ∧
    (∃ (s : State) (b : Fin 8), (s.dev.freeList b.val).quarantined = true) ∧
    (∃ (s : State) (q : Fin 16384), (s.dev.queue q.val).state = .resetting ∧ s.dev.requests = []) ∧
    (∃ (s : State) (q : Fin 16384) (r : Request), (s.dev.queue q.val).state = .resetting ∧ s.dev.requests = [r] ∧ r.phase =
      .answered ∧ s.dev.responseQueue r.route = some q.val ∧ s.dev.spi.holds r = false) :=
  ⟨⟨stOf up, 7, 7, by unfold Safety.vat; decide +kernel⟩,
    ⟨stOf (up.onBooks fun b => { b with sst := [(65535, { state := .linked, owner := 35 })] }), 7, 7, 35,
      by unfold Safety.vat; decide +kernel⟩,
    ⟨stOf (up.updFreeList 7 fun f => { f with quarantined := true }), 7, by decide +kernel⟩,
    ⟨stOf (up.updQueue 16383 fun x => { x with state := .resetting }), 16383, by decide +kernel⟩,
    ⟨on (up.updQueue 35 fun x => { x with state := .resetting }) { r 1 [] with phase := .answered }, 35,
      { r 1 [] with phase := .answered }, by decide +kernel⟩⟩

theorem witness_DepthRows :
    (∃ (t : Nat) (s : State) (p : _), s.dev.vat.change = .growing t [] p ∧ s.dev.vat.spare.any p.contains = false ∧
      s.dev.vat.coming.any p.contains = false) ∧
    (∃ (t : Nat) (s : State) (p : _) (sp : _), s.dev.vat.change = .growing t [] p ∧ s.dev.vat.spare = some sp ∧ sp ∈ p ∧
      s.dev.vat.coming = none) ∧
    (∃ (t : Nat) (s : State),
      let n := depthBanks t;
      let e := s.dev.relocateAll n;
      let d := (forN e.vat.slots.length (fun b a => if n ≤ b then a.gateSlot b else a) e).updVat fun v => { v with depth := t, change := .stable, slots := v.slots.take n, rotSlot := v.rotSlot % n, front := v.front.filter (· < n) };
      s.dev.vat.change = .draining t ∧ e.straddling n = false ∧ (d.vat.spare.isSome = true ∨ d.vat.coming.isSome = true ∨
      d.idleBanks = [])) ∧
    (∃ (t : Nat) (s : State),
      let n := depthBanks t;
      let e := s.dev.relocateAll n;
      let d := (forN e.vat.slots.length (fun b a => if n ≤ b then a.gateSlot b else a) e).updVat fun v => { v with depth := t, change := .stable, slots := v.slots.take n, rotSlot := v.rotSlot % n, front := v.front.filter (· < n) };
      s.dev.vat.change = .draining t ∧ e.straddling n = false ∧ d.vat.spare = none ∧ d.vat.coming = none ∧ d.idleBanks ≠ []) :=
  ⟨⟨2, stOf (up.updVat fun v => { v with depth := 1, slots := [0, 1, 2, 3], change := .growing 2 [] [4, 5, 6, 7] }), [4, 5, 6,
      7], by decide +kernel⟩,
    ⟨2, stOf (up.updVat fun v => { v with depth := 1, slots := [0, 1, 2, 3], change := .growing 2 [] [4, 5, 6, 8] }), [4, 5, 6,
      8], 8, by decide +kernel⟩,
    ⟨0, stOf (up.updVat fun v => { v with change := .draining 0 }), by dsimp only; decide +kernel⟩,
    ⟨0, stOf (up.updVat fun v => { v with spare := none, change := .draining 0 }), by dsimp only; decide +kernel⟩⟩

theorem witness_GrantRow :
    (∃ (s : State) (o : Fin 36), Safety.vat s.dev ∧ s.dev.nextUnit o.val = none) ∧
    (∃ (s : State) (o : Fin 36) (bad : List Nat) (x : _) (e : _) (r : _) (cells : _) (f : _), Safety.vat s.dev ∧ o = 35 ∧
      s.dev.nextUnit 35 = some (x, e) ∧ x.work = .response ∧ e.spi.room (e.headLen 35 + 16) = true ∧ e.dequeue rqSpi 35 bad =
      some (r, cells, f)) ∧
    (∃ (s : State) (o : Fin 36) (bad : List Nat) (x : _) (e : _) (r : _) (cells : _) (f : _), Safety.vat s.dev ∧ o = 35 ∧
      s.dev.nextUnit 35 = some (x, e) ∧ x.work = .response ∧ e.spi.room (e.headLen 35 + 16) = true ∧ e.dequeue rqSpi 35 bad =
      some (r, cells, f) ∧ (failing cells).any (· < 36) = false ∧ (r.poison = true ∨ failing cells ≠ [])) ∧
    (∃ (s : State) (o : Fin 36) (bad : List Nat) (x : _) (e : _) (r : _) (cells : _) (f : _), Safety.vat s.dev ∧ o = 35 ∧
      s.dev.nextUnit 35 = some (x, e) ∧ x.work = .response ∧ e.spi.room (e.headLen 35 + 16) = true ∧ e.dequeue rqSpi 35 bad =
      some (r, cells, f) ∧ (failing cells).any (· < 36) = true) :=
  ⟨⟨stOf up, 35, by unfold Safety.vat; decide +kernel⟩,
    ⟨stOf (sent), 35, ([] : List Nat), (unit sent).1, (unit sent).2, (head (unit sent).2 rqSpi 35 []).1, (head (unit sent).2
      rqSpi 35 []).2.1, (head (unit sent).2 rqSpi 35 []).2.2, by unfold Safety.vat; decide +kernel⟩,
    ⟨stOf (sent7), 35, [36], (unit sent7).1, (unit sent7).2, (head (unit sent7).2 rqSpi 35 [36]).1, (head (unit sent7).2 rqSpi 35
      [36]).2.1, (head (unit sent7).2 rqSpi 35 [36]).2.2, by unfold Safety.vat; decide +kernel⟩,
    ⟨stOf (sent), 35, [35], (unit sent).1, (unit sent).2, (head (unit sent).2 rqSpi 35 [35]).1, (head (unit sent).2 rqSpi 35
      [35]).2.1, (head (unit sent).2 rqSpi 35 [35]).2.2, by unfold Safety.vat; decide +kernel⟩⟩

theorem witness_ClassPriority :
    ∃ (d e : Dev) (o c : Nat) (x y : Cand), d.nextUnit o = some (x, e) ∧ c < 3 ∧ c < x.cls ∧ y ∈ (((d.bitNow).2.capacity
      o).2.cands o).filter (((d.bitNow).2.capacity o).2.fits o (d.bitNow).1) :=
  ⟨noted, (unit noted).2, 35, 2, (unit noted).1, (unit noted).1, by decide +kernel⟩

theorem witness_PoolAccounting :
    ∃ (d : Dev) (c : _), d.isReady 4 = true ∧ c < 8 :=
  ⟨up, 7, by decide +kernel⟩

theorem witness_AnswerRows :
    (∃ (n : Fin 32) (r : XactResult) (u : List Upset) (s : State) (y : _) (t : _),
      let c := s.dev.upset u;
      let d := c.updPort n.val fun p => { p with inflight := p.inflight.erase y };
      (∀ x, r ≠ .erdy x) ∧ (c.port n.val).inflight.find? Xact.onBus = some y ∧ y.poll = false ∧ d.headOn y.ctx = some t ∧
      t.started = true) ∧
    (∃ (n : Fin 32) (r : XactResult) (u : List Upset) (s : State) (y : _),
      let c := s.dev.upset u;
      (∀ x, r ≠ .erdy x) ∧ (c.port n.val).inflight.find? Xact.onBus = some y ∧ y.poll = true) ∧
    (∃ (n : Fin 32) (r : XactResult) (u : List Upset) (s : State) (b : _),
      let c := s.dev.upset u;
      let k := (c.port n.val).hubPort;
      (∀ x, r ≠ .erdy x) ∧ (c.port n.val).inflight.find? Xact.onBus = none ∧ c.isTransparent n.val = true ∧ ttOpen (c.hubPort
      k).ttBuffers = some b ∧ (∀ pid seq l, r ≠ .data pid seq l)) ∧
    (∃ (n : Fin 32) (r : XactResult) (u : List Upset) (s : State) (b : _) (pid : _) (seq : _) (l : _) (d : _),
      let c := s.dev.upset u;
      let k := (c.port n.val).hubPort;
      (∀ x, r ≠ .erdy x) ∧ (c.port n.val).inflight.find? Xact.onBus = none ∧ c.isTransparent n.val = true ∧ ttOpen (c.hubPort
      k).ttBuffers = some b ∧ r = .data pid seq l ∧ ((c.dropClaim b.cls b.claim).openQueue (ttQueue k b.periodic true) b.cls 1
      n.val 32 0).enqueue (rqHs n.val) (ttQueue k b.periodic true) ⟨5, false, true, 0, l⟩ = some d) ∧
    (∃ (n : Fin 32) (s : State), (s.dev.port n.val).state = .enabled ∧ (s.dev.port n.val).inflight = []) :=
  ⟨⟨31, XactResult.ack, [], stOf (busy false), xact 9195 false, job,
      by dsimp only; (repeat' apply And.intro) <;> first | decide +kernel | exact got (x := up) (by decide +kernel) | (intro _ _ _ h; cases h) | (intro _ h; cases h)⟩,
    ⟨31, XactResult.ack, [], stOf (busy true), xact 9195 true,
      by dsimp only; (repeat' apply And.intro) <;> first | decide +kernel | exact got (x := up) (by decide +kernel) | (intro _ _ _ h; cases h) | (intro _ h; cases h)⟩,
    ⟨31, XactResult.ack, [], stOf (ttWith [{ split with sent := true }]), { split with sent := true },
      by dsimp only; (repeat' apply And.intro) <;> first | decide +kernel | exact got (x := up) (by decide +kernel) | (intro _ _ _ h; cases h) | (intro _ h; cases h)⟩,
    ⟨31, .data .data1 0 [7], [], stOf (ttWith [{ split with sent := true, isIn := true }]),
      { split with sent := true, isIn := true }, .data1, 0, [7], ((((ttWith
      [{ split with sent := true, isIn := true }]).dropClaim 2 1).openQueue (ttQueue 16 true true) 2 1 31 32 0).enqueue (rqHs 31)
      (ttQueue 16 true true) ⟨5, false, true, 0, [7]⟩).getD up,
      by dsimp only; (repeat' apply And.intro) <;> first | decide +kernel | exact got (x := up) (by decide +kernel) | (intro _ _ _ h; cases h) | (intro _ h; cases h)⟩,
    ⟨31, stOf (usb),
      by (repeat' apply And.intro) <;> first | decide +kernel | exact got (x := up) (by decide +kernel) | (intro _ _ _ h; cases h) | (intro _ h; cases h)⟩⟩

theorem witness_TransferTimeRows :
    (∃ (s : State) (c : _) (t : _) (w : _), s.dev.headOn c = some t ∧ t.started = true ∧ t.deadline = some w ∧ w ≤ s.dev.now ∧
      s.dev.onWire c = false) ∧
    (∃ (s : State) (c : _) (t : _) (w : _), s.dev.headOn c = some t ∧ t.deadline = some w ∧ s.dev.now < w) :=
  ⟨⟨stOf { usb with transfers := [job] }, 9195, job, 0, by decide +kernel⟩,
    ⟨stOf ({ usb with transfers := [{ job with deadline := some 1 }] }), 9195, { job with deadline := some 1 }, 1,
      by decide +kernel⟩⟩

theorem witness_RootPortRows :
    (∃ (n : Fin 32) (s : State), s.dev.isRoot n.val = true ∧ (s.dev.port n.val).state = .disconnected ∧ (s.dev.port
      n.val).ssTraining = false) ∧
    (∃ (n : Fin 32) (s : State), (s.dev.port n.val).state = .debounce ∧ (s.dev.reg (aPortCfg n.val)).getLsbD 1 = false) ∧
    (∃ (n : Fin 32) (s : State), (s.dev.port n.val).state = .debounce ∧ (s.dev.reg (aPortCfg n.val)).getLsbD 1 = true ∧
      s.dev.boot.state = .normal ∧ (s.dev.binding (s.dev.port n.val).domain = none ∨ (s.dev.port n.val).alloc ≠ 1)) ∧
    (∃ (n : Fin 32) (s : State) (b : _), (s.dev.port n.val).state = .debounce ∧ (s.dev.reg (aPortCfg n.val)).getLsbD 1 = true ∧
      s.dev.boot.state = .normal ∧ (s.dev.port n.val).alloc = 1 ∧ s.dev.binding (s.dev.port n.val).domain = some b ∧ b.port ≠
      n.val) ∧
    (∃ (n : Fin 32) (s : State), (s.dev.port n.val).alloc = 1 ∧ (s.dev.port n.val).state = .resetting ∧ (s.dev.port n.val).ss =
      false ∧ s.dev.binding (s.dev.port n.val).domain = none) ∧
    (∃ (n : Fin 32) (s : State) (b : _), (s.dev.port n.val).alloc = 1 ∧ (s.dev.port n.val).state = .resetting ∧ (s.dev.port
      n.val).ss = false ∧ s.dev.binding (s.dev.port n.val).domain = some b ∧ b.port = n.val) ∧
    (∃ (n : Fin 32) (s : State), (s.dev.port n.val).alloc = 1 ∧ (s.dev.port n.val).state = .resetting ∧ (s.dev.port n.val).ss =
      true ∧ s.dev.binding (s.dev.port n.val).domain = none) ∧
    (∃ (n : Fin 32) (s : State) (sp : BitVec 2), (s.dev.port n.val).alloc = 1 ∧ (s.dev.port n.val).state = .resetting ∧
      (s.dev.port n.val).ss = true ∧ sp ≠ 3 ∧ (s.dev.port n.val).warmReset = false) ∧
    (∃ (n : Fin 32) (s : State), (s.dev.port n.val).state = .recovery) :=
  ⟨⟨31, stOf (p31 fun p => { p with state := .disconnected }), by decide +kernel⟩,
    ⟨31, stOf ((p31 fun p => { p with state := .debounce }).setReg (aPortCfg 31) 8), by decide +kernel⟩,
    ⟨31, stOf (p31 fun p => { p with state := .debounce }), by decide +kernel⟩,
    ⟨31, stOf ((p31 fun p => { p with state := .debounce }).setBinding 3 (some (bound 30))), bound 30, by decide +kernel⟩,
    ⟨31, stOf (p31 fun p => { p with state := .resetting }), by decide +kernel⟩,
    ⟨31, stOf ((p31 fun p => { p with state := .resetting }).setBinding 3 (some (bound 31))), bound 31, by decide +kernel⟩,
    ⟨7, stOf (p7 fun p => { p with state := .resetting }), by decide +kernel⟩,
    ⟨7, stOf (p7 fun p => { p with state := .resetting }), 2, by decide +kernel⟩,
    ⟨31, stOf (p31 fun p => { p with state := .recovery }), by decide +kernel⟩⟩

theorem witness_BindingAndDetachRows :
    (∃ (s : State) (dom : Fin 4) (n : _), s.dev.binding dom.val = none ∧ s.dev.firstWaiting dom.val = some n) ∧
    (∃ (s : State) (n : Fin 32), (s.dev.port n.val).state = .enabled) ∧
    (∃ (s : State) (n : Fin 32), ((s.dev.port n.val).state = .debounce ∨ (s.dev.port n.val).state = .connected)) :=
  ⟨⟨stOf (p31 fun p => { p with state := .connected, waiting := 1 }), 3, 31, by decide +kernel⟩,
    ⟨stOf (usb), 31, by decide +kernel⟩,
    ⟨stOf (p31 fun p => { p with state := .connected }), 31, by decide +kernel⟩⟩

theorem witness_SuperSpeedRows :
    (∃ (n : Fin 8) (s : State), (s.dev.port n.val).ssTraining = true ∧ (s.dev.port n.val).state = .disconnected) ∧
    (∃ (n : Fin 8) (s : State), (s.dev.port n.val).ssTraining = false ∧ (s.dev.port n.val).ss = true ∧ (s.dev.port n.val).state =
      .suspended ∧ (s.dev.port n.val).link = 5) ∧
    (∃ (n : Fin 8) (s : State), (s.dev.port n.val).ssTraining = true) :=
  ⟨⟨7, stOf (p7 fun p => { p with ssTraining := true, state := .disconnected }), by decide +kernel⟩,
    ⟨7, stOf (p7 fun p => { p with state := .suspended, link := 5 }), by decide +kernel⟩,
    ⟨7, stOf (p7 fun p => { p with ssTraining := true }), by decide +kernel⟩⟩

theorem witness_PresentRow :
    (∃ (n : Fin 32) (s : State), (s.dev.port n.val).alloc = 1 ∧ (s.dev.port n.val).present = false ∧ s.dev.up = true ∧
      s.dev.attachedFor n.val = true ∧ ((s.dev.eng n.val).source = false ∨ (s.dev.fuse n.val).pg = true) ∧ s.dev.fc.chipSafe =
      false ∧ s.dev.isolated n.val = false ∧ s.dev.boot.hostRuns = true) ∧
    (∃ (n : Fin 32) (s : State), (s.dev.port n.val).alloc = 1 ∧ (s.dev.port n.val).present = true ∧ (s.dev.attachedFor n.val =
      false ∨ s.dev.fc.chipSafe = true ∨ s.dev.isolated n.val = true ∨ ((s.dev.eng n.val).source = true ∧ (s.dev.eng
      n.val).givesUp = false ∧ (s.dev.fuse n.val).pg = false))) ∧
    (∃ (n : Fin 32) (s : State), (s.dev.port n.val).alloc = 1 ∧ (s.dev.port n.val).present = (s.dev.r18 n.val && s.dev.engineRuns
      n.val)) ∧
    (∃ (n : Fin 32) (s : State), (s.dev.port n.val).alloc = 1 ∧ (∀ m < 32, (s.dev.port m).present = true → s.dev.r18 m = true)) :=
  ⟨⟨31, stOf
      ({ ((p31 fun p => { p with present := false }).updEng 31 fun e => { e with tc := .attachedSrc, source := true, dfp := true }).updFuse 31 fun f => { f with pg := true } with boot := { up.boot with hostRuns := true } }),
      by decide +kernel⟩,
    ⟨31, stOf (usb), by decide +kernel⟩,
    ⟨31, stOf (p31 fun p => { p with present := false }), by decide +kernel⟩,
    ⟨31, stOf ((p31 fun p => { p with present := false })), by refine ⟨by decide +kernel, by decide +kernel⟩⟩⟩

theorem witness_L1Rows :
    (∃ (n : Fin 32) (s : State), (s.dev.port n.val).alloc = 1 ∧ (s.dev.port n.val).state = .enabled ∧ (s.dev.port n.val).speed =
      2 ∧ (s.dev.port n.val).link = 0 ∧ (s.dev.reg (aPortLpm n.val)).getLsbD 31 = true ∧ (s.dev.port n.val).lpmRefused = false ∧
      (s.dev.port n.val).lpmSent = false ∧ s.dev.workBehind n.val (fun _ => true) = false ∧ (s.dev.port n.val).lastWork +
      s.dev.fld (aPortLpm n.val) 16 8 ≤ s.dev.now ∧ (∀ k ≤ s.dev.lx n.val, s.dev.plannedAt n.val k = false)) ∧
    (∃ (n : Fin 32) (s : State), (s.dev.port n.val).lpmSent = true) ∧
    (∃ (n : Fin 32) (s : State), (s.dev.port n.val).link = 1) :=
  ⟨⟨31, stOf ((usb.setReg (aPortLpm 31) 0x8F000000).updDk fun x => { x with mfCount := 300 }), by decide +kernel⟩,
    ⟨31, stOf (p31 fun p => { p with lpmSent := true }), by decide +kernel⟩,
    ⟨31, stOf (p31 fun p => { p with link := 1 }), by decide +kernel⟩⟩

theorem witness_U1U2Rows :
    (∃ (n : Fin 8) (s : State), (s.dev.port n.val).alloc = 1 ∧ (s.dev.port n.val).ss = true ∧ (s.dev.port n.val).state = .enabled
      ∧ (∀ k ≤ s.dev.fld (aSsLpm n.val) 0 4, s.dev.plannedAt n.val k = false) ∧ (s.dev.port n.val).link = 0 ∧ s.dev.fld (aSsLpm
      n.val) 8 8 ≠ 0) ∧
    (∃ (n : Fin 8) (s : State), (s.dev.port n.val).alloc = 1 ∧ (s.dev.port n.val).ss = true ∧ (s.dev.port n.val).state = .enabled
      ∧ (∀ k ≤ s.dev.fld (aSsLpm n.val) 0 4, s.dev.plannedAt n.val k = false) ∧ (s.dev.port n.val).link = 2 ∧ s.dev.fld (aSsLpm
      n.val) 16 8 ≠ 0) ∧
    (∃ (n : Fin 8) (s : State), (s.dev.port n.val).alloc = 1 ∧ (s.dev.port n.val).ss = true ∧ (s.dev.port n.val).state = .enabled
      ∧ (∀ k ≤ s.dev.fld (aSsLpm n.val) 0 4, s.dev.plannedAt n.val k = false) ∧ ((s.dev.port n.val).link = 2 ∨ (s.dev.port
      n.val).link = 3)) :=
  ⟨⟨7, stOf ((p7 id).setReg (aSsLpm 7) 0x0101002), by decide +kernel⟩,
    ⟨7, stOf ((p7 fun p => { p with link := 2 }).setReg (aSsLpm 7) 0x0101002), by decide +kernel⟩,
    ⟨7, stOf (p7 fun p => { p with link := 3 }), by decide +kernel⟩⟩

theorem witness_SuspendRows :
    (∃ (n : Fin 32) (s : State), (s.dev.port n.val).alloc = 1 ∧ (s.dev.port n.val).state = .enabled ∧ s.dev.atBeat = true ∧
      s.dev.fld (aPortLpm n.val) 0 16 ≠ 0 ∧ s.dev.fld (aPortLpm n.val) 0 16 ≤ (s.dev.port n.val).idleBeats ∧ s.dev.idleBeat n.val
      = true) ∧
    (∃ (n : Fin 32) (s : State), (s.dev.port n.val).alloc = 1) ∧
    (∃ (n : Fin 32) (s : State), (s.dev.port n.val).alloc = 1 ∧ (s.dev.port n.val).state = .suspended ∧ (s.dev.port n.val).link =
      5 ∧ (s.dev.port n.val).ss = false) ∧
    (∃ (n : Fin 32) (s : State), (s.dev.port n.val).alloc = 1 ∧ (s.dev.port n.val).state = .suspended ∧ (s.dev.port
      n.val).resumeRecovery = true) ∧
    (∃ (n : Fin 32) (s : State) (h hp : BitVec 7) (c : Nat), (s.dev.port n.val).alloc = 1 ∧ s.dev.ep0 (s.dev.port n.val).domain
      h.toNat = some c ∧ (s.dev.port n.val).state = .enabled ∧ s.dev.fld (aPortLpm n.val) 0 16 ≠ 0 ∧ (s.dev.port n.val).idleBeats
      < s.dev.fld (aPortLpm n.val) 0 16 ∧ (s.dev.ctx c).port = n.val ∧ (s.dev.ctx c).state = 1 ∧ (s.dev.ctx c).speed ≠ 3 ∧
      h.toNat ∈ (s.dev.port n.val).knownHubs ∧ (h.toNat, hp.toNat) ∉ (s.dev.port n.val).selSusp ∧ (h.toNat, hp.toNat) ∉
      (s.dev.port n.val).selWait ∧ (s.dev.subscriptions.any fun kv => kv.2.isSome && (s.dev.ctx kv.1).addr = h.toNat &&
      (s.dev.ctx kv.1).port = n.val && s.dev.isHubInt kv.1) = true ∧ s.dev.subtreeIdle n.val h.toNat hp.toNat = true ∧
      s.dev.atBeat = true ∧ s.dev.fld (aPortLpm n.val) 0 16 ≤ (s.dev.port n.val).idleOf h.toNat hp.toNat ∧ s.dev.ownQueued c
      hp.toNat (.selSuspend n.val) = false) ∧
    (∃ (n : Fin 32) (s : State), (s.dev.port n.val).alloc = 1 ∧ (s.dev.port n.val).state = .suspended ∧ (s.dev.port n.val).link =
      4) :=
  ⟨⟨31, stOf ((p31 fun p => { p with idleBeats := 65535 }).setReg (aPortLpm 31) 0xFFFF), by decide +kernel⟩,
    ⟨31, stOf (usb), by decide +kernel⟩,
    ⟨31, stOf (p31 fun p => { p with state := .suspended, link := 5 }), by decide +kernel⟩,
    ⟨31, stOf (p31 fun p => { p with state := .suspended, resumeRecovery := true }), by decide +kernel⟩,
    ⟨31, stOf ((((p31 fun p => { p with knownHubs := [127], subIdle := [(127, 127, 1)] }).setReg (aPortLpm 31) 1).setSubscription
      9196 (some sub0)).setCtx 9198
      { Ctx.reset with state := 1, domain := 3, addr := 126, port := 31, speed := 2, mps := 64, parentHub := 127, parentPort := 127 }),
      127, 127, 9193, by decide +kernel⟩,
    ⟨31, stOf (p31 fun p => { p with state := .suspended, link := 4 }), by decide +kernel⟩⟩

theorem witness_DozeRows :
    (∃ (s : State), s.dev.up = true ∧ s.dev.boot.ready.getLsbD 4 = true ∧ s.dev.power.state = .active ∧ s.dev.power.avs = .idle ∧
      s.dev.fc.chipSafe = false ∧ s.dev.atBeat = true ∧ s.dev.fld aPwrCfg 16 8 ≠ 0 ∧ s.dev.fld aPwrCfg 16 8 ≤
      s.dev.power.trimBeats) ∧
    (∃ (s : State), s.dev.up = true ∧ s.dev.power.state ≠ .doze ∧ s.dev.power.avs = .idle ∧ s.dev.power.dozeNow = false ∧
      s.dev.atBeat = true ∧ s.dev.fld aPwrSleep 0 16 ≠ 0 ∧ s.dev.fld aPwrSleep 0 16 ≤ s.dev.power.dozeBeats ∧ s.dev.mayDoze =
      true) ∧
    (∃ (s : State), s.dev.up = true ∧ s.dev.power.avs = .lowering) ∧
    (∃ (s : State), s.dev.up = true ∧ s.dev.power.avs = .raising) ∧
    (∃ (s : State) (src : WakeSrc), s.dev.up = true ∧ src ≠ .beatIn ∧ s.dev.power.state = .doze ∧ s.dev.power.avs = .idle) :=
  ⟨⟨stOf ((up.setReg aPwrCfg 0x10000).updPower fun p => { p with trimBeats := 1 }), by decide +kernel⟩,
    ⟨stOf ((up.setReg aPwrSleep 1).updPower fun p => { p with dozeBeats := 1 }), by decide +kernel⟩,
    ⟨stOf (up.updPower fun p => { p with avs := .lowering }), by decide +kernel⟩,
    ⟨stOf (up.updPower fun p => { p with avs := .raising }), by decide +kernel⟩,
    ⟨stOf (up.updPower fun p => { p with state := .doze }), WakeSrc.msCsN, by decide +kernel⟩⟩

theorem witness_HibernateRow :
    ∃ (s : State), s.dev.up = true ∧ s.dev.power.state = .doze ∧ s.dev.power.avs = .idle ∧ s.dev.atBeat = true ∧ s.dev.fld
      aPwrSleep 16 16 ≠ 0 ∧ s.dev.fld aPwrSleep 16 16 ≤ s.dev.power.hibBeats ∧ s.dev.mayHibernate = true :=
  ⟨stOf ((up.setReg aPwrSleep 0x10000).updPower fun p => { p with state := .doze, hibBeats := 1 }), by decide +kernel⟩

theorem witness_HelloRows :
    (∃ (n : Fin 5) (f : List Byte) (s : State) (e : _),
      let d := (Safety.received s.dev n.val f).noteHello n.val (frPayload f);
      Safety.control s.dev n.val f 1 ∧ ((Safety.received s.dev n.val f).link n.val).state = .hello ∧ commonEpoch d.couchEpoch
      (d.link n.val).nbrEpoch.toNat = some e) ∧
    (∃ (n : Fin 5) (f : List Byte) (s : State),
      let d := (Safety.received s.dev n.val f).noteHello n.val (frPayload f);
      Safety.control s.dev n.val f 1 ∧ ((Safety.received s.dev n.val f).link n.val).state = .hello ∧ commonEpoch d.couchEpoch
      (d.link n.val).nbrEpoch.toNat = none) ∧
    (∃ (n : Fin 5) (s : State), (s.dev.link n.val).state = .hello ∧ (s.dev.link n.val).helloSeen = false ∧ (s.dev.link
      n.val).helloAt + 8 ≤ s.dev.now) :=
  ⟨⟨4, frame 4 ([1, 0, 1, 0] ++ zeros 16), stOf ((l4 fun x => { x with state := .hello }).setQword 0 1), 1,
      by unfold Safety.control; dsimp only; decide +kernel⟩,
    ⟨4, frame 4 ([1, 0, 3, 0] ++ zeros 16), stOf ((l4 fun x => { x with state := .hello }).setQword 0 1),
      by unfold Safety.control; dsimp only; decide +kernel⟩,
    ⟨4, stOf ((l4 fun x => { x with state := .hello }).updDk fun x => { x with mfCount := 8 }), by decide +kernel⟩⟩

theorem witness_CommonEpoch :
    (∃ (a b : Nat), a ≠ 0 ∧ b ≠ 0) ∧
    (∃ (a b : Nat), (a = 0 ∨ b = 0)) ∧
    (∃ (a b m : Nat), commonEpoch a b = some m) :=
  ⟨⟨1, 2, by decide +kernel⟩,
    ⟨0, 2, by decide +kernel⟩,
    ⟨2, 1, 1, by decide +kernel⟩⟩

theorem witness_ChallengeRows :
    (∃ (n : Fin 5) (f : List Byte) (s : State),
      let a := Safety.received s.dev n.val f;
      Safety.control s.dev n.val f 2 ∧ (a.link n.val).ufp = true ∧ (a.link n.val).state = .auth) ∧
    (∃ (n : Fin 5) (f : List Byte) (s : State),
      let a := Safety.received s.dev n.val f;
      Safety.control s.dev n.val f 2 ∧ (a.link n.val).ufp = false ∧ (a.link n.val).state = .auth) ∧
    (∃ (n : Fin 5) (f : List Byte) (s : State),
      let a := Safety.received s.dev n.val f;
      Safety.control s.dev n.val f 3 ∧ (a.link n.val).state = .auth ∧ (a.link n.val).ufp = false) ∧
    (∃ (n : Fin 5) (f : List Byte) (s : State),
      let a := Safety.received s.dev n.val f;
      Safety.control s.dev n.val f 3 ∧ (a.link n.val).state = .auth ∧ (a.link n.val).ufp = true) ∧
    (∃ (n : Fin 5) (s : State), (s.dev.link n.val).state = .auth ∧ (s.dev.link n.val).authAt + 800 ≤ s.dev.now) ∧
    (∃ (n : Fin 5) (s : State), (s.dev.link n.val).state = .authFailed ∧ (s.dev.link n.val).authTries < 3 ∧ (s.dev.link
      n.val).authAt + 8000 ≤ s.dev.now) ∧
    (∃ (n : Fin 5) (s : State), (s.dev.link n.val).state = .authFailed ∧ 3 ≤ (s.dev.link n.val).authTries) :=
  ⟨⟨4, frame 4 ([2, 1, 0, 0] ++ zeros 16), stOf (l4 fun x => { x with state := .auth, ufp := true }),
      by unfold Safety.control; dsimp only; decide +kernel⟩,
    ⟨4, frame 4 ([2, 1, 0, 0] ++ zeros 16), stOf (l4 fun x => { x with state := .auth }),
      by unfold Safety.control; dsimp only; decide +kernel⟩,
    ⟨4, frame 4 ([3, 0, 0, 0] ++ zeros 16), stOf (l4 fun x => { x with state := .auth }),
      by unfold Safety.control; dsimp only; decide +kernel⟩,
    ⟨4, frame 4 ([3, 0, 0, 0] ++ zeros 16), stOf (l4 fun x => { x with state := .auth, ufp := true }),
      by unfold Safety.control; dsimp only; decide +kernel⟩,
    ⟨4, stOf ((l4 fun x => { x with state := .auth }).updDk fun x => { x with mfCount := 800 }), by decide +kernel⟩,
    ⟨4, stOf ((l4 fun x => { x with state := .authFailed, authTries := 2 }).updDk fun x => { x with mfCount := 8000 }),
      by decide +kernel⟩,
    ⟨4, stOf (l4 fun x => { x with state := .authFailed, authTries := 3 }), by decide +kernel⟩⟩

theorem witness_EnableRows :
    (∃ (n : Fin 5) (f : List Byte) (s : State),
      let a := Safety.received s.dev n.val f;
      Safety.control s.dev n.val f 4 ∧ (a.link n.val).state = .admitted) ∧
    (∃ (n : Fin 5) (s : State),
      let d := s.dev.claimPools n.val;
      let x := d.link n.val;
      (s.dev.link n.val).state = .admitted ∧ (s.dev.link n.val).enableSent = false ∧ (s.dev.link n.val).posClash = false ∧
      s.dev.posValid = true ∧ s.dev.mayEnable n.val = true ∧ x.poolsClaimed = true) ∧
    (∃ (n : Fin 5) (s : State),
      let d := s.dev.claimPools n.val;
      let x := d.link n.val;
      (s.dev.link n.val).state = .admitted ∧ (s.dev.link n.val).enableSent = false ∧ (s.dev.link n.val).posClash = false ∧
      s.dev.posValid = true ∧ s.dev.mayEnable n.val = true ∧ x.poolsClaimed = false) :=
  ⟨⟨4, frame 4 ([4, 0] ++ zeros 18), stOf (l4 fun x => { x with state := .admitted }),
      by unfold Safety.control; dsimp only; decide +kernel⟩,
    ⟨4, stOf (((l4 fun x => { x with state := .admitted }).setReg aChainPos 0x80000000).setReg (aCplCfg 4) 1),
      by dsimp only; decide +kernel⟩,
    ⟨4, stOf
      ({ ((l4 fun x => { x with state := .admitted }).setReg aChainPos 0x80000000).setReg (aCplCfg 4) 1 with vat := { up.vat with claims := [(4, 65536)] } }),
      by dsimp only; decide +kernel⟩⟩

theorem witness_BeatMessageRows :
    (∃ (n : Fin 5) (f : List Byte) (s : State),
      let a := Safety.received s.dev n.val f;
      Safety.control s.dev n.val f 5 ∧ (a.link n.val).ufp = true) ∧
    (∃ (n : Fin 5) (s : State) (p : _) (t : Nat × Nat), (s.dev.link n.val).ufp = false ∧ (s.dev.link n.val).polled = true ∧
      (s.dev.link n.val).state.lively = true ∧ byteAt p 0 = 1 ∧ byteAt p 10 % 2 = 1 ∧ (s.dev.link n.val).t1 = some t) ∧
    (∃ (n : Fin 5) (s : State), ((s.dev.link n.val).ufp = true ∨ (s.dev.link n.val).polled = false)) ∧
    (∃ (n : Fin 5) (s : State), s.dev.couchRuns = true ∧ (s.dev.link n.val).ufp = true ∧ (s.dev.link n.val).state.lively = true) :=
  ⟨⟨4, frame 4 ([5] ++ zeros 19), stOf (l4 fun x => { x with state := .enabled, ufp := true }),
      by unfold Safety.control; dsimp only; decide +kernel⟩,
    ⟨4, stOf (l4 fun x => { x with state := .enabled, t1 := some (1, 2), polled := true }), [1, 0, 0, 0, 0, 0, 0, 0, 0, 0, 1, 0],
      (1, 2), by decide +kernel⟩,
    ⟨4, stOf (l4 fun x => { x with state := .enabled, t1 := some (1, 2) }), by decide +kernel⟩,
    ⟨4, stOf (l4 fun x => { x with state := .enabled, ufp := true }), by decide +kernel⟩⟩

theorem witness_ResetCreditRows :
    (∃ (n : Fin 5) (f : List Byte) (s : State), Safety.control s.dev n.val f 6) ∧
    (∃ (n : Fin 5) (f : List Byte) (s : State), Safety.control s.dev n.val f 7) ∧
    (∃ (n : Fin 5) (f : List Byte) (s : State) (k : _), 7 < k ∧ Safety.control s.dev n.val f k) ∧
    (∃ (n : Fin 5) (f : List Byte) (s : State), (s.dev.link n.val).state.lively = true ∧ frameOk f = false) ∧
    (∃ (n : Fin 5) (f : List Byte) (s : State), (s.dev.link n.val).state.lively = true ∧ frameOk f = true ∧ frSeq f ≠ (s.dev.link
      n.val).rxHigh.toNat) :=
  ⟨⟨4, frame 4 ([6] ++ zeros 19), stOf (l4 fun x => { x with state := .enabled }), by unfold Safety.control; decide +kernel⟩,
    ⟨4, frame 4 ([7] ++ zeros 19), stOf (l4 fun x => { x with state := .enabled }), by unfold Safety.control; decide +kernel⟩,
    ⟨4, frame 4 ([8] ++ zeros 19), stOf (l4 fun x => { x with state := .enabled }), 8, by unfold Safety.control; decide +kernel⟩,
    ⟨4, [], stOf (l4 fun x => { x with state := .enabled, rxHigh := 1 }), by decide +kernel⟩,
    ⟨4, frame 4 ([6] ++ zeros 19), stOf (l4 fun x => { x with state := .enabled, rxHigh := 1 }), by decide +kernel⟩⟩

theorem witness_ServiceFrameRows :
    (∃ (n : Fin 5) (f : List Byte) (s : State), s.dev.couchRuns = true ∧ (s.dev.link n.val).state.lively = true ∧ frameOk f =
      true ∧ frLink f = false ∧ s.dev.carries n.val (frSvc f) (pkOpcode (frPayload f)) = true ∧ s.dev.poolRoom n.val f = false) ∧
    (∃ (n : Fin 5) (low : Bool) (f : List Byte) (s : State) (a : _), s.dev.couchRuns = true ∧ (s.dev.link n.val).state.lively =
      true ∧ (s.dev.poolRoom n.val f = true) ∧ frLink f = false ∧ s.dev.rxFrame n.val low f = (true, a) ∧ a.posValid = true ∧
      a.carries n.val (frSvc f) (pkOpcode (frPayload f)) = true ∧ frDst f = a.position ∧ (a.queue (rxQueue n.val 5 (frSvc
      f))).stamps = []) ∧
    (∃ (n : Fin 5) (low : Bool) (f : List Byte) (s : State) (a : _), s.dev.couchRuns = true ∧ (s.dev.link n.val).state.lively =
      true ∧ (s.dev.poolRoom n.val f = true) ∧ frLink f = false ∧ s.dev.rxFrame n.val low f = (true, a) ∧ a.posValid = true ∧
      a.carries n.val (frSvc f) (pkOpcode (frPayload f)) = true ∧ frDst f = a.position ∧ (a.queue (rxQueue n.val 5 (frSvc
      f))).stamps ≠ []) ∧
    (∃ (n : Fin 5) (low : Bool) (f : List Byte) (s : State) (a : _), s.dev.couchRuns = true ∧ (s.dev.link n.val).state.lively =
      true ∧ s.dev.poolRoom n.val f = true ∧ frLink f = false ∧ s.dev.rxFrame n.val low f = (true, a) ∧ a.carries n.val (frSvc f)
      (pkOpcode (frPayload f)) = false) ∧
    (∃ (n : Fin 5) (s : State) (svc : Fin 4) (c : _) (rest : _), s.dev.couchRuns = true ∧ (s.dev.link n.val).state.lively = true
      ∧ s.dev.halted = false ∧ s.dev.linkAsleep n.val = false ∧ svc = 0 ∧ (s.dev.link n.val).ctl = c :: rest) ∧
    (∃ (n : Fin 5) (s : State), s.dev.couchRuns = true ∧ (s.dev.link n.val).state.lively = true ∧ s.dev.halted = false ∧
      s.dev.linkAsleep n.val = false ∧ (s.dev.link n.val).ctl = [] ∧ s.dev.posValid = true) ∧
    (∃ (n : Fin 5) (s : State) (svc : Fin 4) (x : _) (e : _) (q : _) (w : _), s.dev.couchRuns = true ∧ (s.dev.link
      n.val).state.lively = true ∧ s.dev.halted = false ∧ s.dev.linkAsleep n.val = false ∧ (s.dev.link n.val).ctl = [] ∧
      s.dev.posValid = true ∧ s.dev.chooseUnit (linkOutput n.val) (fun a => a.linkCands n.val (a.rivals n.val svc.val)) = some
      (x, e) ∧ x.work = .relay svc.val q w) ∧
    (∃ (n : Fin 5) (s : State) (v : _) (x : _), s.dev.couchRuns = true ∧ (s.dev.link n.val).state.lively = true ∧ s.dev.oldestOf
      (s.dev.feederGroups n.val v).flatten = some x ∧ s.dev.frameReady n.val v x = false) ∧
    (∃ (n : Fin 5) (s : State) (v : Nat) (r : Rec) (a : Dev) (b : _), s.dev.couchRuns = true ∧ (s.dev.link n.val).state.lively =
      true ∧ s.dev.poolTake n.val 5 v = some (r, a) ∧ a.consume r.payload r.poison = some b) ∧
    (∃ (n : Fin 5) (s : State) (v : Nat) (r : Rec) (a : Dev), s.dev.couchRuns = true ∧ (s.dev.link n.val).state.lively = true ∧
      s.dev.poolTake n.val 5 v = some (r, a) ∧ a.consume r.payload r.poison = none) :=
  ⟨⟨4, frame 0 (pkt 1), stOf (relayed fun x => { x with svc0 := Credit.reset }), by decide +kernel⟩,
    ⟨4, false, frame 0 (pkt 1), stOf (relayed id), ((relayed id).rxFrame 4 false (frame 0 (pkt 1))).2, by decide +kernel⟩,
    ⟨4, false, frame 0 (pkt 1), stOf pooled, (pooled.rxFrame 4 false (frame 0 (pkt 1))).2, by decide +kernel⟩,
    ⟨4, false, frame 0 (pkt 2), stOf (relayed fun x => { x with state := .hello }), ((relayed fun x =>
      { x with state := .hello }).rxFrame 4 false (frame 0 (pkt 2))).2, by decide +kernel⟩,
    ⟨4, stOf (relayed fun x => { x with ctl := [[1]] }), 0, [1], ([] : List (List Byte)), by decide +kernel⟩,
    ⟨4, stOf (relayed id), by decide +kernel⟩,
    ⟨4, stOf (relaying 64), 0, chosen.1, chosen.2, 56, Waiting.own, by decide +kernel⟩,
    ⟨4, stOf (relaying 0), 0, (56, Waiting.own), by decide +kernel⟩,
    ⟨4, stOf (pooled), 0, fromPool.1, fromPool.2, (fromPool.2.consume fromPool.1.payload fromPool.1.poison).getD up,
      by decide +kernel⟩,
    ⟨4, stOf (stuck), 0, ((stuck.poolTake 4 5 0).getD ({ kind := 0, poison := false, last := true, attr := 0, payload := [] },
      up)).1, ((stuck.poolTake 4 5 0).getD ({ kind := 0, poison := false, last := true, attr := 0, payload := [] }, up)).2,
      by decide +kernel⟩⟩

theorem witness_LinkTimerRows :
    (∃ (n : Fin 5) (s : State), (s.dev.link n.val).state = .enumerating ∧ (s.dev.link n.val).ufp = false ∧ (s.dev.port
      n.val).state = .enabled ∧ (s.dev.link n.val).enumStep < 4 ∧ (s.dev.link n.val).enumAt + 800 ≤ s.dev.now) ∧
    (∃ (n : Fin 5) (s : State), (s.dev.link n.val).state = .enumerating ∧ (s.dev.link n.val).ufp = false ∧ (s.dev.port
      n.val).state = .enabled ∧ (s.dev.link n.val).enumStep < 4 ∧ s.dev.now < (s.dev.link n.val).enumAt + 800) ∧
    (∃ (n : Fin 5) (s : State), (s.dev.link n.val).noPool = true ∧ s.dev.up = true ∧ s.dev.halted = false ∧ (s.dev.link
      n.val).allowance = true ∧ (s.dev.link n.val).state = .resetting) ∧
    (∃ (n : Fin 5) (s : State), (s.dev.link n.val).noPool = true ∧ s.dev.up = true ∧ s.dev.halted = false ∧ (s.dev.link
      n.val).allowance = true ∧ (s.dev.link n.val).state = .admitted) ∧
    (∃ (n : Fin 5) (s : State), (s.dev.link n.val).noPool = true ∧ s.dev.up = true ∧ s.dev.halted = false ∧ (s.dev.link
      n.val).allowance = false) ∧
    (∃ (n : Fin 5) (s : State), (s.dev.link n.val).graceRuns = true ∧ 1 ≤ (s.dev.link n.val).beatsSince ∧ s.dev.fld aChainCfg 0 8
      ≤ (s.dev.link n.val).beatsSince) ∧
    (∃ (s : State) (k : _) (r : _) (l : _) (t : _), s.dev.findReq k = some r ∧ r.phase = .forwarded l t ∧ t ≤ s.dev.now) ∧
    (∃ (s : State) (k : _) (r : _) (l : _) (t : _), s.dev.findReq k = some r ∧ r.phase = .forwarded l t ∧ s.dev.now < t) :=
  ⟨⟨3, stOf ((((up.updPort 3 fun p => { p with alloc := 3, state := .enabled }).updLink 3 fun x =>
      { x with state := .enumerating, enumStep := 3 }).updDk fun x => { x with mfCount := 800 })), by decide +kernel⟩,
    ⟨3, stOf (((up.updPort 3 fun p => { p with alloc := 3, state := .enabled }).updLink 3 fun x =>
      { x with state := .enumerating, enumStep := 3 })), by decide +kernel⟩,
    ⟨4, stOf (l4 fun x => { x with noPool := true, allowance := true, state := .resetting }), by decide +kernel⟩,
    ⟨4, stOf (l4 fun x => { x with noPool := true, allowance := true, state := .admitted }), by decide +kernel⟩,
    ⟨4, stOf (l4 fun x => { x with noPool := true }), by decide +kernel⟩,
    ⟨4, stOf (l4 fun x => { x with graceRuns := true, beatsSince := 255 }), by decide +kernel⟩,
    ⟨one { r 1 [] with phase := .forwarded 4 0 }, K, { r 1 [] with phase := .forwarded 4 0 }, 4, 0, by decide +kernel⟩,
    ⟨one { r 1 [] with phase := .forwarded 4 1 }, K, { r 1 [] with phase := .forwarded 4 1 }, 4, 1, by decide +kernel⟩⟩

theorem witness_AttachRows :
    (∃ (n : Fin 33) (s : State) (cc1 cc2 : CcLevel),
      let d := s.dev.updEng n.val fun e => { e with cc1 := cc1, cc2 := cc2 };
      (s.dev.eng n.val).tc = .unattachedSrc ∧ (d.srcPin n.val).isSome = true) ∧
    (∃ (n : Fin 33) (s : State) (cc1 cc2 : CcLevel),
      let d := s.dev.updEng n.val fun e => { e with cc1 := cc1, cc2 := cc2 };
      (s.dev.eng n.val).tc = .unattachedSnk ∧ (d.snkPin n.val).isSome = true) ∧
    (∃ (n : Fin 33) (s : State) (cc1 cc2 : CcLevel),
      let d := s.dev.updEng n.val fun e => { e with cc1 := cc1, cc2 := cc2 };
      (s.dev.eng n.val).tc = .attachWaitSrc ∧ d.srcPin n.val = none) ∧
    (∃ (n : Fin 33) (s : State) (cc1 cc2 : CcLevel),
      let d := s.dev.updEng n.val fun e => { e with cc1 := cc1, cc2 := cc2 };
      (s.dev.eng n.val).tc = .attachWaitSnk ∧ d.snkPin n.val = none) ∧
    (∃ (n : Fin 33) (s : State) (cc1 cc2 : CcLevel),
      let d := s.dev.updEng n.val fun e => { e with cc1 := cc1, cc2 := cc2 };
      (s.dev.eng n.val).tc = .attachedSrc ∧ d.seesRa n.val = true ∧ s.dev.seesRa n.val = false) ∧
    (∃ (n : Fin 33) (s : State) (p : _), (s.dev.eng n.val).tc = .attachWaitSrc ∧ s.dev.srcPin n.val = some p ∧ s.dev.pdDual n.val
      = false) ∧
    (∃ (n : Fin 33) (s : State) (p : _), (s.dev.eng n.val).tc = .attachWaitSnk ∧ s.dev.snkPin n.val = some p ∧ s.dev.pdDual n.val
      = false) ∧
    (∃ (n : Fin 33) (s : State) (p : _), (s.dev.eng n.val).tc = .attachWaitSnk ∧ s.dev.snkPin n.val = some p ∧ s.dev.pdDual n.val
      = true ∧ s.dev.fld (aPdCfg n.val) 4 2 = 1) ∧
    (∃ (n : Fin 33) (s : State), s.dev.pdDual n.val = true ∧ (s.dev.eng n.val).tc = .unattachedSrc) ∧
    (∃ (n : Fin 33) (s : State), s.dev.pdDual n.val = true ∧ (s.dev.eng n.val).tc = .unattachedSnk) ∧
    (∃ (n : Fin 33) (s : State) (p : _), (s.dev.eng n.val).tc = .trySrc ∧ s.dev.srcPin n.val = some p) ∧
    (∃ (n : Fin 33) (s : State), (s.dev.eng n.val).tc = .trySrc ∧ s.dev.srcPin n.val = none) :=
  ⟨⟨31, stOf (usb.updEng 31 fun e => { e with tc := .unattachedSrc }), CcLevel.rd, CcLevel.open, by dsimp only; decide +kernel⟩,
    ⟨31, stOf (usb.updEng 31 fun e => { e with tc := .unattachedSnk }), CcLevel.rp30, CcLevel.open,
      by dsimp only; decide +kernel⟩,
    ⟨31, stOf (usb.updEng 31 fun e => { e with tc := .attachWaitSrc }), CcLevel.open, CcLevel.open,
      by dsimp only; decide +kernel⟩,
    ⟨31, stOf (usb.updEng 31 fun e => { e with tc := .attachWaitSnk }), CcLevel.open, CcLevel.open,
      by dsimp only; decide +kernel⟩,
    ⟨31, stOf (usb.updEng 31 fun e => { e with tc := .attachedSrc, cc1 := .rd }), CcLevel.rd, CcLevel.ra,
      by dsimp only; decide +kernel⟩,
    ⟨31, stOf ((up.updPort 31 fun p => { p with alloc := 4 }).updEng 31 fun e => { e with tc := .attachWaitSrc, cc1 := .rd }), 0,
      by decide +kernel⟩,
    ⟨32, stOf (up.updEng 32 fun e => { e with tc := .attachWaitSnk, cc1 := .rp30 }), 0, by decide +kernel⟩,
    ⟨31, stOf ((usb.setReg (aPdCfg 31) 0x6DB).updEng 31 fun e => { e with tc := .attachWaitSnk, cc1 := .rp30 }), 0,
      by decide +kernel⟩,
    ⟨31, stOf ((usb.setReg (aPdCfg 31) 0x6DB).updEng 31 fun e => { e with tc := .unattachedSrc }), by decide +kernel⟩,
    ⟨31, stOf ((usb.setReg (aPdCfg 31) 0x6DB).updEng 31 fun e => { e with tc := .unattachedSnk }), by decide +kernel⟩,
    ⟨31, stOf ((usb.setReg (aPdCfg 31) 0x6DB).updEng 31 fun e => { e with tc := .trySrc, cc1 := .rd }), 0, by decide +kernel⟩,
    ⟨31, stOf ((usb.setReg (aPdCfg 31) 0x6DB).updEng 31 fun e => { e with tc := .trySrc }), by decide +kernel⟩⟩

theorem witness_DetachRows :
    (∃ (n : Fin 33) (s : State), s.dev.isHeld n.val = false ∧ s.dev.tcAttached n.val = true) ∧
    (∃ (n : Fin 33) (s : State), s.dev.isHeld n.val = true) ∧
    (∃ (n : Fin 33) (s : State), (s.dev.eng n.val).tc = .attachedSnk ∧ s.dev.pdTalks n.val = true ∧ (s.dev.eng n.val).ams =
      .idle) :=
  ⟨⟨32, stOf (e32 id), by decide +kernel⟩,
    ⟨31, stOf (f31 fun f => { f with state := .held }), by decide +kernel⟩,
    ⟨32, stOf (e32 id), by decide +kernel⟩⟩

theorem witness_CableRows :
    (∃ (n : Fin 33) (s : State), s.dev.pdTalks n.val = true ∧ (s.dev.eng n.val).source = true ∧ (s.dev.eng n.val).vconn = true ∧
      (s.dev.eng n.val).discDone = false ∧ (s.dev.eng n.val).ams = .idle ∧ (s.dev.eng n.val).discTries = 0) ∧
    (∃ (n : Fin 33) (s : State), (s.dev.eng n.val).vconn = true ∧ (s.dev.eng n.val).discDone = true ∧ (s.dev.eng n.val).limit5A =
      false) ∧
    (∃ (n : Fin 33) (s : State), (s.dev.eng n.val).ams = .discover) ∧
    (∃ (n : Fin 33) (s : State), (s.dev.eng n.val).ams = .discover ∧ (s.dev.eng n.val).discTries < 6) ∧
    (∃ (n : Fin 33) (s : State), (s.dev.eng n.val).ams = .discover ∧ 6 ≤ (s.dev.eng n.val).discTries) :=
  ⟨⟨31, stOf (e31 fun e => { e with vconn := true }), by decide +kernel⟩,
    ⟨31, stOf (e31 fun e => { e with vconn := true, discDone := true }), by decide +kernel⟩,
    ⟨31, stOf (e31 fun e => { e with ams := .discover }), by decide +kernel⟩,
    ⟨31, stOf (e31 fun e => { e with ams := .discover, discTries := 5 }), by decide +kernel⟩,
    ⟨31, stOf (e31 fun e => { e with ams := .discover, discTries := 6 }), by decide +kernel⟩⟩

theorem witness_SourceRows :
    (∃ (n : Fin 33) (s : State), (s.dev.eng n.val).ams = .srcCaps ∧ (s.dev.eng n.val).capsCount < 50) ∧
    (∃ (n : Fin 33) (s : State), (s.dev.eng n.val).ams = .srcCaps ∧ 50 ≤ (s.dev.eng n.val).capsCount ∧ (s.dev.eng
      n.val).partnerPd = true) ∧
    (∃ (n : Fin 33) (s : State) (rdo : _) (c : _), s.dev.pdTalks n.val = true ∧ (s.dev.eng n.val).source = true ∧ (s.dev.eng
      n.val).offered ≠ [] ∧ (s.dev.eng n.val).ams = .srcCaps ∧ rdo.getLsbD 26 = false ∧ requested (s.dev.eng n.val).offered rdo =
      some c) ∧
    (∃ (n : Fin 33) (s : State) (rdo : _), s.dev.pdTalks n.val = true ∧ (s.dev.eng n.val).source = true ∧ (s.dev.eng
      n.val).offered ≠ [] ∧ (s.dev.eng n.val).ams = .srcCaps ∧ rdo.getLsbD 26 = false ∧ requested (s.dev.eng n.val).offered rdo =
      none ∧ (s.dev.eng n.val).contract ≠ none) ∧
    (∃ (n : Fin 33) (s : State) (c : _), (s.dev.eng n.val).ams = .srcTransition c ∧ c.volt ≠ (s.dev.eng n.val).volt) ∧
    (∃ (n : Fin 33) (s : State) (c : _), (s.dev.eng n.val).ams = .srcTransition c ∧ c.volt = (s.dev.eng n.val).volt) ∧
    (∃ (n : Fin 33) (s : State) (c : _), (s.dev.eng n.val).ams = .srcWindow c) ∧
    (∃ (n : Fin 33) (s : State) (c : _), ((s.dev.eng n.val).ams = .srcVout c ∨ (s.dev.eng n.val).ams = .srcWindow c)) ∧
    (∃ (n : Fin 33) (s : State), s.dev.pdTalks n.val = true ∧ (s.dev.eng n.val).source = true ∧ (s.dev.eng n.val).ams = .idle) :=
  ⟨⟨31, stOf (e31 fun e => { e with ams := .srcCaps, capsCount := 49 }), by decide +kernel⟩,
    ⟨31, stOf (e31 fun e => { e with ams := .srcCaps, capsCount := 50 }), by decide +kernel⟩,
    ⟨31, stOf (e31 fun e => { e with ams := .srcCaps, offered := [0x0001912C] }), 0x1004B12C,
      { position := 1, volt := 250, current := 300, pps := false, ppsMin := 0 }, by decide +kernel⟩,
    ⟨31, stOf (e31 fun e => { e with ams := .srcCaps, offered := [0x0001912C], contract := some deal }), 0x1004B52D,
      by decide +kernel⟩,
    ⟨31, stOf (e31 fun e => { e with ams := .srcTransition { deal with volt := 450 } }), { deal with volt := 450 },
      by decide +kernel⟩,
    ⟨31, stOf (e31 fun e => { e with ams := .srcTransition deal }), deal, by decide +kernel⟩,
    ⟨31, stOf (e31 fun e => { e with ams := .srcWindow deal }), deal, by decide +kernel⟩,
    ⟨31, stOf (e31 fun e => { e with ams := .srcVout deal }), deal, by decide +kernel⟩,
    ⟨31, stOf (e31 id), by decide +kernel⟩⟩

theorem witness_RequestRule :
    (∃ (rdo : W32), bits rdo 28 4 = 0) ∧
    (∃ (offered : List W32) (rdo : W32), offered.length < bits rdo 28 4) ∧
    (∃ (offered : List W32) (rdo : W32) (p : _) (c : _), offered[bits rdo 28 4 - 1]? = some p ∧ bits p 30 2 = 0 ∧ requested
      offered rdo = some c) ∧
    (∃ (offered : List W32) (rdo : W32) (p : _), offered[bits rdo 28 4 - 1]? = some p ∧ bits p 30 2 = 0 ∧ bits p 0 10 < bits rdo
      10 10) :=
  ⟨⟨0, by decide +kernel⟩,
    ⟨[], 0x10000000, by decide +kernel⟩,
    ⟨[0x0001912C], 0x1004B12C, 0x0001912C, deal, by decide +kernel⟩,
    ⟨[0x0001912C], 0x1004B52D, 0x0001912C, by decide +kernel⟩⟩

theorem witness_SinkRows :
    (∃ (n : Fin 33) (s : State), s.dev.pdTalks n.val = true ∧ (s.dev.eng n.val).source = false ∧ (s.dev.eng n.val).ams = .idle) ∧
    (∃ (n : Fin 33) (s : State) (c : _), s.dev.pdTalks n.val = true ∧ (s.dev.eng n.val).ams = .snkRequest c ∧ c.volt = (s.dev.eng
      n.val).volt) ∧
    (∃ (n : Fin 33) (s : State) (c : _), s.dev.pdTalks n.val = true ∧ (s.dev.eng n.val).ams = .snkTransition c) ∧
    (∃ (n : Fin 33) (s : State), s.dev.pdTalks n.val = true ∧ (s.dev.eng n.val).source = false ∧ (s.dev.eng n.val).ams = .idle ∧
      s.dev.inPps n.val = true) :=
  ⟨⟨32, stOf (e32 id), by decide +kernel⟩,
    ⟨32, stOf (e32 fun e => { e with ams := .snkRequest deal }), deal, by decide +kernel⟩,
    ⟨32, stOf (e32 fun e => { e with ams := .snkTransition deal }), deal, by decide +kernel⟩,
    ⟨32, stOf (e32 fun e => { e with contract := some { deal with pps := true } }), by decide +kernel⟩⟩

theorem witness_SwapRows :
    (∃ (n : Fin 33) (s : State), s.dev.pdTalks n.val = true ∧ (s.dev.eng n.val).ams = .drSwapSent) ∧
    (∃ (n : Fin 33) (s : State), s.dev.pdTalks n.val = true ∧ (s.dev.eng n.val).ams = .prSwapSent ∧ (s.dev.eng n.val).source =
      true) ∧
    (∃ (n : Fin 33) (s : State), s.dev.pdTalks n.val = true ∧ (s.dev.eng n.val).ams = .prToSnkWait) ∧
    (∃ (n : Fin 33) (s : State) (pr : _), s.dev.pdTalks n.val = true ∧ (s.dev.eng n.val).retrySwap = some pr ∧ s.dev.swapAllowed
      n.val pr = true ∧ (s.dev.eng n.val).ams = .idle) ∧
    (∃ (n : Fin 33) (s : State),
      let a := s.dev.pdHeard n.val;
      s.dev.pdTalks n.val = true ∧ (a.eng n.val).ams = .idle ∧ a.pdDual n.val = true ∧ n.val < 32 ∧ (a.reg (aPdCfg
      n.val)).getLsbD 10 = true ∧ ((a.pdSay n.val .accept).eng n.val).source = (a.eng n.val).source ∧ (a.eng n.val).source =
      true) ∧
    (∃ (n : Fin 33) (s : State),
      let a := s.dev.pdHeard n.val;
      s.dev.pdTalks n.val = true ∧ (a.eng n.val).ams = .idle ∧ (a.reg (aPdCfg n.val)).getLsbD 9 = true ∧ a.isCoupler n.val =
      true) ∧
    (∃ (n : Fin 33) (s : State),
      let a := s.dev.pdHeard n.val;
      s.dev.pdTalks n.val = true ∧ (a.eng n.val).ams = .idle ∧ (a.reg (aPdCfg n.val)).getLsbD 9 = false) ∧
    (∃ (n : Fin 33) (s : State) (pr : _) (rest : _), s.dev.pdTalks n.val = true ∧ (s.dev.eng n.val).heldSwaps = pr :: rest ∧
      (s.dev.eng n.val).ams = .idle ∧ (s.dev.eng n.val).sinkTxOk = true ∧ s.dev.swapAllowed n.val pr = true) ∧
    (∃ (n : Fin 33) (s : State), s.dev.pdTalks n.val = true) :=
  ⟨⟨31, stOf (e31 fun e => { e with ams := .drSwapSent }), by decide +kernel⟩,
    ⟨31, stOf (e31 fun e => { e with ams := .prSwapSent }), by decide +kernel⟩,
    ⟨31, stOf (e31 fun e => { e with ams := .prToSnkWait }), by decide +kernel⟩,
    ⟨31, stOf (dual fun e => { e with retrySwap := some true }), true, by decide +kernel⟩,
    ⟨31, stOf (dual id), by dsimp only; decide +kernel⟩,
    ⟨3, stOf ((((up.updPort 3 fun p => { p with alloc := 3 }).setReg (aPdCfg 3) 0x6DB).updEng 3 fun e =>
      { e with tc := .attachedSrc, source := true, rev := 2 })), by dsimp only; decide +kernel⟩,
    ⟨31, stOf ((e31 id).setReg (aPdCfg 31) 3), by dsimp only; decide +kernel⟩,
    ⟨31, stOf (dual fun e => { e with heldSwaps := [true] }), true, ([] : List Bool), by decide +kernel⟩,
    ⟨31, stOf (e31 id), by decide +kernel⟩⟩

theorem witness_PdResetRows :
    (∃ (n : Fin 33) (s : State), s.dev.pdTalks n.val = true) ∧
    (∃ (n : Fin 33) (s : State) (c : _), s.dev.pdTalks n.val = true ∧ (s.dev.eng n.val).ams = .snkRequest c) ∧
    (∃ (n : Fin 33) (s : State), s.dev.pdTalks n.val = true ∧ (s.dev.eng n.val).ams = .softReset) ∧
    (∃ (n : Fin 33) (s : State), s.dev.pdTalks n.val = true ∧ (s.dev.eng n.val).source = true ∧ s.dev.inPps n.val = true) ∧
    (∃ (n : Fin 33) (s : State), (s.dev.eng n.val).ams = .hardSrcStart) ∧
    (∃ (n : Fin 33) (s : State), (s.dev.eng n.val).ams = .hardSrcRecover ∧ n.val < 32) ∧
    (∃ (n : Fin 33) (s : State), (s.dev.eng n.val).tc = .errorRecovery) :=
  ⟨⟨31, stOf (e31 id), by decide +kernel⟩,
    ⟨31, stOf (e31 fun e => { e with ams := .snkRequest deal }), deal, by decide +kernel⟩,
    ⟨31, stOf (e31 fun e => { e with ams := .softReset }), by decide +kernel⟩,
    ⟨31, stOf (e31 fun e => { e with contract := some { deal with pps := true } }), by decide +kernel⟩,
    ⟨31, stOf (e31 fun e => { e with ams := .hardSrcStart }), by decide +kernel⟩,
    ⟨31, stOf (e31 fun e => { e with ams := .hardSrcRecover }), by decide +kernel⟩,
    ⟨31, stOf (e31 fun e => { e with tc := .errorRecovery }), by decide +kernel⟩⟩

theorem witness_QuestionRows :
    (∃ (n : Fin 33) (s : State), s.dev.pdTalks n.val = true ∧ (s.dev.eng n.val).source = false) ∧
    (∃ (n : Fin 33) (s : State), s.dev.pdTalks n.val = true ∧ (s.dev.eng n.val).source = true ∧ s.dev.pdDual n.val = false) ∧
    (∃ (n : Fin 33) (s : State), s.dev.pdTalks n.val = true ∧ (s.dev.eng n.val).ams = .getSnkCap) ∧
    (∃ (n : Fin 33) (s : State), s.dev.pdTalks n.val = true ∧ (s.dev.eng n.val).source = true) ∧
    (∃ (n : Fin 33) (s : State), s.dev.pdTalks n.val = true ∧ (s.dev.eng n.val).source = true ∧ s.dev.inPps n.val = true) ∧
    (∃ (n : Fin 33) (s : State), s.dev.pdTalks n.val = true ∧ s.dev.inPps n.val = false) ∧
    (∃ (n : Fin 33) (s : State), s.dev.pdTalks n.val = true ∧ (s.dev.eng n.val).volt = 250) :=
  ⟨⟨32, stOf (e32 id), by decide +kernel⟩,
    ⟨31, stOf ((e31 id).setReg (aPdCfg 31) 3), by decide +kernel⟩,
    ⟨31, stOf (e31 fun e => { e with ams := .getSnkCap }), by decide +kernel⟩,
    ⟨31, stOf (e31 id), by decide +kernel⟩,
    ⟨31, stOf (e31 fun e => { e with contract := some { deal with pps := true } }), by decide +kernel⟩,
    ⟨31, stOf (e31 id), by decide +kernel⟩,
    ⟨32, stOf (e32 id), by decide +kernel⟩⟩

theorem witness_SupplyBusRows :
    (∃ (t : PsbTx) (s : State) (w : _), s.dev.psb.current = some t ∧ t.cmd = .vout w ∧ (s.dev.eng t.port).ams = .idle) ∧
    (∃ (t : PsbTx) (s : State), s.dev.psb.current = some t ∧ s.dev.psb.failures < 2) ∧
    (∃ (t : PsbTx) (s : State), s.dev.psb.current = some t ∧ 2 ≤ s.dev.psb.failures ∧ t.cmd = .readAlert ∧ t.transition = false) :=
  ⟨⟨{ port := 31, cmd := .vout 250, prio := 2, transition := true }, stOf ({ usb with psb :=
      { Psb.reset with current := some { port := 31, cmd := .vout 250, prio := 2, transition := true } } }), 250,
      by decide +kernel⟩,
    ⟨{ port := 31, cmd := .vout 250, prio := 2, transition := true }, stOf ({ usb with psb :=
      { Psb.reset with failures := 1, current := some { port := 31, cmd := .vout 250, prio := 2, transition := true } } }),
      by decide +kernel⟩,
    ⟨{ port := 31, cmd := .readAlert, prio := 3, transition := false }, stOf ({ usb with psb :=
      { Psb.reset with failures := 2, current := some { port := 31, cmd := .readAlert, prio := 3, transition := false } } }),
      by decide +kernel⟩⟩

theorem witness_InputSupplyRows :
    (∃ (s : State), s.dev.vinLow = false) ∧
    (∃ (s : State), s.dev.vinLow = true) ∧
    (∃ (n : Fin 33) (s : State), (s.dev.eng n.val).alertAgain = true ∧ s.dev.pdTalks n.val = true ∧ (s.dev.eng n.val).source =
      true ∧ (s.dev.eng n.val).contract ≠ none ∧ (s.dev.eng n.val).ams = .idle) ∧
    (∃ (n : Fin 33) (s : State), (s.dev.eng n.val).alertAgain = false) :=
  ⟨⟨stOf up, by decide +kernel⟩,
    ⟨stOf ({ up with vinLow := true }), by decide +kernel⟩,
    ⟨31, stOf (e31 fun e => { e with alertAgain := true, contract := some deal }), by decide +kernel⟩,
    ⟨31, stOf up, by decide +kernel⟩⟩

theorem witness_TripRows :
    (∃ (n : Fin 32) (s : State), (s.dev.reg (aEfuseCfg n.val)).getLsbD 7 = false ∧ (s.dev.fuse n.val).state = .on ∧ (s.dev.fuse
      n.val).gate = true) ∧
    (∃ (n : Fin 32) (s : State), (s.dev.reg (aEfuseCfg n.val)).getLsbD 7 = false ∧ (s.dev.fuse n.val).state = .inrush) ∧
    (∃ (n : Fin 32) (s : State), (s.dev.reg (aEfuseCfg n.val)).getLsbD 7 = true ∧ s.dev.fld (aEfuseRetry n.val) 16 4 = 0 ∧
      (s.dev.fuse n.val).state = .on ∧ (s.dev.fuse n.val).gate = true) ∧
    (∃ (n : Fin 32) (s : State), (s.dev.reg (aEfuseCfg n.val)).getLsbD 7 = true ∧ s.dev.fld (aEfuseRetry n.val) 16 4 = 0 ∧
      (s.dev.fuse n.val).state = .inrush) :=
  ⟨⟨31, stOf ((f31 fun f => { f with state := .on, gate := true }).setReg (aEfuseCfg 31) 0), by decide +kernel⟩,
    ⟨31, stOf ((f31 fun f => { f with state := .inrush }).setReg (aEfuseCfg 31) 0), by decide +kernel⟩,
    ⟨31, stOf ((f31 fun f => { f with state := .on, gate := true }).setReg (aEfuseCfg 31) 0x80), by decide +kernel⟩,
    ⟨31, stOf ((f31 fun f => { f with state := .inrush }).setReg (aEfuseCfg 31) 0x80), by decide +kernel⟩⟩

theorem witness_FuseRows :
    (∃ (n : Fin 32) (s : State), (s.dev.fuse n.val).state = .backoff) ∧
    (∃ (n : Fin 32) (d : Dev), (d.fuse n.val).state = .backoff ∧ (d.fuse n.val).backoffDone = true ∧ (d.fuse n.val).atZero =
      true) ∧
    (∃ (n : Fin 32) (s : State), ((s.dev.fuse n.val).pg = true ∨ (s.dev.eng n.val).tc = .unattachedSrc)) ∧
    (∃ (n : Fin 32) (s : State), (s.dev.fuse n.val).state = .inrush) ∧
    (∃ (n : Fin 32) (s : State), (s.dev.fuse n.val).pg = true ∧ (s.dev.eng n.val).ams = .idle) ∧
    (∃ (n : Fin 32) (s : State) (c : _), (s.dev.eng n.val).ams = .srcVout c) ∧
    (∃ (n : Fin 32) (s : State), (s.dev.fuse n.val).gate = false) ∧
    (∃ (n : Fin 32) (s : State), (s.dev.fuse n.val).dsch = true ∧ (s.dev.fuse n.val).gate = false) :=
  ⟨⟨31, stOf (f31 fun f => { f with state := .backoff }), by decide +kernel⟩,
    ⟨31, f31 fun f => { f with state := .backoff, backoffDone := true }, by decide +kernel⟩,
    ⟨31, stOf (f31 fun f => { f with pg := true }), by decide +kernel⟩,
    ⟨31, stOf (f31 fun f => { f with state := .inrush }), by decide +kernel⟩,
    ⟨31, stOf (f31 fun f => { f with pg := true }), by decide +kernel⟩,
    ⟨31, stOf (e31 fun e => { e with ams := .srcVout deal }), deal, by decide +kernel⟩,
    ⟨31, stOf (f31 fun f => { f with state := .inrush }), by decide +kernel⟩,
    ⟨31, stOf (f31 fun f => { f with dsch := true }), by decide +kernel⟩⟩

theorem witness_PressLinkRows :
    (∃ (x : Fin 4) (s : State), (s.dev.die x.val).linkUp = true) ∧
    (∃ (x : Fin 4) (s : State), (s.dev.die x.val).powered = true ∧ (s.dev.die x.val).lost = false) ∧
    (∃ (x : Fin 4) (s : State), (s.dev.die x.val).powered = true ∧ (s.dev.die x.val).safe = false) ∧
    (∃ (x : Fin 4) (s : State), (s.dev.die x.val).safe = true ∧ (s.dev.die x.val).powered = true ∧ (s.dev.die x.val).armed = true
      ∧ s.dev.fc.chipSafe = false ∧ (∀ j < 8, s.dev.portLevel (8 * x.val + j) < 3)) ∧
    (∃ (x : Fin 4) (s : State), (s.dev.die x.val).safe = true ∧ s.dev.fc.chipSafe = true) :=
  ⟨⟨3, stOf (up.setDie 3 { up.die 3 with linkUp := true }), by decide +kernel⟩,
    ⟨3, stOf (die3 fun x => { x with safe := false }), by decide +kernel⟩,
    ⟨3, stOf (die3 fun x => { x with safe := false }), by decide +kernel⟩,
    ⟨3, stOf (die3 fun x => { x with armed := true, safe := true }), by decide +kernel⟩,
    ⟨3, stOf ({ up.updDie 3 fun x => { x with safe := true } with fc := { up.fc with chipSafe := true } }), by decide +kernel⟩⟩

theorem witness_TripReportRows :
    (∃ (n : Fin 32) (s : State), (s.dev.fuse n.val).tripLine = true ∧ (s.dev.fuse n.val).trip ≠ none ∧ (s.dev.die (n.val /
      8)).linkUp = true ∧ (s.dev.die (n.val / 8)).lost = false ∧ s.dev.life ≠ .hibernate) ∧
    (∃ (n : Fin 32) (s : State) (t : _), (s.dev.fuse n.val).trip = some t ∧ (s.dev.die (n.val / 8)).linkUp = true ∧ (s.dev.fuse
      n.val).pendingTrip = true) ∧
    (∃ (n : Fin 32) (s : State), (s.dev.fuse n.val).pendingTrip = true) ∧
    (∃ (x : Fin 4) (s : State), (s.dev.die x.val).linkUp = true ∧ (s.dev.die x.val).powered = true ∧ (s.dev.die x.val).lost =
      false) :=
  ⟨⟨31, stOf (f31 fun f => { f with tripLine := true, trip := some ⟨1, 2, 3⟩ }), by decide +kernel⟩,
    ⟨31, stOf (f31 fun f => { f with pendingTrip := true, trip := some ⟨1, 2, 3⟩ }), ⟨1, 2, 3⟩, by decide +kernel⟩,
    ⟨31, stOf (f31 fun f => { f with pendingTrip := true }), by decide +kernel⟩,
    ⟨3, stOf up, by decide +kernel⟩⟩

theorem witness_CollectorRows :
    (∃ (s : State) (i : Fin 512), s.dev.up = true ∧ lineSource i.val = i.val ∧ (s.dev.src i.val).line = false ∧ s.dev.deafTo
      i.val = false) ∧
    (∃ (s : State) (i : Fin 512), s.dev.up = true ∧ lineSource i.val = i.val ∧ (s.dev.src i.val).line = true) ∧
    (∃ (s : State) (i : Fin 512), s.dev.up = true ∧ s.dev.staysAsserted i.val = true) ∧
    (∃ (s : State) (i : Fin 512), s.dev.up = true ∧ srcUsed i.val = true ∧ s.dev.deafTo i.val = false ∧ s.dev.staysAsserted i.val
      = false) ∧
    (∃ (s : State), s.dev.up = true ∧ s.dev.fc.copying = true ∧ s.dev.fc.event = none) :=
  ⟨⟨stOf up, 511, by decide +kernel⟩,
    ⟨stOf (up.setSrc 511 { Source.reset with line := true }), 511, by decide +kernel⟩,
    ⟨stOf (up.setSrc 13 { Source.reset with cause := true }), 13, by decide +kernel⟩,
    ⟨stOf up, 0, by decide +kernel⟩,
    ⟨stOf ({ up with fc := { up.fc with copying := true } }), by decide +kernel⟩⟩

theorem witness_CountingWindow :
    (∃ (cfg : W32) (now c ws : Nat), 1 ≤ bits cfg 0 16 ∧ c ≤ 255 ∧ c ≠ 0 ∧ now - ws < bits cfg 0 16) ∧
    (∃ (cfg : W32) (now c ws : Nat), 1 ≤ bits cfg 0 16 ∧ c ≤ 255 ∧ (c = 0 ∨ bits cfg 0 16 ≤ now - ws)) :=
  ⟨⟨0xFFFF, 65534, 255, 0, by decide +kernel⟩,
    ⟨0xFFFF, 65535, 255, 0, by decide +kernel⟩⟩

theorem witness_AssertionFrame :
    (∃ (i : Nat), srcUsed i = false) ∧
    (∃ (d : Dev), d.up = false) ∧
    (∃ (d : Dev) (lvl : _), d.watermark.valid = true ∧ d.fld aFcCfg 0 3 ≤ lvl) ∧
    (∃ (d : Dev) (lvl : _), lvl < d.fld aFcCfg 0 3) :=
  ⟨⟨511, by decide +kernel⟩,
    ⟨{ up with life := .reset }, by decide +kernel⟩,
    ⟨{ up with watermark := { Watermark.reset with valid := true } }, 4, by decide +kernel⟩,
    ⟨up.setReg aFcCfg 1, 0, by decide +kernel⟩⟩

theorem witness_GuardRows :
    (∃ (p : Path) (s : State) (v : W32), Safety.writes s.dev p ∧ bits v 0 16 = 0x5AC3) ∧
    (∃ (p : Path) (s : State) (v : W32), Safety.writes s.dev p ∧ bits v 0 16 ≠ 0x5AC3) ∧
    (∃ (s : State), s.dev.guard 0 = 1) ∧
    (∃ (s : State) (x : SubId), s.dev.guard (1 + x.toNat) = 1) :=
  ⟨⟨.spi, stOf up, 0x5AC3, by unfold Safety.writes; decide +kernel⟩,
    ⟨.spi, stOf up, 0x15AC2, by unfold Safety.writes; decide +kernel⟩,
    ⟨stOf (up.setGuard 0 1), by decide +kernel⟩,
    ⟨stOf (up.setGuard 1024 1), 1023, by decide +kernel⟩⟩

theorem witness_GuardedRows :
    (∃ (p : Path) (s : State) (i : BitVec 9), Safety.writes s.dev p ∧ Safety.unlocked s.dev p ∧ srcUsed i.toNat = true) ∧
    (∃ (p : Path) (s : State) (i : BitVec 9), Safety.writes s.dev p ∧ Safety.unlocked s.dev p ∧ srcUsed i.toNat = true ∧ srcChip
      i.toNat = false) ∧
    (∃ (p : Path) (s : State) (q : Fin 16384), Safety.writes s.dev p ∧ Safety.unlocked s.dev p ∧ sv0Queue q.val = false) :=
  ⟨⟨.spi, stOf (opened), 0, by unfold Safety.writes Safety.unlocked; decide +kernel⟩,
    ⟨.spi, stOf (opened), 64, by unfold Safety.writes Safety.unlocked; decide +kernel⟩,
    ⟨.spi, stOf (opened), 16383, by unfold Safety.writes Safety.unlocked; decide +kernel⟩⟩

theorem witness_GuardRefuses :
    (∃ (p : Path) (s : State) (i : BitVec 9), Safety.writes s.dev p ∧ ¬ Safety.unlocked s.dev p ∧ srcUsed i.toNat = true) ∧
    (∃ (p : Path) (s : State) (q : Fin 16384), Safety.writes s.dev p ∧ ¬ Safety.unlocked s.dev p ∧ sv0Queue q.val = false) :=
  ⟨⟨.spi, stOf up, 0, by unfold Safety.writes Safety.unlocked; decide +kernel⟩,
    ⟨.spi, stOf up, 16383, by unfold Safety.writes Safety.unlocked; decide +kernel⟩⟩

theorem witness_SafeStateWrites :
    ∃ (p : Path) (s : State), s.dev.pathServed p = true ∧ s.dev.fc.chipSafe = true ∧ (p = .spi → s.dev.halted = false) :=
  ⟨.sub 1023, stOf ({ up with fc := { up.fc with chipSafe := true } }), by decide +kernel⟩

theorem witness_PortControlRows :
    ∃ (p : Path) (s : State), Safety.writes s.dev p :=
  ⟨.spi, stOf up, by unfold Safety.writes; decide +kernel⟩

theorem witness_ControlRegisterRows :
    ∃ (p : Path) (s : State) (v : W32), Safety.writes s.dev p ∧ bits v 0 2 ≠ 3 ∧ s.dev.power.state ≠ .trim :=
  ⟨.spi, stOf up, 0x00020002, by unfold Safety.writes; decide +kernel⟩

theorem witness_ReamRows :
    (∃ (p : Path) (n : Fin 4) (v : W32) (s : State),
      let a := Safety.atWrite s.dev p;
      Safety.writes s.dev p ∧ (a.reamWrite n.val v).1 = true) ∧
    (∃ (p : Path) (n : Fin 4) (v : W32) (s : State),
      let a := Safety.atWrite s.dev p;
      Safety.writes s.dev p ∧ (a.reamWrite n.val v).1 = false) ∧
    (∃ (p : Path) (n : Fin 4) (v : W32) (s : State) (k : _),
      let a := Safety.atWrite s.dev p;
      Safety.writes s.dev p ∧ k ∈ a.ctxsWhere (fun _ => true) ∧ a.reamBase n.val ≤ k ∧ k < a.reamBase n.val + a.reamCount n.val ∧
      (k < bits v 0 14 ∨ bits v 0 14 + bits v 16 14 ≤ k)) :=
  ⟨⟨.spi, 3, 0x0BF823E8, stOf up, by unfold Safety.writes; dsimp only; decide +kernel⟩,
    ⟨.spi, 3, 0xFFFFFFFF, stOf up, by unfold Safety.writes; dsimp only; decide +kernel⟩,
    ⟨.spi, 3, 0, stOf (usb), 9193, by unfold Safety.writes; dsimp only; decide +kernel⟩⟩

theorem witness_MailboxRows :
    ∃ (s : State), Safety.writes s.dev .spi :=
  ⟨stOf up, by unfold Safety.writes; decide +kernel⟩

theorem witness_RegisterWriteRow :
    ∃ (p : Path) (a : BitVec 24) (v : W32) (i : RegInfo) (s : State), Safety.writes s.dev p ∧ quireAt a.toNat = none ∧ regInfo
      a.toNat = some i ∧ i.acts = false ∧ i.guarded = false ∧ i.rw ≠ 0 ∧ isMailbox a.toNat = false ∧ a.toNat ≠ aPwrCfg ∧ a.toNat
      ≠ aPwrSleep ∧ a.toNat ≠ aChainPos ∧ (a.toNat < 0x080010 ∨ 0x080020 ≤ a.toNat) ∧ (Safety.atWrite s.dev p).encJudge a.toNat v
      = true ∧ (i.group.any fun g => bit s.dev.pendingGroups g) = false :=
  ⟨.spi, 0x000044, 0x00200000, (regInfo 0x000044).getD (RegInfo.ro), stOf up, by unfold Safety.writes; decide +kernel⟩

theorem witness_PlainWrites :
    (∃ (i : RegInfo) (g : _), i.group = some g) ∧
    (∃ (d : Dev) (a : Nat) (i : RegInfo) (b : _), i.group = none ∧ wfTab resetValue d.regs = true ∧ b ≠ a) :=
  ⟨⟨{ RegInfo.ro with group := some 7 }, 7, by decide +kernel⟩,
    ⟨up, 0x010004, RegInfo.ro, 0x010008, by decide +kernel⟩⟩

theorem witness_QuireRows :
    (∃ (s : State) (k : Fin 64) (i : Fin 4), Safety.writes s.dev .spi ∧ Safety.unlocked s.dev .spi ∧ s.dev.wear (keyFirst k.val +
      i.val) < 1000000) ∧
    (∃ (s : State) (k : Fin 64), Safety.writes s.dev .spi ∧ Safety.unlocked s.dev .spi ∧ s.dev.wear (0x1C1 + 2 * k.val) <
      1000000) ∧
    (∃ (s : State), Safety.writes s.dev .spi ∧ Safety.unlocked s.dev .spi ∧ s.dev.wear 0x09B < 1000000) :=
  ⟨⟨stOf (opened), 63, 3, by unfold Safety.writes Safety.unlocked; decide +kernel⟩,
    ⟨stOf (opened), 63, by unfold Safety.writes Safety.unlocked; decide +kernel⟩,
    ⟨stOf (opened), by unfold Safety.writes Safety.unlocked; decide +kernel⟩⟩

theorem witness_U0Rows :
    (∃ (s : State) (v : BitVec 2), s.dev.u0Connects = true ∧ v ≠ 0 ∧ (s.dev.dead = true → v ≠ 3)) ∧
    (∃ (s : State), s.dev.u0Connects = true ∧ s.dev.u0.suspended = false) ∧
    (∃ (s : State), s.dev.u0Connects = true ∧ s.dev.u0.suspended = true ∧ (s.dev.func 4).waking = false) ∧
    (∃ (s : State), s.dev.up = true ∧ s.dev.u0.vbus = true ∧ s.dev.boot.ready.getLsbD 6 = true ∧ s.dev.fc.chipSafe = false) :=
  ⟨⟨stOf (hub id), 3, by decide +kernel⟩,
    ⟨stOf (hub id), by decide +kernel⟩,
    ⟨stOf (hub fun u => { u with suspended := true }), by decide +kernel⟩,
    ⟨stOf (hub id), by decide +kernel⟩⟩

theorem witness_HubRequestRow :
    (∃ (x : Setup) (s : State),
      let k : UsbKind := .function (if s.dev.u0.speed = 1 then 1 else 2) s.dev.u0Relay;
      let d := s.dev.updFunc 4 fun f => s.dev.stdRequest k f x;
      s.dev.u0Up = true ∧ s.dev.u0.suspended = false ∧ bits x.bmRequestType 5 2 = 0 ∧ ((s.dev.func 4).busReset = false ∨ (d.func
      4).busReset = true)) ∧
    (∃ (x : Setup) (s : State),
      let k : UsbKind := .function (if s.dev.u0.speed = 1 then 1 else 2) s.dev.u0Relay;
      let d := s.dev.updFunc 4 fun f => s.dev.stdRequest k f x;
      s.dev.u0Up = true ∧ s.dev.u0.suspended = false ∧ bits x.bmRequestType 5 2 = 0 ∧ (s.dev.func 4).busReset = true ∧ (d.func
      4).busReset = false) ∧
    (∃ (x : Setup) (s : State),
      let k : UsbKind := .function (if s.dev.u0.speed = 1 then 1 else 2) s.dev.u0Relay;
      let d := s.dev.updFunc 4 fun f => s.dev.stdRequest k f x;
      s.dev.u0Up = true ∧ s.dev.u0.suspended = false ∧ bits x.bmRequestType 5 2 = 0 ∧ (d.link 4).state ≠ .enumerating) ∧
    (∃ (x : Setup) (s : State), s.dev.u0Up = true ∧ s.dev.u0.suspended = false ∧ bits x.bmRequestType 5 2 ≠ 0) ∧
    (∃ (s : State), s.dev.u0Up = true ∧ s.dev.u0.suspended = false ∧ s.dev.hubPresented = true) ∧
    (∃ (s : State) (v : BitVec 16), s.dev.u0Up = true ∧ s.dev.u0.suspended = false ∧ v.toNat < 128) :=
  ⟨⟨⟨0, 5, 127, 0, 0⟩, stOf (hub id), by dsimp only; decide +kernel⟩,
    ⟨⟨0, 9, 1, 0, 0⟩, stOf ((hub id).updFunc 4 fun f => { f with addr := 1, busReset := true }), by dsimp only; decide +kernel⟩,
    ⟨⟨0, 5, 127, 0, 0⟩, stOf (hub id), by dsimp only; decide +kernel⟩,
    ⟨⟨0x40, 5, 127, 0, 0⟩, stOf (hub id), by decide +kernel⟩,
    ⟨stOf (hub id), by decide +kernel⟩,
    ⟨stOf (hub id), 127, by decide +kernel⟩⟩

theorem witness_TranslatorRows :
    (∃ (s : State) (n : Nat) (h : Fin 16) (periodic : Bool) (out : List Byte) (c e : Dev),
      let cls := if periodic then 2 else 5;
      let q := ttQueue (h.val + 1) periodic false;
      let d := s.dev.openQueue q cls 1 n n 0;
      let full : Prop := periodic = false ∧ 4 ≤ ((s.dev.hubPort (h.val + 1)).ttBuffers.filter fun b => !b.periodic).length;
      s.dev.portOfHub (h.val + 1) = some n ∧ s.dev.ttServes (h.val + 1) = true ∧ ¬ full ∧ d.takeClaim cls (d.segsFor q
      (out.length + 4)) = some c ∧ (c.dropClaim cls (d.segsFor q (out.length + 4))).enqueue 32 q ⟨5, false, true, 0, out⟩ = some
      e) ∧
    (∃ (s : State) (n : Nat) (h : Fin 16) (periodic : Bool) (out : List Byte),
      let cls := if periodic then 2 else 5;
      let q := ttQueue (h.val + 1) periodic false;
      let d := s.dev.openQueue q cls 1 n n 0;
      let full : Prop := periodic = false ∧ 4 ≤ ((s.dev.hubPort (h.val + 1)).ttBuffers.filter fun b => !b.periodic).length;
      s.dev.portOfHub (h.val + 1) = some n ∧ s.dev.ttServes (h.val + 1) = true ∧ (full ∨ d.takeClaim cls (d.segsFor q (out.length
      + 4)) = none)) ∧
    (∃ (s : State) (n : Nat) (h : Fin 16) (periodic : Bool) (b : TtBuffer), s.dev.portOfHub (h.val + 1) = some n ∧ s.dev.ttServes
      (h.val + 1) = true ∧ ((s.dev.hubPort (h.val + 1)).ttBuffers.find? fun b => b.periodic = periodic) = some b ∧ b.result =
      none) ∧
    (∃ (s : State) (n : Nat) (h : Fin 16) (periodic : Bool) (b : TtBuffer) (r : XactResult), s.dev.portOfHub (h.val + 1) = some n
      ∧ s.dev.ttServes (h.val + 1) = true ∧ ((s.dev.hubPort (h.val + 1)).ttBuffers.find? fun b => b.periodic = periodic) = some b
      ∧ b.result = some r ∧ (∀ pid seq l, r ≠ .data pid seq l)) ∧
    (∃ (s : State) (n : Nat) (h : Fin 16) (periodic : Bool) (b : TtBuffer) (pid : _) (seq : _) (l : _), s.dev.portOfHub (h.val +
      1) = some n ∧ s.dev.ttServes (h.val + 1) = true ∧ ((s.dev.hubPort (h.val + 1)).ttBuffers.find? fun b => b.periodic =
      periodic) = some b ∧ b.result = some (.data pid seq l)) ∧
    (∃ (s : State) (n : Nat) (k : Fin 15) (up : Bool) (p : List Byte) (e : Dev),
      let o := if up then 32 else n;
      let d := s.dev.openQueue (ssQueue o) 5 1 o o 0;
      s.dev.portOfHub (k.val + 1) = some n ∧ n < 8 ∧ s.dev.served n = true ∧ s.dev.hubPresented = true ∧ s.dev.u0.speed = 3 ∧
      s.dev.u0.suspended = false ∧ s.dev.u0.hub.config = 1 ∧ (s.dev.hubPort (k.val + 1)).status.getLsbD 1 = true ∧ (s.dev.hubPort
      (k.val + 1)).status.getLsbD 2 = false ∧ d.canClaim 5 (d.segsFor (ssQueue o) (p.length + 4)) = true ∧ d.enqueue (rqSs (if up
      then n else 8)) (ssQueue o) ⟨0, false, true, 0, p⟩ = some e) ∧
    (∃ (s : State) (n : Nat) (k : Fin 15) (up : Bool) (p : List Byte),
      let o := if up then 32 else n;
      let d := s.dev.openQueue (ssQueue o) 5 1 o o 0;
      s.dev.portOfHub (k.val + 1) = some n ∧ n < 8 ∧ s.dev.served n = true ∧ s.dev.hubPresented = true ∧ s.dev.u0.speed = 3 ∧
      s.dev.u0.suspended = false ∧ s.dev.u0.hub.config = 1 ∧ (s.dev.hubPort (k.val + 1)).status.getLsbD 1 = true ∧ (s.dev.hubPort
      (k.val + 1)).status.getLsbD 2 = false ∧ d.canClaim 5 (d.segsFor (ssQueue o) (p.length + 4)) = false) :=
  ⟨⟨stOf (ttWith []), 31, 15, true, [7], (((ttWith []).openQueue (ttQueue 16 true false) 2 1 31 31 0).takeClaim 2 1).getD up,
      (((((ttWith []).openQueue (ttQueue 16 true false) 2 1 31 31 0).takeClaim 2 1).getD up).dropClaim 2 1 |>.enqueue 32 (ttQueue
      16 true false) ⟨5, false, true, 0, [7]⟩).getD up,
      by dsimp only; (repeat' apply And.intro) <;> first | decide +kernel | exact got (x := up) (by decide +kernel)⟩,
    ⟨stOf (full (ttWith []) 2), 31, 15, true, [7], by dsimp only; decide +kernel⟩,
    ⟨stOf (ttWith [split]), 31, 15, true, split, by decide +kernel⟩,
    ⟨stOf (ttWith [{ split with result := some .ack }]), 31, 15, true, { split with result := some .ack }, .ack,
      by (repeat' apply And.intro) <;> first | decide +kernel | (intro _ _ _ h; cases h)⟩,
    ⟨stOf (ttWith [{ split with isIn := true, result := some (.data .data1 0 [7]) }]), 31, 15, true,
      { split with isIn := true, result := some (.data .data1 0 [7]) }, .data1, 0, [7], by decide +kernel⟩,
    ⟨stOf (ssHub), 7, 14, true, [7], ((ssHub.openQueue (ssQueue 32) 5 1 32 32 0).enqueue (rqSs 7) (ssQueue 32) ⟨0, false, true,
      0, [7]⟩).getD Machine.Dev.reset,
      by dsimp only; (repeat' apply And.intro) <;> first | decide +kernel | exact got (x := up) (by decide +kernel)⟩,
    ⟨stOf (full ssHub 5), 7, 14, true, [7], by dsimp only; decide +kernel⟩⟩

theorem witness_HubWakeRow :
    (∃ (k : Fin 15) (n : _) (s : State), s.dev.portOfHub (k.val + 1) = some n ∧ s.dev.hubPresented = true ∧ s.dev.served n = true
      ∧ s.dev.u0.hub.config = 1 ∧ s.dev.u0.suspended = true ∧ s.dev.u0.hub.remoteWake = true) ∧
    (∃ (k : Fin 15) (n : _) (s : State), s.dev.portOfHub (k.val + 1) = some n ∧ s.dev.hubPresented = true ∧ s.dev.served n = true
      ∧ s.dev.u0.hub.config = 1 ∧ s.dev.u0.suspended = true ∧ s.dev.u0.hub.remoteWake = false) ∧
    (∃ (k : Fin 15) (n : _) (s : State), s.dev.portOfHub (k.val + 1) = some n ∧ s.dev.hubPresented = true ∧ s.dev.served n = true
      ∧ s.dev.u0.hub.config = 1 ∧ s.dev.u0.suspended = false ∧ (s.dev.hubPort (k.val + 1)).status.getLsbD 2 = true) :=
  ⟨⟨14, 7, stOf (through fun u => { u with suspended := true, hub := { u.hub with remoteWake := true } }), by decide +kernel⟩,
    ⟨14, 7, stOf (through fun u => { u with suspended := true }), by decide +kernel⟩,
    ⟨14, 7, stOf ((through id).updHubPort 15 fun p => { p with status := 4 }), by decide +kernel⟩⟩

theorem witness_UfpRows :
    (∃ (n : Fin 4) (s : State), s.dev.ufpPresents n.val = true ∧ (s.dev.func n.val).suspended = false) ∧
    (∃ (n : Fin 4) (s : State), s.dev.ufpPresents n.val = true ∧ (s.dev.func n.val).suspended = true) :=
  ⟨⟨3, stOf (ufp id), by decide +kernel⟩,
    ⟨3, stOf (ufp fun f => { f with suspended := true }), by decide +kernel⟩⟩

theorem witness_ScanRow :
    (∃ (s : State), s.dev.life ≠ .unpowered ∧ s.dev.life ≠ .deadBattery ∧ s.dev.life ≠ .reset) ∧
    (∃ (s : State), s.dev.life ≠ .unpowered ∧ s.dev.life ≠ .deadBattery ∧ s.dev.life = .reset) :=
  ⟨⟨stOf up, by decide +kernel⟩,
    ⟨stOf ({ up with life := .reset }), by decide +kernel⟩⟩

end Sys2Proof.Tests
end

/-! # A packet that meets the checks of R100

One lemma per check of `Dev.arrive`, in the order of R100, each with its outcome: where the packet is discarded or refused, and
where it goes on to the next check. -/

namespace Sys2Proof.Machine

open Sys2Proof

section Checks

variable {d : Dev} {e : Entry} {p : List Byte} {rq : Request}

/-- The selector of a counter in class 0x10, the command path's (R407). -/
theorem selector_avvoset (kind inst : Nat) : selector 0x10 kind inst = 0x10000000 + kind * 65536 + inst := rfl

/-- Checks 1 to 4 fail: the packet is counted, and nothing else happens. -/
theorem arrive_badFrame {k : Nat} (hroute : d.servesRoute e.route = true) (hframe : d.frameFault e p = some k) :
    d.arrive e p = d.count (selector 0x10 k e.route.transport) := by
  simp only [Dev.arrive, hroute, if_true, Dev.ingress, hframe]

/-- Checks 1 to 6 pass: the request that the packet makes goes on to the replay rule. -/
theorem arrive_verified {key : Option Key} (hroute : d.servesRoute e.route = true) (hframe : d.frameFault e p = none)
    (hauth : d.verify e p = some key) : d.arrive e p = d.replayCheck e p (d.requestOf e p key) := by
  simp only [Dev.arrive, hroute, if_true, Dev.ingress, hframe, hauth]

/-- Check 7 passes at the executing chip: the counter is recorded, and the route follows the request (R106). -/
theorem replayCheck_fresh {x : Subscriber} (hhere : d.passesOn e p = false)
    (hfresh : (d.subr (pkSub p)).replay d.epoch (pkSeq p) = some x) :
    d.replayCheck e p rq =
      (d.setSubr (pkSub p) { x with route := some (e.route, pkSlot p, rq.key.isSome) }).police e p rq := by
  simp only [Dev.replayCheck, hhere, Bool.false_eq_true, if_false, hfresh]

/-- Check 8 passes: the bucket holds the charge. -/
theorem police_affords (htokens : d.affords (pkSub p) (chargeOf e p) = true) :
    d.police e p rq = d.judge e p (chargeOf e p) rq := by
  simp only [Dev.police, htokens, if_true]

/-- Check 10 fails after check 9 has passed: the request is refused with the status of the device's state. -/
theorem judge_stateStatus {n st : Nat} (hfields : fieldsOk p = true) (hstate : d.stateStatus p = some st) :
    d.judge e p n rq = d.refuse rq st := by
  simp only [Dev.judge, hfields, Bool.not_true, Bool.false_eq_true, if_false, hstate]

/-- A running device is not in dead-battery service. -/
theorem dead_of_up (hup : d.up = true) : d.dead = false := by
  have hlife : d.life = .running := of_decide_eq_true hup
  simp [Dev.dead, hlife]

/-- Check 10 on a reserved opcode (R8). -/
theorem stateStatus_reserved (hup : d.up = true) (hop : isOpcode (pkOpcode p) = false) :
    d.stateStatus p = some (if d.limp then stLimp else stUnsupported) := by
  simp only [Dev.stateStatus, dead_of_up hup, hop, Bool.false_eq_true, if_false, Bool.not_false, if_true]

end Checks

/-! Recording a replay counter leaves alone what check 10 and the request read. -/

@[simp] theorem up_setSubr (d : Dev) (k : Nat) (x : Subscriber) : (d.setSubr k x).up = d.up := rfl

@[simp] theorem requestOf_setSubr (d : Dev) (k : Nat) (x : Subscriber) (e : Entry) (p : List Byte) (key : Option Key) :
    (d.setSubr k x).requestOf e p key = d.requestOf e p key := rfl

/-- The row takes a packet with a reserved opcode as one that the SPI offers. -/
theorem exec_unsupportedOpcode {p : List Byte} {s : State} (hop : isOpcode (pkOpcode p) = false) :
    exec (.unsupportedOpcode p) s = .next { s with dev := s.dev.arrive (spiEntry s.straps) p } := by
  have hrow : exec (.unsupportedOpcode p) s = execUnsupportedOpcode p s := rfl
  rw [hrow, execUnsupportedOpcode, hop, State.next_eq]
  simp only [Bool.false_eq_true, if_false]

/-! ## Discarded frames and reserved opcodes -/

/-- A packet that fails checks 1 to 4 on a route that is served moves its counter alone (R100). -/
theorem badFramesCounted : Rows.BadFramesCounted := by
  intro d e p k hroute hframe
  rw [arrive_badFrame hroute hframe, selector_avvoset]

/-- A packet with a reserved opcode walks checks 1 to 9 and ends at check 10. -/
theorem unsupportedOpcodes : Rows.UnsupportedOpcodes := by
  intro p s x hup hroute hop e hframe hauth hhere hfresh d htokens hfields
  have hchecks : s.dev.arrive e p = d.refuse (d.requestOf e p none) (if d.limp then stLimp else stUnsupported) := calc
    s.dev.arrive e p = s.dev.replayCheck e p (s.dev.requestOf e p none) := arrive_verified hroute hframe hauth
    _ = d.police e p (s.dev.requestOf e p none) := replayCheck_fresh hhere hfresh
    _ = d.police e p (d.requestOf e p none) := by rw [requestOf_setSubr]
    _ = d.judge e p (chargeOf e p) (d.requestOf e p none) := police_affords htokens
    _ = _ := judge_stateStatus hfields (stateStatus_reserved ((up_setSubr ..).trans hup) hop)
  rw [Safety.gives, exec_unsupportedOpcode hop, ← hchecks, spiEntry]

/-- Settles O27: the checks of R100, one lemma each, take a bad frame to its counter and a reserved opcode to its refusal. -/
theorem requestRefused : Obligations.RequestRefused := ⟨badFramesCounted, unsupportedOpcodes⟩

end Sys2Proof.Machine

/-! # A port's presentation to its engine

When R18 holds, what a judgement of it does, and what becomes of a binding that is freed and of a device that goes. -/

namespace Sys2Proof.Machine

open Sys2Proof

section Presentation

variable {d : Dev} {n : Nat}

/-- The conditions of R18, one by one. -/
theorem r18_iff : d.r18 n = true ↔ d.up = true ∧ d.attachedFor n = true ∧
    ((d.eng n).source = false ∨ (d.eng n).givesUp = true ∨ (d.fuse n).pg = true) ∧ d.fc.chipSafe = false ∧
      d.isolated n = false := by
  simp [Dev.r18, and_assoc, or_assoc]

/-- Each condition of R18 that fails ends it. -/
theorem r18_lost (hlost : d.attachedFor n = false ∨ d.fc.chipSafe = true ∨ d.isolated n = true ∨
    ((d.eng n).source = true ∧ (d.eng n).givesUp = false ∧ (d.fuse n).pg = false)) : d.r18 n = false := by
  rw [← Bool.not_eq_true, r18_iff]
  rintro ⟨-, hatt, hvbus, hsafe, hiso⟩
  rcases hlost with h | h | h | ⟨hsrc, hgives, hpg⟩
  · simp [h] at hatt
  · simp [h] at hsafe
  · simp [h] at hiso
  · simp [hsrc, hgives, hpg] at hvbus

/-- The host engine serves the EMBEDDED ports as long as it runs. -/
theorem engineRuns_embedded (hemb : d.isEmbedded n = true) (hruns : d.boot.hostRuns = true) : d.engineRuns n = true := by
  simp [Dev.engineRuns, hemb, hruns]

/-- A port that has gained R18, and whose engine runs, is presented. -/
theorem presentJudged_gained (habsent : (d.port n).present = false) (hr18 : d.r18 n = true) (hruns : d.engineRuns n = true) :
    d.presentJudged n = ((d.updPort n fun p => { p with present := true }).portEvt n 0).presentTo n := by
  simp [Dev.presentJudged, habsent, hr18, hruns]

/-- A port that has lost R18 is withdrawn. -/
theorem presentJudged_lost (hpresent : (d.port n).present = true) (hr18 : d.r18 n = false) :
    d.presentJudged n = ((d.updPort n fun p => { p with present := false }).portEvt n 0).withdraw n := by
  simp [Dev.presentJudged, hpresent, hr18, Dev.withdrawn]

/-- A port that stands as R18 has it stays so. -/
theorem presentJudged_same (hsame : (d.port n).present = (d.r18 n && d.engineRuns n)) : d.presentJudged n = d := by
  simp [Dev.presentJudged, hsame]

/-- A sweep whose every step changes nothing changes nothing. -/
theorem forN_fixed {σ : Type} {k : Nat} {f : Nat → σ → σ} {a : σ} (hf : ∀ i < k, f i a = a) : forN k f a = a :=
  List.foldlRecOn (motive := (· = a)) (List.range k) _ rfl fun _ hb i hi => hb ▸ hf i (List.mem_range.1 hi)

/-- Where every port that is present meets R18, none is withdrawn. -/
theorem withdrawLost_none (hkept : ∀ m < 32, (d.port m).present = true → d.r18 m = true) : d.withdrawLost = d := by
  refine forN_fixed fun m hm => if_neg ?_
  simpa using hkept m hm

/-- The binding of a domain without one goes to the first port that waits. -/
theorem bindingFreed_waiting {dom : Nat} (hfree : d.binding dom = none) (hwait : d.firstWaiting dom = some n) :
    d.bindingFreed dom = d.enterResetting n := by
  simp only [Dev.bindingFreed, hfree, hwait]

/-- A port that loses its device while ENABLED is detached, and leaves ENABLED. -/
theorem disconnectSeen_enabled (hstate : (d.port n).state = .enabled) :
    d.disconnectSeen n = (d.detachPort n .disconnected).leftEnabled n := by
  simp [Dev.disconnectSeen, hstate]

/-- A port that loses its device before its reset is detached. -/
theorem disconnectSeen_connecting (hstate : (d.port n).state = .debounce ∨ (d.port n).state = .connected) :
    d.disconnectSeen n = d.detachPort n .disconnected := by
  rcases hstate with h | h
  · simp [Dev.disconnectSeen, h]
  · simp [Dev.disconnectSeen, h]

end Presentation

/-! ## The rows -/

/-- PRESENT_CHANGE judges R18 anew on its port. -/
theorem gives_presentChange (n : Fin 32) (s : State) : Safety.gives (.presentChange n) s (s.dev.presentJudged n.val) := rfl

/-- BINDING_RELEASE_RESET hands on the binding of its domain. -/
theorem gives_bindingReleaseReset (dom : Fin 4) (s : State) :
    Safety.gives (.bindingReleaseReset dom) s (s.dev.bindingFreed dom.val) := rfl

/-- DISCONNECT_SEEN takes the device from its port. -/
theorem gives_disconnectSeen (n : Fin 32) (s : State) : Safety.gives (.disconnectSeen n) s (s.dev.disconnectSeen n.val) := rfl

/-- A port follows R18 in both directions, and a sweep over ports that all meet it withdraws none. -/
theorem presentRow : Rows.PresentRow := by
  intro n s halloc
  have hemb : s.dev.isEmbedded n.val = true := by simp [Dev.isEmbedded, halloc]
  refine ⟨fun habsent hup hatt hvbus hsafe hiso hruns => ?_, fun hpresent hlost => ?_, fun hsame => ?_, withdrawLost_none⟩
  · have hr18 : s.dev.r18 n.val = true := r18_iff.2 ⟨hup, hatt, hvbus.imp_right .inr, hsafe, hiso⟩
    rw [← presentJudged_gained habsent hr18 (engineRuns_embedded hemb hruns)]
    exact gives_presentChange n s
  · rw [← presentJudged_lost hpresent (r18_lost hlost)]
    exact gives_presentChange n s
  · have hjudged := gives_presentChange n s
    rwa [presentJudged_same hsame] at hjudged

/-- A freed binding goes to the port that has waited longest, and a device that goes is detached (R188, R201, R275). -/
theorem bindingAndDetachRows : Rows.BindingAndDetachRows := by
  intro s
  refine ⟨fun dom n hfree hwait => ?_, fun n henabled => ?_, fun n hconnecting => ?_⟩
  · rw [← bindingFreed_waiting hfree hwait]
    exact gives_bindingReleaseReset dom s
  · rw [← disconnectSeen_enabled henabled]
    exact gives_disconnectSeen n s
  · rw [← disconnectSeen_connecting hconnecting]
    exact gives_disconnectSeen n s

/-- Settles O37: each judgement of R18 presents, withdraws or leaves its port; bindings and detaches follow their rows. -/
theorem presence : Obligations.Presence := ⟨presentRow, bindingAndDetachRows⟩

end Sys2Proof.Machine

/-! # The Press dies

The outcomes of a die's supply, its arming, its link and its safe pair, one lemma for each that the rows can have. -/

namespace Sys2Proof.Machine

open Sys2Proof

section Dies

variable {d : Dev} {x : Nat}

/-- A die's ports in the Unpowered column are its eight ports, each unpowered. -/
theorem diePorts_eq (x : Nat) (d : Dev) : Safety.diePorts x d = forN 8 (fun j a => a.portUnpowered (8 * x + j)) d := rfl

/-- A die loses its supply while the device does not run or the link is already down: nothing is asserted. -/
theorem pressLoss_unheard (hpowered : (d.die x).powered = true) (hdeaf : d.up = false ∨ (d.die x).linkUp = false) :
    d.pressLoss x = Safety.diePorts x
      (d.updDie x fun y => { y with powered := false, armed := false, linkUp := false, safe := true }) := by
  have hquiet : (d.up && (d.die x).linkUp) = false := Bool.and_eq_false_iff.2 hdeaf
  simp [Dev.pressLoss, hpowered, hquiet, diePorts_eq]

/-- A die loses its supply while the device runs and the link is up: PRESS_LINK is asserted with it. -/
theorem pressLoss_heard (hpowered : (d.die x).powered = true) (hup : d.up = true) (hlink : (d.die x).linkUp = true) :
    d.pressLoss x = Safety.diePorts x
      ((d.updDie x fun y => { y with powered := false, armed := false, linkUp := false, safe := true }).assert
        (srcPress x 0) 0) := by
  simp [Dev.pressLoss, hpowered, hup, hlink, diePorts_eq]

/-- A die that reports armed while its arming is awaited runs. -/
theorem pressArmed_awaited (hup : d.up = true) (hpowered : (d.die x).powered = true) (harmed : (d.die x).armed = false)
    (hlost : (d.die x).lost = false) :
    d.pressArmed x = ((d.updDie x fun z => { z with armed := true }).safeRun x).pressSettled := by
  simp [Dev.pressArmed, hup, hpowered, harmed, hlost]

/-- A die that has not reported armed in its time, while READY.PRESS waits for it, counts as lost. -/
theorem pressArmTimeout_awaited (hup : d.up = true) (harmed : (d.die x).armed = false) (hlost : (d.die x).lost = false)
    (hready : d.boot.ready.getLsbD 0 = false) :
    d.pressArmTimeout x = ((Safety.diePorts x (d.updDie x fun z => { z with lost := true, linkUp := false })).assert
      (srcPress x 1) 0).pressSettled := by
  have hwaits : d.isReady 0 = false := hready
  simp [Dev.pressArmTimeout, hup, harmed, hlost, hwaits, diePorts_eq]

/-- A READY bit that is set reads 1. -/
theorem setReady_getLsbD {i : Nat} (hi : i < 10) : (d.setReady i true).boot.ready.getLsbD i = true := by
  simp only [Dev.setReady, if_true, BitVec.getLsbD_or, BitVec.getLsbD_ofNat, hi, Nat.testBit_two_pow_self, decide_true,
    Bool.and_self, Bool.or_true]

/-- READY.PRESS follows once each die is armed or lost (R60). -/
theorem pressSettled_ready (hdies : ∀ y < 4, (d.die y).armed = true ∨ (d.die y).lost = true) :
    d.pressSettled.boot.ready.getLsbD 0 = true := by
  have hall : ((List.range 4).all fun y => (d.die y).armed || (d.die y).lost) = true := by
    simpa only [List.all_eq_true, List.mem_range, Bool.or_eq_true] using hdies
  rw [Dev.pressSettled, if_pos hall]
  exact setReady_getLsbD (by decide)

/-- A link that is lost while up raises PRESS_LINK. -/
theorem pressLinkLost_up (hlink : (d.die x).linkUp = true) :
    d.pressLinkLost x = (d.updDie x fun y => { y with linkUp := false }).assert (srcPress x 0) 0 := by
  simp only [Dev.pressLinkLost, hlink, if_true]

/-- A die that may run takes its ports out of the chip safe state (R381). -/
theorem safeRun_free (hsafe : (d.die x).safe = true) (hpowered : (d.die x).powered = true) (harmed : (d.die x).armed = true)
    (hchip : d.fc.chipSafe = false) (hlevels : ∀ j < 8, d.portLevel (8 * x + j) < 3) :
    d.safeRun x = forN 8 (fun j a =>
      let b := if (a.fuse (8 * x + j)).state = .held then a.gateOff (8 * x + j) else a
      if b.isDisabled (8 * x + j) then b else b.pdStart (8 * x + j)) (d.updDie x fun y => { y with safe := false }) := by
  have hall : ((List.range 8).all fun j => decide (d.portLevel (8 * x + j) < 3)) = true := by
    simpa only [List.all_eq_true, List.mem_range, decide_eq_true_eq] using hlevels
  simp only [Dev.safeRun, hsafe, hpowered, harmed, hchip, hall, Bool.not_false, Bool.and_self, if_true]

/-- CHIP_SAFE holds every die (R381, R382). -/
theorem safeRun_chipSafe (hchip : d.fc.chipSafe = true) : d.safeRun x = d := by
  simp [Dev.safeRun, hchip]

end Dies

/-! ## The rows -/

section DieRows

variable (x : Fin 4) (s : State)

/-- PRESS_SUPPLY_LOSS takes the supply from its die, and R18 is judged anew. -/
theorem sees_pressSupplyLoss : Safety.sees (.pressSupplyLoss x) s (s.dev.pressLoss x.val) := rfl

/-- PRESS_SUPPLY_RETURN powers a die that has no supply. -/
theorem gives_pressSupplyReturn : Safety.gives (.pressSupplyReturn x) s
    (if (s.dev.die x.val).powered then s.dev else s.dev.updDie x.val fun y => { y with powered := true, safe := true }) := rfl

/-- PRESS_ARMED is the report of its die. -/
theorem gives_pressArmed : Safety.gives (.pressArmed x) s (s.dev.pressArmed x.val) := rfl

/-- PRESS_ARM_TIMEOUT ends the wait for its die, and R18 is judged anew. -/
theorem sees_pressArmTimeout : Safety.sees (.pressArmTimeout x) s (s.dev.pressArmTimeout x.val) := rfl

/-- PRESS_LINK_LOSS takes the link of its die, and R18 is judged anew. -/
theorem sees_pressLinkLoss : Safety.sees (.pressLinkLoss x) s (s.dev.pressLinkLost x.val) := rfl

/-- PRESS_LINK_RESTORED brings up the link of a die that has its supply and is not lost. -/
theorem gives_pressLinkRestored : Safety.gives (.pressLinkRestored x) s
    (if (s.dev.die x.val).powered && !(s.dev.die x.val).lost then s.dev.updDie x.val fun y => { y with linkUp := true }
      else s.dev) := rfl

/-- SAFE_PAIR_SAFE acts on a die that has its supply and ran, and R18 is judged anew. -/
theorem sees_safePairSafe : Safety.sees (.safePairSafe x) s
    (if (s.dev.die x.val).powered && !(s.dev.die x.val).safe then s.dev.dieSafe x.val else s.dev) := rfl

/-- SAFE_PAIR_RUN lets its die run where it may. -/
theorem gives_safePairRun : Safety.gives (.safePairRun x) s (s.dev.safeRun x.val) := rfl

end DieRows

/-- The supply and the arming of a die (R51, R60, R61). -/
theorem pressRows : Rows.PressRows := by
  intro x s
  refine ⟨fun hpowered hdeaf => ?_, fun hpowered hup hlink => ?_, fun hunpowered => ?_, fun hup hpowered harmed hlost => ?_,
    fun hup harmed hlost hready => ?_, pressSettled_ready⟩
  · rw [← pressLoss_unheard hpowered hdeaf]
    exact sees_pressSupplyLoss x s
  · rw [← pressLoss_heard hpowered hup hlink]
    exact sees_pressSupplyLoss x s
  · simpa [hunpowered] using gives_pressSupplyReturn x s
  · rw [← pressArmed_awaited hup hpowered harmed hlost]
    exact gives_pressArmed x s
  · rw [← pressArmTimeout_awaited hup harmed hlost hready]
    exact sees_pressArmTimeout x s

/-- The link and the safe pair of a die (R12, R14, R381). -/
theorem pressLinkRows : Rows.PressLinkRows := by
  intro x s
  refine ⟨fun hlink => ?_, fun hpowered hlost => ?_, fun hpowered hrun => ?_,
    fun hsafe hpowered harmed hchip hlevels => ?_, fun _ hchip => ?_⟩
  · rw [← pressLinkLost_up hlink]
    exact sees_pressLinkLoss x s
  · simpa [hpowered, hlost] using gives_pressLinkRestored x s
  · simpa [hpowered, hrun, Dev.dieSafe] using sees_safePairSafe x s
  · rw [← safeRun_free hsafe hpowered harmed hchip hlevels]
    exact gives_safePairRun x s
  · have hheld := gives_safePairRun x s
    rwa [safeRun_chipSafe hchip] at hheld

/-- Settles O50: each row of a Press die gives its outcome of R12, R14, R51, R60, R61 or R381. -/
theorem pressDies : Obligations.PressDies := ⟨pressRows, pressLinkRows⟩

end Sys2Proof.Machine

/-! # What a command leaves alone

Every command but the two that sample the straps answers the state with a new device, and every command but the named ones
keeps the base of the device: its life, its JTAG port and what VIN_MON says. -/

namespace Sys2Proof.Machine

open Sys2Proof

/-! ## The straps (R43) -/

/-- The commands that sample the straps. -/
def samplesStraps : Instr → Bool
  | .powerOn _ | .resetNRelease _ _ => true
  | _ => false

/-- A command that does not sample the straps answers the state with a new device: queue and straps stand. -/
theorem exec_eq_next {i : Instr} (s : State) (hi : samplesStraps i = false) : ∃ d, exec i s = .next { s with dev := d } := by
  cases i with
  | powerOn _ => cases hi
  | resetNRelease _ _ => cases hi
  | _ => exact ⟨_, rfl⟩

/-- A command that does not sample the straps keeps them. -/
theorem exec_straps {i : Instr} {s t : State} (hi : samplesStraps i = false) (h : exec i s = .next t) :
    t.straps = s.straps := by
  obtain ⟨d, hd⟩ := exec_eq_next s hi
  cases hd.symm.trans h
  rfl

/-- POWER_ON releases power-on reset with the straps it samples. -/
theorem exec_powerOn (st : Straps) (cs : Bool) (s : State) :
    exec (.powerOn ⟨st, cs⟩) s = .next { s with straps := st, dev := s.dev.powerOnRow st cs } := rfl

/-- RESET_N_RELEASE releases a main die in reset with the straps it samples. -/
theorem exec_resetNRelease (st : Straps) (cs : Bool) {s : State} (hreset : s.dev.life = .reset) :
    exec (.resetNRelease st cs) s = .next { s with straps := st, dev := s.dev.resetNRelease st cs } := if_pos hreset

/-- RESET_N_RELEASE changes nothing on a main die that is not in reset. -/
theorem exec_resetNRelease_idle (st : Straps) (cs : Bool) {s : State} (hlife : s.dev.life ≠ .reset) :
    exec (.resetNRelease st cs) s = .next s := if_neg hlife

/-- The STRAPS register shows each strap in its own bits. -/
theorem strapsWord_bits (st : Straps) (dead : Bool) :
    bits (strapsWord st dead) 0 4 = st.cfg.toNat ∧ (strapsWord st dead).getLsbD 4 = st.u0Db ∧
      (strapsWord st dead).getLsbD 5 = st.cplDb := by
  obtain ⟨cfg, u0Db, cplDb, testEn⟩ := st
  decide +revert

/-- STRAPS stands at offset 4 of the Global block. -/
theorem readReg_straps (d : Dev) (st : Straps) (spi : Bool) : (d.readReg st spi 4).1 = strapsWord st d.dead := rfl

/-- Settles O3: a command that is neither POWER_ON nor RESET_N_RELEASE answers with the straps it was given. -/
theorem strapsSampledAtReset : Obligations.StrapsSampledAtReset := by
  refine ⟨fun st cs s => ⟨_, exec_powerOn st cs s, rfl⟩, fun st cs s hreset => ⟨_, exec_resetNRelease st cs hreset, rfl⟩,
    fun d st spi => ?_, fun i s t h hchange => ?_⟩
  · rw [readReg_straps]
    exact strapsWord_bits st d.dead
  · cases i with
    | powerOn p =>
      cases (exec_powerOn p.straps p.csLow s).symm.trans h
      exact .inl ⟨p.straps, p.csLow, rfl, rfl⟩
    | resetNRelease st cs =>
      by_cases hreset : s.dev.life = .reset
      · cases (exec_resetNRelease st cs hreset).symm.trans h
        exact .inr ⟨st, cs, rfl, hreset, rfl⟩
      · cases (exec_resetNRelease_idle st cs hreset).symm.trans h
        exact absurd rfl hchange
    | _ => exact absurd (exec_straps rfl h) hchange

/-! ## The rows that keep the base of the device -/

/-- An opcode's row keeps what the execution of its request keeps. -/
theorem opcodeRow_base {d : Dev} {k : ReqKey} {o : Nat} {mine : List Byte → Bool} {run : Request → Dev → Dev}
    (hrun : ∀ rq a, (run rq a).kept.base = a.kept.base) : (d.opcodeRow k o mine run).kept.base = d.kept.base := by
  unfold Dev.opcodeRow
  split
  · refine base_ite (base_ite (by simp) ?_) rfl
    split
    · simp
    · exact hrun _ _
  · rfl

/-- A row that answers with a device of the same base keeps it. -/
theorem base_of_row {i : Instr} {s t : State} {d : Dev} (hrow : exec i s = .next { s with dev := d })
    (hd : d.kept.base = s.dev.kept.base) (h : exec i s = .next t) : t.dev.kept.base = s.dev.kept.base := by
  cases hrow.symm.trans h
  exact hd

/-- The commands that may change a part of the base: the life, the JTAG port, or what VIN_MON says of the input supply. -/
def changesBase : Instr → Bool
  | .boundaryScan _ _ | .vinMonFall | .vinMonRise => true
  | i => Safety.changesLife i

/-- Every other command keeps the base: the operations of each row do, by their lemmas in Laws/Kept*. -/
theorem exec_base {i : Instr} {s t : State} (h : exec i s = .next t) (hi : changesBase i = false) :
    t.dev.kept.base = s.dev.kept.base := by
  cases i with
  | powerOn _ | railTrip | resetNAssert | resetNRelease _ _ | chipResetStart | deadBatteryEntry _ | deadBatteryVbusLoss
  | hibernateEntry | warmStart _ | boundaryScan _ _ | vinMonFall | vinMonRise => cases hi
  -- rows that run an act handed to them
  | regWr _ _ | regRd _ _ _ | rdStatus | pktWr _ | pktRd _ _ | badInstr _ =>
    exact base_of_row rfl (by simp [Dev.spiStep_kept, apply_ite Dev.kept]) h
  | otherFrame _ => exact base_of_row rfl (by simp [Dev.frameStarts_kept, apply_ite Dev.kept]) h
  | resetFrame _ _ | creditFrame _ _ | unknownLinkFrame _ _ => exact base_of_row rfl (by simp [Dev.rxControl_kept]) h
  | consumedFrameMove _ =>
    refine base_of_row rfl (congrArg Kept.base ?_) h
    exact (Dev.vatAlarms_kept _).trans (kept_forN (fun _ _ => Dev.moveConsumed_kept ..) rfl)
  -- rows that read what waits
  | readyAnswer _ | readyWaitExpiry _ | portResetTimeout _ | chainSetApply _ | psbTransactionTimeout | keySlotErase _ _ =>
    refine base_of_row rfl ?_ h
    split <;> simp [apply_ite Dev.kept]
  -- opcodes that are answered by what a lookup gives
  | regRead _ | wideRead _ | statsRead _ =>
    refine base_of_row rfl (opcodeRow_base fun _ _ => ?_) h
    dsimp only
    split <;> simp
  | controlXfer _ | bulkOut _ | bulkIn _ | endpointClose _ | endpointCloseDevice _ | unsubscribe _ | periodicWrite _ =>
    refine base_of_row rfl (opcodeRow_base fun _ _ => ?_) h
    split <;> simp [apply_ite Dev.kept]
  | sheetRead _ =>
    refine base_of_row rfl ((congrArg Kept.base (Dev.vatAlarms_kept _)).trans (opcodeRow_base fun _ _ => ?_)) h
    split <;> simp [apply_ite Dev.kept]
  | endpointOpen _ =>
    refine base_of_row rfl (opcodeRow_base fun _ _ => base_ite (by simp) (base_ite (by simp) ?_)) h
    split <;> simp
  | subscribe _ =>
    refine base_of_row rfl (opcodeRow_base fun _ _ => ?_) h
    dsimp only
    split
    · simp
    · simp
    · split <;> simp
  -- plain rows and plain opcodes
  | _ => exact base_of_row rfl (by simp [opcodeRow_base, apply_ite Dev.kept, apply_ite Kept.base, base_eta]) h

/-- Devices of one base have one life. -/
theorem life_of_base {a b : Dev} (h : a.kept.base = b.kept.base) : a.life = b.life := congrArg KeptBase.life h

/-! ## The rows that change the base -/

/-- BOUNDARY_SCAN answers with a device. -/
theorem gives_boundaryScan (c : JtagInstr) (data : List Bool) (s : State) :
    Safety.gives (.boundaryScan c data) s (s.dev.boundaryScan c data) := rfl

/-- A scan keeps the life. -/
theorem boundaryScan_life (d : Dev) (c : JtagInstr) (data : List Bool) : (d.boundaryScan c data).life = d.life := by
  unfold Dev.boundaryScan
  split
  · rfl
  · dsimp only
    split <;> rfl

/-- VIN_MON_FALL changes of the base what VIN_MON says alone. -/
theorem exec_vinMonFall_base {s t : State} (h : exec .vinMonFall s = .next t) :
    ∃ low, t.dev.kept.base = { s.dev.kept.base with vinLow := low } := by
  cases h
  rw [Dev.withdrawLost_kept]
  split
  · exact ⟨s.dev.vinLow, rfl⟩
  · exact ⟨true, by rw [Dev.startWake_kept, Dev.assert_kept, Dev.inputWarn_kept, Dev.queueAlerts_kept]; rfl⟩

/-- VIN_MON_RISE changes of the base what VIN_MON says alone. -/
theorem exec_vinMonRise_base {s t : State} (h : exec .vinMonRise s = .next t) :
    ∃ low, t.dev.kept.base = { s.dev.kept.base with vinLow := low } := by
  cases h
  split
  · exact ⟨false, by rw [Dev.startWake_kept, Dev.inputWarn_kept, Dev.queueAlerts_kept]; rfl⟩
  · exact ⟨s.dev.vinLow, rfl⟩

/-- Settles O4: the rows that are not named keep the base of the device but for the JTAG port and VIN_MON. -/
theorem lifeFrame : Obligations.LifeFrame := by
  intro i s t h hi
  cases i with
  | boundaryScan c data =>
    cases (gives_boundaryScan c data s).symm.trans h
    exact boundaryScan_life s.dev c data
  | vinMonFall =>
    obtain ⟨low, hbase⟩ := exec_vinMonFall_base h
    exact congrArg KeptBase.life hbase
  | vinMonRise =>
    obtain ⟨low, hbase⟩ := exec_vinMonRise_base h
    exact congrArg KeptBase.life hbase
  | _ => exact life_of_base (exec_base h hi)

end Sys2Proof.Machine

/-! # Supplies, resets and dead-battery service

What a reset of the main die leaves, what its release starts, and the rows that hold the die in reset or let it go. -/

namespace Sys2Proof.Machine

open Sys2Proof

section Resets

variable {d : Dev}

/-- A sweep each of whose steps stays within a form stays within it. -/
theorem forEach_within {α σ τ : Type} {f : α → σ → σ} (g : τ → σ) (l : List α) (hf : ∀ i x, ∃ y, f i (g x) = g y)
    (x : τ) : ∃ y, forEach l f (g x) = g y := by
  induction l generalizing x with
  | nil => exact ⟨x, rfl⟩
  | cons i l ih =>
    obtain ⟨y, hy⟩ := hf i x
    rw [forEach, List.foldl_cons, hy]
    exact ih y

/-- Writes to the table of dies change that table alone. -/
theorem forN_setDie (n : Nat) (f : Nat → Die) (b : Dev) :
    ∃ x, forN n (fun i a => a.setDie i (f i)) b = { b with dies := x } :=
  forEach_within (fun x => ({ b with dies := x } : Dev)) (List.range n) (fun _ _ => ⟨_, rfl⟩) b.dies

/-- Writes to the table of fuses change that table alone. -/
theorem forN_setFuse (n : Nat) (f : Nat → Fuse) (b : Dev) :
    ∃ x, forN n (fun i a => a.setFuse i (f i)) b = { b with fuses := x } :=
  forEach_within (fun x => ({ b with fuses := x } : Dev)) (List.range n) (fun _ _ => ⟨_, rfl⟩) b.fuses

/-- Writes to the slots of the collector change the collector alone. -/
theorem forEach_setSrc (l : List Nat) (f : Nat → Source) (b : Dev) :
    ∃ x, forEach l (fun i a => a.setSrc i (f i)) b = { b with fc := x } :=
  forEach_within (fun x => ({ b with fc := x } : Dev)) l (fun _ _ => ⟨_, rfl⟩) b.fc

/-- The Press dies after a reset differ in dies, fuses and engines alone. -/
theorem coldDies_eq (b : Dev) : ∃ x y z, d.coldDies b = { b with dies := x, fuses := y, pd := z } := by
  obtain ⟨x, hx⟩ := forN_setDie 4 (fun i => (d.die i).afterReset) b
  obtain ⟨y, hy⟩ := forN_setFuse 32 (fun i => (d.fuse i).afterReset) { b with dies := x }
  unfold Dev.coldDies
  dsimp only
  rw [hx, hy]
  exact ⟨x, y, _, rfl⟩

/-- A cold reset of the main die is the blank device, but for what the dies, the fuses, the engines and the collector show. -/
theorem mainReset_eq {k : MainReset} (hk : k ≠ .warm) :
    ∃ x y z w, d.mainReset k = { d.blank k with dies := x, fuses := y, pd := z, fc := w } := by
  obtain ⟨x, y, z, hcold⟩ := coldDies_eq (d := d) (d.blank k)
  obtain ⟨w, hsrc⟩ := forEach_setSrc (d.fc.src.map Prod.fst) d.sourceReset (d.coldDies (d.blank k))
  unfold Dev.mainReset
  simp only [hk, if_false]
  split
  · exact ⟨x, y, z, _, hcold⟩
  · exact ⟨x, y, z, w, by rw [hsrc, hcold]⟩

/-- A cold reset leaves a cold device that keeps the flash and the Quire words, whatever its life and U0 are set to. -/
theorem mainReset_cold {k : MainReset} (hk : k ≠ .warm) (life : Life) (u0 : U0) :
    let b : Dev := { d.mainReset k with life := life, u0 := u0 }
    Safety.cold b ∧ b.flash = d.flash ∧ b.quire.words = d.quire.words ∧
      b.watermark = (if k = .powerOn then Watermark.reset else d.watermark) := by
  obtain ⟨x, y, z, w, h⟩ := mainReset_eq (d := d) hk
  rw [h]
  exact ⟨⟨rfl, rfl, rfl, rfl, rfl, rfl, rfl, rfl, rfl, rfl, rfl, rfl⟩, rfl, rfl, rfl⟩

/-- A cold reset empties the boot record and leaves the maintenance state. -/
theorem mainReset_kept {k : MainReset} (hk : k ≠ .warm) :
    (d.mainReset k).kept = { d.kept with boot := Boot.reset, maint := false } := by
  obtain ⟨x, y, z, w, h⟩ := mainReset_eq (d := d) hk
  rw [h]
  rfl

/-- A warm start begins bring-up anew as a warm one (R313). -/
theorem mainReset_warm_kept : (d.mainReset .warm).kept = { d.kept with boot := { Boot.reset with warm := true } } := by
  unfold Dev.mainReset Dev.keepWarm
  simp only [if_true, reduceCtorEq, if_false]
  refine kept_forEach (fun _ _ => Dev.setSrc_kept ..) ?_
  exact kept_forN (fun _ _ => Dev.setDie_kept ..) (kept_forN (fun _ _ => Dev.setPort_kept ..) rfl)

/-- What is kept, with another life. -/
def Kept.withLife (k : Kept) (life : Life) : Kept := { k with base := { k.base with life := life } }

/-- A change of the life and the power. -/
theorem kept_with (d : Dev) (life : Life) (power : Power) :
    ({ d with life := life, power := power } : Dev).kept = d.kept.withLife life := rfl

/-- A Quire write that is cut off leaves the flash alone. -/
theorem quireCut_flash : d.quireCut.flash = d.flash := congrArg Kept.flash (Dev.quireCut_kept d)

/-- Where no Quire write runs, none is cut off. -/
theorem quireCut_idle (hidle : d.quire.busy = none) : d.quireCut = d := by simp only [Dev.quireCut, hidle]

/-- Bring-up sets the part running and keeps the boot record and the flash. -/
theorem bringUp_kept : d.bringUp.kept = d.kept.withLife .running := Dev.causesAgain_kept _

/-- `TEST_EN` holds the device in reset; else bring-up starts (R47). -/
theorem released_kept (st : Straps) :
    (d.released st).kept = d.kept.withLife (if st.testEn then .testHold else .running) := by
  unfold Dev.released
  split
  · rfl
  · exact (Dev.strapCheck_kept ..).trans bringUp_kept

end Resets

/-! ## The rows of a reset (R48, R49, R77, R78) -/

/-- RAIL_TRIP holds a supplied main die in reset. -/
theorem gives_railTrip {s : State} (hsup : s.dev.life ≠ .unpowered) (hdead : s.dev.life ≠ .deadBattery) :
    Safety.gives .railTrip s { s.dev.quireCut.mainReset .powerOn with life := .reset } := by
  have hrow : Safety.gives .railTrip s s.dev.railTrip := rfl
  simpa [Dev.railTrip, hsup, hdead, Dev.dead] using hrow

/-- RESET_N_ASSERT holds a supplied main die in reset. -/
theorem gives_resetNAssert {s : State} (hsup : s.dev.life ≠ .unpowered) (hdead : s.dev.life ≠ .deadBattery) :
    Safety.gives .resetNAssert s { s.dev.mainReset .resetN with life := .reset } := by
  have hrow : Safety.gives .resetNAssert s s.dev.resetNAssert := rfl
  simpa [Dev.resetNAssert, hsup, hdead, Dev.dead] using hrow

/-- A lost supply and RESET_N leave a cold device; the Watermark outlives RESET_N alone. -/
theorem resetRows : Rows.ResetRows := by
  intro s hsup hdead
  refine ⟨fun hidle => ⟨_, gives_railTrip hsup hdead, rfl, ?_⟩, ⟨_, gives_resetNAssert hsup hdead, rfl, ?_⟩⟩
  · rw [quireCut_idle hidle]
    exact mainReset_cold (by decide) .reset _
  · exact mainReset_cold (by decide) .reset _

/-! ## The rows of a release (R43, R47, R49, R60, R313) -/

/-- Power-on empties the boot record and keeps the flash. -/
theorem powerOnRow_kept (d : Dev) (st : Straps) (cs : Bool) : (d.powerOnRow st cs).kept =
    { d.kept with boot := Boot.reset, maint := false }.withLife (if st.testEn then .testHold else .running) := by
  rw [Dev.powerOnRow, released_kept, Dev.spiIgnores_kept, mainReset_kept (by decide), Dev.quireCut_kept]

/-- The release of RESET_N keeps the boot record and the flash. -/
theorem resetNRelease_kept (d : Dev) (st : Straps) (cs : Bool) : (d.resetNRelease st cs).kept =
    d.kept.withLife (if st.testEn then .testHold else .running) := by
  rw [Dev.resetNRelease, released_kept, Dev.spiIgnores_kept]

/-- A wake source of HIBERNATE starts bring-up anew as a warm one (R312, R313). -/
theorem warmStart_kept {d : Dev} {src : WakeSrc} (hlife : d.life = .hibernate)
    (hsrc : src = .ccOrPd ∨ src = .vinMon ∨ src = .beatIn ∨ src = .msCsN) :
    (d.warmStart src).kept = { d.kept with boot := { Boot.reset with warm := true } }.withLife .running := by
  have hwakes : [WakeSrc.ccOrPd, .vinMon, .beatIn, .msCsN].contains src = true := by
    rcases hsrc with rfl | rfl | rfl | rfl <;> rfl
  simp only [Dev.warmStart, hlife, hwakes, decide_true, Bool.and_self, if_true]
  rw [Dev.flag_kept, bringUp_kept, kept_with, mainReset_warm_kept]
  rfl

/-- The releases of a reset, and the warm start. -/
theorem releaseRows : Rows.ReleaseRows := by
  intro st cs s
  refine ⟨⟨_, exec_powerOn st cs s, rfl, rfl, ?_⟩, fun hreset => ⟨_, exec_resetNRelease st cs hreset, rfl, rfl, ?_⟩,
    fun src hlife hsrc => ⟨s.dev.warmStart src, rfl, ?_⟩⟩
  · have hkept := powerOnRow_kept s.dev st cs
    have hboot := congrArg Kept.boot hkept
    exact ⟨congrArg (fun k : Kept => k.base.life) hkept, congrArg Boot.ready hboot, congrArg Boot.state hboot,
      congrArg Kept.flash hkept⟩
  · have hkept := resetNRelease_kept s.dev st cs
    exact ⟨congrArg (fun k : Kept => k.base.life) hkept, congrArg Kept.boot hkept, congrArg Kept.flash hkept⟩
  · have hkept := warmStart_kept hlife hsrc
    exact ⟨congrArg (fun k : Kept => k.base.life) hkept, congrArg Kept.boot hkept, congrArg Kept.flash hkept⟩

/-! ## Dead-battery service (R55 to R58) -/

/-- DEAD_BATTERY_ENTRY starts the service of a part without rails whose `U0_DB` is strapped. -/
theorem gives_deadBatteryEntry {s : State} (hdown : s.dev.life = .unpowered ∨ s.dev.life = .reset) :
    Safety.gives (.deadBatteryEntry false) s
      { s.dev.mainReset .powerOn with life := .deadBattery, u0 := { U0.reset with vbus := true } } := by
  have hrow : Safety.gives (.deadBatteryEntry false) s (s.dev.deadEntry false) := rfl
  simpa [Dev.deadEntry, hdown] using hrow

/-- DEAD_BATTERY_VBUS_LOSS ends the service. -/
theorem gives_deadBatteryVbusLoss {s : State} (hdead : s.dev.life = .deadBattery) :
    Safety.gives .deadBatteryVbusLoss s
      { s.dev.quireCut.mainReset .powerOn with life := .unpowered, u0 := U0.reset } := by
  have hrow : Safety.gives .deadBatteryVbusLoss s s.dev.deadLoss := rfl
  simpa [Dev.deadLoss, hdead, Dev.dead] using hrow

/-- U0_VBUS_CHANGE on board supplies notes U0's VBUS; its loss ends U0's connection while the part runs. -/
theorem gives_u0VbusChange {s : State} (present : Bool) (hdead : s.dev.life ≠ .deadBattery) :
    Safety.gives (.u0VbusChange present) s
      (let d := { s.dev with u0 := { s.dev.u0 with vbus := present } }
       if present = true ∨ s.dev.life ≠ .running then d else d.u0Off.pdDetach 32) := by
  have hrow : Safety.gives (.u0VbusChange present) s (s.dev.u0VbusChange present) := rfl
  simpa [Dev.u0VbusChange, hdead, Dev.dead, Dev.up] using hrow

/-- The rows of U0's VBUS, without board supplies and with them. -/
theorem deadBatteryRows : Rows.DeadBatteryRows := by
  intro s
  refine ⟨fun hdown => ⟨_, gives_deadBatteryEntry hdown, rfl, rfl, ?_⟩,
    fun hdead => ⟨_, gives_deadBatteryVbusLoss hdead, rfl, rfl, ?_⟩, fun hdead => ?_, fun hdead hdown => ?_, fun hrun => ?_⟩
  · obtain ⟨hcold, hflash, -⟩ :=
      mainReset_cold (d := s.dev) (k := .powerOn) (by decide) .deadBattery { U0.reset with vbus := true }
    exact ⟨hcold, hflash⟩
  · obtain ⟨hcold, hflash, -⟩ :=
      mainReset_cold (d := s.dev.quireCut) (k := .powerOn) (by decide) .unpowered U0.reset
    exact ⟨hcold, hflash.trans quireCut_flash⟩
  · simpa using gives_u0VbusChange true hdead
  · simpa [hdown] using gives_u0VbusChange false hdead
  · simpa [hrun] using gives_u0VbusChange false (s := s) (by simp [hrun])

/-- Settles O20: a cold reset is the blank device but for dies, fuses, engines and collector; a release keeps boot and flash. -/
theorem supplyAndReset : Obligations.SupplyAndReset := ⟨resetRows, releaseRows, deadBatteryRows⟩

end Sys2Proof.Machine

/-! # The JTAG port

What each instruction shifts, and that resets, releases and every other command leave the port alone. -/

namespace Sys2Proof.Machine

open Sys2Proof

/-- What the base says of the JTAG port: its instruction, its register and what it shifted out. -/
def KeptBase.jtagPort (k : KeptBase) : JtagInstr × List Bool × List Bool := (k.jtag, k.scan, k.jtagOut)

/-- The JTAG port of a device. -/
def Dev.jtagPort (d : Dev) : JtagInstr × List Bool × List Bool := (d.jtag, d.scan, d.jtagOut)

/-- Devices of one base have one JTAG port. -/
theorem jtagPort_of_base {a b : Dev} (h : a.kept.base = b.kept.base) : a.jtagPort = b.jtagPort :=
  congrArg KeptBase.jtagPort h

/-- What is kept keeps the JTAG port. -/
theorem jtagPort_of_kept {a b : Dev} (h : a.kept = b.kept) : a.jtagPort = b.jtagPort := jtagPort_of_base (congrArg Kept.base h)

/-- What is kept but for the life, the boot record and the maintenance state keeps the JTAG port. -/
theorem jtagPort_of_withLife {a b : Dev} {boot : Boot} {maint : Bool} {life : Life}
    (h : a.kept = { b.kept with boot := boot, maint := maint }.withLife life) : a.jtagPort = b.jtagPort :=
  congrArg (fun k : Kept => k.base.jtagPort) h

/-- The life, the power, U0 and the Deckle are no part of the JTAG port. -/
theorem jtagPort_with (d : Dev) (life : Life) (power : Power) (u0 : U0) (deckle : Deckle) :
    ({ d with life := life, power := power, u0 := u0, deckle := deckle } : Dev).jtagPort = d.jtagPort := rfl

section Resets

variable (d : Dev)

/-- A reset of the main die keeps the JTAG port. -/
theorem mainReset_jtagPort (k : MainReset) : (d.mainReset k).jtagPort = d.jtagPort :=
  jtagPort_of_base (Dev.mainReset_base d k)

/-- A reset that cuts off a Quire write keeps the JTAG port. -/
theorem cutReset_jtagPort (k : MainReset) : (d.quireCut.mainReset k).jtagPort = d.jtagPort :=
  (mainReset_jtagPort d.quireCut k).trans (jtagPort_of_kept (Dev.quireCut_kept d))

/-- Bring-up keeps the JTAG port. -/
theorem bringUp_jtagPort : d.bringUp.jtagPort = d.jtagPort := jtagPort_of_withLife bringUp_kept

/-- Power-on keeps the JTAG port. -/
theorem powerOnRow_jtagPort (st : Straps) (cs : Bool) : (d.powerOnRow st cs).jtagPort = d.jtagPort :=
  jtagPort_of_withLife (powerOnRow_kept d st cs)

/-- The loss of a supply keeps the JTAG port. -/
theorem railTrip_jtagPort : d.railTrip.jtagPort = d.jtagPort := by
  unfold Dev.railTrip
  split
  · rfl
  · rw [jtagPort_with]
    exact cutReset_jtagPort d .powerOn

/-- RESET_N keeps the JTAG port. -/
theorem resetNAssert_jtagPort : d.resetNAssert.jtagPort = d.jtagPort := by
  unfold Dev.resetNAssert
  split
  · rfl
  · rw [jtagPort_with]
    exact mainReset_jtagPort d .resetN

/-- The release of RESET_N keeps the JTAG port. -/
theorem resetNRelease_jtagPort (st : Straps) (cs : Bool) : (d.resetNRelease st cs).jtagPort = d.jtagPort :=
  jtagPort_of_withLife (resetNRelease_kept d st cs)

/-- A chip-scope RESET keeps the JTAG port. -/
theorem chipReset_jtagPort : d.chipReset.jtagPort = d.jtagPort := calc
  d.chipReset.jtagPort = ((d.freeBit.2.mainReset .chip).spiIgnores d.freeBit.1).jtagPort := bringUp_jtagPort _
  _ = (d.freeBit.2.mainReset .chip).jtagPort := jtagPort_of_kept (Dev.spiIgnores_kept ..)
  _ = d.freeBit.2.jtagPort := mainReset_jtagPort _ .chip
  _ = d.jtagPort := rfl

/-- A warm start keeps the JTAG port. -/
theorem warmStart_jtagPort (src : WakeSrc) : (d.warmStart src).jtagPort = d.jtagPort := by
  unfold Dev.warmStart
  split
  · refine (jtagPort_of_kept (Dev.flag_kept ..)).trans ((bringUp_jtagPort _).trans ?_)
    rw [jtagPort_with]
    exact mainReset_jtagPort d .warm
  · rfl

/-- Dead-battery service keeps the JTAG port as it starts. -/
theorem deadEntry_jtagPort (u0Db : Bool) : (d.deadEntry u0Db).jtagPort = d.jtagPort := by
  unfold Dev.deadEntry
  split
  · rw [jtagPort_with]
    exact mainReset_jtagPort d .powerOn
  · rfl

/-- Dead-battery service keeps the JTAG port as it ends. -/
theorem deadLoss_jtagPort : d.deadLoss.jtagPort = d.jtagPort := by
  unfold Dev.deadLoss
  split
  · rw [jtagPort_with]
    exact cutReset_jtagPort d .powerOn
  · rfl

/-- The engine of a port that hibernates keeps what is kept. -/
theorem pdHibernate_kept (n : Nat) : (d.pdHibernate n).kept = d.kept := by
  unfold Dev.pdHibernate
  split <;> simp

/-- HIBERNATE keeps the JTAG port. -/
theorem hibernateEntry_jtagPort : d.hibernateEntry.jtagPort = d.jtagPort := by
  unfold Dev.hibernateEntry
  dsimp only
  split
  · rw [jtagPort_with]
    refine jtagPort_of_kept (kept_forN (fun _ _ => Dev.updEth_kept ..) ?_)
    exact kept_forN (fun _ _ => pdHibernate_kept ..) (kept_forN (fun _ _ => Dev.updDie_kept ..) rfl)
  · rfl

end Resets

/-- A command that is no scan keeps the JTAG port. -/
theorem exec_jtagPort {i : Instr} {s t : State} (h : exec i s = .next t) (hi : ∀ c data, i ≠ .boundaryScan c data) :
    t.dev.jtagPort = s.dev.jtagPort := by
  cases i with
  | boundaryScan c data => exact absurd rfl (hi c data)
  | powerOn p =>
    cases h
    exact powerOnRow_jtagPort ..
  | railTrip =>
    cases h
    exact railTrip_jtagPort _
  | resetNAssert =>
    cases h
    exact resetNAssert_jtagPort _
  | resetNRelease st cs =>
    by_cases hreset : s.dev.life = .reset
    · cases (exec_resetNRelease st cs hreset).symm.trans h
      exact resetNRelease_jtagPort ..
    · cases (exec_resetNRelease_idle st cs hreset).symm.trans h
      rfl
  | chipResetStart =>
    cases h
    split
    · exact chipReset_jtagPort _
    · rfl
  | warmStart src =>
    cases h
    exact warmStart_jtagPort ..
  | deadBatteryEntry u0Db =>
    cases h
    exact deadEntry_jtagPort ..
  | deadBatteryVbusLoss =>
    cases h
    exact deadLoss_jtagPort _
  | hibernateEntry =>
    cases h
    exact hibernateEntry_jtagPort _
  | vinMonFall =>
    obtain ⟨low, hbase⟩ := exec_vinMonFall_base h
    exact congrArg KeptBase.jtagPort hbase
  | vinMonRise =>
    obtain ⟨low, hbase⟩ := exec_vinMonRise_base h
    exact congrArg KeptBase.jtagPort hbase
  | _ => exact jtagPort_of_base (exec_base h rfl)

/-- No command but BOUNDARY_SCAN touches the JTAG port. -/
theorem scanFrame : Rows.ScanFrame := by
  intro i s t h hi
  simpa only [Dev.jtagPort, Prod.mk.injEq] using exec_jtagPort h hi

section Scan

variable {d : Dev} {c : JtagInstr} (data : List Bool)

/-- An instruction that acts as BYPASS passes the bits on behind one 0. -/
theorem boundaryScan_bypass (hsup : d.life ≠ .unpowered) (hdead : d.life ≠ .deadBattery) (hc : d.scanAs c = .bypass) :
    d.boundaryScan c data = { d with jtag := c, jtagOut := (false :: data).take data.length } := by
  simp [Dev.boundaryScan, hsup, hdead, hc, shifted]

/-- An instruction that drives or samples the chain shifts it. -/
theorem boundaryScan_chain (hsup : d.life ≠ .unpowered) (hdead : d.life ≠ .deadBattery)
    (hc : d.scanAs c = .extest ∨ d.scanAs c = .samplePreload) :
    let chain := ((List.range Config.scanCells).map (Config.scanSample d.freeCtr)) ++ data
    d.boundaryScan c data = { d with
      jtag := c, scan := chain.drop data.length, jtagOut := chain.take data.length, freeCtr := d.freeCtr + 1 } := by
  rcases hc with hc | hc
  · simp [Dev.boundaryScan, hsup, hdead, hc, shifted]
  · simp [Dev.boundaryScan, hsup, hdead, hc, shifted]

/-- IDCODE shifts its 32 bits out first. -/
theorem boundaryScan_idcode (hsup : d.life ≠ .unpowered) (hdead : d.life ≠ .deadBattery) :
    d.boundaryScan .idcode data = { d with
      jtag := .idcode, jtagOut := (((List.range 32).map Config.idCode) ++ data).take data.length } := by
  simp [Dev.boundaryScan, hsup, hdead, Dev.scanAs, shifted]

end Scan

/-- Each instruction of the JTAG port does what R46 says. -/
theorem scanRow : Rows.ScanRow := by
  intro data s hsup hdead chain
  refine ⟨?_, ?_, fun hrun => ?_, fun hreset => ?_, ?_⟩
  · rw [← boundaryScan_bypass data hsup hdead rfl]
    exact gives_boundaryScan ..
  · rw [← boundaryScan_idcode data hsup hdead]
    exact gives_boundaryScan ..
  · rw [← boundaryScan_bypass (c := .extest) data hsup hdead (if_neg hrun)]
    exact gives_boundaryScan ..
  · rw [← boundaryScan_chain (c := .extest) data hsup hdead (.inl (if_pos hreset))]
    exact gives_boundaryScan ..
  · rw [← boundaryScan_chain data hsup hdead (.inr rfl)]
    exact gives_boundaryScan ..

/-- Settles O59: each instruction's shift is one lemma, and the frame of the port is that of the base of the device. -/
theorem scanPort : Obligations.ScanPort := ⟨scanRow, scanFrame⟩

end Sys2Proof.Machine

/-! # The balls that tell of the device's state

What each ball is driven to by the device itself, and the dead-battery Rd of the coupler ports. -/

namespace Sys2Proof.Machine

open Sys2Proof

section Balls

variable {d : Dev}

/-- Outside EXTEST, and out of reset, a ball shows what the device drives (R46). -/
theorem ball_driven (csLow : Bool) (b : DigitalBall) (hscan : d.jtag ≠ .extest ∨ d.life ≠ .reset) :
    d.ball csLow b = d.ballDrive csLow b := by
  refine if_neg ?_
  rcases hscan with h | h
  · simp [h]
  · simp [h]

/-- `SAFE_N` is released by READY.PRESS out of reset, and held in CHIP_SAFE (R47, R53). -/
theorem safePin_iff : d.safePin = true ↔ d.life = .running ∧ d.boot.ready.getLsbD 0 = true ∧ d.fc.chipSafe = false := by
  simp [Dev.safePin, Dev.up, Dev.isReady, and_assoc]

/-- `BEAT_OUT` marks slots 0 to 3 of microframe 0 (R54). -/
theorem beatPin_iff : d.beatPin = true ↔
    d.life = .running ∧ d.deckle.running = true ∧ d.deckle.mf = 0 ∧ d.deckle.slot < 4 := by
  simp [Dev.beatPin, Dev.up, and_assoc]

/-- `INPUT_WARN_N` is driven where both of its supplies stand (R52). -/
theorem warnPin_iff : d.warnPin = true ↔ d.vinLow = true ∧ d.life ≠ .unpowered ∧ d.life ≠ .deadBattery := by
  simp [Dev.warnPin, Dev.dark, Dev.dead]

/-- A port without supply, or not yet loaded, shows the dead-battery Rd on its CC pins (R58). -/
theorem portCc_dead {s : State} {n : Nat} (second : Bool) (hdead : s.dev.portDark n = true ∨ s.dev.portLoaded = false) :
    s.portCc n second = deadCc s.straps.cplDb n := by
  rcases hdead with h | h
  · simp [State.portCc, h]
  · simp [State.portCc, h]

end Balls

/-- Settles O22: each ball is driven by its pin's condition, and a coupler port is dark or not loaded in every state that R58
names. -/
theorem pinLevels : Obligations.PinLevels := by
  refine fun s => ⟨fun csLow hscan => ⟨?_, ?_, ?_⟩, fun n second hstrap hstate hready => ?_⟩
  · rw [ball_driven csLow .safeN hscan]
    simp only [Dev.ballDrive, Drive.level, safePin_iff]
  · rw [ball_driven csLow .beatOut hscan]
    simp only [Dev.ballDrive, Drive.level, beatPin_iff]
  · rw [ball_driven csLow .inputWarnN hscan]
    simp only [Dev.ballDrive, warnPin_iff]
  · have hdead : s.dev.portDark n.val = true ∨ s.dev.portLoaded = false := by
      have hdie : n.val / 8 = 0 := by omega
      rcases hstate with hdown | hdown | hreset
      · exact .inl (by simp [Dev.portDark, hdie, hdown])
      · exact .inl (by simp [Dev.portDark, Dev.dark, hdown])
      · exact .inr (by simpa [Dev.portLoaded, Dev.isReady, hreset] using hready hreset)
    rw [portCc_dead second hdead]
    simp [deadCc, hstrap]

end Sys2Proof.Machine

/-! # Type-C: attach, detach, VCONN and the cable

What each event does to an engine in the state that awaits it, one lemma for each outcome, and the rows that bring the events. -/

namespace Sys2Proof.Machine

open Sys2Proof

section TypeCOutcomes

variable {d : Dev} {n : Nat}

/-- The engine with its pins at new levels. -/
def Dev.withCc (d : Dev) (n : Nat) (cc1 cc2 : CcLevel) : Dev := d.updEng n fun e => { e with cc1 := cc1, cc2 := cc2 }

section CcChange

variable {cc1 cc2 : CcLevel}

/-- A source that sees exactly one Rd waits to attach (R320). -/
theorem ccChange_srcSeen (htc : (d.eng n).tc = .unattachedSrc) (hpin : ((d.withCc n cc1 cc2).srcPin n).isSome = true) :
    d.ccChange n cc1 cc2 = (d.withCc n cc1 cc2).toTc n .attachWaitSrc := by
  simp only [Dev.ccChange, htc]
  exact if_pos hpin

/-- A sink that sees exactly one Rp waits to attach (R320). -/
theorem ccChange_snkSeen (htc : (d.eng n).tc = .unattachedSnk) (hpin : ((d.withCc n cc1 cc2).snkPin n).isSome = true) :
    d.ccChange n cc1 cc2 = (d.withCc n cc1 cc2).toTc n .attachWaitSnk := by
  simp only [Dev.ccChange, htc]
  exact if_pos hpin

/-- A source whose partner goes while it waits falls back (R320). -/
theorem ccChange_srcGone (htc : (d.eng n).tc = .attachWaitSrc) (hpin : (d.withCc n cc1 cc2).srcPin n = none) :
    d.ccChange n cc1 cc2 = (d.withCc n cc1 cc2).toTc n ((d.withCc n cc1 cc2).fallBack n false) := by
  simp only [Dev.ccChange, htc]
  exact if_neg (by rw [← Dev.withCc, hpin]; decide)

/-- A sink whose partner goes while it waits falls back (R320). -/
theorem ccChange_snkGone (htc : (d.eng n).tc = .attachWaitSnk) (hpin : (d.withCc n cc1 cc2).snkPin n = none) :
    d.ccChange n cc1 cc2 = (d.withCc n cc1 cc2).toTc n ((d.withCc n cc1 cc2).fallBack n true) := by
  simp only [Dev.ccChange, htc]
  exact if_neg (by rw [← Dev.withCc, hpin]; decide)

/-- An Attached source that comes to see Ra supplies VCONN (R322). -/
theorem ccChange_raSeen (htc : (d.eng n).tc = .attachedSrc) (hnow : (d.withCc n cc1 cc2).seesRa n = true)
    (hbefore : d.seesRa n = false) :
    d.ccChange n cc1 cc2 = (d.withCc n cc1 cc2).updEng n fun e => { e with vconn := true } := by
  simp only [Dev.ccChange, htc]
  exact if_pos (Bool.and_eq_true_iff.2 ⟨hnow, congrArg not hbefore⟩)

end CcChange

/-- A waiting source of one role attaches at the end of the debounce (R320). -/
theorem ccDebounceEnd_src {p : Nat} (htc : (d.eng n).tc = .attachWaitSrc) (hpin : d.srcPin n = some p)
    (hdual : d.pdDual n = false) : d.ccDebounceEnd n = d.attachSrc n p := by
  simp [Dev.ccDebounceEnd, htc, hpin, hdual]

/-- A waiting sink of one role attaches at the end of the debounce (R320). -/
theorem ccDebounceEnd_snk {p : Nat} (htc : (d.eng n).tc = .attachWaitSnk) (hpin : d.snkPin n = some p)
    (hdual : d.pdDual n = false) : d.ccDebounceEnd n = d.attachSnk n p := by
  simp [Dev.ccDebounceEnd, htc, hpin, hdual]

/-- A waiting dual-role sink that prefers to source tries so first (R320). -/
theorem ccDebounceEnd_trySrc {p : Nat} (htc : (d.eng n).tc = .attachWaitSnk) (hpin : d.snkPin n = some p)
    (hdual : d.pdDual n = true) (htry : d.fld (aPdCfg n) 4 2 = 1) : d.ccDebounceEnd n = d.toTc n .trySrc := by
  simp [Dev.ccDebounceEnd, htc, hpin, hdual, htry]

/-- A dual-role engine alternates from source to sink (R320). -/
theorem drpToggle_src (hdual : d.pdDual n = true) (htc : (d.eng n).tc = .unattachedSrc) :
    d.drpToggle n = d.toTc n .unattachedSnk := by
  simp [Dev.drpToggle, hdual, htc]

/-- A dual-role engine alternates from sink to source (R320). -/
theorem drpToggle_snk (hdual : d.pdDual n = true) (htc : (d.eng n).tc = .unattachedSnk) :
    d.drpToggle n = d.toTc n .unattachedSrc := by
  simp [Dev.drpToggle, hdual, htc]

/-- A port that tries to source attaches once it sees its partner. -/
theorem tryTimer_seen {p : Nat} (htc : (d.eng n).tc = .trySrc) (hpin : d.srcPin n = some p) :
    d.tryTimer n = d.attachSrc n p := by
  simp [Dev.tryTimer, htc, hpin]

/-- A port that tries to source without a partner goes on as a sink. -/
theorem tryTimer_unseen (htc : (d.eng n).tc = .trySrc) (hpin : d.srcPin n = none) :
    d.tryTimer n = d.toTc n .tryWaitSnk := by
  simp [Dev.tryTimer, htc, hpin]

/-- A held port's hold ends with its partner (R50). -/
theorem pdDetach_held (hheld : d.isHeld n = true) : d.pdDetach n = d.heldDetach n := if_pos hheld

/-- An Attached port becomes Unattached, with its event (R323, R343). -/
theorem pdDetach_attached (hheld : d.isHeld n = false) (hatt : d.tcAttached n = true) :
    d.pdDetach n = ((d.withCc n .open .open).becomeUnattached n).pdTell n evDetach := by
  simp only [Dev.pdDetach, hheld, hatt, Bool.false_eq_true, if_false, if_true, Dev.withCc]

/-- A sink that loses VBUS outside a transition sends a hard reset (R323). -/
theorem vbusLost_idle (htc : (d.eng n).tc = .attachedSnk) (htalks : d.pdTalks n = true) (hidle : (d.eng n).ams = .idle) :
    d.vbusLost n = (d.pdEvt n evVbusLost).hardResetAct n false := by
  simp [Dev.vbusLost, htc, htalks, hidle]

/-- Discover Identity follows a stable VCONN (R330). -/
theorem vconnStable_discovers (htalks : d.pdTalks n = true) (hsource : (d.eng n).source = true)
    (hvconn : (d.eng n).vconn = true) (hdone : (d.eng n).discDone = false) (hidle : (d.eng n).ams = .idle)
    (htries : (d.eng n).discTries = 0) : d.vconnStable n = d.discoverSop1 n := by
  simp [Dev.vconnStable, htalks, hsource, hvconn, hdone, hidle, htries]

/-- VCONN above its limit is turned off (R454). -/
theorem vconnLimit_discovered (hvconn : (d.eng n).vconn = true) (hdone : (d.eng n).discDone = true)
    (hlimit : (d.eng n).limit5A = false) :
    d.vconnLimit n = d.updEng n fun x => { x with vconn := false, limit5A := false } := by
  simp [Dev.vconnLimit, hvconn, hdone, hlimit]

/-- An answer of the cable is kept with its current, and ends discovery (R330). -/
theorem cableIdentity_discovering (ack five : Bool) (hams : (d.eng n).ams = .discover) :
    d.cableIdentity n ack five = (d.updEng n fun e =>
      { e with marker := ack, markerI := if ack then (if five then 2 else 1) else 0, limit5A := ack && five }).discoveryEnd n :=
  if_pos hams

/-- Discover Identity is sent again, up to six times in all (R330). -/
theorem discoverRetry_again (hams : (d.eng n).ams = .discover) (htries : (d.eng n).discTries < 6) :
    d.discoverRetry n = d.discoverSop1 n := (if_pos hams).trans (if_pos htries)

/-- Six tries end discovery (R330). -/
theorem discoverRetry_end (hams : (d.eng n).ams = .discover) (htries : 6 ≤ (d.eng n).discTries) :
    d.discoverRetry n = d.discoveryEnd n := (if_pos hams).trans (if_neg (Nat.not_lt.2 htries))

end TypeCOutcomes

/-! ## The rows -/

section TypeCRows

variable (n : Fin 33) (s : State)

/-- CC_CHANGE brings new levels to an engine, and R18 is judged anew. -/
theorem sees_ccChange (cc1 cc2 : CcLevel) : Safety.sees (.ccChange n cc1 cc2) s (s.dev.ccChange n.val cc1 cc2) := rfl

/-- CC_DEBOUNCE_END ends the wait of an engine, and R18 is judged anew. -/
theorem sees_ccDebounceEnd : Safety.sees (.ccDebounceEnd n) s (s.dev.ccDebounceEnd n.val) := rfl

/-- DRP_TOGGLE turns a dual-role engine. -/
theorem gives_drpToggle : Safety.gives (.drpToggle n) s (s.dev.drpToggle n.val) := rfl

/-- TRY_TIMER_EXPIRY ends a try. -/
theorem gives_tryTimerExpiry : Safety.gives (.tryTimerExpiry n) s (s.dev.tryTimer n.val) := rfl

/-- DETACH takes the partner from an engine, and R18 is judged anew. -/
theorem sees_detach : Safety.sees (.detach n) s (s.dev.pdDetach n.val) := rfl

/-- VBUS_LOST takes VBUS from a sink, and R18 is judged anew. -/
theorem sees_vbusLost : Safety.sees (.vbusLost n) s (s.dev.vbusLost n.val) := rfl

/-- VCONN_STABLE tells that VCONN stands. -/
theorem gives_vconnStable : Safety.gives (.vconnStable n) s (s.dev.vconnStable n.val) := rfl

/-- VCONN_LIMIT tells that VCONN's limit is passed. -/
theorem gives_vconnLimit : Safety.gives (.vconnLimit n) s (s.dev.vconnLimit n.val) := rfl

/-- CABLE_IDENTITY brings the cable's answer. -/
theorem gives_cableIdentity (ack five : Bool) :
    Safety.gives (.cableIdentity n ack five) s (s.dev.cableIdentity n.val ack five) := rfl

/-- DISCOVER_IDENTITY_RETRY ends the wait for the cable's answer. -/
theorem gives_discoverIdentityRetry : Safety.gives (.discoverIdentityRetry n) s (s.dev.discoverRetry n.val) := rfl

end TypeCRows

/-- Attach: what an engine's pins show moves it from state to state (R319 to R322). -/
theorem attachRows : Rows.AttachRows := by
  intro n s
  refine ⟨fun cc1 cc2 => ⟨fun htc hpin => ?_, fun htc hpin => ?_, fun htc hpin => ?_, fun htc hpin => ?_,
      fun htc hnow hbefore => ?_⟩, fun p htc hpin hdual => ?_, fun p htc hpin hdual => ?_, fun p htc hpin hdual htry => ?_,
    fun hdual htc => ?_, fun hdual htc => ?_, fun p htc hpin => ?_, fun htc hpin => ?_⟩
  · exact ccChange_srcSeen htc hpin ▸ sees_ccChange n s cc1 cc2
  · exact ccChange_snkSeen htc hpin ▸ sees_ccChange n s cc1 cc2
  · exact ccChange_srcGone htc hpin ▸ sees_ccChange n s cc1 cc2
  · exact ccChange_snkGone htc hpin ▸ sees_ccChange n s cc1 cc2
  · exact ccChange_raSeen htc hnow hbefore ▸ sees_ccChange n s cc1 cc2
  · exact ccDebounceEnd_src htc hpin hdual ▸ sees_ccDebounceEnd n s
  · exact ccDebounceEnd_snk htc hpin hdual ▸ sees_ccDebounceEnd n s
  · exact ccDebounceEnd_trySrc htc hpin hdual htry ▸ sees_ccDebounceEnd n s
  · exact drpToggle_src hdual htc ▸ gives_drpToggle n s
  · exact drpToggle_snk hdual htc ▸ gives_drpToggle n s
  · exact tryTimer_seen htc hpin ▸ gives_tryTimerExpiry n s
  · exact tryTimer_unseen htc hpin ▸ gives_tryTimerExpiry n s

/-- Detach and the loss of VBUS (R50, R323, R343). -/
theorem detachRows : Rows.DetachRows := by
  intro n s
  refine ⟨fun hheld hatt => ?_, fun hheld => ?_, fun htc htalks hidle => ?_⟩
  · exact pdDetach_attached hheld hatt ▸ sees_detach n s
  · exact pdDetach_held hheld ▸ sees_detach n s
  · exact vbusLost_idle htc htalks hidle ▸ sees_vbusLost n s

/-- VCONN and cable discovery (R330, R454). -/
theorem cableRows : Rows.CableRows := by
  intro n s
  refine ⟨fun htalks hsource hvconn hdone hidle htries => ?_, fun hvconn hdone hlimit => ?_, fun five hams => ?_,
    fun five hams => ?_, fun hams htries => ?_, fun hams htries => ?_⟩
  · have hrow := gives_vconnStable n s
    rw [vconnStable_discovers htalks hsource hvconn hdone hidle htries] at hrow
    exact hrow
  · exact vconnLimit_discovered hvconn hdone hlimit ▸ gives_vconnLimit n s
  · exact cableIdentity_discovering true five hams ▸ gives_cableIdentity n s true five
  · exact cableIdentity_discovering false five hams ▸ gives_cableIdentity n s false five
  · exact discoverRetry_again hams htries ▸ gives_discoverIdentityRetry n s
  · exact discoverRetry_end hams htries ▸ gives_discoverIdentityRetry n s

/-- Settles O44: each event of attach, detach and cable discovery has the outcome of its engine's state. -/
theorem typeC : Obligations.TypeC := ⟨attachRows, detachRows, cableRows⟩

end Sys2Proof.Machine

/-! # What a command keeps besides the base

Every command but the resets, the steps of bring-up, the watchdogs, the firmware opcodes and MAINT keeps the flash, the boot
record and the maintenance state with the base. -/

namespace Sys2Proof.Machine

open Sys2Proof

/-- An opcode's row leaves the device alone, ends the request with a status, or runs it. -/
theorem opcodeRow_ind {P : Dev → Prop} {d : Dev} {k : ReqKey} {o : Nat} {mine : List Byte → Bool}
    {run : Request → Dev → Dev} (hidle : P d) (hfail : ∀ st, P (d.fail k st)) (hrun : ∀ rq, P (run rq d)) :
    P (d.opcodeRow k o mine run) := by
  unfold Dev.opcodeRow
  split
  · split
    · split
      · exact hfail _
      · split
        · exact hfail _
        · exact hrun _
    · exact hidle
  · exact hidle

/-- An opcode's row keeps what the execution of its request keeps. -/
theorem opcodeRow_kept {d : Dev} {k : ReqKey} {o : Nat} {mine : List Byte → Bool} {run : Request → Dev → Dev}
    (hrun : ∀ rq a, (run rq a).kept = a.kept) : (d.opcodeRow k o mine run).kept = d.kept :=
  opcodeRow_ind (P := fun a => a.kept = d.kept) rfl (fun _ => Dev.fail_kept ..) (fun _ => hrun _ _)

/-- A row that answers with a device that keeps the same. -/
theorem kept_of_row {i : Instr} {s t : State} {d : Dev} (hrow : exec i s = .next { s with dev := d })
    (hd : d.kept = s.dev.kept) (h : exec i s = .next t) : t.dev.kept = s.dev.kept := by
  cases hrow.symm.trans h
  exact hd

/-- The commands that may change the base, the flash, the boot record or the maintenance state. -/
def changesKept : Instr → Bool
  | .pressArmed _ | .pressArmTimeout _ | .quireReady | .deckleReady | .pdReady | .vatSelftestDone _ | .hubStart | .ethStart
  | .slotCheckDone _ | .flashReadTimeout _ | .millInitDone | .hostStart | .couchStart | .millWatchdog | .couchWatchdog
  | .fwWrite _ | .fwEraseDone _ | .fwVerify _ | .fwActivate _ | .fwConfirm _ | .maintEnter _ | .maintLeave _ => true
  | i => changesBase i

/-- Every other command keeps base, flash, boot record and maintenance state: the operations of its row do. -/
theorem exec_kept {i : Instr} {s t : State} (h : exec i s = .next t) (hi : changesKept i = false) :
    t.dev.kept = s.dev.kept := by
  cases i with
  | powerOn _ | railTrip | resetNAssert | resetNRelease _ _ | chipResetStart | deadBatteryEntry _ | deadBatteryVbusLoss
  | hibernateEntry | warmStart _ | boundaryScan _ _ | vinMonFall | vinMonRise
  | pressArmed _ | pressArmTimeout _ | quireReady | deckleReady | pdReady | vatSelftestDone _ | hubStart | ethStart
  | slotCheckDone _ | flashReadTimeout _ | millInitDone | hostStart | couchStart | millWatchdog | couchWatchdog
  | fwWrite _ | fwEraseDone _ | fwVerify _ | fwActivate _ | fwConfirm _ | maintEnter _ | maintLeave _ => cases hi
  -- a row that sweeps a table
  | consumedFrameMove _ =>
    refine kept_of_row rfl ?_ h
    exact (Dev.vatAlarms_kept _).trans (kept_forN (fun _ _ => Dev.moveConsumed_kept ..) rfl)
  -- rows that read what waits
  | readyAnswer _ | readyWaitExpiry _ | portResetTimeout _ | chainSetApply _ | psbTransactionTimeout | keySlotErase _ _ =>
    refine kept_of_row rfl ?_ h
    split <;> simp [apply_ite Dev.kept]
  -- opcodes that are answered by what a lookup gives
  | regRead _ | wideRead _ | statsRead _ =>
    refine kept_of_row rfl (opcodeRow_kept fun _ _ => ?_) h
    dsimp only
    split <;> simp
  | controlXfer _ | bulkOut _ | bulkIn _ | endpointClose _ | endpointCloseDevice _ | unsubscribe _ | periodicWrite _ =>
    refine kept_of_row rfl (opcodeRow_kept fun _ _ => ?_) h
    split <;> simp [apply_ite Dev.kept]
  | sheetRead _ =>
    refine kept_of_row rfl ((Dev.vatAlarms_kept _).trans (opcodeRow_kept fun _ _ => ?_)) h
    split <;> simp [apply_ite Dev.kept]
  | endpointOpen _ =>
    refine kept_of_row rfl (opcodeRow_kept fun _ _ => kept_ite (by simp) (kept_ite (by simp) ?_)) h
    split <;> simp
  | subscribe _ =>
    refine kept_of_row rfl (opcodeRow_kept fun _ _ => ?_) h
    dsimp only
    split
    · simp
    · simp
    · split <;> simp
  -- plain rows and plain opcodes
  | _ => exact kept_of_row rfl (by simp [opcodeRow_kept, apply_ite Dev.kept, Dev.spiStep_kept, Dev.frameStarts_kept,
      Dev.rxControl_kept]) h

end Sys2Proof.Machine

/-! # The frame of the flash

Resets, the steps of bring-up but PD_READY, and every command that keeps the boot record leave the flash alone. -/

namespace Sys2Proof.Machine

open Sys2Proof

/-- The flash is a part of what is kept: the form in which the frame lemmas speak of it. -/
theorem flash_eta (d : Dev) : d.flash = d.kept.flash := rfl

/-- Devices that keep the same keep one flash. -/
theorem flash_of_kept {a b : Dev} (h : a.kept = b.kept) : a.flash = b.flash := congrArg Kept.flash h

/-- Whichever branch is taken, the flash is the same. -/
theorem flash_ite {f : Tab Byte} {c : Prop} [Decidable c] {a b : Dev} (ha : a.kept.flash = f) (hb : b.kept.flash = f) :
    (if c then a else b).kept.flash = f := by split <;> assumption

/-! ## The operations on the boot record -/

@[simp] theorem setReady_flash (d : Dev) (i : Nat) (b : Bool) : (d.setReady i b).kept.flash = d.kept.flash := rfl

@[simp] theorem setSlotResult_flash (d : Dev) (k v : Nat) : (d.setSlotResult k v).kept.flash = d.kept.flash := rfl

@[simp] theorem setSlotVerified_flash (d : Dev) (k : Nat) (v : Bool) : (d.setSlotVerified k v).kept.flash = d.kept.flash := rfl

@[simp] theorem noteTrial_flash (d : Dev) : d.noteTrial.kept.flash = d.kept.flash := rfl

@[simp] theorem checkImage_flash (d : Dev) (couch : Bool) : (d.checkImage couch).kept.flash = d.kept.flash := rfl

/-- The maintenance state is no part of the flash. -/
theorem with_maint_flash (d : Dev) (m : Bool) : ({ d with maint := m } : Dev).kept.flash = d.kept.flash := rfl

/-- The boot record is no part of the flash. -/
theorem with_boot_flash (d : Dev) (b : Boot) : ({ d with boot := b } : Dev).kept.flash = d.kept.flash := rfl

@[simp] theorem couchOff_flash (d : Dev) : d.couchOff.kept.flash = d.kept.flash := by
  unfold Dev.couchOff
  refine (with_boot_flash _ _).trans ((setReady_flash ..).trans (congrArg Kept.flash (kept_forN (fun _ _ => ?_) ?_)))
  · exact kept_ite (by simp) rfl
  · exact kept_forN (fun _ _ => by simp) rfl

@[simp] theorem holdCouch_flash (d : Dev) : d.holdCouch.kept.flash = d.kept.flash :=
  (with_boot_flash _ _).trans (couchOff_flash d)

@[simp] theorem enterLimp_flash (d : Dev) (st : BootState) : (d.enterLimp st).kept.flash = d.kept.flash := by
  refine (with_boot_flash _ _).trans ((couchOff_flash _).trans (congrArg Kept.flash ?_))
  exact kept_forN (fun _ _ => by simp) (Dev.newEpoch_kept d)

@[simp] theorem acceptMill_flash (d : Dev) (k : Nat) : (d.acceptMill k).kept.flash = d.kept.flash := by
  unfold Dev.acceptMill
  extract_lets m d1 b d2 b2 d3
  have h2 : d2.kept.flash = d.kept.flash := (with_boot_flash ..).trans (congrArg Kept.flash (Dev.newEpoch_kept d))
  rw [noteTrial_flash]
  dsimp only [d3]
  split
  · exact flash_ite ((with_boot_flash ..).trans h2) ((holdCouch_flash _).trans h2)
  · exact (checkImage_flash ..).trans h2

@[simp] theorem slotDone_flash (d : Dev) (k r : Nat) : (d.slotDone k r).kept.flash = d.kept.flash := by
  unfold Dev.slotDone
  refine flash_ite (flash_ite (flash_ite ?_ ?_) (flash_ite ?_ (flash_ite ?_ ?_))) rfl
  · rfl
  · simp
  · rfl
  · simp
  · simp

/-! ## Resets -/

section Resets

variable (d : Dev)

/-- The life, the power, U0 and the Deckle are no part of the flash. -/
theorem flash_with (life : Life) (power : Power) (u0 : U0) (deckle : Deckle) :
    ({ d with life := life, power := power, u0 := u0, deckle := deckle } : Dev).flash = d.flash := rfl

/-- A reset of the main die keeps the flash. -/
theorem mainReset_flash (k : MainReset) : (d.mainReset k).flash = d.flash := by
  by_cases hk : k = .warm
  · rw [hk]
    exact congrArg Kept.flash mainReset_warm_kept
  · exact congrArg Kept.flash (mainReset_kept hk)

/-- A reset that cuts off a Quire write keeps the flash. -/
theorem cutReset_flash (k : MainReset) : (d.quireCut.mainReset k).flash = d.flash :=
  (mainReset_flash d.quireCut k).trans quireCut_flash

/-- Bring-up keeps the flash. -/
theorem bringUp_flash : d.bringUp.flash = d.flash := congrArg Kept.flash bringUp_kept

/-- The loss of a supply keeps the flash. -/
theorem railTrip_flash : d.railTrip.flash = d.flash := by
  unfold Dev.railTrip
  split
  · rfl
  · rw [flash_with]
    exact cutReset_flash d .powerOn

/-- RESET_N keeps the flash. -/
theorem resetNAssert_flash : d.resetNAssert.flash = d.flash := by
  unfold Dev.resetNAssert
  split
  · rfl
  · rw [flash_with]
    exact mainReset_flash d .resetN

/-- A chip-scope RESET keeps the flash. -/
theorem chipReset_flash : d.chipReset.flash = d.flash :=
  calc
    d.chipReset.flash = ((d.freeBit.2.mainReset .chip).spiIgnores d.freeBit.1).flash := bringUp_flash _
    _ = (d.freeBit.2.mainReset .chip).flash := rfl
    _ = d.freeBit.2.flash := mainReset_flash _ .chip
    _ = d.flash := rfl

/-- A warm start keeps the flash. -/
theorem warmStart_flash (src : WakeSrc) : (d.warmStart src).flash = d.flash := by
  unfold Dev.warmStart
  split
  · rw [flash_eta, Dev.flag_kept, ← flash_eta, bringUp_flash, flash_with]
    exact mainReset_flash d .warm
  · rfl

/-- Dead-battery service keeps the flash as it starts. -/
theorem deadEntry_flash (u0Db : Bool) : (d.deadEntry u0Db).flash = d.flash := by
  unfold Dev.deadEntry
  split
  · rw [flash_with]
    exact mainReset_flash d .powerOn
  · rfl

/-- Dead-battery service keeps the flash as it ends. -/
theorem deadLoss_flash : d.deadLoss.flash = d.flash := by
  unfold Dev.deadLoss
  split
  · rw [flash_with]
    exact cutReset_flash d .powerOn
  · rfl

/-- HIBERNATE keeps the flash. -/
theorem hibernateEntry_flash : d.hibernateEntry.flash = d.flash := by
  unfold Dev.hibernateEntry
  dsimp only
  split
  · rw [flash_with]
    refine flash_of_kept (kept_forN (fun _ _ => Dev.updEth_kept ..) ?_)
    exact kept_forN (fun _ _ => pdHibernate_kept ..) (kept_forN (fun _ _ => Dev.updDie_kept ..) rfl)
  · rfl

end Resets

/-! ## The steps of bring-up and the Couch watchdog -/

@[simp] theorem pressSettled_flash (d : Dev) : d.pressSettled.kept.flash = d.kept.flash := by
  unfold Dev.pressSettled
  exact flash_ite (setReady_flash ..) rfl

@[simp] theorem pressArmed_flash (d : Dev) (x : Nat) : (d.pressArmed x).kept.flash = d.kept.flash := by
  unfold Dev.pressArmed
  exact flash_ite ((pressSettled_flash _).trans
    (congrArg Kept.flash ((Dev.safeRun_kept ..).trans (Dev.updDie_kept ..)))) rfl

@[simp] theorem pressArmTimeout_flash (d : Dev) (x : Nat) : (d.pressArmTimeout x).kept.flash = d.kept.flash := by
  unfold Dev.pressArmTimeout
  refine flash_ite ((pressSettled_flash _).trans (congrArg Kept.flash ((Dev.assert_kept ..).trans ?_))) rfl
  exact kept_forN (fun _ _ => Dev.portUnpowered_kept ..) (Dev.updDie_kept ..)

@[simp] theorem quireReadyRow_flash (d : Dev) : d.quireReadyRow.kept.flash = d.kept.flash := by
  unfold Dev.quireReadyRow
  refine flash_ite ?_ rfl
  extract_lets d1 b u d2 d3
  have h3 : d3.kept = d2.kept := by simp only [d3, Dev.loadWord_kept]
  exact flash_of_kept (b := d2) (kept_forEach (fun _ _ => Dev.loadWord_kept ..) h3)

@[simp] theorem deckleReadyRow_flash (d : Dev) : d.deckleReadyRow.kept.flash = d.kept.flash := by
  unfold Dev.deckleReadyRow
  exact flash_ite (by simp) rfl

@[simp] theorem startImages_flash (d : Dev) (st : Straps) : (d.startImages st).kept.flash = d.kept.flash := by
  unfold Dev.startImages
  exact flash_ite (enterLimp_flash ..) (checkImage_flash ..)

@[simp] theorem selftestDone_flash (d : Dev) (st : Straps) (failed : BitVec 9) :
    (d.selftestDone st failed).kept.flash = d.kept.flash := by
  have hvat : ∀ (a : Dev) (v : Vat), ({ a with vat := v } : Dev).kept = a.kept := fun _ _ => rfl
  unfold Dev.selftestDone
  refine flash_ite ?_ rfl
  extract_lets old v d1 newly d2 good b d3 v'
  have h2 : d2.kept = d.kept := kept_forEach (fun _ _ => by simp) rfl
  split
  · exact (with_boot_flash _ _).trans (congrArg Kept.flash h2)
  · extract_lets depth k d4 d5 d6
    have h4 : d4.kept.flash = d.kept.flash := by
      rw [hvat]
      exact (setReady_flash ..).trans (congrArg Kept.flash ((Dev.loadVat_kept _).trans h2))
    have h5 : d5.kept.flash = d.kept.flash := flash_ite (by simp [h4]) h4
    have h6 : d6.kept.flash = d.kept.flash := flash_ite (by simp [h5]) h5
    simp [h6]

@[simp] theorem millInitDone_flash (d : Dev) : d.millInitDone.kept.flash = d.kept.flash := by
  unfold Dev.millInitDone
  refine flash_ite ((with_boot_flash _ _).trans (flash_ite ?_ ?_)) rfl
  · rw [setReady_flash, setReady_flash]
  · rw [setReady_flash]

@[simp] theorem hostStart_flash (d : Dev) : d.hostStart.kept.flash = d.kept.flash := by
  unfold Dev.hostStart
  exact flash_ite (by simp [flash_eta]) rfl

@[simp] theorem couchStart_flash (d : Dev) : d.couchStart.kept.flash = d.kept.flash := by
  unfold Dev.couchStart
  refine flash_ite ?_ rfl
  extract_lets d1 b d2 d3
  have h1 : d1.kept = d.kept := kept_forN (fun _ _ => Dev.loadWord_kept ..) (by simp)
  have h2 : d2.kept.flash = d.kept.flash := (setReady_flash ..).trans ((with_boot_flash _ _).trans (congrArg Kept.flash h1))
  refine flash_ite (flash_ite ?_ ?_) ?_
  · simp [d3, h2]
  · simp [d3, h2]
  · simp [h2]

@[simp] theorem couchWatchdog_flash (d : Dev) : d.couchWatchdog.kept.flash = d.kept.flash := by
  unfold Dev.couchWatchdog
  refine flash_ite ?_ rfl
  extract_lets d1 d2 d3
  have h2 : d2.kept = d.kept := kept_forEach (fun _ _ => kept_ite (by simp) rfl) (Dev.assert_kept ..)
  have h3 : d3.kept.flash = d.kept.flash := (setReady_flash ..).trans
    (congrArg Kept.flash (kept_forN (fun _ _ => Dev.relayReset_kept ..) ((Dev.handKeys_kept d2).trans h2)))
  exact (with_boot_flash ..).trans h3

/-! ## The rows -/

/-- A row that answers with a device of the same flash. -/
theorem flash_of_row {i : Instr} {s t : State} {d : Dev} (hrow : exec i s = .next { s with dev := d })
    (hd : d.kept.flash = s.dev.kept.flash) (h : exec i s = .next t) : t.dev.kept.flash = s.dev.kept.flash := by
  cases hrow.symm.trans h
  exact hd

/-- An opcode's row keeps the flash when the execution of its request does. -/
theorem opcodeRow_flash {d : Dev} {k : ReqKey} {o : Nat} {mine : List Byte → Bool} {run : Request → Dev → Dev}
    (hrun : ∀ rq a, (run rq a).kept.flash = a.kept.flash) : (d.opcodeRow k o mine run).kept.flash = d.kept.flash :=
  opcodeRow_ind (P := fun a => a.kept.flash = d.kept.flash) rfl (fun _ => by rw [Dev.fail_kept]) (fun _ => hrun _ _)

/-- A scan keeps the flash. -/
theorem boundaryScan_flash (d : Dev) (c : JtagInstr) (data : List Bool) : (d.boundaryScan c data).flash = d.flash := by
  unfold Dev.boundaryScan
  split
  · rfl
  · dsimp only
    split <;> rfl

/-- Every command but the firmware rows keeps the flash. -/
theorem exec_flash {i : Instr} {s t : State} (h : exec i s = .next t) (hi : Safety.writesFlash i = false) :
    t.dev.flash = s.dev.flash := by
  cases i with
  | fwWrite _ | fwEraseDone _ | fwActivate _ | fwConfirm _ | pdReady | millWatchdog => cases hi
  -- the resets
  | powerOn p =>
    cases h
    exact congrArg Kept.flash (powerOnRow_kept ..)
  | railTrip => exact flash_of_row rfl (railTrip_flash _) h
  | resetNAssert => exact flash_of_row rfl (resetNAssert_flash _) h
  | resetNRelease st cs =>
    by_cases hreset : s.dev.life = .reset
    · cases (exec_resetNRelease st cs hreset).symm.trans h
      exact congrArg Kept.flash (resetNRelease_kept ..)
    · cases (exec_resetNRelease_idle st cs hreset).symm.trans h
      rfl
  | chipResetStart => exact flash_of_row rfl (flash_ite (chipReset_flash _) rfl) h
  | warmStart src => exact flash_of_row rfl (warmStart_flash ..) h
  | deadBatteryEntry u0Db => exact flash_of_row rfl (deadEntry_flash ..) h
  | deadBatteryVbusLoss => exact flash_of_row rfl (deadLoss_flash _) h
  | hibernateEntry => exact flash_of_row rfl (hibernateEntry_flash _) h
  -- the rows of the JTAG port and of the input supply
  | boundaryScan c data =>
    cases (gives_boundaryScan c data s).symm.trans h
    exact boundaryScan_flash s.dev c data
  | vinMonFall =>
    refine flash_of_row rfl ?_ h
    rw [Dev.withdrawLost_kept]
    refine flash_ite rfl ?_
    rw [Dev.startWake_kept, Dev.assert_kept, Dev.inputWarn_kept, Dev.queueAlerts_kept]
    rfl
  | vinMonRise =>
    refine flash_of_row rfl (flash_ite ?_ rfl) h
    rw [Dev.startWake_kept, Dev.inputWarn_kept, Dev.queueAlerts_kept]
    rfl
  -- the rows that change the boot record or the maintenance state
  | pressArmTimeout x =>
    exact flash_of_row rfl ((congrArg Kept.flash (Dev.withdrawLost_kept _)).trans (pressArmTimeout_flash ..)) h
  | ethStart => exact flash_of_row rfl (flash_ite (by simp) rfl) h
  | hubStart => exact flash_of_row rfl (flash_ite (setReady_flash ..) rfl) h
  | fwVerify _ =>
    refine flash_of_row rfl (opcodeRow_flash fun _ _ => flash_ite (by simp) ?_) h
    rw [Dev.okWith_kept]
    rfl
  | maintEnter _ =>
    refine flash_of_row rfl (opcodeRow_flash fun _ _ => flash_ite ?_ (by simp)) h
    rw [with_maint_flash]
    exact congrArg Kept.flash (Dev.okWith_kept ..)
  | maintLeave _ =>
    refine flash_of_row rfl (opcodeRow_flash fun _ _ => ?_) h
    rw [with_maint_flash]
    exact congrArg Kept.flash (Dev.okWith_kept ..)
  | pressArmed _ | quireReady | deckleReady | vatSelftestDone _ | slotCheckDone _ | flashReadTimeout _
  | millInitDone | hostStart | couchStart | couchWatchdog => exact flash_of_row rfl (by simp) h
  | _ => exact congrArg Kept.flash (exec_kept h rfl)

/-- Settles O5: a reset, a step of bring-up or another row leaves the flash itself alone, so each of its bytes. -/
theorem flashFrame : Obligations.FlashFrame := by
  intro i s t h hi a
  rw [Dev.cell, exec_flash h hi, ← Dev.cell]

end Sys2Proof.Machine

/-! # The canonical form of the flash

An erase drops entries of the table and a program writes entries; both keep its canonical form, and so does every command. -/

namespace Sys2Proof.Machine

open Sys2Proof

/-! ## Tables -/

section Tables

variable {α : Type} [DecidableEq α] {dflt : Nat → α} {t : Tab α}

/-- A table that is canonical above a key is canonical above every bound below that key. -/
theorem wfAbove_below {b : Option Nat} {k : Nat} (h : wfAbove dflt (some k) t = true) (hb : ∀ m, b = some m → m < k) :
    wfAbove dflt b t = true := by
  cases t with
  | nil => rfl
  | cons e t =>
    obtain ⟨hk, hv, ht⟩ := wfAbove_cons.1 h
    exact wfAbove_cons.2 ⟨fun m hm => (hb m hm).trans (hk k rfl), hv, ht⟩

/-- Dropping entries keeps the canonical form above a bound. -/
theorem wfAbove_filter {b : Option Nat} (p : Nat × α → Bool) (h : wfAbove dflt b t = true) :
    wfAbove dflt b (t.filter p) = true := by
  induction t generalizing b with
  | nil => rfl
  | cons e t ih =>
    obtain ⟨hk, hv, ht⟩ := wfAbove_cons.1 h
    rw [List.filter_cons]
    split
    · exact wfAbove_cons.2 ⟨hk, hv, ih ht⟩
    · exact wfAbove_below (ih ht) hk

/-- Dropping entries keeps the canonical form. -/
theorem wfTab_filter (p : Nat × α → Bool) (h : wfTab dflt t = true) : wfTab dflt (t.filter p) = true := wfAbove_filter p h

/-- What a key reads as once entries have been dropped by their keys: dropped keys read their default. -/
theorem look_filter {b : Option Nat} (p : Nat → Bool) (j : Nat) (h : wfAbove dflt b t = true) :
    look dflt (t.filter fun kv => p kv.1) j = if p j then look dflt t j else dflt j := by
  induction t generalizing b with
  | nil => simp [look]
  | cons e t ih =>
    obtain ⟨k, v⟩ := e
    have ht : wfAbove dflt (some k) t = true := (wfAbove_cons.1 h).2.2
    rw [List.filter_cons]
    rcases Nat.lt_trichotomy j k with hlt | rfl | hgt
    · have hbelow : look dflt t j = dflt j := look_below ht hlt.le
      split
      · simp [look, hlt, hlt.ne]
      · simp [look, hlt, hlt.ne, ih ht, hbelow]
    · split
      · simp [look]
      · rename_i hdrop
        simp [ih ht, hdrop]
    · split
      · simp [look, hgt.ne', hgt.not_gt, ih ht]
      · simp [look, hgt.ne', hgt.not_gt, ih ht]
end Tables

/-! ## The flash -/

/-- The flash of a device is in canonical form. -/
def Dev.flashWf (d : Dev) : Prop := wfTab cellDflt d.flash = true

section Flash

variable {d : Dev}

/-- A device of the same flash. -/
theorem flashWf_of_flash {a : Dev} (ha : a.kept.flash = d.kept.flash) (h : d.flashWf) : a.flashWf := by
  rw [Dev.flashWf, flash_eta, ha]
  exact h

/-- A device that keeps the same. -/
theorem flashWf_of_kept {a : Dev} (ha : a.kept = d.kept) (h : d.flashWf) : a.flashWf :=
  flashWf_of_flash (congrArg Kept.flash ha) h

/-- Whichever branch is taken, the flash is canonical. -/
theorem flashWf_ite {c : Prop} [Decidable c] {a b : Dev} (ha : a.flashWf) (hb : b.flashWf) : (if c then a else b).flashWf := by
  split <;> assumption

/-- An erase keeps the flash canonical. -/
theorem eraseFlash_wf (a size : Nat) (h : d.flashWf) : (d.eraseFlash a size).flashWf := wfTab_filter _ h

/-- What is programmed keeps the flash canonical. -/
theorem programFlash_wf (a : Nat) (l : List Byte) (h : d.flashWf) : (d.programFlash a l).flashWf := by
  induction l generalizing d a with
  | nil => exact h
  | cons b l ih => exact ih (a + 1) (wfTab_put a b h)

/-- A directory update keeps the flash canonical. -/
theorem writeDirectory_wf (x : Directory) (h : d.flashWf) : (d.writeDirectory x).flashWf :=
  programFlash_wf _ _ (eraseFlash_wf _ _ h)

/-- The boot ROM's directory update keeps the flash canonical. -/
theorem bootDirectory_wf (millOnly : Bool) (h : d.flashWf) : (d.bootDirectory millOnly).flashWf := by
  unfold Dev.bootDirectory
  exact flashWf_ite h (writeDirectory_wf _ (flashWf_of_flash (with_boot_flash ..) h))

/-- Erases that are cut off keep the flash canonical. -/
theorem dropErases_wf (h : d.flashWf) : d.dropErases.flashWf := by
  unfold Dev.dropErases forEach
  generalize d.boot.erasing.map Prod.fst = slots
  induction slots generalizing d with
  | nil => exact h
  | cons k slots ih => exact ih (eraseFlash_wf _ _ h)

/-- FW_WRITE keeps the flash canonical. -/
theorem fwWrite_wf (rq : Request) (x : Nat) (h : d.flashWf) : (d.fwWrite rq x).flashWf := by
  have hfail : ∀ st, (d.fail rq.name st).flashWf := fun st => flashWf_of_kept (Dev.fail_kept ..) h
  unfold Dev.fwWrite
  refine flashWf_ite (hfail _) (flashWf_ite (hfail _) (flashWf_ite ?_ (flashWf_ite (hfail _) ?_)))
  · exact flashWf_of_kept (Dev.setReq_kept ..) (eraseFlash_wf _ _ h)
  · exact flashWf_of_kept (Dev.okWith_kept ..) (programFlash_wf _ _ h)

/-- The end of an erase keeps the flash canonical. -/
theorem eraseDone_wf (k : ReqKey) (h : d.flashWf) : (d.eraseDone k).flashWf := by
  unfold Dev.eraseDone
  split
  · split
    · exact flashWf_of_kept (Dev.okWith_kept ..) (programFlash_wf _ _ (eraseFlash_wf _ _ h))
    · exact h
  · exact h

/-- FW_CONFIRM keeps the flash canonical. -/
theorem fwConfirm_wf (h : d.flashWf) : d.fwConfirm.flashWf := by
  unfold Dev.fwConfirm
  exact flashWf_ite (flashWf_of_flash (with_boot_flash ..) (writeDirectory_wf _ h)) h

/-- PD_READY loads the ports, or restarts the engines at a warm start, and reads the directory. -/
theorem pdReadyRow_eq (hdue : (d.up && d.isReady 1 && !d.isReady 2) = true) : ∃ a : Dev, a.kept = d.kept ∧
    d.pdReadyRow = ({ a with maint := a.maint && a.boot.warm }.setReady 2 true).bootDirectory false := by
  unfold Dev.pdReadyRow
  rw [if_pos hdue]
  refine ⟨_, kept_ite (kept_forN (fun _ _ => Dev.pdRestart_kept ..) rfl) ?_, rfl⟩
  rw [Dev.pdRestart_kept, Dev.loadPortRegs_kept]
  exact kept_forN (fun _ _ => Dev.loadPort_kept ..) (Dev.loadWord_kept ..)

/-- PD_READY keeps the flash canonical. -/
theorem pdReadyRow_wf (h : d.flashWf) : d.pdReadyRow.flashWf := by
  by_cases hdue : (d.up && d.isReady 1 && !d.isReady 2) = true
  · obtain ⟨a, hkept, hrow⟩ := pdReadyRow_eq hdue
    rw [hrow]
    refine bootDirectory_wf _ (flashWf_of_flash (setReady_flash ..) ?_)
    exact flashWf_of_flash (with_maint_flash ..) (flashWf_of_kept hkept h)
  · rw [Dev.pdReadyRow, if_neg hdue]
    exact h

/-- The Mill watchdog keeps the flash canonical. -/
theorem millWatchdog_wf (h : d.flashWf) : d.millWatchdog.flashWf := by
  unfold Dev.millWatchdog
  refine flashWf_ite ?_ h
  extract_lets d1 runs k p0 p1 b d2
  have h1 : d1.flashWf := dropErases_wf (flashWf_of_kept (d := d) (by simp) h)
  have h2 : d2.kept.flash = d1.kept.flash := rfl
  refine flashWf_of_flash (checkImage_flash ..) (bootDirectory_wf _ ?_)
  exact flashWf_of_flash ((setReady_flash ..).trans ((setReady_flash ..).trans h2)) h1

end Flash

/-! ## The rows -/

/-- A row that answers with a device of canonical flash. -/
theorem flashOk_of_row {i : Instr} {s t : State} {d : Dev} (hrow : exec i s = .next { s with dev := d })
    (hd : d.flashWf) (h : exec i s = .next t) : Safety.flashOk t := by
  cases hrow.symm.trans h
  exact hd

/-- A firmware opcode keeps the flash canonical when the execution of its request does. -/
theorem opcodeRow_wf {d : Dev} {k : ReqKey} {o : Nat} {mine : List Byte → Bool} {run : Request → Dev → Dev}
    (h : d.flashWf) (hrun : ∀ rq, (run rq d).flashWf) : (d.opcodeRow k o mine run).flashWf :=
  opcodeRow_ind h (fun _ => flashWf_of_kept (Dev.fail_kept ..) h) hrun

/-- Every command keeps the flash canonical: six may write it, and the others leave it alone. -/
theorem exec_flashOk {i : Instr} {s t : State} (hok : Safety.flashOk s) (h : exec i s = .next t) : Safety.flashOk t := by
  by_cases hi : Safety.writesFlash i = false
  · rw [Safety.flashOk, exec_flash h hi]
    exact hok
  cases i with
  | fwWrite k => exact flashOk_of_row rfl (opcodeRow_wf hok fun _ => fwWrite_wf _ _ hok) h
  | fwEraseDone k => exact flashOk_of_row rfl (eraseDone_wf k hok) h
  | fwActivate k =>
    refine flashOk_of_row rfl (opcodeRow_wf hok fun _ => ?_) h
    refine flashWf_ite ?_ ?_
    · exact flashWf_of_kept (Dev.fail_kept ..) hok
    · exact flashWf_of_kept (Dev.okWith_kept ..) (writeDirectory_wf _ hok)
  | fwConfirm k =>
    exact flashOk_of_row rfl (opcodeRow_wf hok fun _ => flashWf_of_kept (Dev.okWith_kept ..) (fwConfirm_wf hok)) h
  | pdReady => exact flashOk_of_row rfl (pdReadyRow_wf hok) h
  | millWatchdog => exact flashOk_of_row rfl (millWatchdog_wf hok) h
  | _ => exact absurd rfl hi

/-- A command leaves the queue alone. -/
theorem exec_pending {i : Instr} {s t : State} (h : exec i s = .next t) : t.pending = s.pending := by
  by_cases hi : samplesStraps i = false
  · obtain ⟨d, hd⟩ := exec_eq_next s hi
    cases hd.symm.trans h
    rfl
  cases i with
  | powerOn p =>
    cases (exec_powerOn p.straps p.csLow s).symm.trans h
    rfl
  | resetNRelease st cs =>
    by_cases hreset : s.dev.life = .reset
    · cases (exec_resetNRelease st cs hreset).symm.trans h
      rfl
    · cases (exec_resetNRelease_idle st cs hreset).symm.trans h
      rfl
  | _ => exact absurd rfl hi

/-- Settles O6: a command keeps the flash canonical, and the queue left behind it is a part of the one before. -/
theorem flashCanonical : Obligations.FlashCanonical := by
  intro s t ⟨hflash, hqueue⟩ h
  unfold step at h
  split at h
  · cases h
    exact ⟨hflash, hqueue⟩
  · rename_i c rest hpending
    refine ⟨exec_flashOk (s := { s with pending := rest }) hflash h, fun x hx => hqueue x ?_⟩
    rw [exec_pending h] at hx
    rw [hpending]
    exact List.mem_cons_of_mem c hx

/-- Settles O7: both are empty. -/
theorem resetFlashCanonical : Obligations.ResetFlashCanonical := ⟨rfl, fun _ hc => absurd hc List.not_mem_nil⟩

end Sys2Proof.Machine

/-! # The Firmware opcodes

What FW_INFO to FW_CONFIRM do to the request whose turn has come (R81, R437, R438), and what the bytes of the flash read as
after an erase and a program (R66). -/

namespace Sys2Proof.Machine

open Sys2Proof

/-! ## Parameters -/

/-- IMAGE and SLOT name the slot of that number (R437). -/
theorem slotNamed_params {img sl : Byte} {x : Nat} (himg : img = 1 ∨ img = 2) (hsl : sl = 0 ∨ sl = 1)
    (hx : x = 2 * (img.toNat - 1) + sl.toNat) (rest : List Byte) : slotNamed (img :: sl :: rest) = some x := by
  subst hx
  rcases himg with rfl | rfl
  · rcases hsl with rfl | rfl <;> rfl
  · rcases hsl with rfl | rfl <;> rfl

@[simp] theorem length_leBytes (n v : Nat) : (leBytes n v).length = n := by
  induction n generalizing v with
  | zero => rfl
  | succ n ih => rw [leBytes, List.length_cons, ih]

/-- The low bytes of a number spell it again when they hold it. -/
theorem leNat_leBytes {n v : Nat} (hv : v < 256 ^ n) : leNat (leBytes n v) = v := by
  induction n generalizing v with
  | zero =>
    rw [Nat.lt_one_iff.1 hv]
    rfl
  | succ n ih =>
    have hdiv : v / 256 < 256 ^ n := Nat.div_lt_of_lt_mul (by rwa [Nat.pow_succ'] at hv)
    rw [leBytes, leNat, ih hdiv, BitVec.toNat_ofNat]
    exact Nat.mod_add_div v 256

/-- A field behind others reads as the number written there. -/
theorem leAt_append {n v : Nat} (pre rest : List Byte) (hv : v < 256 ^ n) :
    leAt (pre ++ leBytes n v ++ rest) pre.length n = v := by
  rw [leAt, List.append_assoc, List.drop_left, List.take_left' (length_leBytes n v), leNat_leBytes hv]

section Slots

variable {d : Dev} {rq : Request} {x : Nat}

/-- FW_WRITE at OFFSET 0 starts the erase and waits for its end (R438). -/
theorem fwWrite_erases (hruns : d.slotRuns x = false) (hidle : d.slotErasing x = none) (hoff : leAt rq.params 4 4 = 0) :
    d.fwWrite rq x = (((d.setSlotVerified x false).eraseFlash (slotBase x) (slotSize x)).setSlotErasing x
      (some rq.name)).setReq rq.name fun r => { r with phase := .fwErase (slotAt x) } := by
  simp only [Dev.fwWrite, hruns, hidle, hoff, Option.isSome_none, Bool.false_eq_true, if_false, if_true]

/-- FW_WRITE at the slot's POSITION programs the chunk there (R438). -/
theorem fwWrite_programs (hruns : d.slotRuns x = false) (hidle : d.slotErasing x = none) {off : Nat}
    (hoff : leAt rq.params 4 4 = off) (hpos : 0 < off) (hnext : off = d.slotPosition x)
    (hfits : off + (rq.params.drop 8).length ≤ slotSize x) :
    d.fwWrite rq x = (((d.setSlotVerified x false).programFlash (slotBase x + off) (rq.params.drop 8)).setSlotPosition x
      (off + (rq.params.drop 8).length)).okWith rq (leBytes 4 (off + (rq.params.drop 8).length)) := by
  simp only [Dev.fwWrite, hruns, hidle, hoff, Option.isSome_none, Bool.false_eq_true, if_false, hpos.ne', ← hnext, ne_eq,
    not_true_eq_false, decide_false, Bool.false_or, hfits.not_gt]

/-- The number of a slot. -/
theorem slotNo_slotAt (hx : x < 4) : slotNo (slotAt x) = x := by
  interval_cases x <;> rfl

/-- The end of an erase programs the chunk that waits at the slot's start (R438). -/
theorem eraseDone_waiting {k : ReqKey} (hx : x < 4) (hfind : d.findReq k = some rq) (hphase : rq.phase = .fwErase (slotAt x)) :
    d.eraseDone k = ((((d.eraseFlash (slotBase x) (slotSize x)).programFlash (slotBase x) (rq.params.drop 8)).setSlotErasing x
      none).setSlotPosition x (rq.params.drop 8).length).okWith rq (leBytes 4 (rq.params.drop 8).length) := by
  simp only [Dev.eraseDone, hfind, hphase, slotNo_slotAt hx]

end Slots

/-! ## The bytes of the flash -/

section Cells

variable {d : Dev}

/-- Devices of one flash read alike. -/
theorem cell_of_flash {a : Dev} (h : a.kept.flash = d.kept.flash) (j : Nat) : a.cell j = d.cell j :=
  congrArg (look cellDflt · j) h

/-- Erased bytes read 0xFF, and the others as before (R66). -/
theorem cell_eraseFlash (a n j : Nat) (h : d.flashWf) :
    (d.eraseFlash a n).cell j = if a ≤ j ∧ j < a + n then 0xFF else d.cell j := by
  rw [Dev.cell, Dev.eraseFlash, look_filter (fun k => !decide (a ≤ k ∧ k < a + n)) j h]
  by_cases hj : a ≤ j ∧ j < a + n
  · simp [hj, cellDflt]
  · simp [hj, Dev.cell]

/-- Programmed bytes read as programmed, and the others as before (R66). -/
theorem cell_programFlash (a j : Nat) (l : List Byte) (h : d.flashWf) :
    (d.programFlash a l).cell j = if a ≤ j ∧ j < a + l.length then l.getD (j - a) 0 else d.cell j := by
  induction l generalizing d a with
  | nil => exact (if_neg (fun hj : a ≤ j ∧ j < a + 0 => by omega)).symm
  | cons b l ih =>
    rw [Dev.programFlash, ih (d := d.setCell a b) (a + 1) (wfTab_put a b h), Dev.cell_setCell _ _ _ _ h, List.length_cons]
    rcases Nat.lt_trichotomy j a with hlt | rfl | hgt
    · rw [if_neg (by omega), if_neg hlt.ne, if_neg (by omega)]
    · simp
    · have hcons : (b :: l).getD (j - a) 0 = l.getD (j - (a + 1)) 0 := by
        rw [show j - a = j - (a + 1) + 1 by omega, List.getD_cons_succ]
      rw [hcons, if_neg hgt.ne']
      exact if_congr (by omega) rfl rfl

end Cells

section Rows

variable {k : ReqKey} {rq : Request} {s : State}

/-- FW_INFO answers with the boot status and the four slots. -/
theorem gives_fwInfo (hturn : Safety.turn s.dev k rq 0x0801) : Safety.gives (.fwInfo k) s
    (s.dev.okWith rq (wordBytes s.dev.bootStatus ++ zeros 4 ++ (List.range 4).flatMap s.dev.slotEntry)) := by
  have hrow : exec (.fwInfo k) s = execFwInfo k s := rfl
  rw [Safety.gives, hrow, execFwInfo, opcodeRow_runs hturn rfl, State.next_eq]

/-- FW_WRITE writes the slot that its parameters name. -/
theorem gives_fwWrite {x : Nat} (hturn : Safety.turn s.dev k rq 0x0802) (hslot : slotNamed rq.params = some x) :
    Safety.gives (.fwWrite k) s (s.dev.fwWrite rq x) := by
  have hrow : exec (.fwWrite k) s = execFwWrite k s := rfl
  rw [Safety.gives, hrow, execFwWrite, opcodeRow_runs hturn rfl, State.next_eq]
  simp only [hslot, Option.getD_some]

/-- FW_ERASE_DONE ends the erase of its request's slot. -/
theorem gives_fwEraseDone : Safety.gives (.fwEraseDone k) s (s.dev.eraseDone k) := rfl

/-- FW_VERIFY checks a slot that is not being erased. -/
theorem gives_fwVerify {x : Nat} (hturn : Safety.turn s.dev k rq 0x0803) (hslot : slotNamed rq.params = some x)
    (hidle : s.dev.slotErasing x = none) : Safety.gives (.fwVerify k) s (let r := s.dev.checkSlot x
      ((s.dev.setSlotResult x r).setSlotVerified x (s.dev.slotVerified x || r = 1)).okWith rq [BitVec.ofNat 8 r, 0, 0, 0]) := by
  have hrow : exec (.fwVerify k) s = execFwVerify k s := rfl
  rw [Safety.gives, hrow, execFwVerify, opcodeRow_runs hturn rfl, State.next_eq]
  simp only [hslot, Option.getD_some, hidle, Option.isSome_none, Bool.false_eq_true, if_false]

/-- FW_ACTIVATE names a verified slot in the directory. -/
theorem gives_fwActivate {x : Nat} (hturn : Safety.turn s.dev k rq 0x0804) (hslot : slotNamed rq.params = some x)
    (hverified : s.dev.slotVerified x = true) (hidle : s.dev.slotErasing x = none) : Safety.gives (.fwActivate k) s
      ((s.dev.writeDirectory (s.dev.directory.activate x (byteAt rq.params 2 = 0))).okWith rq []) := by
  have hrow : exec (.fwActivate k) s = execFwActivate k s := rfl
  rw [Safety.gives, hrow, execFwActivate, opcodeRow_runs hturn rfl, State.next_eq]
  simp only [hslot, Option.getD_some, hverified, hidle, Option.isSome_none, Bool.not_true, Bool.or_self, Bool.false_eq_true,
    if_false]

/-- FW_ACTIVATE refuses a slot that is not verified. -/
theorem gives_fwActivate_unverified {x : Nat} (hturn : Safety.turn s.dev k rq 0x0804) (hslot : slotNamed rq.params = some x)
    (hverified : s.dev.slotVerified x = false) : Safety.gives (.fwActivate k) s (s.dev.fail k stBadParam) := by
  have hrow : exec (.fwActivate k) s = execFwActivate k s := rfl
  rw [Safety.gives, hrow, execFwActivate, opcodeRow_runs hturn rfl, State.next_eq]
  simp only [hslot, Option.getD_some, hverified, Bool.not_false, Bool.true_or, if_true]

/-- FW_CONFIRM confirms the images on trial. -/
theorem gives_fwConfirm (hturn : Safety.turn s.dev k rq 0x0805) :
    Safety.gives (.fwConfirm k) s (s.dev.fwConfirm.okWith rq []) := by
  have hrow : exec (.fwConfirm k) s = execFwConfirm k s := rfl
  rw [Safety.gives, hrow, execFwConfirm, opcodeRow_runs hturn rfl, State.next_eq]

end Rows

/-- The directory that FW_ACTIVATE writes, by MODE. -/
theorem activate_mode {m : Byte} (y : Directory) (x : Nat) (img sl : Byte) (hm : m = 0 ∨ m = 1) :
    y.activate x (byteAt [img, sl, m, 0] 2 = 0) =
      if x < 2 then { y with millPrefB := x = 1, millTrial := m = 0, millUsed := false }
      else { y with couchPrefB := x = 3, couchTrial := m = 0, couchUsed := false } := by
  rcases hm with rfl | rfl <;> rfl

/-- After FW_CONFIRM no image is on trial. -/
theorem fwConfirm_trial (d : Dev) : d.fwConfirm.boot.trial = false := by
  unfold Dev.fwConfirm
  split
  · rfl
  · rename_i htrial
    exact Bool.eq_false_of_not_eq_true htrial

/-- The slot's bytes once the erase has ended: the chunk at its start, and 0xFF behind it. -/
theorem cell_eraseDone {d : Dev} {k : ReqKey} {rq : Request} {x : Nat} (hx : x < 4) (hfind : d.findReq k = some rq)
    (hphase : rq.phase = .fwErase (slotAt x)) (hwf : d.flashWf) (a : Nat) :
    (d.eraseDone k).cell a =
      if slotBase x ≤ a ∧ a < slotBase x + (rq.params.drop 8).length then (rq.params.drop 8).getD (a - slotBase x) 0
      else if slotBase x ≤ a ∧ a < slotBase x + slotSize x then 0xFF else d.cell a := by
  rw [eraseDone_waiting hx hfind hphase, ← cell_eraseFlash _ _ _ hwf, ← cell_programFlash _ _ _ (eraseFlash_wf _ _ hwf)]
  exact cell_of_flash (congrArg Kept.flash (Dev.okWith_kept ..)) a

/-- Settles O16: each row on the request whose turn has come; the erased and programmed bytes read as R438 says. -/
theorem firmwareOpcodes : Obligations.FirmwareOpcodes := by
  intro k rq s img sl x himg hsl hx
  have hx4 : x < 4 := by
    rcases himg with rfl | rfl <;> rcases hsl with rfl | rfl <;> simp [hx]
  have hnamed : ∀ {rest}, rq.params = img :: sl :: rest → slotNamed rq.params = some x := fun {rest} hp =>
    hp ▸ slotNamed_params himg hsl hx rest
  refine ⟨fun hturn _ => gives_fwInfo hturn, fun data hturn _ _ hruns hidle hp => ?_,
    fun off data hturn _ _ hpos hnext hfits hruns hidle hp => ?_, fun hfind hphase hwf => ?_,
    fun hturn hidle hp => gives_fwVerify hturn (hnamed hp) hidle, fun m hm hturn hver hidle hp => ?_,
    fun m _ hturn hver hp => gives_fwActivate_unverified hturn (hnamed hp) hver, fun hturn _ _ => ?_⟩
  · have hoff : leAt rq.params 4 4 = 0 := by rw [hp]; rfl
    have hrow := gives_fwWrite hturn (hnamed hp)
    rwa [fwWrite_erases hruns hidle hoff, findReq_name hturn.1] at hrow
  · have hsize : slotSize x ≤ 0x400000 := by unfold slotSize; split <;> decide
    have hoff : leAt rq.params 4 4 = off := by
      rw [hp]
      exact leAt_append [img, sl, 0, 0] data (by omega)
    have hdata : rq.params.drop 8 = data := by rw [hp]; rfl
    have hrow := gives_fwWrite hturn (hnamed hp)
    rwa [fwWrite_programs hruns hidle hoff hpos hnext (by rwa [hdata]), hdata] at hrow
  · exact ⟨_, gives_fwEraseDone, cell_eraseDone hx4 hfind hphase hwf⟩
  · have hrow := gives_fwActivate hturn (hnamed hp) hver hidle
    rwa [hp, activate_mode _ _ _ _ hm] at hrow
  · refine ⟨_, gives_fwConfirm hturn, ?_⟩
    have hboot : (s.dev.fwConfirm.okWith rq []).boot = s.dev.fwConfirm.boot := congrArg Kept.boot (Dev.okWith_kept ..)
    exact (congrArg Boot.trial hboot).trans (fwConfirm_trial s.dev)

end Sys2Proof.Machine

/-! # Bring-up, the images and the watchdogs

What each step of R60, each image check of R70 to R73 and each watchdog of R77 to R79 makes of the boot record; the loads and
reports that go with a step keep it. -/

namespace Sys2Proof.Machine

open Sys2Proof

/-! ## The boot record -/

/-- Devices that keep the same keep one boot record. -/
theorem boot_of_kept {a b : Dev} (h : a.kept = b.kept) : a.boot = b.boot := congrArg Kept.boot h

/-- Devices of one flash have one directory. -/
theorem directory_of_flash {a b : Dev} (h : a.flash = b.flash) : a.directory = b.directory := by
  have hbytes : ∀ x n, a.flashBytes x n = b.flashBytes x n := fun x n => by
    simp only [Dev.flashBytes, Dev.cell, h]
  simp only [Dev.directory, Dev.dirCopy, hbytes]

/-! ## The steps -/

section Steps

variable {d : Dev}

/-- QUIRE_READY sets READY.QUIRE and takes the pin mask (R60 step 3, R65). -/
theorem quireReadyRow_boot (hup : d.up = true) (hpress : d.isReady 0 = true) (hquire : d.isReady 3 = false) :
    d.quireReadyRow.boot = { d.boot with ready := d.boot.ready ||| 8, pinMask := BitVec.ofNat 10 (bits (d.qword 1) 0 10) } := by
  unfold Dev.quireReadyRow
  rw [if_pos (by simp [hup, hpress, hquire])]
  extract_lets d1 b u d2 d3
  have h3 : d3.kept = d2.kept := by simp only [d3, Dev.loadWord_kept]
  exact boot_of_kept (b := d2) (kept_forEach (fun _ _ => Dev.loadWord_kept ..) h3)

/-- DECKLE_READY sets READY.DECKLE and starts the Deckle (R60 step 4, R182). -/
theorem deckleReadyRow_boot (hup : d.up = true) (hquire : d.isReady 3 = true) (hdeckle : d.isReady 1 = false) :
    d.deckleReadyRow.boot = { d.boot with ready := d.boot.ready ||| 2 } ∧ d.deckleReadyRow.deckle.running = true ∧
      d.deckleReadyRow.deckle.beat = if d.boot.warm then d.deckle.beat + 1 else 0 := by
  have hrow : d.deckleReadyRow = (((d.loadWord 0x009).loadWord 0x00A).setReady 1 true).startDeckle
      (if d.boot.warm then d.deckle.beat + 1 else 0) := if_pos (by simp [hup, hquire, hdeckle])
  rw [hrow]
  have hkept : ((d.loadWord 0x009).loadWord 0x00A).kept = d.kept := by simp only [Dev.loadWord_kept]
  refine ⟨?_, rfl, rfl⟩
  rw [boot_of_kept (Dev.startDeckle_kept ..), ← boot_of_kept hkept]
  rfl

/-- Programming the flash keeps the boot record. -/
theorem programFlash_boot (d : Dev) (a : Nat) (l : List Byte) : (d.programFlash a l).boot = d.boot := by
  induction l generalizing d a with
  | nil => rfl
  | cons b l ih => exact ih (d.setCell a b) (a + 1)

/-- The boot ROM's directory update notes in the boot record whether a trial was reverted, and nothing else (R72). -/
theorem bootDirectory_boot (d : Dev) (millOnly : Bool) :
    ∃ r, (d.bootDirectory millOnly).boot = { d.boot with reverted := r } := by
  unfold Dev.bootDirectory
  extract_lets x y r b d1
  refine ⟨r, ?_⟩
  split
  · rfl
  · exact programFlash_boot (d1.eraseFlash ..) _ _

/-- PD_READY sets READY.PD. -/
theorem pdReadyRow_ready (hup : d.up = true) (hdeckle : d.isReady 1 = true) (hpd : d.isReady 2 = false) :
    d.pdReadyRow.boot.ready = d.boot.ready ||| 4 := by
  obtain ⟨a, hkept, hrow⟩ := pdReadyRow_eq (d := d) (by simp [hup, hdeckle, hpd])
  obtain ⟨r, hr⟩ := bootDirectory_boot ({ a with maint := a.maint && a.boot.warm }.setReady 2 true) false
  rw [hrow, hr, ← boot_of_kept hkept]
  rfl

/-- The check of the preferred slot of an image. -/
theorem checkImage_boot (d : Dev) (couch : Bool) : (d.checkImage couch).boot =
    let slot := slotAt (d.directory.preferred couch)
    { d.boot with checking := some slot, first := some slot } := rfl

/-- What is kept, with a READY bit set or cleared. -/
def Kept.setReady (k : Kept) (i : Nat) (v : Bool) : Kept :=
  { k with boot := { k.boot with ready :=
      if v then k.boot.ready ||| BitVec.ofNat 10 (2 ^ i) else k.boot.ready &&& ~~~ BitVec.ofNat 10 (2 ^ i) } }

/-- A READY bit changes alike on devices that keep the same. -/
theorem setReady_kept {a b : Dev} (i : Nat) (v : Bool) (h : a.kept = b.kept) : (a.setReady i v).kept = (b.setReady i v).kept :=
  congrArg (Kept.setReady · i v) h

/-- The Vat's self-test, every bank good (R146): READY.VAT is set, and the images follow. -/
theorem selftestDone_passed (st : Straps) (hup : d.up = true) (hpd : d.isReady 2 = true) (hnot : d.isReady 4 = false)
    (hgo : d.boot.stopped = false) (hretired : bits (d.qword 3) 0 9 = 0) :
    ∃ a : Dev, d.selftestDone st 0 = a.startImages st ∧ a.kept = (d.setReady 4 true).kept := by
  unfold Dev.selftestDone
  rw [if_pos (by simp [hup, hpd, hnot, hgo])]
  have hvat : ∀ (a : Dev) (v : Vat), ({ a with vat := v } : Dev).kept = a.kept := fun _ _ => rfl
  extract_lets old v d1 newly d2 good b d3 v'
  have hnewly : newly = [] := by simp [newly, bit]
  have h2 : d2 = d1 := by
    simp only [d2, hnewly]
    rfl
  have hgood : good.length = 9 := by
    have hold : d2.vat.retired = 0 := by
      rw [h2]
      exact congrArg (BitVec.ofNat 9) hretired
    simp only [good, hold]
    rfl
  split
  · rename_i hnone
    rw [hgood] at hnone
    cases hnone
  · extract_lets depth k d4 d5 d6
    have h3 : d2.loadVat.kept = d.kept := by rw [Dev.loadVat_kept, h2, hvat]
    have h4 : d4.kept = (d.setReady 4 true).kept := (hvat ..).trans (setReady_kept 4 true h3)
    have h5 : d5.kept = (d.setReady 4 true).kept := kept_ite ((Dev.assert_kept ..).trans h4) h4
    have h6 : d6.kept = (d.setReady 4 true).kept := kept_ite ((Dev.assert_kept ..).trans h5) h5
    exact ⟨d6.loadHeadbox, rfl, (Dev.loadHeadbox_kept d6).trans h6⟩

/-- Without RECOVERY strapped the first image check is that of the Mill's preferred slot (R72). -/
theorem startImages_checks {st : Straps} (hcfg : bits st.cfg 2 2 ≠ 2) : d.startImages st = d.checkImage false := if_neg hcfg

/-- MILL_INIT_DONE sets READY.MILL (R60). -/
theorem millInitDone_boot (hup : d.up = true) (hchosen : d.boot.millChosen = true) (hmill : d.isReady 8 = false)
    (hfirst : d.boot.millOnly = false) :
    d.millInitDone.boot = { d.boot with ready := d.boot.ready ||| 256, millChosen := false } := by
  have hfirst' : (d.setReady 8 true).boot.millOnly = false := hfirst
  simp only [Dev.millInitDone, hup, hchosen, hmill, hfirst', Bool.and_self, Bool.not_false, if_true, Bool.false_eq_true, if_false]
  rw [← hfirst]
  rfl

/-- HOST_START sets READY.HOST (R60). -/
theorem hostStart_boot (hup : d.up = true) (hmill : d.isReady 8 = true) (hhost : d.isReady 5 = false) :
    d.hostStart.boot = { d.boot with ready := d.boot.ready ||| 32, hostRuns := true } := by
  unfold Dev.hostStart
  rw [if_pos (by simp [hup, hmill, hhost])]
  exact boot_of_kept (setReady_kept 5 true (Dev.loadReam_kept _))

/-- COUCH_START sets READY.COUCH (R60). -/
theorem couchStart_boot (hup : d.up = true) (hchosen : d.boot.couchChosen = true) (hhost : d.isReady 5 = true)
    (hcouch : d.isReady 9 = false) :
    d.couchStart.boot.ready = d.boot.ready ||| 512 ∧ d.couchStart.boot.couchChosen = false := by
  unfold Dev.couchStart
  rw [if_pos (by simp [hup, hchosen, hhost, hcouch])]
  extract_lets d1 b d2 d3
  have h1 : d1.kept = d.kept := by
    refine kept_forN (fun _ _ => Dev.loadWord_kept ..) ?_
    rw [Dev.loadWord_kept, Dev.handKeys_kept]
  have h2 : d2.boot.ready = d.boot.ready ||| 512 ∧ d2.boot.couchChosen = false := by
    rw [← boot_of_kept h1]
    exact ⟨rfl, rfl⟩
  have h3 : d3.kept = d2.kept := Dev.claimAllowance_kept ..
  rw [boot_of_kept (kept_ite (kept_ite ((Dev.linkStart_kept ..).trans h3) h3) (Dev.dropAllowance_kept ..))]
  exact h2

/-! ## The images -/

/-- The slot of a slot's number. -/
theorem slotAt_slotNo (slot : FwSlot) : slotAt (slotNo slot) = slot := by cases slot <;> rfl

/-- An accepted Mill image is started, and the check of the Couch's preferred slot follows (R60, R72). -/
theorem acceptMill_boot {k : Nat} (hcouch : d.boot.couch = none) :
    (d.acceptMill k).boot.mill = some (imageOf (d.slotHeader k)) ∧ (d.acceptMill k).boot.millChosen = true ∧
      (d.acceptMill k).boot.wdogArmed = true ∧
        (d.acceptMill k).boot.checking = some (slotAt (2 + b2n d.directory.couchPrefB)) := by
  unfold Dev.acceptMill
  extract_lets m d1 b d2 b2 d3
  have hnone : d2.boot.couch = none := (congrArg Boot.couch (boot_of_kept (Dev.newEpoch_kept d))).trans hcouch
  have h3 : d3 = d2.checkImage true := by simp only [d3, hnone]
  have hflash : d1.flash = d.flash := flash_of_kept (Dev.newEpoch_kept d)
  have hdir : d2.directory = d.directory := directory_of_flash hflash
  rw [h3]
  refine ⟨rfl, rfl, rfl, ?_⟩
  exact congrArg (fun x : Directory => some (slotAt (x.preferred true))) hdir

/-- A check that finds the Mill image acceptable takes it (R70). -/
theorem slotDone_accepts {k : Nat} (hup : d.up = true) (hchecking : d.boot.checking = some (slotAt k)) (hk : k < 2) :
    d.slotDone k 1 = ((d.setSlotResult k 1).setSlotVerified k true).acceptMill k := by
  simp [Dev.slotDone, hup, hchecking, Nat.not_le.2 hk]

/-- A rejected slot that was tried first makes way for the other slot of its image (R72). -/
theorem slotDone_other {k r : Nat} (hup : d.up = true) (hchecking : d.boot.checking = some (slotAt k)) (hr : r ≠ 1)
    (hfirst : d.boot.first = some (slotAt k)) :
    (d.slotDone k r).boot.checking = some (slotAt (if k % 2 = 0 then k + 1 else k - 1)) := by
  simp [Dev.slotDone, hup, hchecking, hr, hfirst]

/-- Without an acceptable slot the Couch is held (R73). -/
theorem slotDone_holdsCouch {k r : Nat} (hup : d.up = true) (hchecking : d.boot.checking = some (slotAt k)) (hr : r ≠ 1)
    (hfirst : d.boot.first ≠ some (slotAt k)) (hk : 2 ≤ k) :
    d.slotDone k r = ((d.setSlotResult k r).setSlotVerified k false).holdCouch := by
  simp [Dev.slotDone, hup, hchecking, hr, hfirst, hk]

/-! ## Ethernet -/

/-- A port's settings are those of its Quire words (R94). -/
theorem eth_ethLoad_same (e : Nat) (hwf : wfTab ethDflt d.eths = true) :
    ((d.ethLoad e).eth e).configured = true ∧ ((d.ethLoad e).eth e).ip4Addr = d.qword (0x060 + 16 * e) := by
  rw [show (d.ethLoad e).eth e = _ from (Dev.eth_setEth d e e _ hwf).trans (if_pos rfl)]
  exact ⟨rfl, rfl⟩

/-- The settings of the other port stand. -/
theorem eth_ethLoad_other {e j : Nat} (hj : j ≠ e) (hwf : wfTab ethDflt d.eths = true) : (d.ethLoad e).eth j = d.eth j :=
  (Dev.eth_setEth d e j _ hwf).trans (if_neg hj)

/-- Both ports are configured. -/
theorem ethLoad_both (hwf : wfTab ethDflt d.eths = true) :
    let a := (d.ethLoad 0).ethLoad 1
    (a.eth 0).configured = true ∧ (a.eth 0).ip4Addr = d.qword 0x060 ∧ (a.eth 1).configured = true ∧
      (a.eth 1).ip4Addr = d.qword 0x070 := by
  have hwf0 : wfTab ethDflt (d.ethLoad 0).eths = true := wfTab_put _ _ hwf
  obtain ⟨hset0, hip0⟩ := eth_ethLoad_same 0 hwf
  obtain ⟨hset1, hip1⟩ := eth_ethLoad_same 1 hwf0
  dsimp only
  rw [eth_ethLoad_other (by decide) hwf0]
  exact ⟨hset0, hip0, hset1, hip1⟩

/-! ## The watchdogs -/

/-- Erases that are cut off leave READY alone. -/
theorem dropErases_ready (d : Dev) : d.dropErases.boot.ready = d.boot.ready := by
  unfold Dev.dropErases forEach
  generalize d.boot.erasing.map Prod.fst = slots
  induction slots generalizing d with
  | nil => rfl
  | cons k slots ih => exact ih ((d.eraseFlash (slotBase k) (slotSize k)).setSlotErasing k none)

/-- The Mill watchdog takes READY.MILL and READY.HOST away, and the boot ROM checks a Mill slot (R77, R79). -/
theorem millWatchdog_boot (hup : d.up = true) (hgo : d.halted = false) (harmed : d.boot.wdogArmed = true)
    (hlate : d.boot.millFrom + 800 ≤ d.now) :
    d.millWatchdog.boot.ready = d.boot.ready &&& 0x2DF ∧ d.millWatchdog.boot.mill = none ∧
      d.millWatchdog.boot.wdogArmed = false ∧ d.millWatchdog.boot.state = .booting ∧ d.millWatchdog.boot.checking ≠ none := by
  unfold Dev.millWatchdog
  rw [if_pos (by simp [hup, hgo, harmed, wdogMf, hlate])]
  extract_lets d1 runs k p0 p1 b d2
  have h1 : d1.boot.ready = d.boot.ready := by
    refine (dropErases_ready _).trans (congrArg Boot.ready (boot_of_kept ?_))
    rw [Dev.resetSv0_kept, Dev.dropWork_kept, Dev.assert_kept]
  obtain ⟨r, hr⟩ := bootDirectory_boot ((d2.setReady 8 false).setReady 5 false) true
  rw [checkImage_boot, hr, ← h1]
  exact ⟨BitVec.and_assoc .., rfl, rfl, rfl, Option.some_ne_none _⟩

/-- The Couch watchdog takes READY.COUCH away and has the image started again (R77). -/
theorem couchWatchdog_boot (hup : d.up = true) (hgo : d.halted = false) (hcouch : d.isReady 9 = true)
    (hlate : d.boot.couchFrom + 800 ≤ d.now) :
    d.couchWatchdog.boot.ready = d.boot.ready &&& 0x1FF ∧ d.couchWatchdog.boot.couchChosen = true := by
  unfold Dev.couchWatchdog
  rw [if_pos (by simp [hup, hgo, hcouch, wdogMf, hlate])]
  extract_lets d1 d2 d3 b
  have h2 : d2.kept = d.kept := kept_forEach (fun _ _ => kept_ite (by simp) rfl) (Dev.assert_kept ..)
  have h3 : d3.kept = (d.setReady 9 false).kept := by
    refine setReady_kept 9 false (kept_forN (fun _ _ => Dev.relayReset_kept ..) ?_)
    rw [Dev.handKeys_kept, h2]
  exact ⟨congrArg Boot.ready (boot_of_kept h3), rfl⟩

/-- A call between the cores that is 10 ms old ends its request with TIMEOUT (R21, R118). -/
theorem crossCore_late {k : ReqKey} {rq : Request} (hfind : d.findReq k = some rq) (hlate : rq.born + 80 ≤ d.now)
    (hphase : rq.phase = .accepted ∨ ∃ l t, rq.phase = .forwarded l t) : d.crossCore k = d.answer k stTimeout [] := by
  rcases hphase with hphase | ⟨l, t, hphase⟩
  · simp only [Dev.crossCore, hfind, Nat.not_lt.2 hlate, if_false, hphase, Dev.fail]
  · simp only [Dev.crossCore, hfind, Nat.not_lt.2 hlate, if_false, hphase, Dev.fail]

end Steps

/-! ## The rows -/

/-- CROSS_CORE_TIMEOUT judges the request that it names. -/
theorem gives_crossCoreTimeout (k : ReqKey) (s : State) : Safety.gives (.crossCoreTimeout k) s (s.dev.crossCore k) := rfl

/-- HUB_START sets READY.HUB. -/
theorem gives_hubStart {s : State} (hup : s.dev.up = true) (hvat : s.dev.isReady 4 = true) (hhub : s.dev.isReady 6 = false) :
    Safety.gives .hubStart s (s.dev.setReady 6 true) := by
  have hrow : Safety.gives .hubStart s (if s.dev.up && s.dev.isReady 4 && !s.dev.isReady 6 then s.dev.setReady 6 true else s.dev) :=
    rfl
  simpa [hup, hvat, hhub] using hrow

/-- ETH_START configures both ports and sets READY.ETH. -/
theorem gives_ethStart {s : State} (hup : s.dev.up = true) (hvat : s.dev.isReady 4 = true) (heth : s.dev.isReady 7 = false) :
    Safety.gives .ethStart s (((s.dev.ethLoad 0).ethLoad 1).setReady 7 true) := by
  have hrow : Safety.gives .ethStart s (if s.dev.up && s.dev.isReady 4 && !s.dev.isReady 7 then
    ((s.dev.ethLoad 0).ethLoad 1).setReady 7 true else s.dev) := rfl
  simpa [hup, hvat, heth] using hrow

/-- The steps of R60 up to the Vat, U0 and Ethernet. -/
theorem bringUpRows : Rows.BringUpRows := by
  intro s hup
  refine ⟨fun hpress hquire => ⟨_, rfl, ?_⟩, fun hquire hdeckle => ⟨_, rfl, ?_⟩,
    fun hdeckle hpd => ⟨_, rfl, pdReadyRow_ready hup hdeckle hpd⟩,
    fun failed hpd hvat hgo hfailed hretired hcfg => ⟨_, rfl, ?_⟩, fun hvat hhub => gives_hubStart hup hvat hhub,
    fun hvat heth => ⟨_, gives_ethStart hup hvat heth, ?_, ethLoad_both⟩⟩
  · have hboot := quireReadyRow_boot hup hpress hquire
    exact ⟨congrArg Boot.ready hboot, congrArg Boot.pinMask hboot⟩
  · obtain ⟨hboot, hrun, hbeat⟩ := deckleReadyRow_boot hup hquire hdeckle
    exact ⟨congrArg Boot.ready hboot, hrun, hbeat⟩
  · subst hfailed
    obtain ⟨a, hrow, hkept⟩ := selftestDone_passed s.straps hup hpd hvat hgo hretired
    have hboot : a.boot = (s.dev.setReady 4 true).boot := boot_of_kept hkept
    have hdir : a.directory = s.dev.directory := directory_of_flash (congrArg Kept.flash hkept)
    rw [hrow, startImages_checks hcfg, checkImage_boot, hboot, hdir]
    exact ⟨rfl, rfl⟩
  · have hkept : ((s.dev.ethLoad 0).ethLoad 1).kept = s.dev.kept := by rw [Dev.ethLoad_kept, Dev.ethLoad_kept]
    exact congrArg Boot.ready (boot_of_kept (setReady_kept 7 true hkept))

/-- The choice of the images, and the start of the cores. -/
theorem imageRows : Rows.ImageRows := by
  intro s hup
  refine ⟨fun slot hchecking hslot hcouch => ⟨_, rfl, fun hok => ?_⟩, fun slot hchecking hslot hfirst => ⟨_, rfl, ?_⟩,
    fun slot hchecking hslot hfirst => ⟨_, rfl, ?_⟩, fun hchosen hmill hfirst => ⟨_, rfl, ?_⟩,
    fun hmill hhost => ⟨_, rfl, ?_⟩, fun hchosen hhost hcouch => ⟨_, rfl, couchStart_boot hup hchosen hhost hcouch⟩⟩
  · rw [← slotAt_slotNo slot] at hchecking
    have hk : slotNo slot < 2 := by rcases hslot with rfl | rfl <;> decide
    rw [hok, slotDone_accepts hup hchecking hk]
    exact acceptMill_boot hcouch
  · rw [← slotAt_slotNo slot] at hchecking hfirst
    refine (slotDone_other hup hchecking (by decide) hfirst).trans ?_
    rcases hslot with rfl | rfl <;> rfl
  · rw [← slotAt_slotNo slot] at hchecking hfirst
    have hk : 2 ≤ slotNo slot := by rcases hslot with rfl | rfl <;> decide
    rw [slotDone_holdsCouch hup hchecking (by decide) hfirst hk]
    exact ⟨rfl, rfl, rfl⟩
  · have hboot := millInitDone_boot hup hchosen hmill hfirst
    exact ⟨congrArg Boot.ready hboot, congrArg Boot.millChosen hboot⟩
  · exact congrArg Boot.ready (hostStart_boot hup hmill hhost)

/-- The watchdogs, and the calls between the cores. -/
theorem watchdogRows : Rows.WatchdogRows := by
  intro s
  refine ⟨fun hup hgo harmed hlate => ⟨_, rfl, millWatchdog_boot hup hgo harmed hlate⟩,
    fun hup hgo hcouch hlate => ⟨_, rfl, couchWatchdog_boot hup hgo hcouch hlate⟩, fun k rq hfind hlate hphase => ?_,
    fun k rq l t hfind hlate hphase => ?_⟩
  · exact crossCore_late hfind hlate (.inl hphase) ▸ gives_crossCoreTimeout k s
  · exact crossCore_late hfind hlate (.inr ⟨l, t, hphase⟩) ▸ gives_crossCoreTimeout k s

/-- Settles O21: each row's outcome is an equation of the boot record, which the row's other operations keep. -/
theorem bringUp : Obligations.BringUp := ⟨bringUpRows, imageRows, watchdogRows⟩

end Sys2Proof.Machine

/-! # The state after reset

What the tables of the reset state read as, and the reset values that the register tables print (R60, R397, R400). -/

namespace Sys2Proof.Machine

open Sys2Proof

/-- No table of the reset state lists an entry, so each reads its default. -/
theorem resetFields : Rows.ResetState :=
  ⟨rfl, rfl, rfl, rfl, rfl, rfl, rfl, rfl, rfl, rfl, rfl, fun _ => ⟨rfl, rfl⟩, fun _ => rfl, fun _ => rfl, fun _ => rfl,
    fun _ => ⟨rfl, rfl⟩, fun _ => rfl, fun _ => ⟨rfl, rfl⟩⟩

/-- What a register stores at reset is its reset value, in effect and in its shadow. -/
theorem stored_reset (spi : Bool) (a : Nat) (i : RegInfo) : Dev.reset.stored spi a i = resetValue a := by
  unfold Dev.stored
  split <;> rfl

/-- A register that shows no state of its own and lies below the fuses' block reads its reset value. -/
theorem resetsTo_stored {a : Nat} {i : RegInfo} (hquire : quireAt a = none) (hinfo : regInfo a = some i)
    (hshown : Dev.reset.shown Straps.open a = none) (hblock : a < 0x140000) : Safety.resetsTo a i.reset := by
  have hvalue : resetValue a = i.reset := by simp only [resetValue, hinfo]
  have hmeas : ¬ (0x140000 ≤ a ∧ a < 0x142000 ∧ a % 0x100 = 0x14) := by omega
  have hcable : ¬ (0x180000 ≤ a ∧ a < 0x1A0000 ∧ a % 0x1000 = 4) := by omega
  have hread : State.reset.dev.readReg State.reset.straps true a = (Dev.reset.stored true a i, Dev.reset) := by
    simp only [State.reset, Dev.readReg, hquire, hinfo, hshown, hmeas, hcable, if_false]
  rw [Safety.resetsTo, hread, stored_reset, hvalue]

section Subscribers

variable {n : Nat} (hn : n < 1024)
include hn

/-- The rate of subscriber n. -/
theorem infoHeadbox_rate : infoHeadbox (0x1000 + 0x10 * n) = some (.rws 1 0x800FFFFF 0x80000000) := by
  have hrow : (0x1000 + 0x10 * n - 0x1000) % 0x10 = 0 := by omega
  unfold infoHeadbox
  split
  case h_8 =>
    rw [if_neg (by omega), if_pos (by omega), hrow]
    rfl
  all_goals omega

/-- The burst of subscriber n. -/
theorem infoHeadbox_burst : infoHeadbox (0x1004 + 0x10 * n) = some (.rws 1 0xFFFFFF 0x10000) := by
  have hrow : (0x1004 + 0x10 * n - 0x1000) % 0x10 = 4 := by omega
  unfold infoHeadbox
  split
  case h_8 =>
    rw [if_neg (by omega), if_pos (by omega), hrow]
    rfl
  all_goals omega

end Subscribers

section Headbox

variable {o : Nat}

/-- Of the subscribers' registers the tokens alone show state of their own. -/
theorem readHeadbox_settings (d : Dev) (hsub : 0x1000 ≤ o) (htokens : o % 0x10 ≠ 8) : d.readHeadbox o = none := by
  unfold Dev.readHeadbox
  split
  case h_5 => exact if_neg fun h => htokens h.2
  all_goals omega

/-- The addresses of the Headbox block (R397). -/
theorem regInfo_headbox (hword : o % 4 = 0) (hblock : o < 0x40000) : regInfo (0x040000 + o) = infoHeadbox o := by
  unfold regInfo
  rw [if_neg (by omega), if_neg (by omega), if_neg (by omega), if_neg (by omega), if_neg (by omega), if_pos (by omega),
    Nat.add_sub_cancel_left]

/-- The registers of the Headbox block that show state of their own are its own. -/
theorem shown_headbox (d : Dev) (st : Straps) (hblock : o < 0x40000) : d.shown st (0x040000 + o) = d.readHeadbox o := by
  unfold Dev.shown
  rw [if_neg (by omega), if_neg (by omega), if_neg (by omega), if_neg (by omega), if_pos (by omega), Nat.add_sub_cancel_left]

/-- A subscriber's setting reads its reset value. -/
theorem resetsTo_headbox {i : RegInfo} (hsub : 0x1000 ≤ o) (hblock : o < 0x40000) (hword : o % 4 = 0) (htokens : o % 0x10 ≠ 8)
    (hinfo : infoHeadbox o = some i) : Safety.resetsTo (0x040000 + o) i.reset := by
  refine resetsTo_stored (if_neg ?_) ((regInfo_headbox hword hblock).trans hinfo) ?_ (by omega)
  · omega
  · rw [shown_headbox _ _ hblock, readHeadbox_settings _ hsub htokens]

end Headbox

/-- HB_SUB_RATE and HB_SUB_BURST of each subscriber. -/
theorem resetsTo_subscribers : ∀ n < 1024, ∀ x ∈ ([(0x041000 + 0x10 * n, 0x80000000), (0x041004 + 0x10 * n, 0x00010000)] :
    List (Nat × W32)), Safety.resetsTo x.1 x.2 := by
  intro n hn x hx
  have hrate := resetsTo_headbox (by omega) (by omega) (by omega) (by omega) (infoHeadbox_rate hn)
  have hburst := resetsTo_headbox (by omega) (by omega) (by omega) (by omega) (infoHeadbox_burst hn)
  rw [← Nat.add_assoc] at hrate hburst
  simp only [List.mem_cons, List.not_mem_nil, or_false] at hx
  rcases hx with rfl | rfl
  · exact hrate
  · exact hburst

/-- The printed reset values: the fixed tables are read out entry by entry, the subscribers' registers by their block. -/
theorem resetRegisters : Rows.ResetRegisters := by
  refine ⟨?_, ?_, ?_, ?_, ?_, ?_, ?_, ?_, ?_, ?_, resetsTo_subscribers⟩
  all_goals
    unfold Safety.resetsTo
    decide +kernel

/-- Settles O60: every table of the reset state is empty and reads its defaults, and so do the registers. -/
theorem resetState : Obligations.ResetState := ⟨resetFields, resetRegisters⟩

end Sys2Proof.Machine

/-! # A packet that passes checks 1 to 14 of R100

It reaches check 15, which accepts it with the claim of its response or refuses it before anything is taken; and what the rows
of the opcodes do once a chip-scope RESET has been accepted. -/

namespace Sys2Proof.Machine

open Sys2Proof

section Passing

variable {a d : Dev} {e : Entry} {p : List Byte} {rq : Request} {target n : Nat}

/-- A packet for this chip is not passed on. -/
theorem passesOn_here (hplace : d.destPlace p = .here target) : d.passesOn e p = false := by
  simp only [Dev.passesOn, hplace, Bool.and_false]

/-- Recording a replay counter moves no register, so DEST leads where it led. -/
@[simp] theorem destPlace_setSubr (d : Dev) (k : Nat) (x : Subscriber) (p : List Byte) :
    (d.setSubr k x).destPlace p = d.destPlace p := rfl

/-- Checks 9 to 14 pass: the request reaches check 15 with its target. -/
theorem judge_passed (hfields : fieldsOk p = true) (hstate : d.stateStatus p = none)
    (hslot : d.slotPermits rq.keyslot (pkOpcode p) = true) (htag : d.findReq rq.name = none)
    (hroom : d.tagRoom (pkSub p) e.route = true) (hplace : d.destPlace p = .here target)
    (hattached : d.attachedAt p target = true) : d.judge e p n rq = d.check15 n { rq with target := target } := by
  simp [Dev.judge, hfields, hstate, hslot, htag, hroom, hplace, hattached]

/-- A packet that passes checks 1 to 14 is judged by check 15. -/
theorem arrive_passes (h : Safety.passes a d e p target) :
    a.arrive e p = d.check15 (chargeOf e p) { d.requestOf e p none with target := target } := by
  obtain ⟨hroute, hframe, hauth, hplace, ⟨x, hfresh, rfl⟩, htokens, hfields, hstate, hslot, htag, hroom, hattached⟩ := h
  let d := a.setSubr (pkSub p) { x with route := some (e.route, pkSlot p, false) }
  calc a.arrive e p = a.replayCheck e p (a.requestOf e p none) := arrive_verified hroute hframe hauth
    _ = d.police e p (d.requestOf e p none) := replayCheck_fresh (passesOn_here hplace) hfresh
    _ = d.judge e p (chargeOf e p) (d.requestOf e p none) := police_affords htokens
    _ = _ := judge_passed hfields hstate hslot htag hroom ((destPlace_setSubr ..).trans hplace) hattached

/-- The tokens of a request are no part of the outstanding requests. -/
@[simp] theorem spend_requests (d : Dev) (sub n : Nat) : (d.spend sub n).requests = d.requests := by
  unfold Dev.spend
  split
  · rfl
  · rfl

/-- An accepted request is outstanding behind those before it. -/
theorem accept_requests (d : Dev) (n : Nat) (rq : Request) : (d.accept n rq).requests = d.requests ++ [rq] := by
  simp only [Dev.accept, spend_requests]

/-- Nor is a claim. -/
@[simp] theorem addClaim_requests (d : Dev) (c n : Nat) : (d.addClaim c n).requests = d.requests := rfl

/-- The checks before check 15 leave the outstanding requests alone. -/
theorem passes_requests (h : Safety.passes a d e p target) : d.requests = a.requests := by
  obtain ⟨-, -, -, -, ⟨x, -, rfl⟩, -⟩ := h
  rfl

end Passing

/-- Settles O25: a packet that passes checks 1 to 14 is judged by check 15, which accepts it with its claim. -/
theorem requestAccepted : Obligations.RequestAccepted := by
  intro a d e p target n hpasses rq hparams hroom
  have haccepts : a.arrive e p = _ := (arrive_passes hpasses).trans (check15_accepts hparams hroom)
  refine ⟨haccepts, ?_⟩
  rw [haccepts, accept_requests, addClaim_requests, passes_requests hpasses]

/-! ## Refusals of check 15 and of a chip reset -/

/-- The opcodes whose parameters are empty (R421, R437, R438, R441). -/
theorem params15_empty {d : Dev} {rq : Request} {x : Nat × Nat}
    (hx : x ∈ [(0x0001, 40), (0x0002, 32), (0x0801, 104), (0x0805, 0), (0x0A06, 84)]) (hop : rq.opcode.toNat = x.1) :
    d.params15 rq = (decide (rq.params = []), x.2) := by
  have hempty : rq.params.isEmpty = decide (rq.params = []) := Bool.eq_iff_iff.2 (by simp)
  simp only [List.mem_cons, List.not_mem_nil, or_false] at hx
  rcases hx with rfl | rfl | rfl | rfl | rfl <;> simp only [Dev.params15, hop, hempty]

/-- A field of a layout reads as the number written at its offset. -/
theorem leAt_layout {p : List Byte} {i n v : Nat} (pre rest : List Byte) (hp : p = pre ++ leBytes n v ++ rest)
    (hi : pre.length = i) (hv : v < 256 ^ n) : leAt p i n = v := by
  subst hp hi
  exact leAt_append pre rest hv

/-- The layout of KEY_WRITE on one of the subscribers' slots: its range must not be empty (R414). -/
theorem keyWriteOk_slot {n : Byte} {lo hi : BitVec 10} {key : List Byte} {perm : BitVec 12} (hn : n.toNat < 64)
    (hkey : key.length = 16) :
    keyWriteOk ([n, 0, 0, 0] ++ key ++ leBytes 2 lo.toNat ++ leBytes 2 hi.toNat ++ leBytes 2 perm.toNat ++ [0, 0]) =
      decide (lo.toNat ≤ hi.toNat) := by
  generalize hp : [n, 0, 0, 0] ++ key ++ leBytes 2 lo.toNat ++ leBytes 2 hi.toNat ++ leBytes 2 perm.toNat ++ [0, 0] = p
  have hlen : p.length = 28 := by simp [← hp, hkey]
  have hname : byteAt p 0 = n.toNat := by rw [← hp]; rfl
  have hzero : zeroAt p 1 3 = true := by rw [← hp]; rfl
  have hlo : leAt p 20 2 = lo.toNat :=
    leAt_layout ([n, 0, 0, 0] ++ key) (leBytes 2 hi.toNat ++ leBytes 2 perm.toNat ++ [0, 0]) (by simp [← hp]) (by simp [hkey])
      (by omega)
  have hhi : leAt p 22 2 = hi.toNat :=
    leAt_layout ([n, 0, 0, 0] ++ key ++ leBytes 2 lo.toNat) (leBytes 2 perm.toNat ++ [0, 0]) (by simp [← hp]) (by simp [hkey])
      (by omega)
  have hperm : leAt p 24 2 = perm.toNat :=
    leAt_layout ([n, 0, 0, 0] ++ key ++ leBytes 2 lo.toNat ++ leBytes 2 hi.toNat) [0, 0] (by simp [← hp]) (by simp [hkey])
      (by omega)
  have hend : zeroAt p 26 2 = true := by
    rw [zeroAt, ← hp, List.drop_left' (by simp [hkey])]
    rfl
  have hrange : hi.toNat < 1024 ∧ perm.toNat < 4096 := ⟨hi.isLt, perm.isLt⟩
  simp [keyWriteOk, keyOfByte, hlen, hname, hn, hzero, hlo, hhi, hperm, hend, hrange]

/-- Check 15 refuses before the request takes anything, and the layouts that it demands (R100, R414). -/
theorem opcodeRefusals : Rows.OpcodeRefusals := by
  refine ⟨fun a d e p target n hpasses => ⟨fun hbad => ?_, fun hparams hfull => ?_⟩, fun d rq => ⟨fun x hx hop => ?_, ?_⟩⟩
  · exact (arrive_passes hpasses).trans (check15_bad hbad)
  · exact (arrive_passes hpasses).trans (check15_full hparams hfull)
  · exact params15_empty hx hop
  · intro n lo hi key perm hop hn hkey hparams
    simp only [Dev.params15, hop]
    rw [hparams]
    exact keyWriteOk_slot hn hkey

/-- Each of these rows is its opcode's (R423). -/
theorem resetAborts : Rows.ResetAborts := by
  intro k rq s x hx hfind hop hstart hruns hdue
  have haborts {run} : s.dev.opcodeRow k x.2 anyParams run = s.dev.answer k stResetAborted [] :=
    opcodeRow_aborts hfind hop hstart hruns (Option.isSome_iff_ne_none.2 hdue) rfl
  simp only [List.mem_cons, List.not_mem_nil, or_false] at hx
  rcases hx with rfl | rfl | rfl | rfl | rfl | rfl | rfl | rfl | rfl | rfl | rfl <;>
    exact congrArg (fun d => Host.Outcome.next { s with dev := d }) haborts

/-- Settles O26: what passes checks 1 to 14 is refused by check 15, and a row that a chip reset meets ends its request. -/
theorem refusedOpcodes : Obligations.RefusedOpcodes := ⟨opcodeRefusals, resetAborts⟩

end Sys2Proof.Machine

/-! # The management SPI

What each instruction of R89 does to a transaction that is served, awake and in DOZE. -/

namespace Sys2Proof.Machine

open Sys2Proof

section Transactions

variable {d : Dev}

/-- A wake source moves the power record alone. -/
theorem startWake_eq (d : Dev) (src : WakeSrc) : ∃ p, d.startWake src = { d with power := p } := by
  simp only [Dev.startWake]
  split
  · exact ⟨_, rfl⟩
  · split
    · exact ⟨_, rfl⟩
    · exact ⟨_, rfl⟩
  · exact ⟨_, rfl⟩

/-- A device that halts halts until the raising write is acknowledged, whatever wakes it (R315). -/
@[simp] theorem startWake_halted (d : Dev) (src : WakeSrc) : (d.startWake src).halted = d.halted := by
  simp only [Dev.startWake]
  split
  next havs => simp [Dev.halted, havs]
  next havs =>
    split
    next hdoze => simp [Dev.halted, hdoze]
    next hdoze => simp [Dev.halted, havs]
  · rfl

/-- A transaction that is served acts on the device as its falling edge leaves it. -/
theorem spiStep_served (act : Dev → Dev) (h : Safety.spi d) : d.spiStep act = act (Safety.onSpi d) := by
  obtain ⟨hup, hserved⟩ := h
  simp [Dev.spiStep, Dev.spiUp, hup, hserved, Safety.onSpi]

/-- Awake, the falling edge changes nothing. -/
theorem onSpi_awake (hgo : d.halted = false) : Safety.onSpi d = d := by simp [Safety.onSpi, hgo]

/-- In DOZE the falling edge wakes the device (R307). -/
theorem onSpi_halted (hhalt : d.halted = true) : Safety.onSpi d = d.startWake .msCsN := if_pos hhalt

/-- The falling edge of a transaction does not end a halt. -/
theorem onSpi_halted_iff (d : Dev) : (Safety.onSpi d).halted = d.halted := by
  unfold Safety.onSpi
  split
  · exact startWake_halted ..
  · rfl

end Transactions

/-! ## The register instructions (R90) -/

section Registers

variable {d : Dev}

/-- Words are written at rising addresses. -/
theorem spiWrite_eq (d : Dev) (a : Nat) (ws : List W32) : d.spiWrite (a % 2 ^ 24) ws =
    (List.range ws.length).foldl (fun e j => e.pathWrite .spi ((a + 4 * j) % 2 ^ 24) (ws.getD j 0)) d := by
  induction ws generalizing d a with
  | nil => rfl
  | cons w ws ih =>
    rw [Dev.spiWrite, Nat.mod_add_mod, ih, List.length_cons, List.range_succ_eq_map, List.foldl_cons, List.foldl_map]
    simp only [List.getD_cons_succ, List.getD_cons_zero, Nat.mul_zero, Nat.add_zero, Nat.mul_succ, Nat.add_assoc,
      Nat.add_comm 4, Nat.succ_eq_add_one]

/-- Awake, the words that the buffer holds are written (R90). -/
theorem regWr_awake (a : BitVec 24) {ws : List W32} (hgo : d.halted = false) (hlen : ws.length ≤ 16) : d.regWr a.toNat ws =
    (List.range ws.length).foldl (fun e j => e.pathWrite .spi ((a.toNat + 4 * j) % 2 ^ 24) (ws.getD j 0)) d := by
  rw [← spiWrite_eq, Nat.mod_eq_of_lt a.isLt]
  simp [Dev.regWr, hgo, hlen]

/-- In DOZE no word is written (R310). -/
theorem regWr_halted (a : Nat) (ws : List W32) (hhalt : d.halted = true) : d.regWr a ws = d.flag 0x40 25 := by
  rw [Dev.regWr, hhalt]
  rfl

/-- A register read may take a free word; it leaves the SPI alone. -/
@[simp] theorem readReg_spi (d : Dev) (st : Straps) (spi : Bool) (a : Nat) : (d.readReg st spi a).2.spi = d.spi := by
  unfold Dev.readReg
  split
  · rfl
  · split
    · rfl
    · split
      · rfl
      · split
        · rfl
        · split
          · rfl
          · rfl

/-- A mapped word that is read over the SPI is the register's value, and the SPI record stands. -/
theorem spiReadWord_mapped (d : Dev) (st : Straps) {a : Nat} (hmapped : mapped a = true) :
    (d.spiReadWord st a).1 = (d.quireAck.readReg st true a).1 ∧ (d.spiReadWord st a).2.spi = d.spi := by
  simp only [Dev.spiReadWord, hmapped, Bool.not_true, Bool.false_eq_true, if_false, true_and]
  split
  · exact readReg_spi ..
  · exact readReg_spi ..

@[simp] theorem setOut_out (d : Dev) (l : List Byte) : (d.setOut l).spi.out = l := rfl

@[simp] theorem freeWord_spi (d : Dev) : d.freeWord.2.spi = d.spi := rfl

/-- One word that is mapped is read after fewer than 32 wait bytes and a ready byte. -/
theorem regRd_ready (st : Straps) {a : Nat} (hgo : d.halted = false) (hmapped : mapped a = true) :
    ∃ m < 32, ((d.setOut []).spiRead st none a 0 1).spi.out = List.replicate m 0 ++ 0xA5 ::
      wordBytes ((d.setOut []).freeWord.2.quireAck.readReg st true a).1 := by
  have hawake : (d.setOut []).halted = false := hgo
  refine ⟨bits (d.setOut []).freeWord.1 0 5, Nat.mod_lt _ (by decide), ?_⟩
  simp only [Dev.spiRead, hawake, reduceCtorEq, decide_false, Bool.false_and, Bool.or_false, Bool.false_eq_true, if_false]
  obtain ⟨hword, hspi⟩ := spiReadWord_mapped (d.setOut []).freeWord.2 st hmapped
  rw [setOut_out, hword, hspi, freeWord_spi, setOut_out, List.nil_append, List.append_assoc]
  rfl

/-- A word that is not ready is given up after 32 wait bytes (R90). -/
theorem regRd_givenUp (st : Straps) {a n : Nat} (hn : 1 ≤ n) : (d.setOut []).spiRead st (some 0) a 0 n =
    (d.setOut (List.replicate 32 0 ++ [0x5A])).flag 0x40 26 := by
  obtain ⟨n, rfl⟩ := Nat.exists_eq_add_of_le' hn
  rfl

end Registers

section RegisterRows

variable {s : State} (h : Safety.spi s.dev)
include h

/-- REG_WR runs its transaction, and R18 is judged anew. -/
theorem sees_regWr (a : BitVec 24) (ws : List W32) :
    Safety.sees (.regWr a ws) s ((Safety.onSpi s.dev).regWr a.toNat ws) :=
  spiStep_served (fun d => d.regWr a.toNat ws) h ▸ rfl

/-- REG_RD runs its transaction. -/
theorem gives_regRd (a : BitVec 24) (n : Nat) (notReady : Option Nat) (hquire : s.dev.isReady 3 = true)
    (hgo : s.dev.halted = false) :
    Safety.gives (.regRd a n notReady) s ((s.dev.setOut []).spiRead s.straps notReady a.toNat 0 n) := by
  have hrow : Safety.gives (.regRd a n notReady) s _ := rfl
  rw [spiStep_served _ h, onSpi_awake hgo, hquire, if_pos rfl] at hrow
  exact hrow

/-- RD_STATUS runs its transaction. -/
theorem gives_rdStatus : Safety.gives .rdStatus s (Safety.onSpi s.dev).rdStatus := spiStep_served Dev.rdStatus h ▸ rfl

/-- An instruction byte outside R89 is flagged. -/
theorem gives_badInstr {c : Byte} (hc : spiInstr c = false) :
    Safety.gives (.badInstr c) s ((Safety.onSpi s.dev).flag 0x40 27) := by
  have hrow : Safety.gives (.badInstr c) s _ := rfl
  rw [spiStep_served _ h, hc] at hrow
  exact hrow

end RegisterRows

/-- The register instructions (R89, R90, R307, R310). -/
theorem spiRegisterRows : Rows.SpiRegisterRows := by
  intro s h
  refine ⟨fun a ws hlen hgo => ?_, fun a ws hhalt => ?_, fun a hquire hgo hmapped => ?_, fun a n hquire hgo hn => ?_,
    gives_rdStatus h, fun c h2 h3 h5 hA hB => ?_⟩
  · have hrow := sees_regWr h a ws
    rwa [onSpi_awake hgo, regWr_awake a hgo hlen] at hrow
  · have hrow := sees_regWr h a ws
    rwa [onSpi_halted hhalt, regWr_halted a.toNat ws ((startWake_halted ..).trans hhalt)] at hrow
  · exact ⟨_, gives_regRd h a 1 none hquire hgo, regRd_ready s.straps hgo hmapped⟩
  · exact regRd_givenUp s.straps hn ▸ gives_regRd h a n (some 0) hquire hgo
  · exact gives_badInstr h (by simpa [spiInstr, and_assoc] using ⟨h2, h3, h5, hA, hB⟩)

/-! ## The packet instructions (R91, R92) -/

section Packets

variable {d : Dev}

@[simp] theorem length_toWords (n : Nat) (l : List Byte) : (toWords n l).length = n := by
  induction n generalizing l with
  | zero => rfl
  | succ n ih => rw [toWords, List.length_cons, ih]

/-- Lead, packet and trail. -/
theorem length_pktRdWords (p : List Byte) (poison : Bool) : (pktRdWords p poison).length = (p.length + 3) / 4 + 2 := by
  simp [pktRdWords, ceilDiv]

/-- Words that are clocked to their end are shifted out as they are. -/
theorem shiftOut_all (ws : List W32) (last : W32) : shiftOut ws.length ws last = ws := by simp [shiftOut]

/-- From an empty FIFO the last word comes again. -/
theorem shiftOut_nil (n : Nat) (last : W32) : shiftOut n [] last = List.replicate n last := by
  simp [shiftOut]

/-- The lead word holds the length of the packet in its low half. -/
theorem leadWord {n : Nat} (hn : n ≤ 4096) : at_ 0xA55A 16 ||| at_ n 0 = BitVec.ofNat 32 (0xA55A0000 + n) := by
  have hor : 0xA55A <<< 16 + n = 0xA55A <<< 16 ||| n := Nat.shiftLeft_add_eq_or_of_lt (by omega) _
  rw [at_, at_, ← BitVec.ofNat_or, Nat.shiftLeft_zero, ← hor]
  rfl

/-- A packet past the space of the request FIFO is discarded with its flag, and every packet in DOZE (R91, R310). -/
theorem pktWr_full (st : Straps) {p : List Byte} (hfull : 8192 < p.length ∨ d.halted = true) :
    d.pktWr st p = d.flag 0x40 23 := by
  have hnone : (d.halted || decide (8192 < p.length)) = true := by simpa [or_comm] using hfull
  rw [Dev.pktWr, hnone]
  rfl

section Awake

variable (st : Straps) {p : List Byte} (hgo : d.halted = false) (hfits : p.length ≤ 8192)
include hgo hfits

/-- A packet of another length than its header announces is discarded with its flag (R91). -/
theorem pktWr_part (hpart : p.length ≠ 4 * ((packetLen p + 3) / 4)) : d.pktWr st p = d.flag 0x40 24 := by
  have hlen : p.length ≠ 4 * ceilDiv (packetLen p) 4 := hpart
  simp only [Dev.pktWr, hgo, Nat.not_lt.2 hfits, hlen, decide_false, Bool.or_self, Bool.false_eq_true, ne_eq, not_false_eq_true,
    if_false, if_true]
  rfl

/-- A whole packet passes through the Vat to the checks (R25, R91). -/
theorem pktWr_staged {q : List Byte} {x : Bool} {a : Dev} (hwhole : p.length = 4 * ((packetLen p + 3) / 4))
    (hstage : d.stage rqSpi rqMill 0 2 (p.take (packetLen p)) = some (q, x, a)) :
    d.pktWr st p = a.arrive { route := .spi, mustAuth := st.cfg.getLsbD 0, poison := false } q := by
  have hlen : p.length = 4 * ceilDiv (packetLen p) 4 := hwhole
  simp only [Dev.pktWr, hgo, Nat.not_lt.2 hfits, decide_false, Bool.or_self, Bool.false_eq_true, if_false, ← hlen, ne_eq,
    not_true_eq_false, hstage]
  rfl

end Awake

/-- From an empty FIFO the last word comes again, with RSP_UNDERRUN (R92). -/
theorem pktRd_empty {n : Nat} (bad : List Nat) (hrsp : d.spi.rsp = []) (hn : 1 ≤ n) :
    d.pktRd n bad = (d.setOut (wordsBytes (List.replicate n d.spi.last))).flag 0x40 22 := by
  have hclocked : 0 < n := hn
  simp only [Dev.pktRd, hrsp, shiftOut_nil, hclocked, if_true]
  rfl

/-- The bytes of a PKT_RD: the lead word, the packet's words and the trail word. -/
theorem bytes_pktRdWords {p : List Byte} (hlen : p.length ≤ 4096) : wordsBytes (pktRdWords p false) =
    wordBytes (BitVec.ofNat 32 (0xA55A0000 + p.length)) ++ wordsBytes (toWords ((p.length + 3) / 4) p) ++
      [0, 0, 0xA5, 0x5A] := by
  simp only [pktRdWords, leadWord hlen, wordsBytes, List.cons_append, List.flatMap_cons, List.flatMap_append,
    List.flatMap_nil, List.append_assoc, List.append_nil]
  rfl

/-- A read that clocks the words of the packet at the head and no more takes it from the FIFO (R92). -/
theorem pktRd_whole {p : List Byte} {rest : List (List Byte)} {bad : List Nat} (hrsp : d.spi.rsp = p :: rest)
    (hgood : ∀ i ∈ bad, (p.length + 3) / 4 ≤ i) : d.pktRd ((p.length + 3) / 4 + 2) bad =
      ({ d with spi := { d.spi with rsp := rest, last := 0x5AA50000, out := wordsBytes (pktRdWords p false) } } : Dev).leaves p := by
  have hclean : (bad.any fun i => decide (i < ceilDiv p.length 4)) = false :=
    List.any_eq_false.2 fun i hi => by
      rw [decide_eq_true_eq]
      exact Nat.not_lt.2 (hgood i hi)
  have hlast : (pktRdWords p false).getLastD d.spi.last = 0x5AA50000 := List.getLastD_concat ..
  simp only [Dev.pktRd, hrsp, hclean]
  rw [← length_pktRdWords p false, shiftOut_all, hlast]
  simp only [lt_irrefl, if_false, le_refl, if_true]

/-- A read that ends within the packet leaves it at the head (R92). -/
theorem pktRd_part {p : List Byte} {rest : List (List Byte)} {n : Nat} (bad : List Nat) (hrsp : d.spi.rsp = p :: rest)
    (hn : n < (p.length + 3) / 4 + 2) : (d.pktRd n bad).spi.rsp = p :: rest ∧ (d.pktRd n bad).requests = d.requests := by
  have hmore : n < (pktRdWords p (bad.any fun i => decide (i < ceilDiv p.length 4))).length := by rwa [length_pktRdWords]
  simp only [Dev.pktRd, hrsp, Nat.not_lt.2 hmore.le, Nat.not_le.2 hmore, if_false]
  exact ⟨trivial, trivial⟩

end Packets

section PacketRows

variable {s : State} (h : Safety.spi s.dev)
include h

/-- PKT_WR runs its transaction. -/
theorem gives_pktWr (p : List Byte) : Safety.gives (.pktWr p) s ((Safety.onSpi s.dev).pktWr s.straps p) :=
  spiStep_served (fun d => d.pktWr s.straps p) h ▸ rfl

/-- PKT_RD runs its transaction. -/
theorem gives_pktRd (n : Nat) (bad : List Nat) (hgo : s.dev.halted = false) :
    Safety.gives (.pktRd n bad) s (s.dev.pktRd n bad) := by
  have hrow : Safety.gives (.pktRd n bad) s _ := rfl
  rwa [spiStep_served _ h, onSpi_awake hgo] at hrow

end PacketRows

/-- The packet instructions (R25, R91, R92, R310). -/
theorem spiPacketRows : Rows.SpiPacketRows := by
  intro s h
  refine ⟨fun p q x d hfits hgo hwhole hstage => ?_, fun p hfits hgo hpart => ?_, fun p hfull => ?_,
    fun n bad hrsp hn hgo => ?_, fun p rest bad hrsp hlen hgo hgood => ?_, fun p rest n bad hrsp hn hgo => ?_⟩
  · have hrow := gives_pktWr h p
    rwa [onSpi_awake hgo, pktWr_staged s.straps hgo hfits hwhole hstage] at hrow
  · have hrow := gives_pktWr h p
    rwa [onSpi_awake hgo, pktWr_part s.straps hgo hfits hpart] at hrow
  · have hrow := gives_pktWr h p
    rwa [pktWr_full s.straps (hfull.imp_right (onSpi_halted_iff s.dev).trans)] at hrow
  · exact pktRd_empty bad hrsp hn ▸ gives_pktRd h n bad hgo
  · have hrow := gives_pktRd h ((p.length + 3) / 4 + 2) bad hgo
    rwa [pktRd_whole hrsp hgood, bytes_pktRdWords hlen] at hrow
  · exact ⟨_, gives_pktRd h n bad hgo, pktRd_part bad hrsp hn⟩

/-- Settles O23: a transaction acts on the device as its falling edge leaves it, with one lemma for each outcome of R90 to R92. -/
theorem spiTransport : Obligations.SpiTransport := ⟨spiRegisterRows, spiPacketRows⟩

end Sys2Proof.Machine

/-! # The IP layer in DOZE

An echo request for an address of the port wakes the device and sets `PWR_EVENT.WAKE_DROP` (R310), which stands at 0x10C. The
statement of the IP layer's answers names 0x108, the address of `PWR_STATUS`, and a device that sleeps tells the two apart. -/

namespace Sys2Proof.Machine

open Sys2Proof

/-- An echo request up to the MTU for an address of a port that runs, in DOZE, wakes the device and is dropped (R310). -/
theorem echo_asleep {d : Dev} {e : Nat} {q : NetQuery} (heth : d.ethUp e = true) (hhalt : d.halted = true)
    (hmine : d.ownAddr e q.ipv6 q.target = true) (hvlan : d.vlanOk e q.vlan = true) (hlen : q.length ≤ (d.eth e).mtu) :
    d.echo e q = ((d.startWake .ethFrame).count (selector 0x25 0 0)).flag aPwrEvent 2 := by
  simp only [Dev.echo, Dev.frameStarts, heth, hhalt, hmine, hvlan, Nat.not_lt.2 hlen, Bool.true_or, Bool.not_true, decide_false,
    Bool.or_self, Bool.false_eq_true, if_true, if_false, Dev.wakeDrop]

/-- A part in DOZE whose E0 is up with the IPv4 address 1. -/
def dozingEth : State :=
  { State.reset with
    dev := { Dev.reset with
      power := { Dev.reset.power with state := .doze }
      eths := [(0, { Eth.reset with linkUp := true, configured := true, ip4Addr := 1 })] } }

/-- An echo request for that address. -/
def dozingEcho : NetQuery :=
  { srcMac := 0, vlan := none, ipv6 := false, srcIp := 0, target := 1, length := 0, body := [] }

/-- The echo request sets WAKE_DROP in PWR_EVENT. -/
theorem echo_dozing : Safety.gives (.echoRequest 0 dozingEcho) dozingEth
    (((dozingEth.dev.startWake .ethFrame).count (selector 0x25 0 0)).flag aPwrEvent 2) := by
  have hrow : Safety.gives (.echoRequest 0 dozingEcho) dozingEth (dozingEth.dev.echo 0 dozingEcho) := rfl
  rwa [echo_asleep (by decide) (by decide) (by decide) (by decide) (by decide)] at hrow

/-- Refutes O24: in DOZE an echo request for an address of the port sets WAKE_DROP in PWR_EVENT at 0x10C, and not a bit at
0x108. -/
theorem not_ethernetAndUsbTransport : ¬ Obligations.EthernetAndUsbTransport := by
  rintro ⟨-, hethernet, -, -⟩
  obtain ⟨-, hasleep, -, -⟩ := hethernet 0 dozingEth dozingEcho (by unfold Safety.eth; decide)
  obtain ⟨-, -, hecho⟩ := hasleep (by decide)
  have hstated := hecho (by decide) (by decide)
  have hdev := (Host.Outcome.next.inj (echo_dozing.symm.trans hstated))
  have hevent := congrArg (fun s : State => s.dev.reg aPwrEvent) hdev
  exact absurd hevent (by decide)

end Sys2Proof.Machine

/-! # Free lists whose table is not canonical

A rebuilt free list has the default value, so writing it back removes its entry from the table of free lists. Where the table lists
the bank a second time, which no canonical table does, that second entry is then read. -/

namespace Sys2Proof.Machine

open Sys2Proof

/-- A part whose table of free lists lists bank 0 twice, quarantined both times, with every segment free. -/
def listedTwice : State :=
  { State.reset with dev := { Dev.reset with vat := { Vat.reset with free := [(0, ⟨8192, true⟩), (0, ⟨8192, true⟩)] } } }

/-- The rebuilt list of bank 0 takes the first entry away. -/
theorem free_rebuildList_listedTwice : (listedTwice.dev.rebuildList 0).vat.free = [(0, ⟨8192, true⟩)] := by decide

/-- Refutes O33: the statement asks for no canonical tables, and where bank 0 is listed twice its free list still reads as
quarantined once it has been rebuilt. -/
theorem not_vatQueues : ¬ Obligations.VatQueues := by
  rintro ⟨hfaults, -, -⟩
  obtain ⟨-, -, hrebuilt, -⟩ := hfaults listedTwice
  obtain ⟨hclear, -⟩ := hrebuilt 0 (by decide)
  have hlist : (listedTwice.dev.rebuildList 0).freeList 0 = ⟨8192, true⟩ := by
    rw [Dev.freeList, free_rebuildList_listedTwice]
    rfl
  exact absurd (hclear.symm.trans (congrArg FreeList.quarantined hlist)) (by decide)

end Sys2Proof.Machine

/-! # U0: bus events and requests

What the external host does to U0's bus, and what its requests to the function device and to the hub change. -/

namespace Sys2Proof.Machine

open Sys2Proof

section U0Events

variable {d : Dev}

/-- U0 connects in a running part whose hub is ready, outside CHIP_SAFE, with VBUS (R49, R57). -/
theorem u0Connects_running (hup : d.up = true) (hvbus : d.u0.vbus = true) (hready : d.boot.ready.getLsbD 6 = true)
    (hsafe : d.fc.chipSafe = false) : d.u0Connects = true := by
  simp [Dev.u0Connects, Dev.isReady, hup, hvbus, hready, hsafe]

/-- A bus reset at a speed that the part supplies takes effect (R55, R214). -/
theorem u0Reset_connected {v : Nat} (hconnects : d.u0Connects = true) (hspeed : v ≠ 0) (hdead : d.dead = true → v ≠ 3) :
    d.u0Reset v =
      let a := (d.functionReset 4).hubPortsReset
      (({ a with u0 := { a.u0 with speed := v, suspended := false, hub := UsbFunction.reset } } : Dev).u0LinkReset).startWake
        .u0 := by
  have hserved : ¬ ((!d.u0Connects || decide (v = 0) || (d.dead && decide (v = 3))) = true) := by
    simpa [hconnects, hspeed] using hdead
  rw [Dev.u0Reset, if_neg hserved]

/-- A suspend of a bus that runs takes effect (R224). -/
theorem u0Suspended_running (hconnects : d.u0Connects = true) (hruns : d.u0.suspended = false) :
    d.u0Suspended =
      let a := (d.relayReset 4 10).transparentLinks 4
      ({ a with u0 := { a.u0 with suspended := true, hub := { a.u0.hub with suspended := true } } } : Dev).updFunc 4 fun f =>
        { f with suspended := true } := by
  simp only [Dev.u0Suspended, hconnects, hruns, Bool.not_true, Bool.or_self, Bool.false_eq_true, if_false]

/-- A resume that meets no remote wake of the function device ends the suspend (R316). -/
theorem u0Resumed_suspended (hconnects : d.u0Connects = true) (hsusp : d.u0.suspended = true)
    (hquiet : (d.func 4).waking = false) :
    d.u0Resumed =
      let a := d.transparentLinks 0
      (({ a with u0 := { a.u0 with suspended := false, hub := { a.u0.hub with suspended := false, waking := false } } } :
        Dev).updFunc 4 fun f => { f with suspended := false, waking := false }).startWake .u0 := by
  simp only [Dev.u0Resumed, hconnects, hsusp, hquiet, Bool.not_true, Bool.or_self, Bool.false_eq_true, if_false]

end U0Events

/-- U0's bus events (R98, R214, R224, R316). -/
theorem u0Rows : Rows.U0Rows := by
  intro s
  refine ⟨fun v hconnects hv hdead => ?_, fun hconnects hruns => ?_, fun hconnects hsusp hquiet => ?_, u0Connects_running⟩
  · have hrow : Safety.gives (.u0BusReset v) s (s.dev.u0Reset v.toNat) := rfl
    have hspeed : v.toNat ≠ 0 := fun h => hv (BitVec.eq_of_toNat_eq h)
    have hsuper (hd : s.dev.dead = true) : v.toNat ≠ 3 := fun h => hdead hd (BitVec.eq_of_toNat_eq h)
    rwa [u0Reset_connected hconnects hspeed hsuper] at hrow
  · have hrow : Safety.gives .u0Suspend s s.dev.u0Suspended := rfl
    rwa [u0Suspended_running hconnects hruns] at hrow
  · have hrow : Safety.gives .u0Resume s s.dev.u0Resumed := rfl
    rwa [u0Resumed_suspended hconnects hsusp hquiet] at hrow

/-! ## Requests (R222, R225) -/

section Requests

variable {d : Dev} {x : Setup}

/-- A request of another type than a standard one draws a stall from the function device. -/
theorem functionRequest_other (l : Nat) (k : UsbKind) (htype : bits x.bmRequestType 5 2 ≠ 0) :
    d.functionRequest l k x = d.updFunc l fun f => { f with reply := .stall } := if_neg htype

/-- A standard request to the function device, and the relay link that it carries. -/
theorem functionRequest_std (l : Nat) (k : UsbKind) (htype : bits x.bmRequestType 5 2 = 0) :
    d.functionRequest l k x = (d.functionStd l k x).configuredLink l := if_pos htype

/-- A standard request that does not end the wait after a bus reset moves no response. -/
theorem functionStd_stays (l : Nat) (k : UsbKind)
    (hstays : (d.func l).busReset = false ∨ ((d.updFunc l fun f => d.stdRequest k f x).func l).busReset = true) :
    d.functionStd l k x = d.updFunc l fun f => d.stdRequest k f x := by
  have hnot : ¬ (((d.func l).busReset && !((d.updFunc l fun f => d.stdRequest k f x).func l).busReset) = true) := by
    rcases hstays with h | h <;> simp [h]
  exact if_neg hnot

/-- The request that ends the wait after a bus reset turns the responses that waited (R98). -/
theorem functionStd_turns (l : Nat) (k : UsbKind) (hreset : (d.func l).busReset = true)
    (hended : ((d.updFunc l fun f => d.stdRequest k f x).func l).busReset = false) :
    d.functionStd l k x = (d.updFunc l fun f => d.stdRequest k f x).turnResponses l := by
  have hends : ((d.func l).busReset && !((d.updFunc l fun f => d.stdRequest k f x).func l).busReset) = true := by
    simp [hreset, hended]
  exact if_pos hends

/-- A configuration ends the enumeration of a relay link alone (R275). -/
theorem configuredLink_idle {l : Nat} (hstate : (d.link l).state ≠ .enumerating) : d.configuredLink l = d := by
  simp [Dev.configuredLink, hstate]

/-- SET_ADDRESS takes effect. -/
theorem stdRequest_setAddress (k : UsbKind) (f : UsbFunction) {v : BitVec 16} (hv : v.toNat < 128) :
    d.stdRequest k f ⟨0, 5, v, 0, 0⟩ = { f with addr := v.toNat, reply := .ack } := by
  simp [Dev.stdRequest, stdWrite, bit, hv]

/-- SET_CONFIGURATION 1 takes effect. -/
theorem stdRequest_setConfiguration (k : UsbKind) (f : UsbFunction) : d.stdRequest k f ⟨0, 9, 1, 0, 0⟩ =
    { f with config := 1, u1Enable := false, u2Enable := false, halted := [], toggles := [], busReset := false, reply := .ack } := by
  simp [Dev.stdRequest, stdWrite, bit]

end Requests

section RequestRows

variable {s : State} (x : Setup) (hup : s.dev.u0Up = true) (hruns : s.dev.u0.suspended = false)
include hup hruns

/-- HUB_REQUEST to the function device, on a bus that runs. -/
theorem gives_hubRequest_function : Safety.gives (.hubRequest true x) s
    (s.dev.functionRequest 4 (.function (if s.dev.u0.speed = 1 then 1 else 2) s.dev.u0Relay) x) := by
  have hrow : Safety.gives (.hubRequest true x) s (s.dev.u0Request true x) := rfl
  simpa only [Dev.u0Request, hup, hruns, Bool.not_true, Bool.or_self, Bool.false_eq_true, if_false, if_true] using hrow

/-- HUB_REQUEST to the hub function that is presented, on a bus that runs. -/
theorem gives_hubRequest_hub (hhub : s.dev.hubPresented = true) :
    Safety.gives (.hubRequest false x) s (s.dev.hubFunctionRequest x) := by
  have hrow : Safety.gives (.hubRequest false x) s (s.dev.u0Request false x) := rfl
  simpa only [Dev.u0Request, hup, hruns, hhub, Bool.not_true, Bool.or_self, Bool.false_eq_true, if_false, if_true] using hrow

end RequestRows

/-- Requests over U0 (R98, R222, R225). -/
theorem hubRequestRow : Rows.HubRequestRow := by
  intro x s hup hruns
  have hfunction := gives_hubRequest_function x hup hruns
  refine ⟨fun htype => ⟨fun hstays => ?_, fun hreset hended => ?_, configuredLink_idle⟩, fun htype => ?_,
    gives_hubRequest_hub x hup hruns, fun k f v => stdRequest_setAddress k f, stdRequest_setConfiguration⟩
  · rwa [functionRequest_std 4 _ htype, functionStd_stays 4 _ hstays] at hfunction
  · rwa [functionRequest_std 4 _ htype, functionStd_turns 4 _ hreset hended] at hfunction
  · rwa [functionRequest_other 4 _ htype] at hfunction

/-- Settles O57: each bus event acts on a bus that connects, and each request has the outcome of its type. -/
theorem u0BusAndRequests : Obligations.U0BusAndRequests := ⟨u0Rows, hubRequestRow⟩

end Sys2Proof.Machine

/-! # Service frames and the timers of a link

What becomes of a service frame that a link receives, what the link sends next, and the timers and claims of a link. -/

namespace Sys2Proof.Machine

open Sys2Proof

section Received

variable {d a : Dev} {n : Nat} {f : List Byte}

/-- A frame of a service that the link carries is left to be sent again where its pool has no room (R263). -/
theorem serviceFrame_noRoom (low : Bool) (hok : frameOk f = true) (hservice : frLink f = false)
    (hcarries : d.carries n (frSvc f) (pkOpcode (frPayload f)) = true) (hroom : d.poolRoom n f = false) :
    d.serviceFrame n low f = d := by
  simp only [Dev.serviceFrame, hok, hservice, hcarries, hroom, Bool.not_false, Bool.and_self, if_true, ite_self]

/-- A frame that its pool holds, and that passes the frame checks, is taken in. -/
theorem serviceFrame_received {low : Bool} (hruns : d.couchRuns = true) (hlively : (d.link n).state.lively = true)
    (hroom : d.poolRoom n f = true) (hservice : frLink f = false) (hchecked : d.rxFrame n low f = (true, a)) :
    d.serviceFrame n low f = a.frameIn n f := by
  simp only [Dev.serviceFrame, hruns, hlively, hroom, hservice, hchecked, Bool.not_true, Bool.not_false, Bool.true_or,
    Bool.and_false, Bool.and_self, Bool.or_self, Bool.false_eq_true, if_false, if_true]

/-- A frame of a service that the link does not carry is counted and passes its pool (R276). -/
theorem frameIn_notCarried (hcarries : a.carries n (frSvc f) (pkOpcode (frPayload f)) = false) :
    a.frameIn n f = (a.noRoute n).poolPass n f := by
  simp only [Dev.frameIn, hcarries, Bool.not_false, Bool.or_true, if_true]

section ForThisChip

variable (hpos : a.posValid = true) (hcarries : a.carries n (frSvc f) (pkOpcode (frPayload f)) = true)
  (hdst : frDst f = a.position)
include hpos hcarries hdst

/-- A frame for this chip that none waits before is stored and consumed at once (R264). -/
theorem frameIn_first (hempty : (a.queue (rxQueue n 5 (frSvc f))).stamps = []) :
    a.frameIn n f = (a.poolStore n 5 (frSvc f) ⟨3, frPoison f, true, 0, f⟩).moveConsumed n (frSvc f) := by
  simp only [Dev.frameIn, hpos, hcarries, hdst, hempty, List.isEmpty_nil, Bool.not_true, Bool.or_self, Bool.false_eq_true,
    ne_eq, not_true_eq_false, if_false]

/-- A frame for this chip that others wait before is stored behind them (R264). -/
theorem frameIn_behind (hwaits : (a.queue (rxQueue n 5 (frSvc f))).stamps ≠ []) :
    a.frameIn n f = a.poolStore n 5 (frSvc f) ⟨3, frPoison f, true, 0, f⟩ := by
  have hfull : (a.queue (rxQueue n 5 (frSvc f))).stamps.isEmpty = false := by simpa using hwaits
  simp only [Dev.frameIn, hpos, hcarries, hdst, hfull, Bool.not_true, Bool.not_false, Bool.or_self, Bool.false_eq_true,
    ne_eq, not_true_eq_false, if_false, if_true]

end ForThisChip

/-- What waits moves once it can be consumed (R287). -/
theorem moveConsumed_moves {v : Nat} {r : Rec} {b : Dev} (htake : d.poolTake n 5 v = some (r, a))
    (hconsumed : a.consume r.payload r.poison = some b) : d.moveConsumed n v = b := by
  simp only [Dev.moveConsumed, htake, hconsumed, Option.getD_some]

/-- What cannot be consumed yet stays. -/
theorem moveConsumed_stays {v : Nat} {r : Rec} (htake : d.poolTake n 5 v = some (r, a))
    (hheld : a.consume r.payload r.poison = none) : d.moveConsumed n v = d := by
  simp only [Dev.moveConsumed, htake, hheld, Option.getD_none]

end Received

section Sent

variable {d : Dev} {n : Nat}

/-- A lively link of a Couch that runs sends, while the device and its USB link are awake. -/
theorem linkSends_lively (hruns : d.couchRuns = true) (hlively : (d.link n).state.lively = true) (hgo : d.halted = false)
    (hawake : d.linkAsleep n = false) : d.linkSends n = true := by
  simp [Dev.linkSends, hruns, hlively, hgo, hawake]

/-- Link control goes before the frames of service 0 (R270). -/
theorem relaySend_control {c : List Byte} {rest : List (List Byte)} (hsends : d.linkSends n = true)
    (hctl : (d.link n).ctl = c :: rest) :
    d.relaySend n 0 = (d.updLink n fun x => { x with ctl := rest }).sendFrame n false c := by
  simp [Dev.relaySend, Dev.sendControl, hsends, hctl]

/-- Without link control, a frame of the service leaves (R283). -/
theorem relaySend_service (v : Nat) (hsends : d.linkSends n = true) (hctl : (d.link n).ctl = [])
    (hpos : d.posValid = true) : d.relaySend n v = d.sendService n v := by
  simp [Dev.relaySend, hsends, hctl, hpos]

/-- The frame that the Headbox chooses leaves when it is of the service (R253, R287). -/
theorem sendService_chosen {v q : Nat} {w : Waiting} {x : Cand} {e : Dev}
    (hchosen : d.chooseUnit (linkOutput n) (fun a => a.linkCands n (a.rivals n v)) = some (x, e))
    (hwork : x.work = .relay v q w) : d.sendService n v = e.sendRelay n x v q w := by
  simp only [Dev.sendService, hchosen, hwork, if_true]

/-- While the oldest of a service waits for credits, none of that service starts (R287). -/
theorem serviceHeads_waiting {v : Nat} {x : Nat × Waiting} (holdest : d.oldestOf (d.feederGroups n v).flatten = some x)
    (hwaits : d.frameReady n v x = false) : d.serviceHeads n v = [] := by
  simp only [Dev.serviceHeads, holdest, hwaits, Bool.false_eq_true, if_false]

end Sent

/-! ## The rows of service frames -/

/-- SERVICE_FRAME brings a frame, and the Vat's alarms follow. -/
theorem gives_serviceFrame (n : Fin 5) (low : Bool) (f : List Byte) (s : State) :
    Safety.gives (.serviceFrame n low f) s (s.dev.serviceFrame n.val low f).vatAlarms := rfl

/-- RELAY_FRAME_SEND lets the link send, and the Vat's alarms follow. -/
theorem gives_relayFrameSend (n : Fin 5) (svc : Fin 4) (s : State) :
    Safety.gives (.relayFrameSend n svc) s (s.dev.relaySend n.val svc.val).vatAlarms := rfl

/-- A sweep over four numbers, written out. -/
theorem forN_four {σ : Type} (f : Nat → σ → σ) (a : σ) : forN 4 f a = f 3 (f 2 (f 1 (f 0 a))) := rfl

/-- CONSUMED_FRAME_MOVE tries the four services in order. -/
theorem gives_consumedFrameMove (n : Fin 5) (s : State) : Safety.gives (.consumedFrameMove n) s
    ((((s.dev.moveConsumed n.val 0).moveConsumed n.val 1).moveConsumed n.val 2).moveConsumed n.val 3).vatAlarms := by
  have hrow : Safety.gives (.consumedFrameMove n) s (forN 4 (fun v d => d.moveConsumed n.val v) s.dev).vatAlarms := rfl
  rwa [forN_four] at hrow

/-- Service frames in and out (R113, R263, R264, R266, R283, R287). -/
theorem serviceFrameRows : Rows.ServiceFrameRows := by
  intro n low f s hruns hlively
  have hin := gives_serviceFrame n low f s
  have hout := fun svc => gives_relayFrameSend n svc s
  refine ⟨fun hok hservice hcarries hroom => ?_,
    fun a hroom hservice hchecked hpos hcarries hdst => ⟨fun hempty => ?_, fun hwaits => ?_⟩,
    fun a hroom hservice hchecked hcarries => ?_, fun svc c rest hgo hawake hsvc hctl => ?_,
    fun svc hgo hawake hctl hpos => ?_, fun svc x e q w hgo hawake hctl hpos hchosen hwork => ?_,
    fun v x => serviceHeads_waiting, gives_consumedFrameMove n s,
    fun v r a htake => ⟨fun b => moveConsumed_moves htake, moveConsumed_stays htake⟩⟩
  · rwa [serviceFrame_noRoom low hok hservice hcarries hroom] at hin
  · rwa [serviceFrame_received hruns hlively hroom hservice hchecked, frameIn_first hpos hcarries hdst hempty] at hin
  · rwa [serviceFrame_received hruns hlively hroom hservice hchecked, frameIn_behind hpos hcarries hdst hwaits] at hin
  · rwa [serviceFrame_received hruns hlively hroom hservice hchecked, frameIn_notCarried hcarries] at hin
  · subst hsvc
    exact relaySend_control (linkSends_lively hruns hlively hgo hawake) hctl ▸ hout 0
  · exact relaySend_service svc.val (linkSends_lively hruns hlively hgo hawake) hctl hpos ▸ hout svc
  · have hservice := relaySend_service svc.val (linkSends_lively hruns hlively hgo hawake) hctl hpos
    exact hservice.trans (sendService_chosen hchosen hwork) ▸ hout svc

/-! ## Timers and claims -/

section Timers

variable {d : Dev} {n : Nat}

/-- An enumeration that takes 100 ms makes the link FOREIGN (R259). -/
theorem enumTimeout_late (hstate : (d.link n).state = .enumerating) (hdfp : (d.link n).ufp = false)
    (hport : (d.port n).state = .enabled) (hstep : (d.link n).enumStep < 4) (hlate : (d.link n).enumAt + 800 ≤ d.now) :
    d.enumTimeout n = (d.endTransfersOn [couplerEp0 n] stTimeout).linkTo n .foreign := by
  simp [Dev.enumTimeout, hstate, hdfp, hport, hstep, hlate]

/-- Before that the enumeration goes on. -/
theorem enumTimeout_early (hearly : d.now < (d.link n).enumAt + 800) : d.enumTimeout n = d := by
  simp [Dev.enumTimeout, hearly]

section Claims

variable (hpool : (d.link n).noPool = true) (hup : d.up = true) (hgo : d.halted = false)
include hpool hup hgo

/-- A link that is reset tries its pool again (R282). -/
theorem claimRetry_resetting (hallowed : (d.link n).allowance = true) (hstate : (d.link n).state = .resetting) :
    d.claimRetry n = d.enterHello n := by
  simp [Dev.claimRetry, hpool, hup, hgo, hallowed, hstate]

/-- A link that is admitted tries its pools again (R282). -/
theorem claimRetry_admitted (hallowed : (d.link n).allowance = true) (hstate : (d.link n).state = .admitted) :
    d.claimRetry n = d.trySendEnable n := by
  simp [Dev.claimRetry, hpool, hup, hgo, hallowed, hstate]

/-- A link without the link-control allowance claims it again, and starts with it (R270, R274). -/
theorem claimRetry_allowance (hallowed : (d.link n).allowance = false) :
    d.claimRetry n =
      let a := d.claimAllowance n
      if (a.link n).allowance && a.linkStands n then a.linkStart n (decide (n = 4) || !(a.eng n).dfp) else a := by
  simp only [Dev.claimRetry, hpool, hup, hgo, hallowed, Bool.not_true, Bool.not_false, Bool.or_self, Bool.false_eq_true, if_false,
    if_true]

end Claims

/-- After the grace the subscriptions over the link end (R289). -/
theorem graceExpiry_due (hruns : (d.link n).graceRuns = true) (hfirst : 1 ≤ (d.link n).beatsSince)
    (hgrace : d.fld aChainCfg 0 8 ≤ (d.link n).beatsSince) :
    d.graceExpiry n = (d.endOver n).updLink n fun x => { x with graceRuns := false } := by
  simp [Dev.graceExpiry, hruns, hfirst, hgrace]

/-- A forwarded request that is not answered in time ends with TIMEOUT and a count (R114). -/
theorem fwdTimeout_late {k : ReqKey} {r : Request} {l t : Nat} (hfind : d.findReq k = some r)
    (hphase : r.phase = .forwarded l t) (hlate : t ≤ d.now) :
    d.fwdTimeout k = (d.count 0x10060000).answer k stTimeout [] := by
  simp only [Dev.fwdTimeout, hfind, hphase, hlate, if_true]
  rfl

/-- Before that it waits. -/
theorem fwdTimeout_early {k : ReqKey} {r : Request} {l t : Nat} (hfind : d.findReq k = some r)
    (hphase : r.phase = .forwarded l t) (hearly : d.now < t) : d.fwdTimeout k = d := by
  simp only [Dev.fwdTimeout, hfind, hphase, Nat.not_le.2 hearly, if_false]

end Timers

/-- The timers and claims of a link (R114, R259, R282, R289). -/
theorem linkTimerRows : Rows.LinkTimerRows := by
  intro n s
  have henum : Safety.gives (.couchEnumerationTimeout n) s (s.dev.enumTimeout n.val) := rfl
  have hclaim : Safety.gives (.poolClaimRetry n) s (s.dev.claimRetry n.val) := rfl
  have hgrace : Safety.gives (.graceExpiry n) s (s.dev.graceExpiry n.val) := rfl
  have hforward (k : ReqKey) : Safety.gives (.fwdTimeout k) s (s.dev.fwdTimeout k) := rfl
  refine ⟨fun hstate hdfp hport hstep => ⟨fun hlate => ?_, fun hearly => ?_⟩,
    fun hpool hup hgo hallowed => ⟨fun hstate => ?_, fun hstate => ?_⟩, fun hpool hup hgo hallowed => ?_,
    fun hruns hfirst hbeats => ?_, fun k r l t hfind hphase hlate => ?_, fun k r l t hfind hphase hearly => ?_⟩
  · rwa [enumTimeout_late hstate hdfp hport hstep hlate] at henum
  · rwa [enumTimeout_early hearly] at henum
  · rwa [claimRetry_resetting hpool hup hgo hallowed hstate] at hclaim
  · rwa [claimRetry_admitted hpool hup hgo hallowed hstate] at hclaim
  · rwa [claimRetry_allowance hpool hup hgo hallowed] at hclaim
  · rwa [graceExpiry_due hruns hfirst hbeats] at hgrace
  · exact fwdTimeout_late hfind hphase hlate ▸ hforward k
  · have hrow := hforward k
    rwa [fwdTimeout_early hfind hphase hearly] at hrow

/-- Settles O43: each frame has the outcome of its checks, each send that of the link's turn, and each timer that of its moment. -/
theorem serviceFrames : Obligations.ServiceFrames := ⟨serviceFrameRows, linkTimerRows⟩

end Sys2Proof.Machine

/-! # Pool accounting

What a class uses, what the classes leave of the shared pool, and what the Vat's registers show of both (R130). -/

namespace Sys2Proof.Machine

open Sys2Proof

section Pool

variable {d : Dev}

/-- The shared pool with its two sums written out, class by class. -/
theorem shared_eq (d : Dev) : d.shared = d.segments -
    (((List.range 8).map d.reserve).sum + ((List.range' 1 7).map fun c => d.usage c - d.reserve c).sum) := by
  simp [Dev.shared, List.range_succ, List.range', Nat.add_assoc]

/-- The shared pool in whole numbers: where the reserves and excesses are more than there is, nothing is shared (R130). -/
theorem shared_toNat (d : Dev) :
    d.shared = ((d.segments : Int) - ((List.range 8).map fun c => (d.reserve c : Int)).sum -
      ((List.range' 1 7).map fun c => max 0 ((d.usage c : Int) - d.reserve c)).sum).toNat := by
  have hexcess (c : Nat) : max 0 ((d.usage c : Int) - d.reserve c) = ((d.usage c - d.reserve c : Nat) : Int) := by omega
  have hdiff (a r e : Nat) : a - (r + e) = ((a : Int) - r - e).toNat := by omega
  rw [shared_eq, hdiff, Nat.cast_list_sum, Nat.cast_list_sum, List.map_map, List.map_map]
  simp only [hexcess]
  rfl

/-- A register of the Vat that shows state of its own reads as that. -/
theorem readReg_vat {o : Nat} {v : W32} (st : Straps) (spi : Bool) (ho : o < 0x10000)
    (hmapped : (regInfo (0x30000 + o)).isSome = true) (hshown : d.readVat o = some v) : (d.readReg st spi (0x30000 + o)).1 = v := by
  have hquire : quireAt (0x30000 + o) = none := if_neg (by omega)
  obtain ⟨i, hinfo⟩ := Option.isSome_iff_exists.1 hmapped
  have hsub : 0x30000 + o - 0x30000 = o := by omega
  have hlow (b : Nat) (hb : b ≤ 0x30000) : ¬ 0x30000 + o < b := by omega
  have hvat : d.shown st (0x30000 + o) = some v := by
    simp only [Dev.shown, hlow 0x10000 (by decide), hlow 0x20000 (by decide), hlow 0x30000 (by decide),
      show 0x30000 + o < 0x40000 by omega, hsub, hshown, if_false, if_true]
  simp only [Dev.readReg, hquire, hinfo, hvat]

/-- A count of segments in a register of 17 bits. -/
theorem toNat_at_segments (n : Nat) : (at_ (n % 2 ^ 17) 0).toNat = n % 2 ^ 17 := by
  simp only [at_, BitVec.toNat_ofNat, Nat.shiftLeft_zero]
  omega

end Pool

/-- Settles O34: the free shared pool is a difference of whole numbers, and each register shows its count modulo 2 ^ 17. -/
theorem poolAccounting : Obligations.PoolAccounting := by
  refine fun d => ⟨fun _ => rfl, shared_toNat d, fun hready st b => ⟨?_, fun c hc => ?_⟩⟩
  · have hshown : d.readVat 0x64 = some (at_ (d.shared % 2 ^ 17) 0) := congrArg some (if_pos hready)
    rw [readReg_vat st b (by decide) (by decide) hshown, toNat_at_segments]
  · have hshown : d.readVat (0x40 + 4 * c) = some (at_ (d.usage c % 2 ^ 17) 0) := by
      interval_cases c <;> rfl
    have hmapped : (regInfo (0x30000 + (0x40 + 4 * c))).isSome = true := by
      interval_cases c <;> rfl
    have hread := readReg_vat st b (by omega) hmapped hshown
    rw [← Nat.add_assoc] at hread
    rw [hread, toNat_at_segments]

end Sys2Proof.Machine

/-! # Access to a bank

Where a write of a row goes while its slot rotates, and whom a round of the bank's arbiter grants. -/

namespace Sys2Proof.Machine

open Sys2Proof

section MirroredWrites

variable {v : Vat} {m : Migration} {slot sp : Nat} (r : Nat) (cells : List (Option Cell10))

/-- A rotation of another slot leaves a write to the bank in the slot. -/
theorem writeRow_otherSlot (hrot : v.migrating = some m) (hslot : m.slot ≠ slot) :
    v.writeRow slot r cells = v.setPhysRow (v.slotBank slot) r cells := by
  cases hspare : v.spare with
  | none => simp only [Vat.writeRow, hrot, hspare]
  | some sp => simp only [Vat.writeRow, hrot, hspare, hslot, if_false]

/-- The rotating slot and the spare after a write of a row: the spare takes the row as the source then holds it (R142). -/
def Vat.writeBoth (v : Vat) (slot sp r : Nat) (cells : List (Option Cell10)) : Vat :=
  (v.setPhysRow (v.slotBank slot) r cells).setPhysRow sp r
    (((v.setPhysRow (v.slotBank slot) r cells).physRow (v.slotBank slot) r).map some)

/-- A write to the slot under rotation goes to both banks, and cancels the held copy of its row. -/
theorem writeRow_rotating (hrot : v.migrating = some m) (hspare : v.spare = some sp) (hslot : m.slot = slot) :
    v.writeRow slot r cells = if (m.held.any fun h => h.1 = r) then
      { v.writeBoth slot sp r cells with migrating := some { m with held := none } } else v.writeBoth slot sp r cells := by
  simp only [Vat.writeRow, hrot, hspare, hslot, if_true]
  rfl

end MirroredWrites

/-! ## Rounds of the arbiter (R152 to R154) -/

/-- Request x goes before y: its priority is higher, or it is the older of equal ones. -/
def BankReq.wins (x y : BankReq) : Prop :=
  y.prio < x.prio ∨ (y.prio = x.prio ∧ (x.raised < y.raised ∨ (x.raised = y.raised ∧ x.who < y.who)))

section Rounds

variable {x y : BankReq} {l : List BankReq}

/-- The comparison that a round makes. -/
theorem wins_iff : (decide (y.prio < x.prio) || (decide (y.prio = x.prio) && x.older y)) = true ↔ x.wins y := by
  simp [BankReq.wins, BankReq.older]

/-- Of two requests at most one goes before the other. -/
theorem wins_asymm (h : x.wins y) : ¬ y.wins x := by
  simp only [BankReq.wins] at *
  omega

/-- The request that wins a round is one of those that wait. -/
theorem bestReq_mem (h : bestReq l = some y) : y ∈ l := by
  induction l generalizing y with
  | nil => simp [bestReq] at h
  | cons z t ih =>
    simp only [bestReq] at h
    split at h
    · exact Option.some.inj h ▸ List.mem_cons_self
    next w hw =>
      split at h
      · exact Option.some.inj h ▸ List.mem_cons_self
      · exact List.mem_cons_of_mem _ (ih (hw.trans h))

/-- The request that goes before every other wins the round. -/
theorem bestReq_eq (hx : x ∈ l) (hall : ∀ y ∈ l, y = x ∨ x.wins y) : bestReq l = some x := by
  induction l with
  | nil => cases hx
  | cons z t ih =>
    obtain ⟨hz, ht⟩ := List.forall_mem_cons.1 hall
    simp only [bestReq]
    by_cases hxt : x ∈ t
    · rw [ih hxt ht]
      rcases hz with rfl | hwins
      · simp
      · exact if_neg fun h => wins_asymm hwins (wins_iff.1 h)
    · obtain rfl : x = z := (List.mem_cons.1 hx).resolve_right hxt
      cases hbest : bestReq t with
      | none => rfl
      | some y =>
        have hy := bestReq_mem hbest
        have hne : y ≠ x := fun h => hxt (h ▸ hy)
        exact if_pos (wins_iff.2 ((ht y hy).resolve_left hne))

/-- A round without a holder grants the request that wins, which holds the next round too if it is marked. -/
theorem round_grants {a : Arbiter} (hfree : a.holder = none) (hbest : bestReq a.waiting = some x) :
    a.round = (some x.who, { a with
      cycle := a.cycle + 1, holder := if x.noBreak = true then some x.who else none
      waiting := (a.waiting.erase x).map fun y => { y with age := min (y.age + 1) 2 } }) := by
  simp only [Arbiter.round, hfree, hbest, agedBy]

/-- The holder of the last round is granted, and does not hold the next one (R154). -/
theorem round_held {a : Arbiter} {h : Nat} (hheld : a.holder = some h) : a.round.1 = some h ∧ a.round.2.holder = none := by
  simp only [Arbiter.round, hheld, and_self]

end Rounds

/-- Settles O31: a write under rotation is mirrored, and a round grants its holder or else the request that goes before every
other. -/
theorem bankAccess : Obligations.BankAccess := by
  refine ⟨fun v slot r cells => ⟨fun m hrot hslot => writeRow_otherSlot r cells hrot hslot, fun m sp hrot hspare hslot => ?_⟩,
    fun a x hfree hx hall => round_grants hfree (bestReq_eq hx hall), fun a h => round_held, fun x => rfl⟩
  have hwrite := writeRow_rotating r cells hrot hspare hslot
  refine ⟨fun row hheld => hwrite.trans (if_pos (by simp [hheld])), fun hother => hwrite.trans (if_neg ?_)⟩
  rcases hother with hnone | ⟨k, row, hheld, hk⟩
  · simp [hnone]
  · simpa [hheld] using hk

end Sys2Proof.Machine

/-! # The banks of the Vat

How a rotation begins and ends, what a march pass means for the bank that ran it, and how the depth changes. -/

namespace Sys2Proof.Machine

open Sys2Proof

/-- The Vat works in the statements' terms as in the model's. -/
theorem vatRuns_of {d : Dev} (h : Safety.vat d) : d.vatRuns = true := by
  obtain ⟨hup, hready, hgo⟩ := h
  simp [Dev.vatRuns, Dev.isReady, hup, hready, hgo]

/-! ## Rotation (R141 to R143, R145, R157) -/

section Rotation

variable {d : Dev} {sp : Nat}

/-- The conditions of R141 and R145 on the start of a rotation. -/
theorem rotationDue_iff : d.rotationDue = true ↔ d.vatRuns = true ∧ d.atBeat = true ∧ d.vat.spare.isSome = true ∧
    d.vat.sparePassed = true ∧ d.vat.change = .stable ∧ (d.reg aVatCfg).getLsbD 4 = true ∧ d.vat.migrating = none ∧
      (d.rotBeats ≤ d.vat.beatsSinceRot ∨ d.vat.front ≠ []) := by
  simp [Dev.rotationDue, Dev.fldBit, bit, and_assoc]

/-- A rotation that is due ends the march test of the spare and takes the slot in front, or else the slot in turn. -/
theorem rotationStart_due (hdue : d.rotationDue = true) (hspare : d.vat.spare = some sp) : d.rotationStart = { d with
    vat := { d.vat.bankLost sp with migrating := some ⟨d.vat.front.headD d.vat.rotSlot, 0, none⟩, beatsSinceRot := 0 } } := by
  simp only [Dev.rotationStart, hdue, if_true, Dev.updVat, hspare]

/-- A rotation that ends swaps the spare and the bank of its slot. -/
theorem rotationDone_running {m : Migration} (hrot : d.vat.migrating = some m) (hspare : d.vat.spare = some sp) :
    d.rotationDone = ({ d with vat := { d.vat.copyRest with
      slots := d.vat.slots.set m.slot sp, spare := some (d.vat.slotBank m.slot), sparePassed := false, migrating := none
      front := d.vat.front.filter (· ≠ m.slot)
      rotSlot := if m.slot = d.vat.rotSlot then (d.vat.rotSlot + 1) % max 1 d.vat.slots.length else d.vat.rotSlot
      } } : Dev).seekDepth := by
  simp only [Dev.rotationDone, hrot, hspare]
  rfl

end Rotation

/-- The rotating spare. -/
theorem rotationRows : Rows.RotationRows := by
  intro s
  have hstart : Safety.gives .rotationStart s s.dev.rotationStart := rfl
  have hdone : Safety.gives .rotationCopyDone s s.dev.rotationDone := rfl
  refine ⟨fun sp hvat hbeat hspare hpassed hstable hon hidle => ?_, fun m sp hrot hspare => ?_⟩
  · have hdue (h : s.dev.rotBeats ≤ s.dev.vat.beatsSinceRot ∨ s.dev.vat.front ≠ []) : s.dev.rotationDue = true :=
      rotationDue_iff.2 ⟨vatRuns_of hvat, hbeat, hspare ▸ rfl, hpassed, hstable, hon, hidle, h⟩
    refine ⟨fun hfront hbeats => ?_, fun k l hfront => ?_⟩
    · rw [rotationStart_due (hdue (.inl hbeats)) hspare, hfront] at hstart
      exact hstart
    · rw [rotationStart_due (hdue (.inr (by simp [hfront]))) hspare, hfront] at hstart
      exact hstart
  · rw [rotationDone_running hrot hspare] at hdone
    exact hdone

/-! ## March passes (R140, R144) -/

section March

variable {d : Dev} {b : Nat}

/-- A pass on a bank that runs one, while no depth change runs, is judged on its data. -/
theorem marchPass_runs (pass : Bool) (hruns : d.vatRuns = true) (hstable : d.vat.change = .stable)
    (hmarches : (d.vat.spare = some b ∧ d.vat.migrating = none) ∨ d.vat.coming = some b) :
    d.marchPass b pass = (d.updVat fun v => v.marched b pass).sparePassEnd b pass := by
  have hmarch : d.vat.marches b = true := by
    rcases hmarches with ⟨hspare, hidle⟩ | hcoming
    · simp [Vat.marches, hspare, hidle]
    · simp [Vat.marches, hcoming]
  have hchange : (d.updVat fun v => v.marched b pass).vat.change = .stable := hstable
  simp only [Dev.marchPass, hruns, hmarch, Bool.and_self, if_true, Dev.passEnd, hchange]

/-- Where no request waits for a pass, its end answers none. -/
theorem endSelftests_none (pass : Bool) (hnone : ∀ r ∈ d.requests, r.phase ≠ .selftest) : d.endSelftests pass = d := by
  rw [Dev.endSelftests, List.filter_eq_nil_iff.2]
  · rfl
  · intro r hr
    have hphase := hnone r hr
    split
    · contradiction
    · exact Bool.false_ne_true

/-- A pass of the spare counts and makes it ready to rotate. -/
theorem sparePassEnd_passed (hspare : d.vat.spare = some b) (hidle : d.vat.migrating = none)
    (hnone : ∀ r ∈ d.requests, r.phase ≠ .selftest) : d.sparePassEnd b true = { d with
      vat := { d.vat with marchLastOk := true, sparePassed := true, marchPasses := min 65535 (d.vat.marchPasses + 1) } } := by
  have hquiet := endSelftests_none (d := (d.updVat fun v => { v with marchLastOk := true, sparePassed := true }).passCounted) true
    hnone
  exact (if_pos ⟨hspare, hidle⟩).trans hquiet

/-- A spare that fails is retired, and replaced. -/
theorem sparePassEnd_failed (hspare : d.vat.spare = some b) (hidle : d.vat.migrating = none)
    (hgood : d.vat.retired.getLsbD b = false) : d.sparePassEnd b false =
      (((d.updVat fun v => { v with marchLastOk := false, sparePassed := false }).retireBank b).endSelftests
        false).replaceSpare := by
  have hnew : (d.updVat fun v => { v with marchLastOk := false, sparePassed := false }).vat.retired.getLsbD b = false := hgood
  simp only [Dev.sparePassEnd, hspare, hidle, and_self, hnew, Bool.false_eq_true, if_true, if_false]

/-- The bank that comes up becomes the spare when it passes. -/
theorem sparePassEnd_coming (hother : d.vat.spare ≠ some b) (hcoming : d.vat.coming = some b) : d.sparePassEnd b true =
    { d with vat := { d.vat with
      spare := some b, coming := none, noSpare := false, sparePassed := false
      marchPasses := min 65535 (d.vat.marchPasses + 1) } } := by
  have hnot : ¬ (d.vat.spare = some b ∧ d.vat.migrating = none) := fun h => hother h.1
  exact (if_neg hnot).trans (if_pos hcoming)

end March

/-- March passes of the spare, and of the bank that is to become it. -/
theorem marchRows : Rows.MarchRows := by
  intro b s hvat hstable
  have hrow (pass : Bool)
      (hmarches : (s.dev.vat.spare = some b.val ∧ s.dev.vat.migrating = none) ∨ s.dev.vat.coming = some b.val) :
      Safety.gives (.marchPassEnd b pass) s ((s.dev.updVat fun v => v.marched b.val pass).sparePassEnd b.val pass) :=
    marchPass_runs pass (vatRuns_of hvat) hstable hmarches ▸ rfl
  refine ⟨fun hspare hidle hquiet => ?_, fun hspare hidle hgood => ?_, fun hother hcoming => ?_⟩
  · have hpass := hrow true (.inl ⟨hspare, hidle⟩)
    rw [sparePassEnd_passed (d := s.dev.updVat fun v => v.marched b.val true) hspare hidle hquiet] at hpass
    exact hpass
  · have hpass := hrow false (.inl ⟨hspare, hidle⟩)
    rw [sparePassEnd_failed (d := s.dev.updVat fun v => v.marched b.val false) hspare hidle hgood] at hpass
    exact hpass
  · have hpass := hrow true (.inr hcoming)
    rw [sparePassEnd_coming (d := s.dev.updVat fun v => v.marched b.val true) hother hcoming] at hpass
    exact hpass

/-! ## Depth changes (R147, R148) -/

section Depth

variable {d : Dev} {t : Nat} {p : List Nat}

/-- Once every joining bank has passed, they fill the new slots. -/
theorem growthDone_keepsSpare (hgrown : d.vat.change = .growing t [] p) (hspare : d.vat.spare.any p.contains = false)
    (hcoming : d.vat.coming.any p.contains = false) : d.growthDone =
      ({ d with vat := { d.vat with depth := t, change := .stable, slots := d.vat.slots ++ p } } : Dev).seekDepth := by
  simp only [Dev.growthDone, hgrown, hspare, hcoming, Bool.or_self, Bool.false_eq_true, if_false, Dev.updVat]

/-- A spare that joins leaves the Vat without one. -/
theorem growthDone_takesSpare {sp : Nat} (hgrown : d.vat.change = .growing t [] p) (hspare : d.vat.spare = some sp)
    (hjoins : sp ∈ p) (hcoming : d.vat.coming = none) : d.growthDone =
      (({ d with vat := { d.vat with
        depth := t, change := .stable, slots := d.vat.slots ++ p, spare := none, sparePassed := false
        noSpare := true } } : Dev).assert srcNoSpare 0).seekDepth := by
  have hlost : p.contains sp = true := List.contains_iff_mem.2 hjoins
  simp only [Dev.growthDone, hgrown, hspare, hcoming, Option.any_some, Option.any_none, hlost, Bool.or_false, Bool.false_eq_true,
    if_true, if_false, Dev.noSpareLeft, Dev.updVat]

/-- Banks that relocation alone empties are emptied by it. -/
theorem emptyBanks_relocated {banks : Nat} (n : Nat) (hempty : (d.relocateAll banks).straddling banks = false) :
    d.emptyBanks banks (n + 1) = d.relocateAll banks := by
  simp only [Dev.emptyBanks, hempty, Bool.false_and, Bool.false_eq_true, if_false]

/-- The shallower depth takes effect: the banks past it are gated and leave their slots. -/
def Dev.drainedTo (d : Dev) (t : Nat) : Dev :=
  (forN d.vat.slots.length (fun b a => if depthBanks t ≤ b then a.gateSlot b else a) d).updVat fun v =>
    { v with
      depth := t, change := .stable, slots := v.slots.take (depthBanks t), rotSlot := v.rotSlot % depthBanks t
      front := v.front.filter (· < depthBanks t) }

/-- A Vat without a spare powers up one of the idle banks. -/
def Dev.spareSought (d : Dev) : Dev :=
  if d.vat.spare.isNone && d.vat.coming.isNone && !d.idleBanks.isEmpty then d.replaceSpare else d

/-- A spare, a bank that comes up, or the want of an idle bank leaves the Vat as it is. -/
theorem spareSought_kept (hkeeps : d.vat.spare.isSome = true ∨ d.vat.coming.isSome = true ∨ d.idleBanks = []) :
    d.spareSought = d := by
  refine if_neg ?_
  rcases hkeeps with h | h | h
  · simp [Option.isNone_eq_false_iff.2 h]
  · simp [Option.isNone_eq_false_iff.2 h]
  · simp [h]

/-- Without either, an idle bank is powered up. -/
theorem spareSought_wanted (hspare : d.vat.spare = none) (hcoming : d.vat.coming = none) (hidle : d.idleBanks ≠ []) :
    d.spareSought = d.replaceSpare := if_pos (by simp [hspare, hcoming, hidle])

/-- A drain that leaves nothing in use in the leaving banks ends at the depth asked for, with a spare where it can. -/
theorem drainDone_emptied (hdrain : d.vat.change = .draining t)
    (hempty : (d.relocateAll (depthBanks t)).straddling (depthBanks t) = false) :
    d.drainDone = ((d.relocateAll (depthBanks t)).drainedTo t).spareSought.seekDepth := by
  simp only [Dev.drainDone, hdrain, emptyBanks_relocated _ hempty, hempty, Bool.false_eq_true, if_false]
  rfl

end Depth

/-- Growth and drain. -/
theorem depthRows : Rows.DepthRows := by
  intro t s
  have hgrowth : Safety.gives .growthComplete s s.dev.growthDone := rfl
  have hdrained : Safety.gives .drainComplete s s.dev.drainDone := rfl
  refine ⟨fun p hgrown hspare hcoming => ?_, fun p sp hgrown hspare hjoins hcoming => ?_, fun hdrain hempty => ?_⟩
  · rw [growthDone_keepsSpare hgrown hspare hcoming] at hgrowth
    exact hgrowth
  · rw [growthDone_takesSpare hgrown hspare hjoins hcoming] at hgrowth
    exact hgrowth
  · rw [drainDone_emptied hdrain hempty] at hdrained
    refine ⟨fun hkeeps => ?_, fun hspare hcoming hidle => ?_⟩
    · rw [spareSought_kept (d := (s.dev.relocateAll (depthBanks t)).drainedTo t) hkeeps] at hdrained
      exact hdrained
    · rw [spareSought_wanted (d := (s.dev.relocateAll (depthBanks t)).drainedTo t) hspare hcoming hidle] at hdrained
      exact hdrained

/-- Settles O32: rotations, march passes and depth changes each have the outcome of their case. -/
theorem vatBanks : Obligations.VatBanks := ⟨rotationRows, marchRows, depthRows⟩

end Sys2Proof.Machine

/-! # The grid and the end of a beat

What the start of a microframe and the strobes of its slots set off, what the end of a beat checks, and heartbeats. -/

namespace Sys2Proof.Machine

open Sys2Proof

section Microframes

variable {d : Dev}

/-- Within a beat the next microframe starts. -/
theorem advanceMf_within (hmf : d.deckle.mf + 1 < d.beatLen) : d.advanceMf.deckle = { d.deckle with
    mf := d.deckle.mf + 1, slot := 0, strobed := false, mfCount := d.deckle.mfCount + 1
    mfStart := d.deckle.mfStart + d.mfLen } := by
  simp only [Dev.advanceMf, hmf, if_true]
  rfl

/-- After the last microframe of a beat the next beat starts under its plan. -/
theorem advanceMf_last (hmf : d.deckle.mf + 1 = d.beatLen) : d.advanceMf.deckle = { d.deckle with
    mf := 0, slot := 0, strobed := false, mfCount := d.deckle.mfCount + 1, mfStart := d.deckle.mfStart + d.mfLen
    prevBeatStart := d.deckle.beatStart, beatStart := d.deckle.mfStart + d.mfLen, beat := d.deckle.beat + 1
    planQ := d.deckle.nextQ, planR := d.deckle.nextR, planClamped := d.deckle.nextClamped, beatEnded := false } := by
  simp only [Dev.advanceMf, hmf, Nat.lt_irrefl, if_false]
  rfl

/-- A microframe that is no beat's first has the work of its start alone. -/
theorem microframe_within (hruns : d.deckle.running = true) (hmf : d.deckle.mf + 1 < d.beatLen) :
    d.microframe = d.advanceMf.mfStarts := by
  have hopen : d.closeBeat = d := if_neg (by simp [Nat.ne_of_lt hmf])
  have hinner : d.advanceMf.deckle.mf ≠ 0 := by rw [advanceMf_within hmf]; exact Nat.succ_ne_zero _
  simp only [Dev.microframe, hruns, hopen, hinner, Bool.not_true, Bool.false_eq_true, if_false]

/-- A beat's first microframe takes the number adopted and counts the beat too. -/
theorem microframe_last (hruns : d.deckle.running = true) (hmf : d.deckle.mf + 1 = d.beatLen) (hended : d.deckle.beatEnded = true) :
    d.microframe = d.advanceMf.takeAdopted.beatStarts.mfStarts := by
  have hclosed : d.closeBeat = d := if_neg (by simp [hended])
  have hfirst : d.advanceMf.deckle.mf = 0 := by rw [advanceMf_last hmf]
  simp only [Dev.microframe, hruns, hclosed, hfirst, Bool.not_true, Bool.false_eq_true, if_false, if_true]

/-- Where the Core stands still a strobe moves the grid alone. -/
theorem slotStrobe_halted (hruns : d.deckle.running = true) (hhalt : d.halted = true) (hfirst : d.deckle.strobed = false) :
    d.slotStrobe = d.updDk fun x => { x with strobed := true } := by
  have hadv : d.advanceSlot = some (d.updDk fun x => { x with strobed := true }) := by
    simp only [Dev.advanceSlot, hruns, hfirst, Bool.not_true, Bool.not_false, Bool.false_eq_true, if_false, if_true]
  have hstill : (d.updDk fun x => { x with strobed := true }).halted = true := hhalt
  simp only [Dev.slotStrobe, hadv, hstill, if_true]

/-- A strobe of a slot after the first brings its polls and the credit returns. -/
theorem slotStrobe_inner (hruns : d.deckle.running = true) (hgo : d.halted = false) (hstrobed : d.deckle.strobed = true)
    (hslot : d.deckle.slot < 7) (hinner : (d.updDk fun x => { x with slot := x.slot + 1 }).strobePolls.deckle.slot ≠ 0) :
    d.slotStrobe = forN 5 (fun n a => a.creditReturn n) (d.updDk fun x => { x with slot := x.slot + 1 }).strobePolls := by
  have hadv : d.advanceSlot = some (d.updDk fun x => { x with slot := x.slot + 1 }) := by
    simp only [Dev.advanceSlot, hruns, hstrobed, hslot, Bool.not_true, Bool.false_eq_true, if_false, if_true]
  have hmoves : (d.updDk fun x => { x with slot := x.slot + 1 }).halted = false := hgo
  simp only [Dev.slotStrobe, hadv, hmoves, hinner, decide_false, Bool.false_and, Bool.false_eq_true, if_false]

/-- After the last slot no strobe comes until the next microframe. -/
theorem slotStrobe_last (hstrobed : d.deckle.strobed = true) (hslot : d.deckle.slot = 7) : d.slotStrobe = d := by
  have hadv : d.advanceSlot = none := by simp [Dev.advanceSlot, hstrobed, hslot]
  simp only [Dev.slotStrobe, hadv]

end Microframes

/-- Microframe starts and slot strobes (R159 to R162). -/
theorem microframeRows : Rows.MicroframeRows := by
  intro s hruns
  have hstart : Safety.gives .microframeStart s s.dev.microframe.vatAlarms := rfl
  have hstrobe : Safety.gives .slotStrobe s s.dev.slotStrobe.vatAlarms := rfl
  refine ⟨fun hmf => ⟨?_, advanceMf_within hmf⟩, fun hmf hended => ⟨?_, ?_⟩, fun hhalt hfirst => ?_,
    fun hgo hstrobed hslot hinner => ?_, fun hstrobed hslot => ?_⟩
  · rwa [microframe_within hruns hmf] at hstart
  · rwa [microframe_last hruns hmf hended] at hstart
  · rw [advanceMf_last hmf]
    exact ⟨rfl, rfl, rfl, rfl, rfl⟩
  · rwa [slotStrobe_halted hruns hhalt hfirst] at hstrobe
  · rwa [slotStrobe_inner hruns hgo hstrobed hslot hinner] at hstrobe
  · rwa [slotStrobe_last hstrobed hslot] at hstrobe

/-! ## The end of a beat and its tally (R149, R150, R248, R310) -/

section BeatEnd

variable {d : Dev}

/-- The end strobe of a beat does its work once; where the Core stands still it is shown alone. -/
theorem beatEndStrobe_due (hruns : d.deckle.running = true) (hmf : d.deckle.mf + 1 = d.beatLen)
    (hopen : d.deckle.beatEnded = false) : d.beatEndStrobe =
      if d.halted then d.foldedEvents.updDk fun x => { x with beatEnded := true } else d.beatEnd :=
  if_pos ⟨hruns, hmf, hopen⟩

/-- A tally that was put off is made once no window is open. -/
theorem tallyDeferred_due {n : Nat} (hn : n ≤ 4096) (hdue : d.vat.tallyDue = true) (hclosed : d.windowOpen = false) :
    d.tallyDeferred n = { d with vat := { d.vat with tallyDue := false, lastDefer := n } }.tallyCheck := by
  have hmin : min n 8192 = n := Nat.min_eq_left (by omega)
  simp only [Dev.tallyDeferred, hdue, hclosed, hmin, Bool.not_false, Bool.and_self, if_true]

/-- A tally that is put off past its bound is skipped and counted. -/
theorem tallySkip_due (hdue : d.vat.tallyDue = true) : d.tallySkip = Safety.watched
    (({ d with vat := { d.vat with tallyDue := false, lastDefer := 8192 } }.flag aVatTally 29).count 0x20010000) := by
  simp only [Dev.tallySkip, hdue, if_true]
  rfl

/-- A counter of a canonical table counts up to its bound (R407). -/
theorem counter_count (sel : Nat) (hwf : wfTab counterDflt d.counters = true) :
    (d.count sel).counter sel = min (2 ^ 64 - 1) (d.counter sel + 1) := by
  simp only [Dev.count, Dev.updCounter, Dev.counter_setCounter d sel sel _ hwf, if_true, satAdd]

/-- The check raises VAT_TALLY with the two sides of the first equation that fails. -/
theorem tallyCheck_eq (d : Dev) :
    let linked := d.freeAll + d.inUse
    let all := 8192 * depthBanks d.vat.depth
    let used := (List.range 8).foldl (fun n c => n + d.usedSegs c) 0
    let claimed := d.inUse + (List.range 8).foldl (fun n c => n + d.claim c) 0
    d.tallyCheck = if linked ≠ all then d.tallyFault linked all
      else if used ≠ claimed then d.tallyFault used claimed else d := rfl

end BeatEnd

/-- The end of a beat and its tally. -/
theorem beatEndRows : Rows.BeatEndRows := by
  intro s
  have hstrobe : Safety.gives .beatEndStrobe s s.dev.beatEndStrobe.vatAlarms := rfl
  have hdeferred (n : Nat) : Safety.gives (.tallyDeferredCheck n) s (s.dev.tallyDeferred n) := rfl
  have hskip : Safety.gives .tallySkip s s.dev.tallySkip := rfl
  refine ⟨fun hruns hmf hopen => ⟨fun hgo => ?_, fun hhalt => ?_⟩, fun n hn hdue hclosed => ?_, fun hdue => ⟨?_, fun hwf => ?_⟩,
    fun d => ⟨fun hfree hused => ?_, fun hfree => ?_, fun hfree hused => ?_⟩⟩
  · rwa [beatEndStrobe_due hruns hmf hopen, hgo, if_neg Bool.false_ne_true] at hstrobe
  · rwa [beatEndStrobe_due hruns hmf hopen, hhalt, if_pos rfl] at hstrobe
  · have hrow := hdeferred n
    rwa [tallyDeferred_due hn hdue hclosed] at hrow
  · rwa [tallySkip_due hdue] at hskip
  · exact counter_count _ hwf
  · rw [tallyCheck_eq, if_neg (not_not.2 hfree), if_neg (not_not.2 hused)]
  · rw [tallyCheck_eq, if_pos hfree]
    rfl
  · rw [tallyCheck_eq, if_neg (not_not.2 hfree), if_pos hused]
    rfl

/-! ## Heartbeats (R234) -/

/-- A heartbeat that is due before the end of its beat adds its entry. -/
theorem heartbeatRow_due {d : Dev} {c : Nat} {x : Subscription} (hsub : d.subscription c = some x) (hruns : d.deckle.running = true)
    (hopen : d.deckle.beatEnded = false) (hdue : x.heartbeatDue = true) : d.heartbeatRow c = d.heartbeatEntry c x := by
  simp only [Dev.heartbeatRow, hsub, hruns, hopen, hdue, Bool.not_false, Bool.and_self, if_true]

/-- The entry of a heartbeat carries the last sheet and the count of answered polls. -/
theorem heartbeatRow : Rows.HeartbeatRow := by
  intro c x s hsub hruns hopen hdue
  have hrow : Safety.gives (.heartbeat c) s (s.dev.heartbeatRow c).vatAlarms := rfl
  rwa [heartbeatRow_due hsub hruns hopen hdue] at hrow

/-- Settles O28: each strobe of the grid has the work of its place in the beat, and the tally compares both equations. -/
theorem gridAndBeatEnd : Obligations.GridAndBeatEnd := ⟨microframeRows, beatEndRows, heartbeatRow⟩

end Sys2Proof.Machine

/-! # TRANSPARENT ports and couplers as UFP

What the transaction translators and the SuperSpeed hub do with what passes through them, remote wake behind the hub, and the bus
events of a coupler port that acts as UFP. -/

namespace Sys2Proof.Machine

open Sys2Proof

/-! ## Splits (R132, R223) -/

section Splits

variable {d : Dev} {p n : Nat} {periodic : Bool}

/-- The four non-periodic buffers of a TT are in use. -/
def Dev.ttFull (d : Dev) (p : Nat) (periodic : Bool) : Prop :=
  periodic = false ∧ 4 ≤ ((d.hubPort p).ttBuffers.filter fun b => !b.periodic).length

/-- The model's test for it. -/
theorem ttFull_iff : (!periodic && decide (4 ≤ ((d.hubPort p).ttBuffers.filter fun b => !b.periodic).length)) = true ↔
    d.ttFull p periodic := by
  simp [Dev.ttFull]

/-- A start-split of an OUT reaches the TT of a hub port that serves splits. -/
theorem split_startOut (hport : d.portOfHub p = some n) (hserves : d.ttServes p = true) (out : List Byte) :
    d.split p periodic (.startOut out) = d.splitStart p n periodic false out := by
  simp only [Dev.split, hport, hserves, Bool.not_true, Bool.false_eq_true, if_false]

/-- A complete-split reaches it too. -/
theorem split_complete (hport : d.portOfHub p = some n) (hserves : d.ttServes p = true) :
    d.split p periodic .complete = d.splitComplete p periodic := by
  simp only [Dev.split, hport, hserves, Bool.not_true, Bool.false_eq_true, if_false]

/-- A start-split of an OUT that gets its claim is linked as the record of its buffer. -/
theorem splitStart_linked {out : List Byte} {c e : Dev} (hroom : ¬ d.ttFull p periodic)
    (hclaim : (d.openTt p n periodic).takeClaim (ttClass periodic)
      ((d.openTt p n periodic).segsFor (ttQueue p periodic false) (recCells out.length)) = some c)
    (hlink : (c.dropClaim (ttClass periodic) ((d.openTt p n periodic).segsFor (ttQueue p periodic false)
      (recCells out.length))).enqueue (rqHs 32) (ttQueue p periodic false) ⟨5, false, true, 0, out⟩ = some e) :
    d.splitStart p n periodic false out = (e.updHubPort p fun x => { x with ttBuffers := x.ttBuffers ++
      [{ periodic := periodic, isIn := false, sent := false, result := none, cls := ttClass periodic, claim := 0 }] }).hubSays
        (if periodic then .none else .ack) := by
  have hopen := mt ttFull_iff.1 hroom
  simp only [Dev.splitStart, hopen, Bool.false_eq_true, if_false, Nat.add_zero, hclaim, Option.bind_some, hlink]

/-- A start-split of an OUT without a buffer or without its claim draws NAK. -/
theorem splitStart_nak {out : List Byte} (hnone : d.ttFull p periodic ∨ (d.openTt p n periodic).takeClaim (ttClass periodic)
    ((d.openTt p n periodic).segsFor (ttQueue p periodic false) (recCells out.length)) = none) :
    d.splitStart p n periodic false out = d.hubSays .nak := by
  by_cases hfull : d.ttFull p periodic
  · simp only [Dev.splitStart, ttFull_iff.2 hfull, if_true]
  · have hopen := mt ttFull_iff.1 hfull
    simp only [Dev.splitStart, hopen, Bool.false_eq_true, if_false, Nat.add_zero, hnone.resolve_left hfull, Option.bind_none]

variable {b : TtBuffer}

/-- A complete-split draws NYET until the device has answered. -/
theorem splitComplete_waits (hfind : ((d.hubPort p).ttBuffers.find? fun b => b.periodic = periodic) = some b)
    (hresult : b.result = none) : d.splitComplete p periodic = d.hubSays .nyet := by
  simp only [Dev.splitComplete, hfind, hresult]

/-- A handshake of the device ends the buffer and answers the complete-split. -/
theorem splitComplete_handshake (hfind : ((d.hubPort p).ttBuffers.find? fun b => b.periodic = periodic) = some b) {r : XactResult}
    (hresult : b.result = some r) (hdata : ∀ pid seq l, r ≠ .data pid seq l) : d.splitComplete p periodic =
      (d.updHubPort p fun x => { x with ttBuffers := x.ttBuffers.erase b }).hubSays (ttReply r) := by
  simp only [Dev.splitComplete, hfind, hresult]

/-- The data of an IN leave with the complete-split and end the buffer. -/
theorem splitComplete_data (hfind : ((d.hubPort p).ttBuffers.find? fun b => b.periodic = periodic) = some b)
    {pid : DataPid} {seq : BitVec 5} {l : List Byte} (hresult : b.result = some (.data pid seq l)) : d.splitComplete p periodic =
      (d.sendSplitData p periodic).updHubPort p fun x => { x with ttBuffers := x.ttBuffers.erase b } := by
  simp only [Dev.splitComplete, hfind, hresult]

end Splits

/-! ## SuperSpeed packets (R25, R223) -/

section SuperSpeed

variable {d : Dev} {p n : Nat}

/-- What a SuperSpeed hub needs to take a packet of a port: the port is served and enabled, and the hub runs. -/
def Dev.ssServes (d : Dev) (p n : Nat) : Prop :=
  n < 8 ∧ d.served n = true ∧ d.hubPresented = true ∧ d.u0.speed = 3 ∧ d.u0.suspended = false ∧ d.u0.hub.config = 1 ∧
    (d.hubPort p).status.getLsbD 1 = true ∧ (d.hubPort p).status.getLsbD 2 = false

/-- A packet that the hub takes is linked for the other side if its claim succeeds, or refused with NRDY. -/
theorem ssPacket_served (hport : d.portOfHub p = some n) (hserves : d.ssServes p n) (up : Bool) (bytes : List Byte) :
    let o := if up then 32 else n
    let a := d.openQueue (ssQueue o) 5 1 o o 0
    d.ssPacket p up bytes = (if a.canClaim 5 (a.segsFor (ssQueue o) (bytes.length + 4)) then
      a.enqueue (rqSs (if up then n else 8)) (ssQueue o) ⟨0, false, true, 0, bytes⟩ else none).getD (d.hubSays .nrdy) := by
  obtain ⟨hn, hserved, hhub, hspeed, hruns, hconfig, henabled, hawake⟩ := hserves
  have hbit1 : bit (d.hubPort p).status 1 = true := henabled
  have hbit2 : bit (d.hubPort p).status 2 = false := hawake
  simp only [Dev.ssPacket, hport]
  exact if_neg (by simp [hserved, hhub, hspeed, hruns, hconfig, hbit1, hbit2, hn])

end SuperSpeed

/-- Splits and SuperSpeed packets. -/
theorem translatorRows : Rows.TranslatorRows := by
  intro s n
  have hsplit (h : Fin 16) (periodic : Bool) (kind : SplitKind) :
      Safety.gives (.splitTransaction h periodic kind) s (s.dev.split (h.val + 1) periodic kind) := rfl
  have hpacket (k : Fin 15) (up : Bool) (p : List Byte) :
      Safety.gives (.ssPacket k up p) s (s.dev.ssPacket (k.val + 1) up p) := rfl
  refine ⟨fun h periodic hport hserves => ⟨fun out c e hroom hclaim hlink => ?_, fun out hnone => ?_, fun b hfind =>
    ⟨fun hresult => ?_, fun r hresult hdata => ?_, fun pid seq l hresult => ?_⟩⟩,
    fun k up p hport hn hserved hhub hspeed hruns hconfig henabled hawake => ?_⟩
  · have hrow := hsplit h periodic (.startOut out)
    rw [split_startOut hport hserves, splitStart_linked hroom hclaim hlink] at hrow
    exact hrow
  · have hrow := hsplit h periodic (.startOut out)
    rwa [split_startOut hport hserves, splitStart_nak hnone] at hrow
  · have hrow := hsplit h periodic .complete
    rwa [split_complete hport hserves, splitComplete_waits hfind hresult] at hrow
  · have hrow := hsplit h periodic .complete
    rwa [split_complete hport hserves, splitComplete_handshake hfind hresult hdata] at hrow
  · have hrow := hsplit h periodic .complete
    rwa [split_complete hport hserves, splitComplete_data hfind hresult] at hrow
  · have hrow := hpacket k up p
    rw [ssPacket_served hport ⟨hn, hserved, hhub, hspeed, hruns, hconfig, henabled, hawake⟩] at hrow
    refine ⟨fun e hclaim hlink => ?_, fun hfull => ?_⟩
    · rwa [if_pos hclaim, hlink] at hrow
    · rwa [hfull] at hrow

/-! ## Remote wake (R304, R307) -/

section Wake

variable {d : Dev} {p n : Nat}

/-- A remote wake behind a hub that is presented and configured starts a wake of the device, where it goes anywhere. -/
theorem hubWake_served (hport : d.portOfHub p = some n) (hhub : d.hubPresented = true) (hserved : d.served n = true)
    (hconfig : d.u0.hub.config = 1) : d.hubWake p =
      if d.u0.suspended then
        (if d.u0.hub.remoteWake then (d.startWake .remoteWake).updHub fun f => { f with waking := true }
        else d.startWake .remoteWake)
      else if (d.hubPort p).status.getLsbD 2 then (d.startWake .remoteWake).hubResume p else d := by
  simp only [Dev.hubWake, hport, hhub, hserved, hconfig, ne_eq, not_true_eq_false, decide_false, Bool.not_true, Bool.or_self,
    Bool.false_eq_true, if_false]
  rfl

/-- The start of a wake leaves U0 as it is. -/
@[simp] theorem startWake_u0 (d : Dev) (src : WakeSrc) : (d.startWake src).u0 = d.u0 := by
  obtain ⟨q, hq⟩ := startWake_eq d src
  rw [hq]

/-- A port that is suspended alone is resumed, and shows the change. -/
theorem hubResume_suspended (hsusp : (d.hubPort p).status.getLsbD 2 = true) : d.hubResume p =
    (d.updHubPort p fun x => { x with
      status := x.status &&& 0xFFFB, change := x.change ||| (if d.u0.speed = 3 then 0x40 else 4) }).hubLink p 0 := if_pos hsusp

end Wake

/-- Remote wake of a TRANSPARENT port. -/
theorem hubWakeRow : Rows.HubWakeRow := by
  intro k n s hport hhub hserved hconfig
  have hrow : Safety.gives (.hubRemoteWake k) s (s.dev.hubWake (k.val + 1)) := rfl
  rw [hubWake_served hport hhub hserved hconfig] at hrow
  refine ⟨fun hsusp hwake => ?_, fun hsusp hwake => ?_, fun hruns halone => ?_⟩
  · rw [hsusp, hwake] at hrow
    exact ⟨_, hrow, by simp [Dev.updHub]⟩
  · rw [hsusp, hwake] at hrow
    exact ⟨_, hrow, startWake_u0 ..⟩
  · have hsame : ((s.dev.startWake .remoteWake).hubPort (k.val + 1)).status.getLsbD 2 = true := by
      rwa [Dev.hubPort, startWake_u0]
    rw [hruns, if_neg Bool.false_ne_true, if_pos halone, hubResume_suspended hsame, startWake_u0] at hrow
    exact hrow

/-! ## Coupler ports acting as UFP (R214, R225, R275, R290, R305) -/

/-- Requests and bus events of a coupler port that presents its function device. -/
theorem ufpRows : Rows.UfpRows := by
  intro n s hpresents
  refine ⟨fun x hruns => ?_, fun ss => ?_, fun hruns => ?_, fun hsusp => ?_⟩
  · have hrow : Safety.gives (.ufpControlRequest n x) s (s.dev.ufpControl n.val x) := rfl
    rwa [Dev.ufpControl, if_pos (by simp [hpresents, hruns])] at hrow
  · have hrow : Safety.gives (.ufpBusReset n ss) s (s.dev.ufpReset n.val ss) := rfl
    rwa [Dev.ufpReset, if_pos hpresents] at hrow
  · have hrow : Safety.gives (.ufpSuspend n) s (s.dev.ufpSuspended n.val) := rfl
    rwa [Dev.ufpSuspended, if_pos (by simp [hpresents, hruns])] at hrow
  · have hrow : Safety.gives (.ufpResume n) s (s.dev.ufpResumed n.val) := rfl
    rwa [Dev.ufpResumed, if_pos (by simp [hpresents, hsusp])] at hrow

/-- Settles O58: what a translator or the hub takes is linked or refused by its claim, a wake follows the suspend it meets, and a
UFP follows its bus. -/
theorem transparentPorts : Obligations.TransparentPorts := ⟨translatorRows, hubWakeRow, ufpRows⟩

end Sys2Proof.Machine

/-! # Commands behind the key guard

Registers that only act, how a write reaches them over a path, and what the guard lets through (R400). -/

namespace Sys2Proof.Machine

open Sys2Proof

/-! ## A command with a number beside it -/

section CommandWords

/-- A number placed at bit 0. -/
theorem toNat_at_zero {k : Nat} (hk : k < 2 ^ 32) : (at_ k 0).toNat = k := by
  simp only [at_, Nat.shiftLeft_zero, BitVec.toNat_ofNat, Nat.mod_eq_of_lt hk]

/-- A narrow operand placed at bit 0 is the operand, zero-extended. -/
theorem at_zero_toNat {w : Nat} (i : BitVec w) : at_ i.toNat 0 = i.zeroExtend 32 := BitVec.ofNat_toNat ..

variable {c x m : W32} {n : Nat} (hx : x.toNat < 2 ^ n)
include hx

/-- The field of the number reads as the number. -/
theorem bits_command (hc : c.toNat % 2 ^ n = 0) : bits (c ||| x) 0 n = x.toNat := by
  rw [bits, Nat.shiftRight_zero, BitVec.toNat_or, Nat.or_mod_two_pow, hc, Nat.zero_or, Nat.mod_eq_of_lt hx]

/-- The bits above it are those of the command. -/
theorem bit_command {i : Nat} (hi : n ≤ i) : bit (c ||| x) i = bit c i := by
  have hclear : x.getLsbD i = false := Nat.testBit_lt_two_pow (Nat.lt_of_lt_of_le hx (Nat.pow_le_pow_right Nat.two_pos hi))
  rw [bit, BitVec.getLsbD_or, hclear, Bool.or_false, bit]

/-- A mask that keeps the field of the number keeps the number. -/
theorem and_mask (hm : m.toNat % 2 ^ n = 2 ^ n - 1) : x &&& m = x := by
  refine BitVec.eq_of_toNat_eq ?_
  have hlow : x.toNat &&& m.toNat < 2 ^ n := Nat.lt_of_le_of_lt Nat.and_le_left hx
  calc (x &&& m).toNat = x.toNat &&& m.toNat := BitVec.toNat_and ..
    _ = (x.toNat &&& m.toNat) % 2 ^ n := (Nat.mod_eq_of_lt hlow).symm
    _ = x.toNat := by rw [Nat.and_mod_two_pow, hm, Nat.and_two_pow_sub_one_eq_mod, Nat.mod_mod, Nat.mod_eq_of_lt hx]

/-- What a register keeps of a command and its number. -/
theorem command_and_mask (hm : m.toNat % 2 ^ n = 2 ^ n - 1) : (c ||| x) &&& m = (c &&& m) ||| x := by
  rw [BitVec.and_or_distrib_right, and_mask hx hm]

end CommandWords

/-! ## A write over a path -/

/-- Who writes over a path: the SPI, or a request of a subscriber. -/
abbrev Writer := Option (SubId × BitVec 16)

/-- A write of `v` at address `a` is a command, which acts as `act` and stores nothing of itself; `g` tells whether the key guard
applies. -/
structure IsCommand (g : Bool) (a : Nat) (v : W32) (act : Writer → Dev → Dev) : Prop where
  noQuire : quireAt a = none
  info : regInfo a = some (.command g)
  noMailbox : isMailbox a = false
  encoded : ∀ d : Dev, d.encJudge a v = true
  acts : ∀ (d : Dev) (who : Writer), d.makeWrite who a v (.command g) = (true, act who d)

section PathWrites

variable {d : Dev} {p : Path} {a : Nat} {v : W32} {g : Bool} {act : Writer → Dev → Dev}

/-- To name the request that writes takes at most a free value. -/
theorem writer_eq (d : Dev) (p : Path) : ∃ k, (d.writer p).2 = { d with freeCtr := k } := by
  cases p with
  | spi => exact ⟨d.freeCtr, rfl⟩
  | sub x =>
    simp only [Dev.writer]
    split
    · exact ⟨d.freeCtr, rfl⟩
    · exact ⟨d.freeCtr + 1, rfl⟩

/-- A write that is served is made by its writer. -/
theorem pathWrite_served (hserved : Safety.writes d p) :
    d.pathWrite p a v = ((d.writer p).2.writeReg (d.writer p).1 false a v).2 := by
  obtain ⟨hpath, -, hgo⟩ := hserved
  have hawake : ¬ ((decide (p = .spi) && d.halted) = true) := by simpa using hgo
  simp only [Dev.pathWrite, hpath, Bool.not_true, Bool.false_eq_true, if_false]
  exact if_neg hawake

/-- The guard, where it applies, refuses a command, or the command acts. -/
theorem writeReg_command {who : Writer} (hcmd : IsCommand g a v act) (hsafe : d.fc.chipSafe = false) :
    (d.writeReg who false a v).2 =
      if g = true ∧ d.guard (guardKey who) < 2 then (d.quireAck.regErr who a 28).flag aLockStatus 16
      else act who (if g then d.quireAck.setGuard (guardKey who) 0 else d.quireAck) := by
  have hsafe' : d.quireAck.fc.chipSafe = false := hsafe
  have hinert : ((RegInfo.command g).rw = 0 && (RegInfo.command g).w1c = 0 && !(RegInfo.command g).acts) = false := rfl
  have hgroup : (RegInfo.command g).group = none := rfl
  have hguarded : (RegInfo.command g).guarded = g := rfl
  have hshut : d.quireAck.guardShut who false = decide (d.guard (guardKey who) < 2) := Bool.true_and _
  have huse : d.quireAck.useGuard who false = d.quireAck.setGuard (guardKey who) 0 := rfl
  simp only [Dev.writeReg, hsafe', hcmd.noQuire, hcmd.info, hcmd.noMailbox, hinert, hcmd.encoded, hguarded, hshut, hgroup, huse,
    hcmd.acts, Bool.and_false, Bool.not_true, Bool.false_eq_true, if_false, if_true, Option.any_none, Bool.and_eq_true,
    decide_eq_true_eq]
  split <;> rfl

variable (hserved : Safety.writes d p)
include hserved

/-- A command over a path that is served. -/
theorem pathWrite_command (hcmd : IsCommand g a v act) : d.pathWrite p a v =
    if g = true ∧ d.guard (Safety.guardOf d p) < 2 then
      ((Safety.atWrite d p).regErr (d.writer p).1 a 28).flag aLockStatus 16
    else act (d.writer p).1 (if g then Safety.atGuarded d p else Safety.atWrite d p) := by
  obtain ⟨k, hk⟩ := writer_eq d p
  have hsafe : (d.writer p).2.fc.chipSafe = false := hk ▸ hserved.2.1
  have hguard : (d.writer p).2.guard (guardKey (d.writer p).1) = d.guard (Safety.guardOf d p) := by
    rw [hk]
    rfl
  rw [pathWrite_served hserved, writeReg_command hcmd hsafe, hguard]
  rfl

/-- A command that the guard does not watch acts. -/
theorem pathWrite_plain (hcmd : IsCommand false a v act) : d.pathWrite p a v = act (d.writer p).1 (Safety.atWrite d p) :=
  (pathWrite_command hserved hcmd).trans (if_neg fun h => Bool.false_ne_true h.1)

/-- A guarded command acts while the guard is open, which re-arms. -/
theorem pathWrite_unlocked (hopen : Safety.unlocked d p) (hcmd : IsCommand true a v act) :
    d.pathWrite p a v = act (d.writer p).1 (Safety.atGuarded d p) :=
  (pathWrite_command hserved hcmd).trans (if_neg fun h => Nat.not_le.2 h.2 hopen)

/-- A guarded command is refused while the guard is armed, with its traces in LOCK_STATUS and REG_ERR. -/
theorem pathWrite_locked (hlocked : ¬ Safety.unlocked d p) (hcmd : IsCommand true a v act) :
    d.pathWrite p a v = ((Safety.atWrite d p).regErr (d.writer p).1 a 28).flag aLockStatus 16 :=
  (pathWrite_command hserved hcmd).trans (if_pos ⟨rfl, Nat.not_le.1 hlocked⟩)

end PathWrites

/-! ## The guard itself -/

/-- `UNLOCK` reaches the guard of its writer, and lies outside it. -/
theorem isCommand_unlock (v : W32) : IsCommand false aUnlock v fun who b => b.unlock (guardKey who) v :=
  ⟨rfl, rfl, rfl, fun _ => rfl, fun _ _ => rfl⟩

/-- The guard of a path: unlocked by its key, armed by another value, and re-armed in time. -/
theorem guardRows : Rows.GuardRows := by
  intro p s
  have hunlock (v : W32) (hserved : Safety.writes s.dev p) :
      Safety.gives (.unlock p v) s ((Safety.atWrite s.dev p).unlock (Safety.guardOf s.dev p) v) :=
    pathWrite_plain hserved (isCommand_unlock v) ▸ rfl
  have hspi : Safety.gives (.guardRearm .spi) s (s.dev.guardRearm 0) := rfl
  have hsub (x : SubId) : Safety.gives (.guardRearm (.sub x)) s (s.dev.guardRearm (1 + x.toNat)) := rfl
  refine ⟨fun v hserved hkey => ?_, fun v hserved hother => ⟨_, hunlock v hserved, ?_⟩, fun hlast => ?_, fun x hlast => ?_⟩
  · have hrow := hunlock v hserved
    rwa [Dev.unlock, if_pos hkey] at hrow
  · have hreg : (Safety.atWrite s.dev p).reg aLockStatus = s.dev.reg aLockStatus := by
      obtain ⟨k, hk⟩ := writer_eq s.dev p
      rw [Safety.atWrite, hk]
      rfl
    rw [Dev.unlock, if_neg hother, hreg]
  · rwa [Dev.guardRearm, if_pos hlast] at hspi
  · have hrow := hsub x
    rwa [Dev.guardRearm, if_pos hlast] at hrow

/-! ## The guarded commands on the collector and the Vat (R138, R385, R387 to R389) -/

section Commands

variable (d : Dev) (i : BitVec 9) (q : Fin 16384)

/-- A source fits into its field. -/
theorem toNat_at_source : (at_ i.toNat 0).toNat = i.toNat :=
  toNat_at_zero (Nat.lt_trans i.isLt (by decide))

/-- So does a queue. -/
theorem toNat_at_queue : (at_ q.val 0).toNat = q.val :=
  toNat_at_zero (Nat.lt_trans q.isLt (by decide))

/-- The bound of a source. -/
theorem source_lt : (at_ i.toNat 0).toNat < 2 ^ 9 := (toNat_at_source i).symm ▸ i.isLt

/-- The bound of a queue. -/
theorem queue_lt : (at_ q.val 0).toNat < 2 ^ 14 := (toNat_at_queue q).symm ▸ q.isLt

/-- The field SOURCE of a command. -/
theorem bits_source {c : W32} (hc : c.toNat % 2 ^ 9 = 0) : bits (c ||| at_ i.toNat 0) 0 9 = i.toNat := by
  rw [bits_command (source_lt i) hc, toNat_at_source]

/-- The field QUEUE of a command. -/
theorem bits_queue {c : W32} (hc : c.toNat % 2 ^ 14 = 0) : bits (c ||| at_ q.val 0) 0 14 = q.val := by
  rw [bits_command (queue_lt q) hc, toNat_at_queue]

/-- A register that keeps SOURCE and bit 30 of a command. -/
theorem command_and_source (c : W32) : (c ||| at_ i.toNat 0) &&& 0x400001FF = (c &&& 0x400001FF) ||| i.zeroExtend 32 := by
  rw [command_and_mask (source_lt i) (by decide), at_zero_toNat]

/-- GO alone leaves the source there. -/
theorem go_and_source : (at_ 1 31 ||| at_ i.toNat 0) &&& 0x400001FF = i.zeroExtend 32 :=
  (command_and_source i _).trans BitVec.zero_or

/-- A clear of one source (R385). -/
theorem fcClear_source : d.fcClear (at_ 1 31 ||| at_ i.toNat 0) =
    let r := (d.setReg aFcClear (i.zeroExtend 32)).clearSource i.toNat
    if r.1 then r.2.flag aFcStatus 26 else r.2 := by
  have hgo : bit (at_ 1 31 ||| at_ i.toNat 0) 31 = true := bit_command (source_lt i) (by decide)
  have hone : bit (at_ 1 31 ||| at_ i.toNat 0) 30 = false := bit_command (source_lt i) (by decide)
  simp only [Dev.fcClear, go_and_source, hgo, hone, bits_source i (show (at_ 1 31).toNat % 2 ^ 9 = 0 by decide), Bool.not_true,
    Bool.false_eq_true, if_false]

/-- A clear of every source. -/
theorem fcClear_all : d.fcClear (at_ 3 30) =
    let r := (d.setReg aFcClear 0x40000000).clearAll
    if r.1 = 0 then r.2 else r.2.flag aFcStatus 26 := by
  have hkept : at_ 3 30 &&& 0x400001FF = 0x40000000 := by decide
  have hgo : bit (at_ 3 30) 31 = true := by decide
  have hall : bit (at_ 3 30) 30 = true := by decide
  simp only [Dev.fcClear, hkept, hgo, hall, Bool.not_true, Bool.false_eq_true, if_false, if_true]

/-- A forced assertion (R387). -/
theorem fcForce_source : d.fcForce (at_ 1 31 ||| at_ i.toNat 0) = (d.setReg aFcForce (i.zeroExtend 32)).force i.toNat := by
  have hgo : bit (at_ 1 31 ||| at_ i.toNat 0) 31 = true := bit_command (source_lt i) (by decide)
  have hreal : bit (at_ 1 31 ||| at_ i.toNat 0) 30 = false := bit_command (source_lt i) (by decide)
  simp only [Dev.fcForce, go_and_source, hgo, hreal, bits_source i (show (at_ 1 31).toNat % 2 ^ 9 = 0 by decide), Bool.not_true,
    Bool.false_eq_true, if_false]

/-- A rehearsal (R388). -/
theorem fcForce_rehearse : d.fcForce (at_ 3 30 ||| at_ i.toNat 0) =
    (d.setReg aFcForce (0x40000000 ||| i.zeroExtend 32)).rehearse i.toNat := by
  have hkept : (at_ 3 30 ||| at_ i.toNat 0) &&& 0x400001FF = 0x40000000 ||| i.zeroExtend 32 := command_and_source i _
  have hgo : bit (at_ 3 30 ||| at_ i.toNat 0) 31 = true := bit_command (source_lt i) (by decide)
  have hrehearse : bit (at_ 3 30 ||| at_ i.toNat 0) 30 = true := bit_command (source_lt i) (by decide)
  simp only [Dev.fcForce, hkept, hgo, hrehearse, bits_source i (show (at_ 3 30).toNat % 2 ^ 9 = 0 by decide), Bool.not_true,
    Bool.false_eq_true, if_false, if_true]

/-- A reset of one queue (R138). -/
theorem vatQreset_queue : d.vatQreset (at_ 1 31 ||| at_ q.val 0) =
    (d.setReg aVatQreset (BitVec.ofNat 32 q.val)).resetQueueWork q.val stResetAborted := by
  have hkept : (at_ 1 31 ||| at_ q.val 0) &&& 0x3FFF = BitVec.ofNat 32 q.val :=
    (command_and_mask (queue_lt q) (by decide)).trans BitVec.zero_or
  have hgo : bit (at_ 1 31 ||| at_ q.val 0) 31 = true := bit_command (queue_lt q) (by decide)
  simp only [Dev.vatQreset, hkept, hgo, bits_queue q (show (at_ 1 31).toNat % 2 ^ 14 = 0 by decide), if_true]

/-- `FC_FORCE` may name a source in use, and rehearse one that is no CHIP source (R387, R388). -/
theorem encJudge_fcForce (v : W32) :
    d.encJudge aFcForce v = (srcUsed (bits v 0 9) && !(bit v 30 && srcChip (bits v 0 9))) :=
  (Bool.and_true (_ && true)).trans (Bool.and_true _)

/-- `VAT_QRESET` may name a queue outside SV0 (R138). -/
theorem encJudge_vatQreset (v : W32) : d.encJudge aVatQreset v = !sv0Queue (bits v 0 14) := rfl

/-- FC_CLEAR of one source acts. -/
theorem isCommand_fcClearGo : IsCommand true aFcClear (at_ 1 31 ||| at_ i.toNat 0) fun _ b =>
    let r := (b.setReg aFcClear (i.zeroExtend 32)).clearSource i.toNat
    if r.1 then r.2.flag aFcStatus 26 else r.2 :=
  ⟨rfl, rfl, rfl, fun _ => rfl, fun b _ => congrArg (Prod.mk true) (fcClear_source b i)⟩

/-- FC_CLEAR with ALL acts. -/
theorem isCommand_fcClearAll : IsCommand true aFcClear (at_ 3 30) fun _ b =>
    let r := (b.setReg aFcClear 0x40000000).clearAll
    if r.1 = 0 then r.2 else r.2.flag aFcStatus 26 :=
  ⟨rfl, rfl, rfl, fun _ => rfl, fun b _ => congrArg (Prod.mk true) (fcClear_all b)⟩

/-- FC_FORCE of a source in use acts. -/
theorem isCommand_fcForceGo (hused : srcUsed i.toNat = true) : IsCommand true aFcForce (at_ 1 31 ||| at_ i.toNat 0) fun _ b =>
    (b.setReg aFcForce (i.zeroExtend 32)).force i.toNat := by
  refine ⟨rfl, rfl, rfl, fun b => ?_, fun b _ => congrArg (Prod.mk true) (fcForce_source b i)⟩
  have hreal : bit (at_ 1 31 ||| at_ i.toNat 0) 30 = false := bit_command (source_lt i) (by decide)
  rw [encJudge_fcForce, bits_source i (by decide), hused, hreal]
  rfl

/-- FC_FORCE with REHEARSE acts on a source in use that is no CHIP source. -/
theorem isCommand_fcForceRehearse (hused : srcUsed i.toNat = true) (hchip : srcChip i.toNat = false) :
    IsCommand true aFcForce (at_ 3 30 ||| at_ i.toNat 0) fun _ b =>
      (b.setReg aFcForce (0x40000000 ||| i.zeroExtend 32)).rehearse i.toNat := by
  refine ⟨rfl, rfl, rfl, fun b => ?_, fun b _ => congrArg (Prod.mk true) (fcForce_rehearse b i)⟩
  rw [encJudge_fcForce, bits_source i (by decide), hused, hchip, Bool.and_false]
  rfl

/-- FC_WM_CTRL with CLEAR acts. -/
theorem isCommand_fcWmCtrlClear : IsCommand true aFcWmCtrl 1 fun _ b => b.clearWatermark :=
  ⟨rfl, rfl, rfl, fun _ => rfl, fun _ _ => rfl⟩

/-- VAT_QRESET of a queue outside SV0 acts. -/
theorem isCommand_vatQresetGo (hdata : sv0Queue q.val = false) : IsCommand true aVatQreset (at_ 1 31 ||| at_ q.val 0) fun _ b =>
    (b.setReg aVatQreset (BitVec.ofNat 32 q.val)).resetQueueWork q.val stResetAborted := by
  refine ⟨rfl, rfl, rfl, fun b => ?_, fun b _ => congrArg (Prod.mk true) (vatQreset_queue b q)⟩
  rw [encJudge_vatQreset, bits_queue q (by decide), hdata]
  rfl

end Commands

section Rows

variable (p : Path) (s : State)

/-! Each row is the write of its command over its path; R18 is judged anew after FC_FORCE. -/

theorem gives_fcClearGo (i : BitVec 9) :
    Safety.gives (.fcClearGo p i) s (s.dev.pathWrite p aFcClear (at_ 1 31 ||| at_ i.toNat 0)) := rfl

theorem gives_fcClearAll : Safety.gives (.fcClearAll p) s (s.dev.pathWrite p aFcClear (at_ 3 30)) := rfl

theorem sees_fcForceGo (i : BitVec 9) :
    Safety.sees (.fcForceGo p i) s (s.dev.pathWrite p aFcForce (at_ 1 31 ||| at_ i.toNat 0)) := rfl

theorem gives_fcForceRehearse (i : BitVec 9) :
    Safety.gives (.fcForceRehearse p i) s (s.dev.pathWrite p aFcForce (at_ 3 30 ||| at_ i.toNat 0)) := rfl

theorem gives_fcWmCtrlClear : Safety.gives (.fcWmCtrlClear p) s (s.dev.pathWrite p aFcWmCtrl 1) := rfl

theorem gives_vatQresetGo (q : Fin 16384) :
    Safety.gives (.vatQresetGo p q) s (s.dev.pathWrite p aVatQreset (at_ 1 31 ||| at_ q.val 0)) := rfl

end Rows

/-- With the guard open the guarded commands act, and it re-arms. -/
theorem guardedRows : Rows.GuardedRows := by
  intro p s hserved hopen
  refine ⟨fun i => ?_, ?_, fun i hused => ?_, fun i hused hchip => ?_, ?_, fun q hdata => ?_⟩
  · exact pathWrite_unlocked hserved hopen (isCommand_fcClearGo i) ▸ gives_fcClearGo p s i
  · exact pathWrite_unlocked hserved hopen isCommand_fcClearAll ▸ gives_fcClearAll p s
  · exact pathWrite_unlocked hserved hopen (isCommand_fcForceGo i hused) ▸ sees_fcForceGo p s i
  · exact pathWrite_unlocked hserved hopen (isCommand_fcForceRehearse i hused hchip) ▸ gives_fcForceRehearse p s i
  · exact pathWrite_unlocked hserved hopen isCommand_fcWmCtrlClear ▸ gives_fcWmCtrlClear p s
  · exact pathWrite_unlocked hserved hopen (isCommand_vatQresetGo q hdata) ▸ gives_vatQresetGo p s q

/-- With the guard armed they are refused. -/
theorem guardRefuses : Rows.GuardRefuses := by
  intro p s hserved hlocked
  dsimp only
  refine ⟨fun i => ?_, ?_, fun i hused => ?_, ?_, fun q hdata => ?_⟩
  · exact pathWrite_locked hserved hlocked (isCommand_fcClearGo i) ▸ gives_fcClearGo p s i
  · exact pathWrite_locked hserved hlocked isCommand_fcClearAll ▸ gives_fcClearAll p s
  · exact pathWrite_locked hserved hlocked (isCommand_fcForceGo i hused) ▸ sees_fcForceGo p s i
  · exact pathWrite_locked hserved hlocked isCommand_fcWmCtrlClear ▸ gives_fcWmCtrlClear p s
  · exact pathWrite_locked hserved hlocked (isCommand_vatQresetGo q hdata) ▸ gives_vatQresetGo p s q

/-- Settles O53: a write to a guarded command acts or is refused as the guard of its path stands. -/
theorem guards : Obligations.Guards := ⟨guardRows, guardedRows, guardRefuses⟩

end Sys2Proof.Machine

/-! # The beat source

What PLAN_NEXT_BEAT plans in each lock state, and what the edges of the source do that the Deckle follows. -/

namespace Sys2Proof.Machine

open Sys2Proof

/-- A beat has at least one microframe (R158). -/
theorem beatLen_pos (d : Dev) : 0 < d.beatLen := Nat.two_pow_pos _

/-! ## The plan (R171) -/

section Plan

variable {d : Dev}

/-- The quotient and remainder of a change over the microframes of a beat give the change back. -/
theorem spread_total (d : Dev) (x : Int) : x / d.beatLen * d.beatLen + ((x % d.beatLen).toNat : Int) = x := by
  have hpos : (0 : Int) < d.beatLen := by exact_mod_cast beatLen_pos d
  rw [Int.toNat_of_nonneg (Int.emod_nonneg x hpos.ne'), Int.ediv_mul_add_emod]

/-- The remainder lengthens fewer microframes than the beat has. -/
theorem spread_remainder_lt (d : Dev) (x : Int) : (x % d.beatLen).toNat < d.beatLen := by
  have hpos : (0 : Int) < d.beatLen := by exact_mod_cast beatLen_pos d
  exact (Int.toNat_lt (Int.emod_nonneg x hpos.ne')).2 (Int.emod_lt_of_pos x hpos)

/-- FREE plans the nominal length. -/
theorem plan_free (hstate : d.deckle.state = .free) : d.plan = (0, 0, false) := by
  simp [Dev.plan, hstate]

/-- COAST plans the held rate. -/
theorem plan_coast (hstate : d.deckle.state = .coast) :
    d.plan = (d.deckle.f / d.beatLen, (d.deckle.f % d.beatLen).toNat, false) := by
  simp [Dev.plan, hstate]

/-- LOCKED plans the rate and a quarter of the last phase error, within its bound. -/
theorem plan_locked (hstate : d.deckle.state = .locked) :
    let raw := d.deckle.f + d.deckle.lastE / 4
    let x := clampI (28 * d.beatLen) raw
    d.plan = (x / d.beatLen, (x % d.beatLen).toNat, decide (x ≠ raw)) := by
  simp only [Dev.plan, hstate]

/-- In the last microframe of a beat the plan is made. -/
theorem planNext_last (hruns : d.deckle.running = true) (hmf : d.deckle.mf + 1 = d.beatLen) :
    d.planNext = d.updDk fun x => { x with nextQ := d.plan.1, nextR := d.plan.2.1, nextClamped := d.plan.2.2 } :=
  if_pos ⟨hruns, hmf⟩

end Plan

/-- The plan of the next beat in each lock state, and that nothing else of the Deckle changes. -/
theorem beatPlan : Rows.BeatPlan := by
  intro s hruns hmf
  have hrow : Safety.gives .planNextBeat s s.dev.planNext := rfl
  rw [planNext_last hruns hmf] at hrow
  refine ⟨fun hstate => ⟨_, hrow, ?_⟩, fun hstate => ⟨_, hrow, ?_⟩, fun hstate => ⟨_, hrow, ?_⟩, fun t hplans => ?_⟩
  · rw [plan_free hstate]
    show 0 * (s.dev.beatLen : Int) + 0 = 0
    omega
  · rw [plan_coast hstate]
    exact ⟨spread_total s.dev _, spread_remainder_lt s.dev _, rfl⟩
  · rw [plan_locked hstate]
    exact ⟨spread_remainder_lt s.dev _, spread_total s.dev _⟩
  · cases hrow.symm.trans hplans
    rfl

/-! ## Edges (R164 to R170, R175) -/

section Edges

variable {d : Dev}

/-- An edge near its beat start, taken in LOCKED, moves F by a sixteenth of its error and ends the count of misses (R171). -/
theorem onEdge_near {t : Nat} (hstate : d.deckle.state = .locked) (hlow : -4096 ≤ (d.phase t).1) (hhigh : (d.phase t).1 ≤ 4096) :
    d.onEdge t = d.updDk fun x => { x with
      lastE := (d.phase t).1, misses := 0, lastEdge := some t
      f := clampI (24 * d.beatLen) (d.deckle.f + (d.phase t).1 / 16) } := by
  simp only [Dev.onEdge, Dev.updDk, hstate, hlow, hhigh, or_true, and_self, if_true]

/-- LOCKED stays while the edge accepted is near its beat start (R165, R169). -/
theorem walkEdge_near {t : Nat} {p : Int} (number : Option BeatNo) (hstate : d.deckle.state = .locked)
    (hpred : d.predicted = some p) (hopen : -15000 ≤ (t : Int) - p) (hclose : (t : Int) - p ≤ 15000)
    (hlow : -4096 ≤ (d.phase t).1) (hhigh : (d.phase t).1 ≤ 4096) : d.walkEdge t number = d.onEdge t := by
  simp only [Dev.walkEdge, hpred, hopen, hclose, hstate, hlow, hhigh, and_self, if_true]

/-- In LOCKED an edge of a source that is there meets the acceptance window. -/
theorem edge_locked (t : Nat) (number : Option BeatNo) (hruns : d.deckle.running = true) (hsrc : d.dkSrc ≠ 0)
    (hthere : d.srcAbsent = false) (hstate : d.deckle.state = .locked) : d.edge t number = d.walkEdge t number := by
  simp [Dev.edge, hruns, hsrc, hthere, hstate]

/-- An edge of a PTP source or of U0 is taken as it comes. -/
theorem sourceEdge_own (t : Nat) (number : Option BeatNo) (hpin : d.dkSrc ≠ 1) (hcoupler : d.dkSrc ≠ 4) :
    d.sourceEdge t number = d.edge t number := by
  rw [Dev.sourceEdge, if_neg hpin, if_neg hcoupler]

/-- A pulse on `BEAT_IN` that stays high for 48 cycles is an edge, less its delay (R163, R165). -/
theorem beatInEdge_long {t h : Nat} (hlong : 48 ≤ h) (hsrc : d.dkSrc = 1) :
    d.beatInEdge t h = d.edge ((t : Int) - signed 12 (d.fld aDkBeatin 0 12)).toNat none := if_pos ⟨hlong, hsrc⟩

/-- A shorter pulse is none. -/
theorem beatInEdge_short {t h : Nat} (hshort : h < 48) : d.beatInEdge t h = d :=
  if_neg fun hpulse => Nat.not_le.2 hshort hpulse.1

section Coupler

variable (hsrc : d.dkSrc = 4) (hufp : (d.link d.dkPort).ufp = true)
include hsrc hufp

/-- A UFP without a link delay has no edge (R175). -/
theorem sourceEdge_noDelay (t : Nat) (number : Option BeatNo) (hdelay : d.deckle.linkDelay = none) : d.sourceEdge t number = d := by
  simp [Dev.sourceEdge, Dev.couplerEdge, hsrc, hufp, hdelay]

/-- With one, the edge is its SOF less the delay, and starts the beat after the neighbour's last (R175). -/
theorem sourceEdge_delayed {x : Nat} (t : Nat) (number : Option BeatNo) (hdelay : d.deckle.linkDelay = some x) :
    d.sourceEdge t number = (d.edge (t - x) (d.deckle.neighbourBeat.map (· + 1))).updDk fun k =>
      { k with neighbourBeat := d.deckle.neighbourBeat.map (· + 1) } := by
  simp [Dev.sourceEdge, Dev.couplerEdge, hsrc, hufp, hdelay]

end Coupler

section Missing

variable (hruns : d.deckle.running = true) (hsrc : d.dkSrc ≠ 0)
include hruns hsrc

/-- The first edge missing in LOCKED is counted alone (R169). -/
theorem missEdge_first (hstate : d.deckle.state = .locked) (hfirst : d.deckle.misses = 0) :
    d.missEdge = d.updDk fun x => { x with misses := 1 } := by
  simp [Dev.missEdge, hruns, hsrc, hstate, hfirst]

/-- The second in a row enters COAST (R169). -/
theorem missEdge_second (hstate : d.deckle.state = .locked ∨ d.deckle.state = .walking) (hmissed : 1 ≤ d.deckle.misses) :
    d.missEdge = (d.updDk fun x => { x with misses := 2 }).enterCoast := by
  have htwo : min 2 (d.deckle.misses + 1) = 2 := Nat.min_eq_left (by omega)
  rcases hstate with hstate | hstate <;> simp [Dev.missEdge, hruns, hsrc, hstate, htwo]

end Missing

end Edges

/-- Edges of the beat source, and missing ones. -/
theorem sourceEdgeRows : Rows.SourceEdgeRows := by
  intro s hruns
  have hedge (t : Nat) (n : Option BeatNo) : Safety.gives (.sourceEdge t n) s (s.dev.sourceEdge t n) := rfl
  have hpulse (t h : Nat) : Safety.gives (.beatInEdge t h) s (s.dev.beatInEdge t h) := rfl
  have hmiss : Safety.gives .missingEdge s s.dev.missEdge := rfl
  refine ⟨fun t n p hstate hsrc hthere hpred hopen hclose hlow hhigh => ⟨_, hedge t n, ?_⟩, fun t h hlong hsrc => ?_,
    fun t h hshort => ?_, fun hsrc hufp => ⟨fun hdelay t n => ?_, fun x hdelay t n => ?_⟩,
    fun hsrc hstate hfirst => ?_, fun hsrc hstate hmissed => ?_⟩
  · rw [sourceEdge_own t n (by omega) (by omega), edge_locked t n hruns (by omega) hthere hstate,
      walkEdge_near n hstate hpred hopen hclose hlow hhigh, onEdge_near hstate hlow hhigh]
    rfl
  · exact beatInEdge_long hlong hsrc ▸ hpulse t h
  · have hrow := hpulse t h
    rwa [beatInEdge_short hshort] at hrow
  · have hrow := hedge t n
    rwa [sourceEdge_noDelay hsrc hufp t n hdelay] at hrow
  · exact sourceEdge_delayed hsrc hufp t n hdelay ▸ hedge t n
  · rwa [missEdge_first hruns hsrc hstate hfirst] at hmiss
  · rwa [missEdge_second hruns hsrc hstate hmissed] at hmiss

/-- Settles O29: a plan's parts make up the change of its lock state, and each edge has the outcome of its source and moment. -/
theorem beatSource : Obligations.BeatSource := ⟨beatPlan, sourceEdgeRows⟩

end Sys2Proof.Machine

/-! # The messages of a link

What a link-control frame does that passes the checks of every frame, what one does that fails them, and what the report poll
brings to either end of a link. -/

namespace Sys2Proof.Machine

open Sys2Proof

section ControlFrames

variable {d : Dev} {n : Nat} {f : List Byte}

/-- A frame whose checks and sequence hold is received (R268). -/
theorem rxFrame_received (hok : frameOk f = true) (hseq : frSeq f = (d.link n).rxHigh.toNat) :
    d.rxFrame n false f = (true, Safety.received d n f) := by
  simp only [Dev.rxFrame, hok, hseq, Bool.not_true, Bool.false_eq_true, ne_eq, not_true_eq_false, if_false]
  rfl

/-- A damaged frame resets the link (R268, R290). -/
theorem rxFrame_damaged (low : Bool) (hbad : frameOk f = false) : d.rxFrame n low f =
    (false, (((d.count (0x24030000 + n)).flag (aCplEvent n) 3).linkSource n 0).relayReset n 1) := by
  simp only [Dev.rxFrame, hbad, Bool.not_false, if_true]
  rfl

/-- So does a frame out of sequence (R269, R290). -/
theorem rxFrame_outOfSequence (hok : frameOk f = true) (hseq : frSeq f ≠ (d.link n).rxHigh.toNat) : d.rxFrame n false f =
    (false, (((d.count (0x24040000 + n)).flag (aCplEvent n) 4).linkSource n 1).relayReset n 2) := by
  simp only [Dev.rxFrame, hok, hseq, Bool.not_true, Bool.false_eq_true, ne_eq, not_false_eq_true, if_false, if_true]
  rfl

/-- A frame of the kind expected acts on the link that has received it (R271). -/
theorem rxControl_received {kind : Nat} (act : Dev → Dev) (hcontrol : Safety.control d n f kind) :
    d.rxControl n f kind act = act (Safety.received d n f) := by
  obtain ⟨hlively, hok, hseq, hlink, hkind⟩ := hcontrol
  simp only [Dev.rxControl, rxFrame_received hok hseq, hlively, hlink, hkind, decide_true, Bool.true_or, Bool.and_self, if_true]

/-- A frame that fails its checks does not act. -/
theorem rxControl_refused {kind : Nat} {a : Dev} (act : Dev → Dev) (hlively : (d.link n).state.lively = true)
    (hrefused : d.rxFrame n false f = (false, a)) : d.rxControl n f kind act = a := by
  simp only [Dev.rxControl, hrefused, hlively, Bool.true_or, Bool.false_and, Bool.false_eq_true, if_false, if_true]

end ControlFrames

section Reports

variable {d : Dev} {n : Nat} {p : List Byte} {t1 t4 : Nat}

/-- A UFP takes hops, beat and delay from BEAT, and checks its totals (R175, R272, R286). -/
theorem beatFrame_ufp {f : List Byte} (hcontrol : Safety.control d n f 5) (hufp : ((Safety.received d n f).link n).ufp = true) :
    d.beatFrame n f = (((Safety.received d n f).noteBeat n (byteAt (frPayload f) 1) (leAt (frPayload f) 2 6)).noteDelay n
      (if byteAt (frPayload f) 10 % 2 = 1 then some (leAt (frPayload f) 8 2) else none)).creditCheck n
        (totalsAt (frPayload f) 28) := by
  rw [Dev.beatFrame, rxControl_received _ hcontrol]
  simp only [hufp, Bool.not_true, Bool.false_eq_true, if_false]

/-- A report that no poll of this end awaits is none. -/
theorem reportSeen_unawaited (hunawaited : (d.link n).ufp = true ∨ (d.link n).polled = false) :
    d.reportSeen n p t1 t4 = d := if_pos (by simpa using hunawaited)

/-- A report that pairs with the poll before gives the delay and the start of the neighbour's beat (R176). -/
theorem reportSeen_paired {t : Nat × Nat} (hdfp : (d.link n).ufp = false) (hpolled : (d.link n).polled = true)
    (hlively : (d.link n).state.lively = true) (htype : byteAt p 0 = 1) (hvalid : byteAt p 10 % 2 = 1)
    (hprevious : (d.link n).t1 = some t) :
    let a := (d.dropClaim 0 1).updLink n fun y => { y with polled := false }
    d.reportSeen n p t1 t4 =
      (((a.noteBeat n (byteAt p 1) (exchangeBeat p)).noteDelay n (some (exchangeDelay t p))).updLink n fun y => { y with
        t1 := some (t1, t4), found := some ((exchangeStart t p).toNat, BitVec.ofNat 48 (exchangeBeat p)) }).creditCheck n
          (totalsAt p 20) := by
  have hclaim : recSegs 64 = 1 := rfl
  simp only [Dev.reportSeen, hdfp, hpolled, hlively, htype, hvalid, hprevious, hclaim, Bool.not_true, Bool.or_self, Bool.true_or,
    ne_eq, not_true_eq_false, decide_false, Bool.false_eq_true, if_false, if_true, Option.map_some]

/-- A UFP that is polled returns its report and keeps the times of the poll (R176, R273). -/
theorem reportPoll_ufp (t2 t3 : Nat) (hruns : d.couchRuns = true) (hufp : (d.link n).ufp = true)
    (hlively : (d.link n).state.lively = true) : d.reportPoll n t2 t3 = d.updLink n fun x => { x with
      report := d.reportData n, t2 := t2, t3 := t3, tBeat16 := BitVec.ofNat 16 d.beat16, tValid := true } := by
  simp only [Dev.reportPoll, hruns, hufp, hlively, Bool.and_self, if_true]

end Reports

/-- BEAT, REPORT and the report poll. -/
theorem beatMessageRows : Rows.BeatMessageRows := by
  intro n f s
  have hreport (p : List Byte) (t1 t4 : Nat) : Safety.gives (.report n p t1 t4) s (s.dev.reportSeen n.val p t1 t4) := rfl
  refine ⟨fun hcontrol => ?_, fun p t1 t4 t hdfp hpolled hlively htype hvalid hprevious => ?_, fun p t1 t4 hunawaited => ?_,
    fun t2 t3 hruns hufp hlively => ?_⟩
  · have hrow : Safety.gives (.beatFrame n f) s (s.dev.beatFrame n.val f) := rfl
    exact fun hufp => beatFrame_ufp hcontrol hufp ▸ hrow
  · have hrow := hreport p t1 t4
    rw [reportSeen_paired hdfp hpolled hlively htype hvalid hprevious] at hrow
    exact hrow
  · have hrow := hreport p t1 t4
    rwa [reportSeen_unawaited hunawaited] at hrow
  · have hrow : Safety.gives (.reportPoll n t2 t3) s (s.dev.reportPoll n.val t2 t3) := rfl
    rwa [reportPoll_ufp t2 t3 hruns hufp hlively] at hrow

/-- RESET, CREDIT, unknown kinds, and frames that fail their checks. -/
theorem resetCreditRows : Rows.ResetCreditRows := by
  intro n f s
  have hcredit : Safety.gives (.creditFrame n f) s (s.dev.rxControl n.val f 7 id) := rfl
  refine ⟨fun hcontrol => ?_, fun hcontrol => ?_, fun k _ hcontrol => ?_, fun hlively hbad => ?_, fun hlively hok hseq => ?_⟩
  · have hrow : Safety.gives (.resetFrame n f) s (s.dev.rxControl n.val f 6 fun a => a.relayReset n.val 6) := rfl
    rwa [rxControl_received _ hcontrol] at hrow
  · rwa [rxControl_received id hcontrol] at hcredit
  · have hrow : Safety.gives (.unknownLinkFrame n f) s (s.dev.rxControl n.val f (byteAt (frPayload f) 0) id) := rfl
    obtain ⟨hlively, hok, hseq, hlink, -⟩ := hcontrol
    rwa [rxControl_received id ⟨hlively, hok, hseq, hlink, rfl⟩] at hrow
  · rwa [rxControl_refused id hlively (rxFrame_damaged false hbad)] at hcredit
  · rwa [rxControl_refused id hlively (rxFrame_outOfSequence hok hseq)] at hcredit

/-- Settles O42: a control frame that is received acts on the link, one that fails its checks resets it, and a report pairs with
the times of the poll before. -/
theorem linkMessages : Obligations.LinkMessages := ⟨beatMessageRows, resetCreditRows⟩

end Sys2Proof.Machine

/-! # A root port from its connect to ENABLED

What each event of a root port does in the state that it meets (R198 to R200, R299). -/

namespace Sys2Proof.Machine

open Sys2Proof

section RootPort

variable {d : Dev} {n : Nat}

/-- An EMBEDDED port is a port below 32 whose allocation says so (R28). -/
theorem isEmbedded_iff (hn : n < 32) : d.isEmbedded n = true ↔ (d.port n).alloc = 1 := by
  simp [Dev.isEmbedded, hn]

/-- It is not TRANSPARENT. -/
theorem isTransparent_embedded (halloc : (d.port n).alloc = 1) : d.isTransparent n = false := by
  simp [Dev.isTransparent, halloc]

/-- A part that has started normally is not in Limp. -/
theorem limp_normal (hboot : d.boot.state = .normal) : d.limp = false := by
  simp [Dev.limp, hboot]

/-! ## Connect and debounce (R198) -/

/-- A connect on a root port that is DISCONNECTED and does not train is debounced. -/
theorem connectSeen_debounced (hroot : d.isRoot n = true) (hstate : (d.port n).state = .disconnected)
    (htrain : (d.port n).ssTraining = false) : d.connectSeen n = (d.toState n .debounce).startWake .connect := by
  simp only [Dev.connectSeen, hroot, hstate, htrain, decide_true, Bool.not_false, Bool.and_self, if_true]

/-- A connect that drops before its debounce has ended is forgotten. -/
theorem connectDrop_debouncing (hstate : (d.port n).state = .debounce) : d.connectDrop n =
    ((d.updPort n fun p => { p with state := .disconnected, speed := 0, ss := false }).portEvt n 2).portChange n :=
  if_pos hstate

section Debounced

variable (hstate : (d.port n).state = .debounce)
include hstate

/-- Where AUTO_RESET is 0 the port waits in CONNECTED. -/
theorem debounceEnd_waits (hauto : d.fldBit (aPortCfg n) 1 = false) :
    d.debounceEnd n = ((d.toState n .connected).portEvt n 1).portChange n := by
  simp only [Dev.debounceEnd, hstate, hauto, ne_eq, not_true_eq_false, if_false, Bool.not_false, Bool.or_true, if_true]

variable (hauto : d.fldBit (aPortCfg n) 1 = true) (hboot : d.boot.state = .normal)
include hauto hboot

/-- It waits there too while another port of its domain holds the binding (R188). -/
theorem debounceEnd_queued {b : Binding} (hemb : d.isEmbedded n = true) (hbound : d.binding (d.port n).domain = some b)
    (hother : b.port ≠ n) : d.debounceEnd n =
      (((d.toState n .connected).updPort n fun p => { p with waiting := d.nextWaiting }).portEvt n 1).portChange n := by
  simp only [Dev.debounceEnd, hstate, hauto, limp_normal hboot, hemb, hbound, Option.any_some, hother, ne_eq, not_true_eq_false,
    not_false_eq_true, decide_true, Bool.not_true, Bool.or_self, Bool.and_self, Bool.false_eq_true, if_false, if_true]

/-- Otherwise it is reset. -/
theorem debounceEnd_resets (hfree : d.binding (d.port n).domain = none ∨ d.isEmbedded n = false) :
    d.debounceEnd n = ((d.enterResetting n).portEvt n 1).portChange n := by
  have hclear : (d.isEmbedded n && (d.binding (d.port n).domain).any fun b => b.port ≠ n) = false := by
    rcases hfree with h | h <;> simp [h]
  simp only [Dev.debounceEnd, hstate, hauto, limp_normal hboot, hclear, ne_eq, not_true_eq_false, Bool.not_true, Bool.or_self,
    Bool.false_eq_true, if_false]

end Debounced

/-! ## Reset and recovery (R199, R200) -/

/-- A reset that succeeds on a domain without a binding. -/
theorem resetTaken_unbound {v : Nat} (hfree : d.binding (d.port n).domain = none) :
    d.resetTaken n v = d.updPort n fun p => { p with state := .recovery, speed := v, warmReset := false } := by
  simp only [Dev.resetTaken, hfree]

/-- A reset that succeeds on the port of the binding, which takes the speed found. -/
theorem resetTaken_bound {v : Nat} {b : Binding} (hemb : d.isEmbedded n = true)
    (hbound : d.binding (d.port n).domain = some b) (hport : b.port = n) : d.resetTaken n v =
      (d.updPort n fun p => { p with state := .recovery, speed := v, warmReset := false }).bind (d.port n).domain
        { b with speed := v } := by
  simp only [Dev.resetTaken, hbound, hemb, hport, decide_true, Bool.and_self, if_true]

section Resetting

variable (halloc : (d.port n).alloc = 1) (hstate : (d.port n).state = .resetting)
include halloc hstate

/-- At USB 2.0 the end of reset signalling gives the speed. -/
theorem resetSignalled_usb2 (sp : Nat) (hss : (d.port n).ss = false) : d.resetSignalled n sp = d.resetTaken n (min sp 2) := by
  simp only [Dev.resetSignalled, isTransparent_embedded halloc, hstate, hss, ne_eq, not_true_eq_false, Bool.not_false,
    Bool.false_eq_true, if_false, if_true]

variable (hss : (d.port n).ss = true)
include hss

/-- A SuperSpeed reset that succeeds. -/
theorem resetSignalled_trained : d.resetSignalled n 3 = d.resetTaken n 3 := by
  simp only [Dev.resetSignalled, isTransparent_embedded halloc, hstate, hss, ne_eq, not_true_eq_false, Bool.not_true,
    Bool.false_eq_true, if_false, if_true]

/-- A hot reset that fails is followed by a warm reset. -/
theorem resetSignalled_hotFailed {sp : Nat} (hfailed : sp ≠ 3) (hhot : (d.port n).warmReset = false) :
    d.resetSignalled n sp = d.updPort n fun p => { p with warmReset := true } := by
  simp only [Dev.resetSignalled, isTransparent_embedded halloc, hstate, hss, hfailed, hhot, ne_eq, not_true_eq_false,
    Bool.not_true, Bool.not_false, Bool.false_eq_true, if_false, if_true]

end Resetting

/-- After recovery the port is ENABLED; a DFP coupler port goes on to enumerate its neighbour (R259). -/
theorem recovered_enabled (hstate : (d.port n).state = .recovery) :
    let e := ((((d.updPort n fun p => { p with state := .enabled, idleBeats := 0, lastWork := d.now }).portEvt
      n 3).portChange n).resetsDone n).resumesDone n |>.sendU2Timeout n
    d.recovered n = if e.isCoupler n && (e.link n).state = .enumerating && !(e.link n).ufp then e.enumStart n else e :=
  if_neg (not_not.2 hstate)

/-! ## SuperSpeed training (R200, R299) -/

/-- A link that trains and reaches U0 runs at SuperSpeed. -/
theorem ssUp_trained (htrain : (d.port n).ssTraining = true) (hstate : (d.port n).state = .disconnected) :
    d.ssUp n = d.updPort n fun x => { x with ss := true, speed := 3, ssTraining := false, state := .debounce } := by
  simp only [Dev.ssUp, htrain, hstate, decide_true, Bool.and_self, if_true]

/-- A suspended link that resumes and reaches U0 is ENABLED again. -/
theorem ssUp_resumed (htrain : (d.port n).ssTraining = false) (hss : (d.port n).ss = true)
    (hstate : (d.port n).state = .suspended) (hlink : (d.port n).link = 5) : d.ssUp n = d.enabledAgain n := by
  simp only [Dev.ssUp, htrain, hss, hstate, hlink, decide_true, Bool.false_and, Bool.and_self, Bool.false_eq_true, if_false,
    if_true]

/-- A link that does not train leaves the port at USB 2.0, with its event. -/
theorem ssFailed_training (htrain : (d.port n).ssTraining = true) :
    d.ssFailed n = (d.updPort n fun p => { p with ssTraining := false }).portEvt n 5 :=
  if_pos htrain

end RootPort

/-! ## The rows -/

section RootPortRows

variable (n : Fin 32) (s : State)

/-- DEBOUNCE_END ends the debounce of its port. -/
theorem gives_debounceEnd : Safety.gives (.debounceEnd n) s (s.dev.debounceEnd n.val) := rfl

/-- RESET_SIGNALLING_END tells its port the speed found. -/
theorem gives_resetSignallingEnd (sp : BitVec 2) :
    Safety.gives (.resetSignallingEnd n sp) s (s.dev.resetSignalled n.val sp.toNat) := rfl

end RootPortRows

/-- SS_LINK_U0 takes the link of its port to U0. -/
theorem gives_ssLinkU0 (n : Fin 8) (s : State) : Safety.gives (.ssLinkU0 n) s (s.dev.ssUp n.val) := rfl

/-- Each event of a root port acts in the state that it meets. -/
theorem rootPortRows : Rows.RootPortRows := by
  intro n s
  have hembedded := isEmbedded_iff (d := s.dev) n.isLt
  have hdebounced := gives_debounceEnd n s
  have hsignalled := gives_resetSignallingEnd n s
  refine ⟨fun hroot hstate htrain => ?_, fun hstate => ?_, fun hstate hauto => ?_, fun hstate hauto hboot hfree => ?_,
    fun b hstate hauto hboot halloc hbound hother => ?_, fun sp halloc hstate hss hfree => ?_,
    fun sp b halloc hstate hss hbound hport => ?_, fun halloc hstate hss => ⟨fun hfree => ?_, fun sp hfailed hhot => ?_⟩,
    fun hstate => ?_⟩
  · have hrow : Safety.gives (.connectSeen n) s (s.dev.connectSeen n.val) := rfl
    rwa [connectSeen_debounced hroot hstate htrain] at hrow
  · have hrow : Safety.gives (.connectDrop n) s (s.dev.connectDrop n.val) := rfl
    rwa [connectDrop_debouncing hstate] at hrow
  · rwa [debounceEnd_waits hstate hauto] at hdebounced
  · have hnone := hfree.imp_right fun h => Bool.eq_false_of_not_eq_true (mt hembedded.1 h)
    rwa [debounceEnd_resets hstate hauto hboot hnone] at hdebounced
  · rwa [debounceEnd_queued hstate hauto hboot (hembedded.2 halloc) hbound hother] at hdebounced
  · have hrow := hsignalled sp
    rwa [resetSignalled_usb2 halloc hstate _ hss, resetTaken_unbound hfree] at hrow
  · have hrow := hsignalled sp
    rw [resetSignalled_usb2 halloc hstate _ hss, resetTaken_bound (hembedded.2 halloc) hbound hport] at hrow
    exact hrow
  · have hrow : Safety.gives (.resetSignallingEnd n 3) s (s.dev.resetSignalled n.val 3) := hsignalled 3
    rwa [resetSignalled_trained halloc hstate hss, resetTaken_unbound hfree] at hrow
  · have hnot : sp.toNat ≠ 3 := fun h => hfailed (BitVec.eq_of_toNat_eq h)
    have hrow := hsignalled sp
    rwa [resetSignalled_hotFailed halloc hstate hss hnot hhot] at hrow
  · have hrow : Safety.gives (.recoveryEnd n) s (s.dev.recovered n.val) := rfl
    rwa [recovered_enabled hstate] at hrow

/-- The end of training, and of a SuperSpeed resume. -/
theorem superSpeedRows : Rows.SuperSpeedRows := by
  intro n s
  have hlinkUp := gives_ssLinkU0 n s
  refine ⟨fun htrain hstate => ?_, fun htrain hss hstate hlink => ?_, fun htrain => ?_⟩
  · rwa [ssUp_trained htrain hstate] at hlinkUp
  · rwa [ssUp_resumed htrain hss hstate hlink] at hlinkUp
  · have hrow : Safety.gives (.ssTrainingTimeout n) s (s.dev.ssFailed n.val) := rfl
    rwa [ssFailed_training htrain] at hrow

/-- Settles O36: each event of a root port and of its SuperSpeed link has the outcome of the state that it meets. -/
theorem rootPorts : Obligations.RootPorts := ⟨rootPortRows, superSpeedRows⟩

end Sys2Proof.Machine

/-! # What devices answer, and the times of transfers and addresses

Where an answer goes (R204 to R206, R223), what a babble does (R202), and when a transfer or an address hold ends (R189, R204). -/

namespace Sys2Proof.Machine

open Sys2Proof

section Answers

variable {d : Dev} {n : Nat} {r : XactResult}

/-- ERDY ends the flow control of its endpoint, if that is one of the port (R206). -/
theorem response_erdy (x : Nat) (past : Bool) : d.response n (.erdy x) past =
    d.updCtx x fun y => if y.port = n then { y with flow := false } else y := rfl

/-- A babble between transactions takes an ENABLED port to ERROR (R202). -/
theorem babble_idle (hstate : (d.port n).state = .enabled) (hidle : (d.port n).inflight = []) :
    d.babble n = (d.babblePort n).leftEnabled n := by
  simp only [Dev.babble, hstate, hidle, List.find?_nil, decide_true, Bool.true_or, if_true]

variable (hanswer : ∀ x, r ≠ .erdy x)
include hanswer

section Found

variable {y : Xact} (hfound : (d.port n).inflight.find? Xact.onBus = some y)
include hfound

/-- An answer past the end of its microframe is an error and a babble (R202). -/
theorem response_past : d.response n r true =
    ((((d.updPort n fun p => { p with inflight := p.inflight.erase y }).pollUnclaim y).xactError y.ctx).babblePort n).leftEnabled
      n := by
  cases r with
  | erdy x => exact absurd rfl (hanswer x)
  | _ => simp only [Dev.response, hfound, if_true]

/-- An answer in time goes to the poll whose transaction is on the bus. -/
theorem response_poll (hpoll : y.poll = true) :
    let e := d.updPort n fun p => { p with inflight := p.inflight.erase y }
    d.response n r false = ((e.pollAnswer n y r).lateTransfer y.ctx).closeLate y.ctx := by
  cases r with
  | erdy x => exact absurd rfl (hanswer x)
  | _ => simp only [Dev.response, hfound, hpoll, Bool.false_eq_true, if_false, if_true]

/-- Or to the transfer. -/
theorem response_attempt {t : Transfer} (hpoll : y.poll = false)
    (hhead : (d.updPort n fun p => { p with inflight := p.inflight.erase y }).headOn y.ctx = some t)
    (hstarted : t.started = true) :
    let e := d.updPort n fun p => { p with inflight := p.inflight.erase y }
    d.response n r false = ((e.attemptAnswer t y r).lateTransfer y.ctx).closeLate y.ctx := by
  cases r with
  | erdy x => exact absurd rfl (hanswer x)
  | _ => simp only [Dev.response, hfound, hpoll, hhead, hstarted, Bool.false_eq_true, if_false, if_true]

end Found

/-- On a TRANSPARENT port without a transaction of the engine the answer is the translator's (R223). -/
theorem response_translator (past : Bool) (hidle : (d.port n).inflight.find? Xact.onBus = none)
    (htrans : d.isTransparent n = true) : d.response n r past = d.ttResponse n r := by
  cases r with
  | erdy x => exact absurd rfl (hanswer x)
  | _ => simp only [Dev.response, hidle, htrans, if_true]

end Answers

section Translator

variable {d : Dev} {n : Nat} {b : TtBuffer} (hopen : ttOpen (d.hubPort (d.port n).hubPort).ttBuffers = some b)
include hopen

/-- The translator keeps an answer without data for the next complete-split. -/
theorem ttResponse_handshake {r : XactResult} (hhandshake : ∀ pid seq l, r ≠ .data pid seq l) :
    d.ttResponse n r = (d.dropClaim b.cls b.claim).updHubPort (d.port n).hubPort fun p =>
      { p with ttBuffers := ttPut b { b with result := some r, claim := 0 } p.ttBuffers } := by
  cases r with
  | data pid seq l => exact absurd rfl (hhandshake pid seq l)
  | _ => simp only [Dev.ttResponse, hopen, Dev.ttResult]

/-- It links IN data as a record of its buffer. -/
theorem ttResponse_data {pid : DataPid} {seq : BitVec 5} {l : List Byte} {e : Dev}
    (hlinked : ((d.dropClaim b.cls b.claim).openQueue (ttQueue (d.port n).hubPort b.periodic true) b.cls 1 n 32 0).enqueue
      (rqHs n) (ttQueue (d.port n).hubPort b.periodic true) ⟨5, false, true, 0, l⟩ = some e) :
    d.ttResponse n (.data pid seq l) = e.updHubPort (d.port n).hubPort fun p =>
      { p with ttBuffers := ttPut b { b with result := some (.data pid seq []), claim := 0 } p.ttBuffers } := by
  simp only [Dev.ttResponse, hopen, hlinked]

end Translator

section Times

variable {d : Dev} {c : Nat} {t : Transfer} {w : Nat}

/-- A transfer whose time has passed, with nothing on the wire, ends with TIMEOUT (R204). -/
theorem lateTransfer_late (hhead : d.headOn c = some t) (hstarted : t.started = true) (hdeadline : t.deadline = some w)
    (hpassed : w ≤ d.now) (hquiet : d.onWire c = false) : d.lateTransfer c = d.complete t stTimeout := by
  simp only [Dev.lateTransfer, hhead, hstarted, hdeadline, hpassed, hquiet, Option.any_some, decide_true, Bool.not_false,
    Bool.and_self, if_true]

/-- One whose time is still to come goes on. -/
theorem lateTransfer_early (hhead : d.headOn c = some t) (hdeadline : t.deadline = some w) (hearly : d.now < w) :
    d.lateTransfer c = d := by
  simp only [Dev.lateTransfer, hhead, hdeadline, Nat.not_le.2 hearly, Option.any_some, decide_false, Bool.and_false,
    Bool.false_and, Bool.false_eq_true, if_false]

/-- The holds that the end of an address hold leaves: those of other addresses, and those still to come (R189). -/
theorem mem_holdEnd {dom a : Nat} {h : Nat × Nat × Nat} :
    h ∈ (d.holdEnd dom a).holds ↔ h ∈ d.holds ∧ (h.1 = dom → h.2.1 = a → d.now < h.2.2) := by
  simp [Dev.holdEnd, imp_iff_not_or, or_assoc]

end Times

/-! ## The rows -/

/-- TRANSACTION_RESPONSE marks the cells that have changed, gives the answer to its port, and reports what its reads met. -/
theorem gives_transactionResponse (n : Fin 32) (r : XactResult) (u : List Upset) (past : Bool) (s : State) :
    Safety.gives (.transactionResponse n ⟨r, u⟩ past) s ((s.dev.upset u).response n.val r past).vatAlarms := rfl

/-- TRANSFER_TIMEOUT judges the transfer in front of its context. -/
theorem gives_transferTimeout (c : Nat) (s : State) : Safety.gives (.transferTimeout c) s (s.dev.lateTransfer c) := rfl

/-- An answer goes to the transaction on the bus, or else to the translator; a babble ends the port's work. -/
theorem answerRows : Rows.AnswerRows := by
  intro n r u s
  have hrow := gives_transactionResponse n r u
  refine ⟨fun x => response_erdy x false ▸ gives_transactionResponse n (.erdy x) u false s, fun hanswer =>
    ⟨fun y hfound => ⟨fun t hpoll hhead hstarted => ?_, fun hpoll => ?_, ?_⟩,
      fun b past hidle htrans hopen => ⟨fun hhandshake => ?_, fun pid seq l e hdata hlinked => ?_⟩⟩, fun hstate hidle => ?_⟩
  · exact response_attempt hanswer hfound hpoll hhead hstarted ▸ hrow false s
  · exact response_poll hanswer hfound hpoll ▸ hrow false s
  · exact response_past hanswer hfound ▸ hrow true s
  · exact ttResponse_handshake hopen hhandshake ▸ response_translator hanswer past hidle htrans ▸ hrow past s
  · subst hdata
    exact ttResponse_data hopen hlinked ▸ response_translator hanswer past hidle htrans ▸ hrow past s
  · have hbabble : Safety.gives (.babble n) s (s.dev.babble n.val) := rfl
    rwa [babble_idle hstate hidle] at hbabble

/-- Transfers and address holds end as their times pass. -/
theorem transferTimeRows : Rows.TransferTimeRows := by
  intro s
  refine ⟨fun c t w hhead hstarted hdeadline hpassed hquiet => ?_, fun c t w hhead hdeadline hearly => ?_,
    fun dom a => ⟨s.dev.holdEnd dom.val a.toNat, rfl, fun w hheld => ?_, fun h hheld hother => ?_⟩⟩
  · exact lateTransfer_late hhead hstarted hdeadline hpassed hquiet ▸ gives_transferTimeout c s
  · have hrow := gives_transferTimeout c s
    rwa [lateTransfer_early hhead hdeadline hearly] at hrow
  · exact (mem_holdEnd.1 hheld).2 rfl rfl
  · exact mem_holdEnd.2 ⟨hheld, fun hdom haddr => absurd (hother.resolve_left (not_not.2 hdom)) (not_not.2 haddr)⟩

/-- Settles O35: an answer has the outcome of what it meets on its port, and times end what they bound. -/
theorem hostAnswers : Obligations.HostAnswers := ⟨answerRows, transferTimeRows⟩

end Sys2Proof.Machine

/-! # The Transfers group

What a request of the group becomes once its turn has come: a waiting transfer, a new endpoint, or a close (R194, R195, R203,
R204, R429 to R431). -/

namespace Sys2Proof.Machine

open Sys2Proof

/-! ## Parameters -/

section Layout

variable {p : List Byte} {i : Nat}

/-- Eight bytes of a layout read as the SETUP packet written there. -/
theorem setupAt_layout (su : Setup) (pre rest : List Byte) (hi : pre.length = i)
    (hp : p = pre ++ setupBytes su ++ rest) : setupAt p i = su := by
  have htype : p.getD i 0 = su.bmRequestType := by simp [hp, setupBytes, ← hi]
  have hrequest : p.getD (i + 1) 0 = su.bRequest := by simp [hp, setupBytes, ← hi]
  have hvalue : leAt p (i + 2) 2 = su.wValue.toNat :=
    leAt_layout (pre ++ [su.bmRequestType, su.bRequest]) (leBytes 2 su.wIndex.toNat ++ leBytes 2 su.wLength.toNat ++ rest)
      (by simp [hp, setupBytes]) (by simp [hi]) su.wValue.isLt
  have hindex : leAt p (i + 4) 2 = su.wIndex.toNat :=
    leAt_layout (pre ++ [su.bmRequestType, su.bRequest] ++ leBytes 2 su.wValue.toNat) (leBytes 2 su.wLength.toNat ++ rest)
      (by simp [hp, setupBytes]) (by simp [hi]) su.wIndex.isLt
  have hlength : leAt p (i + 6) 2 = su.wLength.toNat :=
    leAt_layout (pre ++ [su.bmRequestType, su.bRequest] ++ leBytes 2 su.wValue.toNat ++ leBytes 2 su.wIndex.toNat) rest
      (by simp [hp, setupBytes]) (by simp [hi]) su.wLength.isLt
  simp only [setupAt, htype, hrequest, hvalue, hindex, hlength, BitVec.ofNat_toNat, BitVec.setWidth_eq]

/-- TIMEOUT stands behind the target block. -/
theorem leAt_timeout {b0 b1 b2 b3 : Byte} {w : BitVec 20} (rest : List Byte)
    (hp : p = [b0, b1, b2, b3] ++ leBytes 4 w.toNat ++ rest) : leAt p 4 4 = w.toNat :=
  leAt_layout [b0, b1, b2, b3] rest hp rfl (Nat.lt_trans w.isLt (by decide))

/-- TIMEOUT 0 asks for the default (R204). -/
theorem timeoutOf_toNat (control : Bool) (w : BitVec 20) :
    timeoutOf control w.toNat = if w = 0 then defaultTimeout control else w.toNat :=
  if_congr (BitVec.toNat_inj (y := 0)) rfl rfl

/-- The direction bit of the target block's endpoint. -/
theorem dirIn_target {rq : Request} {dom adr ep : Byte} {rest : List Byte} (hp : rq.params = dom :: adr :: ep :: rest) :
    rq.dirIn = decide (128 ≤ ep.toNat) := by
  rw [Request.dirIn, hp]
  rfl

end Layout

/-! ## What becomes of a request -/

section Operations

variable {d : Dev} {rq : Request} {c : Nat}

/-- A CONTROL_XFER with an OUT data stage, other than a SET_ADDRESS, waits with its data. -/
theorem controlOp_out {su : Setup} (hsetup : setupAt rq.params 8 = su) (hout : setupIn su = false)
    (hplain : setsAddress su = false) :
    d.controlOp rq c = d.startTransfer rq (newTransfer (.request rq.name) c true su su.wLength.toNat 0
      (timeoutOf true (leAt rq.params 4 4)) false) (rq.params.drop 16) := by
  simp only [Dev.controlOp, hsetup, hout, hplain, Bool.false_eq_true, if_false]

/-- A SETUP packet of an IN transfer sets no address. -/
theorem setsAddress_in {su : Setup} (hin : setupIn su = true) : setsAddress su = false := by
  have htype : su.bmRequestType ≠ 0 := fun h => by simp [setupIn, bit, h] at hin
  rw [setsAddress, decide_eq_false htype, Bool.false_and]

/-- A CONTROL_XFER with an IN data stage waits for the bytes that it asks for. -/
theorem controlOp_in {su : Setup} (hsetup : setupAt rq.params 8 = su) (hin : setupIn su = true) :
    d.controlOp rq c = d.startTransfer rq (newTransfer (.request rq.name) c true su 0 su.wLength.toNat
      (timeoutOf true (leAt rq.params 4 4)) false) [] := by
  simp only [Dev.controlOp, hsetup, hin, setsAddress_in hin, Bool.false_eq_true, if_false, if_true]

/-- The context of a bulk request that takes it. -/
theorem bulkCtx_ok {isIn : Bool} {x : Nat} (hattached : d.attached rq = some c) (htarget : d.target rq = some x)
    (htype : (d.ctx x).type = 2) (hctx : (d.ctx x).dirIn = isIn) (hdir : rq.dirIn = isIn) (hopen : (d.ctx x).state = 1)
    (huse : d.mayUse rq x = true) : d.bulkCtx rq isIn = .ok x := by
  simp only [Dev.bulkCtx, hattached, htarget, htype, hctx, hdir, huse, hopen, ctxStatus, ne_eq, not_true_eq_false, decide_false,
    Bool.or_self, Bool.not_true, Bool.false_eq_true, if_false]

/-- A BULK_OUT with data, and without a zero-length packet to end it, waits with the data. -/
theorem bulkOutOp_data (hdata : rq.params.drop 12 ≠ []) (hzlp : leAt rq.params 8 2 = 0) :
    d.bulkOutOp rq c = d.startTransfer rq (newTransfer (.request rq.name) c false (setupAt [] 0) (rq.params.drop 12).length 0
      (timeoutOf false (leAt rq.params 4 4)) false) (rq.params.drop 12) := by
  simp [Dev.bulkOutOp, hdata, hzlp]

/-- A new endpoint within the limits of its device takes a FREE context (R194). -/
theorem openOp_new {o : OpenParams} {x : Nat} (hfits : o.fits (d.ctx c).speed = true) (hep : rq.ep ≠ 0)
    (hnew : d.epCtx rq.dom rq.addr rq.ep (rq.dirIn && o.type ≠ 0) = none) (hfree : d.freeCtx rq.dom = some x) :
    d.openOp rq o c = ((d.setCtx x (newCtx (d.ctx c) rq o x)).workFor x).okWith rq (ctxBytes x) := by
  simp only [Dev.openOp, hfits, hep, hnew, hfree, Option.isSome_none, Bool.not_true, Bool.false_eq_true, if_false]

end Operations

/-! ## The rows -/

section TransferRows

variable {k : ReqKey} {rq : Request} {s : State} {c x : Nat}

/-- BULK_OUT acts on the context that takes it. -/
theorem gives_bulkOut (hturn : Safety.turn s.dev k rq 0x0302) (hctx : s.dev.bulkCtx rq false = .ok x) :
    Safety.gives (.bulkOut k) s (s.dev.bulkOutOp rq x) := by
  have hrow : exec (.bulkOut k) s = execBulkOut k s := rfl
  rw [Safety.gives, hrow, execBulkOut, opcodeRow_runs hturn rfl, State.next_eq]
  simp only [hctx]

/-- BULK_IN acts on the context that takes it. -/
theorem gives_bulkIn (hturn : Safety.turn s.dev k rq 0x0303) (hctx : s.dev.bulkCtx rq true = .ok x) :
    Safety.gives (.bulkIn k) s (s.dev.bulkInOp rq x) := by
  have hrow : exec (.bulkIn k) s = execBulkIn k s := rfl
  rw [Safety.gives, hrow, execBulkIn, opcodeRow_runs hturn rfl, State.next_eq]
  simp only [hctx]

/-- Isochronous endpoints are not supported (R431). -/
theorem gives_endpointOpen_isochronous (hturn : Safety.turn s.dev k rq 0x0304) (htype : (openParams rq.params).type = 1) :
    Safety.gives (.endpointOpen k) s (s.dev.fail k stUnsupported) := by
  have hrow : exec (.endpointOpen k) s = execEndpointOpen k s := rfl
  rw [Safety.gives, hrow, execEndpointOpen, opcodeRow_runs hturn rfl, State.next_eq]
  simp only [htype, if_true]

variable (hattached : s.dev.attached rq = some c)
include hattached

/-- CONTROL_XFER acts on endpoint 0 of its device. -/
theorem gives_controlXfer (hturn : Safety.turn s.dev k rq 0x0301) : Safety.gives (.controlXfer k) s (s.dev.controlOp rq c) := by
  have hrow : exec (.controlXfer k) s = execControlXfer k s := rfl
  rw [Safety.gives, hrow, execControlXfer, opcodeRow_runs hturn rfl, State.next_eq]
  simp only [hattached]

/-- ENDPOINT_OPEN of an endpoint other than 0 opens it on its device. -/
theorem gives_endpointOpen (hturn : Safety.turn s.dev k rq 0x0304) (htype : (openParams rq.params).type ≠ 1)
    (hep : rq.ep ≠ 0) : Safety.gives (.endpointOpen k) s (s.dev.openOp rq (openParams rq.params) c) := by
  have hrow : exec (.endpointOpen k) s = execEndpointOpen k s := rfl
  rw [Safety.gives, hrow, execEndpointOpen, opcodeRow_runs hturn rfl, State.next_eq]
  simp only [htype, hep, hattached, decide_false, Bool.false_and, Bool.false_eq_true, if_false]

/-- ENDPOINT_CLOSE of one context (R195). -/
theorem gives_endpointClose (hturn : Safety.turn s.dev k rq 0x0305) (hscope : byteAt rq.params 4 = 0)
    (htarget : s.dev.target rq = some x) (huse : s.dev.mayUse rq x = true) :
    Safety.gives (.endpointClose k) s (s.dev.closeAll k [x]) := by
  have hrow : exec (.endpointClose k) s = execEndpointClose k s := rfl
  rw [Safety.gives, hrow, execEndpointClose, opcodeRow_runs hturn (decide_eq_true hscope), State.next_eq]
  simp only [hattached, htarget, huse, if_true]

/-- ENDPOINT_CLOSE of every context of a device. -/
theorem gives_endpointCloseDevice (hturn : Safety.turn s.dev k rq 0x0305) (hscope : byteAt rq.params 4 ≠ 0) :
    Safety.gives (.endpointCloseDevice k) s (s.dev.closeAll k (s.dev.deviceCtxs rq)) := by
  have hrow : exec (.endpointCloseDevice k) s = execEndpointCloseDevice k s := rfl
  rw [Safety.gives, hrow, execEndpointCloseDevice, opcodeRow_runs hturn (decide_eq_true hscope), State.next_eq]
  simp only [hattached]

end TransferRows

/-- A request of a transfer opcode waits with the data, the length and the timeout that its parameters give. -/
theorem transferOpcodeRows : Rows.TransferOpcodes := by
  intro k rq s c dom adr ep w _ hattached
  refine ⟨fun su data hturn hp hout hlength _ hplain => ?_, fun su hturn hp hin _ => ?_,
    fun data x hturn hep hdata _ hp htarget htype hctx hopen huse => ?_,
    fun n x hturn hdir _ _ _ hn hp htarget htype hctx hopen huse => ?_⟩
  · have hsetup : setupAt rq.params 8 = su :=
      setupAt_layout su ([dom, adr, 0, 0] ++ leBytes 4 w.toNat) data (by simp) (by simp [hp, setupBytes])
    have htimeout : leAt rq.params 4 4 = w.toNat := leAt_timeout _ (by simpa using hp)
    have hrest : rq.params.drop 16 = data := by rw [hp, List.drop_left' (by simp)]
    have hrow := gives_controlXfer hattached hturn
    rwa [controlOp_out hsetup hout hplain, htimeout, timeoutOf_toNat, hrest, hlength] at hrow
  · have hsetup : setupAt rq.params 8 = su :=
      setupAt_layout su ([dom, adr, 0, 0] ++ leBytes 4 w.toNat) [] (by simp) (by simp [hp, setupBytes])
    have htimeout : leAt rq.params 4 4 = w.toNat := leAt_timeout _ (by simpa using hp)
    have hrow := gives_controlXfer hattached hturn
    rwa [controlOp_in hsetup hin, htimeout, timeoutOf_toNat] at hrow
  · have htimeout : leAt rq.params 4 4 = w.toNat := leAt_timeout _ (by simpa using hp)
    have hrest : rq.params.drop 12 = data := by rw [hp, List.drop_left' (by simp)]
    have hzlp : leAt rq.params 8 2 = 0 :=
      leAt_layout ([dom, adr, ep, 0] ++ leBytes 4 w.toNat) ([0, 0] ++ data) (by simp [hp, leBytes]) (by simp) (by decide)
    have hout : rq.dirIn = false := by
      rw [dirIn_target hp]
      exact decide_eq_false (by omega)
    have hrow := gives_bulkOut hturn (bulkCtx_ok hattached htarget htype hctx hout hopen huse)
    rwa [bulkOutOp_data (by rwa [hrest]) hzlp, htimeout, timeoutOf_toNat, hrest] at hrow
  · have htimeout : leAt rq.params 4 4 = w.toNat := leAt_timeout _ hp
    have hwant : leAt rq.params 8 4 = n :=
      leAt_layout ([dom, adr, ep, 0] ++ leBytes 4 w.toNat) [] (by simp [hp]) (by simp) (by omega)
    have hin : rq.dirIn = true := (dirIn_target hp).trans (decide_eq_true hdir)
    have hrow := gives_bulkIn hturn (bulkCtx_ok hattached htarget htype hctx hin hopen huse)
    rwa [Dev.bulkInOp, htimeout, timeoutOf_toNat, hwant] at hrow

/-- ENDPOINT_OPEN and ENDPOINT_CLOSE on an attached device. -/
theorem endpointOpcodeRows : Rows.EndpointOpcodes := by
  intro k rq s c hattached
  have hscope {b : Byte} (hp : rq.params.drop 4 = [b, 0, 0, 0]) : byteAt rq.params 4 = b.toNat := by
    have hhead : rq.params[4]? = some b := by rw [← List.head?_drop, hp]; rfl
    rw [byteAt, List.getD_eq_getElem?_getD, hhead, Option.getD_some]
  refine ⟨fun x hturn _ htype hep hfits hnew hfree => ⟨?_, rfl, rfl, rfl, rfl⟩,
    fun hturn _ htype => gives_endpointOpen_isochronous hturn htype,
    fun x hturn _ hp htarget huse => gives_endpointClose hattached hturn (hscope hp) htarget huse,
    fun hturn _ hp => gives_endpointCloseDevice hattached hturn (hscope hp ▸ Nat.one_ne_zero)⟩
  have hrow := gives_endpointOpen hattached hturn htype hep
  rwa [openOp_new hfits hep hnew hfree] at hrow

/-- Settles O11: a request becomes the transfer, the endpoint or the close that its parameters ask for. -/
theorem transferOpcodes : Obligations.TransferOpcodes := ⟨transferOpcodeRows, endpointOpcodeRows⟩

end Sys2Proof.Machine

/-! # Registers whose writes act

The acts of fuses, engines, links, power states and UPDATE, the ranges of the Ream, and the wide mailbox (R190, R264, R281, R290,
R313, R354, R364, R402, R403, R406, R407). -/

namespace Sys2Proof.Machine

open Sys2Proof

/-- A row that answers with a device answers with whatever that device is. -/
theorem gives_of_eq {i : Instr} {s : State} {d e : Dev} (heq : d = e) (hrow : Safety.gives i s d) : Safety.gives i s e :=
  heq ▸ hrow

/-- Likewise where R18 is judged anew. -/
theorem sees_of_eq {i : Instr} {s : State} {d e : Dev} (heq : d = e) (hrow : Safety.sees i s d) : Safety.sees i s e :=
  heq ▸ hrow

/-! ## A write over a path of a register that stores -/

/-- A write of `v` at address `a` reaches the register there, of access `i`: it is not guarded and waits for no UPDATE. -/
structure IsStore (i : RegInfo) (a : Nat) (v : W32) : Prop where
  noQuire : quireAt a = none
  info : regInfo a = some i
  writable : (i.rw = 0 && i.w1c = 0 && !i.acts) = false
  unguarded : i.guarded = false
  ungrouped : i.group = none
  encoded : ∀ d : Dev, d.encJudge a v = true

section Stores

variable {d : Dev} {p : Path} {a : Nat} {v : W32} {i : RegInfo}

/-- The write is made; one that does not take effect is flagged. -/
theorem writeReg_store {who : Writer} (hstore : IsStore i a v) (hreach : who = none ∨ isMailbox a = false)
    (hsafe : d.fc.chipSafe = false) : (d.writeReg who false a v).2 =
      let r := d.quireAck.makeWrite who a v i
      if r.1 then r.2 else r.2.regErr who a 29 := by
  have hsafe' : d.quireAck.fc.chipSafe = false := hsafe
  have hmailbox : (who.isSome && isMailbox a) = false := by
    rcases hreach with rfl | h
    · rfl
    · rw [h, Bool.and_false]
  simp only [Dev.writeReg, hsafe', hstore.noQuire, hstore.info, hmailbox, hstore.writable, hstore.encoded, hstore.unguarded,
    hstore.ungrouped, Bool.not_true, Bool.false_and, Bool.false_eq_true, if_false, Option.any_none]
  split <;> rfl

variable (hserved : Safety.writes d p)
include hserved

/-- The write over a path that is served. -/
theorem pathWrite_store (hstore : IsStore i a v) (hreach : p = .spi ∨ isMailbox a = false) : d.pathWrite p a v =
    let r := (Safety.atWrite d p).makeWrite (d.writer p).1 a v i
    if r.1 then r.2 else r.2.regErr (d.writer p).1 a 29 := by
  obtain ⟨k, hk⟩ := writer_eq d p
  have hsafe : (d.writer p).2.fc.chipSafe = false := hk ▸ hserved.2.1
  have hwho : (d.writer p).1 = none ∨ isMailbox a = false := hreach.imp_left fun h => by rw [h]; rfl
  rw [pathWrite_served hserved, writeReg_store hstore hwho hsafe]
  rfl

/-- A write that always takes effect. -/
theorem pathWrite_made {act : Dev → Dev} (hstore : IsStore i a v) (hreach : p = .spi ∨ isMailbox a = false)
    (hact : ∀ (b : Dev) (who : Writer), b.makeWrite who a v i = (true, act b)) :
    d.pathWrite p a v = act (Safety.atWrite d p) := by
  rw [pathWrite_store hserved hstore hreach, hact]
  exact if_pos rfl

end Stores

/-- As a write is made, the device differs by an acknowledged Quire write and at most a free value. -/
theorem atWrite_eq (d : Dev) (p : Path) : ∃ k, Safety.atWrite d p = { d.quireAck with freeCtr := k } := by
  obtain ⟨k, hk⟩ := writer_eq d p
  exact ⟨k, by rw [Safety.atWrite, hk]; rfl⟩

/-- The registers read as before. -/
@[simp] theorem reg_atWrite (d : Dev) (p : Path) (a : Nat) : (Safety.atWrite d p).reg a = d.reg a := by
  obtain ⟨k, hk⟩ := atWrite_eq d p
  rw [hk]
  rfl

/-- The power state is as before. -/
@[simp] theorem power_atWrite (d : Dev) (p : Path) : (Safety.atWrite d p).power = d.power := by
  obtain ⟨k, hk⟩ := atWrite_eq d p
  rw [hk]
  rfl

/-- A register outside the PDO lists is judged by its own encodings. -/
theorem encJudge_alone {a : Nat} {v : W32} (hlist : pdoList a = none) (hreset : a ≠ aVatQreset) (henc : encOk a v = true)
    (d : Dev) : d.encJudge a v = true := by
  simp only [Dev.encJudge, hlist, hreset, henc, decide_false, Bool.false_and, Bool.not_false, Bool.and_self]

/-! ## Fuses and engines (R354, R364) -/

/-- A write of `EFUSE_CTRL` acts on its fuse. -/
theorem isCommand_efuseCtrl (n : Fin 32) (v : W32) :
    IsCommand false (aEfuseCtrl n.val) v fun _ b => b.efuseCtrl n.val v := by
  fin_cases n <;> exact ⟨rfl, rfl, rfl, encJudge_alone rfl (by decide) rfl, fun _ _ => rfl⟩

/-- A write of `PD_CTRL` acts on its engine. -/
theorem isCommand_pdCtrl (n : Fin 33) (v : W32) : IsCommand false (aPdCtrl n.val) v fun _ b => b.pdCtrl n.val v := by
  fin_cases n <;> exact ⟨rfl, rfl, rfl, encJudge_alone rfl (by decide) rfl, fun _ _ => rfl⟩

/-- Each row writes one bit of `EFUSE_CTRL` or `PD_CTRL`, and the act of that bit is what the value written evaluates to. -/
theorem portControlRows : Rows.PortControlRows := by
  intro p s hserved a
  have hefuse (n : Fin 32) (v : W32) : s.dev.pathWrite p (aEfuseCtrl n.val) v = a.efuseCtrl n.val v :=
    pathWrite_plain hserved (isCommand_efuseCtrl n v)
  have hpd (n : Fin 33) (v : W32) : s.dev.pathWrite p (aPdCtrl n.val) v = a.pdCtrl n.val v :=
    pathWrite_plain hserved (isCommand_pdCtrl n v)
  exact ⟨fun n => ⟨gives_of_eq (hefuse n 1) rfl, gives_of_eq (hefuse n 2) rfl⟩,
    fun n => ⟨gives_of_eq (hpd n 1) rfl, gives_of_eq (hpd n 2) rfl, gives_of_eq (hpd n 4) rfl, sees_of_eq (hpd n 8) rfl,
      gives_of_eq (hpd n 0x40) rfl, gives_of_eq (hpd n 0x10) rfl, gives_of_eq (hpd n 0x20) rfl, sees_of_eq (hpd n 0x80) rfl⟩⟩

/-! ## Links, power states and UPDATE (R264, R281, R290, R313, R402, R403) -/

/-- `CPL_CTRL` takes every write. -/
theorem isStore_cplCtrl (n : Fin 5) (v : W32) : IsStore ⟨0, 1, 0, none, false, true⟩ (aCplCtrl n.val) v := by
  fin_cases n <;> exact ⟨rfl, rfl, rfl, rfl, rfl, encJudge_alone rfl (by decide) rfl⟩

/-- So does `CHAIN_POS`. -/
theorem isStore_chainPos (v : W32) : IsStore (.plain 0x8000003F) aChainPos v :=
  ⟨rfl, rfl, rfl, rfl, rfl, encJudge_alone rfl (by decide) rfl⟩

/-- `PWR_CFG` takes the depths of TRIM that there are (R7). -/
theorem isStore_pwrCfg {v : W32} (hdepth : bits v 0 2 ≠ 3) : IsStore (.plain 0x00FF0003 0x00400001) aPwrCfg v :=
  ⟨rfl, rfl, rfl, rfl, rfl, encJudge_alone rfl (by decide) (decide_eq_true hdepth)⟩

/-- `PWR_SLEEP` takes every write. -/
theorem isStore_pwrSleep (v : W32) : IsStore (.plain 0xFFFFFFFF) aPwrSleep v :=
  ⟨rfl, rfl, rfl, rfl, rfl, encJudge_alone rfl (by decide) rfl⟩

/-- A write of `UPDATE` requests or cancels. -/
theorem isCommand_update (v : W32) : IsCommand false aUpdate v fun who b => b.updateWrite who v :=
  ⟨rfl, rfl, rfl, fun _ => rfl, fun _ _ => rfl⟩

/-- A write of `CPL_CTRL` acts on its link. -/
theorem makeWrite_cplCtrl (d : Dev) (who : Writer) (n : Fin 5) (v : W32) (i : RegInfo) :
    d.makeWrite who (aCplCtrl n.val) v i = (true, d.cplCtrl n.val v) := by
  fin_cases n <;> rfl

/-- ENABLE alone is stored and may send ENABLE (R281). -/
theorem cplCtrl_enable (d : Dev) (n : Nat) :
    d.cplCtrl n 1 = (d.setReg (aCplCtrl n) (setBit (d.reg (aCplCtrl n)) 0 true)).trySendEnable n := rfl

/-- Outside TRIM a power register is stored, and the counts restart (R313). -/
theorem pwrWrite_awake {d : Dev} (a : Nat) (v rw : W32) (hstate : d.power.state ≠ .trim) :
    d.pwrWrite a v rw = (d.setReg a (v &&& rw)).updPower fun x => { x with restart := true } := if_neg hstate

section UpdateWrites

variable (d : Dev) (who : Writer) (g : BitVec 8)

/-- GROUPS fits into its field. -/
theorem toNat_at_groups : (at_ g.toNat 0).toNat = g.toNat := toNat_at_zero (Nat.lt_trans g.isLt (by decide))

/-- The bound of GROUPS. -/
theorem groups_lt : (at_ g.toNat 0).toNat < 2 ^ 8 := (toNat_at_groups g).symm ▸ g.isLt

/-- GROUPS of a command. -/
theorem groups_command {c : W32} (hc : c.toNat % 2 ^ 8 = 0) : BitVec.ofNat 8 (bits (c ||| at_ g.toNat 0) 0 8) = g := by
  rw [bits_command (groups_lt g) hc, toNat_at_groups, BitVec.ofNat_toNat, BitVec.setWidth_eq]

/-- A field above the number of a command is the command's. -/
theorem bits_command_above {c x : W32} {n lo : Nat} (w : Nat) (hx : x.toNat < 2 ^ n) (hlo : n ≤ lo) :
    bits (c ||| x) lo w = bits c lo w := by
  have hclear : x.toNat >>> lo = 0 :=
    Nat.shiftRight_eq_zero _ _ (Nat.lt_of_lt_of_le hx (Nat.pow_le_pow_right Nat.two_pos hlo))
  rw [bits, BitVec.toNat_or, Nat.shiftRight_or_distrib, hclear, Nat.or_zero, bits]

/-- CANCEL ends what is pending of the groups (R402). -/
theorem updateWrite_cancel : d.updateWrite who (at_ 1 30 ||| at_ g.toNat 0) = d.cancelUpdates g := by
  have hcancel : bit (at_ 1 30 ||| at_ g.toNat 0) 30 = true := bit_command (groups_lt g) (by decide)
  simp only [Dev.updateWrite, hcancel, groups_command g (show (at_ 1 30).toNat % 2 ^ 8 = 0 by decide), if_true]

/-- GO requests the groups, at the moment asked for (R402). -/
theorem updateWrite_go (w : BitVec 2) : d.updateWrite who (at_ 1 31 ||| at_ w.toNat 16 ||| at_ g.toNat 0) =
    (d.requestUpdate who g w.toNat
      (BitVec.ofNat 48 ((d.reg aUpdateLo).toNat + d.fld aUpdateHi 0 16 * 2 ^ 32))).2 := by
  have hcommand : ∀ w : BitVec 2, bit (at_ 1 31 ||| at_ w.toNat 16) 30 = false ∧ bit (at_ 1 31 ||| at_ w.toNat 16) 31 = true ∧
      bits (at_ 1 31 ||| at_ w.toNat 16) 16 2 = w.toNat ∧ (at_ 1 31 ||| at_ w.toNat 16).toNat % 2 ^ 8 = 0 := by decide
  obtain ⟨hcancel, hgo, hwhen, hlow⟩ := hcommand w
  have hx := groups_lt g
  simp only [Dev.updateWrite, bit_command hx (show 8 ≤ 30 by decide), bit_command hx (show 8 ≤ 31 by decide),
    bits_command_above 2 hx (show 8 ≤ 16 by decide), groups_command g hlow, hcancel, hgo, hwhen, Bool.false_eq_true, if_false,
    if_true]

end UpdateWrites

/-- The writes of the chain's, the power states' and UPDATE's registers. -/
theorem controlRegisterRows : Rows.ControlRegisterRows := by
  intro p s hserved a
  have hcpl (n : Fin 5) (v : W32) : s.dev.pathWrite p (aCplCtrl n.val) v = a.cplCtrl n.val v :=
    pathWrite_made hserved (isStore_cplCtrl n v) (.inr (by fin_cases n <;> rfl)) fun b who => makeWrite_cplCtrl b who n v _
  have hupdate (v : W32) : s.dev.pathWrite p aUpdate v = a.updateWrite (s.dev.writer p).1 v :=
    pathWrite_plain hserved (isCommand_update v)
  have hreg (x : Nat) : a.reg x = s.dev.reg x := reg_atWrite ..
  have hpower (h : s.dev.power.state ≠ .trim) : a.power.state ≠ .trim := by rwa [power_atWrite]
  refine ⟨fun n => ⟨gives_of_eq (hcpl n _) rfl, gives_of_eq (hcpl n _) rfl, gives_of_eq ?_ rfl⟩, fun v => gives_of_eq ?_ rfl,
    fun w g => gives_of_eq ?_ rfl, fun g => gives_of_eq ?_ rfl, fun v hdepth hstate => gives_of_eq ?_ rfl,
    fun v hstate => gives_of_eq ?_ rfl⟩
  · rw [hcpl, cplCtrl_enable, hreg]
  · exact pathWrite_made (act := fun b => b.chainPos v) hserved (isStore_chainPos v) (.inr rfl) fun _ _ => rfl
  · rw [hupdate, updateWrite_go, hreg, Dev.fld, hreg, Dev.fld]
  · rw [hupdate, updateWrite_cancel]
  · rw [← pwrWrite_awake aPwrCfg v _ (hpower hstate)]
    exact pathWrite_made (act := fun b => b.pwrWrite aPwrCfg v 0x00FF0003) hserved (isStore_pwrCfg hdepth) (.inr rfl)
      fun _ _ => rfl
  · have hall : v &&& 0xFFFFFFFF = v := BitVec.and_allOnes
    rw [← hall, ← pwrWrite_awake aPwrSleep v _ (hpower hstate), hall]
    exact pathWrite_made (act := fun b => b.pwrWrite aPwrSleep v 0xFFFFFFFF) hserved (isStore_pwrSleep v) (.inr rfl)
      fun _ _ => rfl

/-! ## The Ream's ranges (R190) -/

/-- A range is taken, or refused and flagged. -/
theorem reamWrite_cases (d : Dev) (n : Nat) (v : W32) :
    d.reamWrite n v = (true, d.setReg (aReam n) (v &&& 0x3FFF3FFF)) ∨ d.reamWrite n v = (false, d.flag aHostStatus 31) :=
  ite_eq_or_eq ..

/-- A range that would give up a context in use is refused. -/
theorem reamWrite_inUse {d : Dev} {n k : Nat} {v : W32} (hused : k ∈ d.ctxsWhere fun _ => true) (hbase : d.reamBase n ≤ k)
    (hend : k < d.reamBase n + d.reamCount n) (hlost : k < bits v 0 14 ∨ bits v 0 14 + bits v 16 14 ≤ k) :
    (d.reamWrite n v).1 = false := by
  have hgiven : (((d.ctxsWhere fun _ => true) ++ d.claimedCtxs).all fun j => decide
      (j < d.reamBase n ∨ d.reamBase n + d.reamCount n ≤ j ∨ (bits v 0 14 ≤ j ∧ j < bits v 0 14 + bits v 16 14))) = false := by
    refine List.all_eq_false.2 ⟨k, List.mem_append_left _ hused, ?_⟩
    rw [decide_eq_true_eq]
    omega
  simp only [Dev.reamWrite, hgiven, Bool.and_false, Bool.false_eq_true, if_false]

/-- `REAM_Dn` encodes every range (R7). -/
theorem isStore_ream (n : Fin 4) (v : W32) :
    IsStore (.plain 0x3FFF3FFF (BitVec.ofNat 32 (0x0BF80000 + 0xBF8 * n.val))) (aReam n.val) v := by
  fin_cases n <;> exact ⟨rfl, rfl, rfl, rfl, rfl, encJudge_alone rfl (by decide) rfl⟩

/-- A write of `REAM_Dn` judges the range of its domain. -/
theorem makeWrite_ream (d : Dev) (who : Writer) (n : Fin 4) (v : W32) (i : RegInfo) :
    d.makeWrite who (aReam n.val) v i = d.reamWrite n.val v := by
  fin_cases n <;> rfl

/-- A range is taken where the rules let it be. -/
theorem reamRows : Rows.ReamRows := by
  intro p n v s hserved a
  have hwrite : s.dev.pathWrite p (aReam n.val) v =
      let r := a.reamWrite n.val v
      if r.1 then r.2 else r.2.regErr (s.dev.writer p).1 (aReam n.val) 29 := by
    rw [pathWrite_store hserved (isStore_ream n v) (.inr (by fin_cases n <;> rfl)), makeWrite_ream]
  have hrow : Safety.gives (.reamDnWrite p n v) s (s.dev.pathWrite p (aReam n.val) v) := rfl
  rw [hwrite] at hrow
  refine ⟨fun htaken => ?_, fun hrefused => ?_, fun k hused hbase hend hlost => reamWrite_inUse hused hbase hend hlost⟩
  · have hrange := (reamWrite_cases a n.val v).resolve_right fun h => by simp [h] at htaken
    rwa [hrange] at hrow
  · have hrange := (reamWrite_cases a n.val v).resolve_left fun h => by simp [h] at hrefused
    rwa [hrange] at hrow

/-! ## The wide mailbox (R406, R407) -/

/-- `WMB_SEL` takes every selector. -/
theorem isStore_wmbSel (v : W32) : IsStore (.plain 0xFFFFFFFF) aWmbSel v :=
  ⟨rfl, rfl, rfl, rfl, rfl, encJudge_alone rfl (by decide) rfl⟩

/-- The write of the selector takes the snapshot, and the read of the last word ends the read. -/
theorem mailboxRows : Rows.MailboxRows := by
  intro s hserved
  refine ⟨fun v => ?_, ?_⟩
  · have hrow : Safety.gives (.wmbSelWrite v) s (s.dev.pathWrite .spi aWmbSel v) := rfl
    rwa [pathWrite_made (act := fun b => (b.setReg aWmbSel v).snapshot v) hserved (isStore_wmbSel v) (.inl rfl) fun _ _ => rfl]
      at hrow
  · have hrow : Safety.gives .wmbD3Read s (if s.dev.pathServed .spi then s.dev.quireAck.mailboxRead else s.dev) := rfl
    rwa [if_pos hserved.1] at hrow

/-- Settles O54: a write of each register has the outcome of its act, and the Ream and the mailbox follow their rules. -/
theorem controlRegisters : Obligations.ControlRegisters :=
  ⟨portControlRows, controlRegisterRows, reamRows, mailboxRows⟩

end Sys2Proof.Machine

/-! # The Periodic group

What an accepted SUBSCRIBE records, and how UNSUBSCRIBE, SHEET_READ and PERIODIC_WRITE act on the subscription that they name
(R232, R235, R241, R432). -/

namespace Sys2Proof.Machine

open Sys2Proof

/-! ## What an answer leaves of the subscriptions

A response is written into the Vat and its request ends; the resume of a port, or of the subtree behind a hub, sets link states
and queues requests. None of it touches a subscription. -/

section SubscriptionFrame

variable {d a : Dev}

/-- An entry that is not the default reads back, whatever the table held before. -/
theorem look_put_self {α : Type} [DecidableEq α] {dflt : Nat → α} (t : Tab α) (k : Nat) {v : α} (hv : v ≠ dflt k) :
    look dflt (put dflt t k v) k = v := by
  induction t with
  | nil => simp [put, look, hv]
  | cons e t ih =>
    simp only [put, hv, if_false]
    split
    · simp [look]
    · split
      · simp [look]
      · simp only [look, *, if_false]

/-- The subscription that was recorded last is the one that is read. -/
theorem subscription_recorded (d : Dev) (c : Nat) (x : Subscription) :
    (d.setSubscription c (some x)).subscription c = some x := look_put_self _ _ (Option.some_ne_none x)

/-- A loop each of whose turns leaves the subscriptions alone does so. -/
theorem subscriptions_forEach {α : Type} {f : α → Dev → Dev} (l : List α)
    (hf : ∀ x b, (f x b).subscriptions = b.subscriptions) : (forEach l f d).subscriptions = d.subscriptions :=
  List.foldlRecOn l _ (motive := fun b => b.subscriptions = d.subscriptions) rfl fun b hb x _ => (hf x b).trans hb

theorem onBooks_subscriptions (d : Dev) (f : Books → Books) : (d.onBooks f).subscriptions = d.subscriptions := rfl

theorem updQueue_subscriptions (d : Dev) (q : Nat) (f : Queue → Queue) : (d.updQueue q f).subscriptions = d.subscriptions := rfl

theorem popBank_subscriptions {b s : Nat} (h : d.popBank b = some (s, a)) : a.subscriptions = d.subscriptions := by
  simp only [Dev.popBank, Option.ite_none_left_eq_some, Option.some.injEq] at h
  obtain ⟨-, hpop⟩ := h
  cases hpop
  rfl

theorem popFrom_subscriptions {b n s : Nat} (h : d.popFrom b n = some (s, a)) : a.subscriptions = d.subscriptions := by
  induction n generalizing b with
  | zero => cases h
  | succ n ih =>
    rw [Dev.popFrom] at h
    split at h
    · cases h
      exact popBank_subscriptions ‹_›
    · exact ih h

theorem growQueue_subscriptions (d : Dev) (q n : Nat) : (d.growQueue q n).subscriptions = d.subscriptions := by
  induction n generalizing d with
  | zero => rfl
  | succ n ih =>
    rw [Dev.growQueue]
    split
    case h_1 => rfl
    case h_2 hpop =>
      have hpopped := popFrom_subscriptions hpop
      exact (ih _).trans hpopped

theorem enqueue_subscriptions {who q : Nat} {r : Rec} (h : d.enqueue who q r = some a) :
    a.subscriptions = d.subscriptions := by
  simp only [Dev.enqueue, Option.ite_none_left_eq_some, Option.some.injEq] at h
  obtain ⟨-, rfl⟩ := h
  simp only [updQueue_subscriptions, onBooks_subscriptions, Dev.updVat_frame, growQueue_subscriptions]

theorem openQueue_subscriptions (d : Dev) (q cls kind owner output sub : Nat) :
    (d.openQueue q cls kind owner output sub).subscriptions = d.subscriptions := by
  rw [Dev.openQueue]
  split <;> rfl

theorem openAnswers_subscriptions {r : Route} {q : Nat} (h : d.openAnswers r = some (q, a)) :
    a.subscriptions = d.subscriptions := by
  unfold Dev.openAnswers at h
  split at h
  case h_1 =>
    obtain ⟨_, _, hopen⟩ := Option.map_eq_some_iff.1 h
    cases hopen
    exact openQueue_subscriptions ..
  all_goals
    cases h
    exact openQueue_subscriptions ..

theorem functionWake_subscriptions (d : Dev) (l : Nat) : (d.functionWake l).subscriptions = d.subscriptions := by
  simp only [Dev.functionWake]
  split <;> rfl

theorem queueOnRoute_subscriptions (d : Dev) (r : Route) (last : Bool) (p : List Byte) (poison : Bool) :
    (d.queueOnRoute r last p poison).subscriptions = d.subscriptions := by
  unfold Dev.queueOnRoute
  split
  case h_1 => rfl
  case h_2 q b hopen =>
    have hopened := openAnswers_subscriptions hopen
    split
    case h_1 => exact hopened
    case h_2 e hlinked =>
      have hqueued := (enqueue_subscriptions hlinked).trans hopened
      split
      · exact (functionWake_subscriptions ..).trans hqueued
      · exact hqueued
      · exact hqueued

theorem respondFrom_subscriptions (d : Dev) (rq : Request) (status off : Nat) (ps : List (List Byte)) :
    (d.respondFrom rq status off ps).subscriptions = d.subscriptions := by
  induction ps generalizing d off with
  | nil => rfl
  | cons p ps ih => exact (ih ..).trans (queueOnRoute_subscriptions ..)

/-- The responses that R117 lets go are queued, and their requests answered. -/
theorem release117_subscriptions (d : Dev) : d.release117.subscriptions = d.subscriptions := by
  refine subscriptions_forEach _ fun r b => ?_
  split
  · split
    · exact respondFrom_subscriptions ..
    · rfl
  · rfl

/-- A request ends without a change to any subscription. -/
theorem answer_subscriptions (d : Dev) (k : ReqKey) (status : Nat) (params : List Byte) :
    (d.answer k status params).subscriptions = d.subscriptions := by
  unfold Dev.answer
  split
  · rfl
  · split
    · rfl
    · rfl
    · exact release117_subscriptions _

theorem resumePort_subscriptions (d : Dev) (n : Nat) (wake : Bool) :
    (d.resumePort n wake).subscriptions = d.subscriptions := by
  unfold Dev.resumePort
  split <;> rfl

theorem wakeBelow_subscriptions (d : Dev) (c : Nat) : (d.wakeBelow c).subscriptions = d.subscriptions := by
  refine subscriptions_forEach _ fun hp b => ?_
  split
  · split <;> rfl
  · rfl

/-- Work for a device resumes what holds it suspended, and no more (R299, R301). -/
theorem workFor_subscriptions (d : Dev) (c : Nat) : (d.workFor c).subscriptions = d.subscriptions :=
  (wakeBelow_subscriptions ..).trans (resumePort_subscriptions ..)

end SubscriptionFrame

/-! ## The requests -/

section Periodic

variable {d : Dev} {k : ReqKey} {rq : Request} {s : State} {c0 c : Nat} {x : Subscription}

/-- The requester's subscription, not yet ended, is the one that the three opcodes act on. -/
theorem subscribed_ok (hattached : d.attached rq = some c0) (htarget : d.target rq = some c) (huse : d.mayUse rq c = true)
    (hsub : d.subscription c = some x) (hruns : x.ended = false) : d.subscribed rq = .ok (c, x) := by
  simp only [Dev.subscribed, hattached, htarget, huse, hsub, hruns, Bool.not_true, Bool.false_eq_true, if_false]

/-- The placement and the sheet that admission finds are those of the subscription that it records. -/
theorem admitSub_records {p : SubParams} {ph mf sl : Nat} {ts : List Token} {pl : List (Nat × Nat)} {a : Dev}
    (hplace : d.place c (d.nextOrder (d.ctx c).port) (p.unit = 1) p.period (if p.phase = auto16 then none else some p.phase)
      (if p.mf = auto16 then none else some p.mf) (if p.slot = 8 then none else some p.slot) = .ok (ph, mf, sl, ts))
    (hsheet : d.claimSheet p.cls (d.ctx c).payload = some (pl, a)) :
    (d.admitSub rq p c).subscription c =
      some (newSubscription rq p (!(d.ctx c).dirIn) ph mf sl ts (d.nextOrder (d.ctx c).port) pl) := by
  have hkept (b : Dev) (ps : List Byte) : ((b.workFor c).okWith rq ps).subscriptions = b.subscriptions :=
    (answer_subscriptions ..).trans (workFor_subscriptions ..)
  simp only [Dev.admitSub, hplace, hsheet, Dev.subscription, hkept]
  exact subscription_recorded a c _

/-- A SUBSCRIBE that context c does not refuse is put to admission. -/
theorem gives_subscribe (hturn : Safety.turn s.dev k rq 0x0401) (hattached : s.dev.attached rq = some c0)
    (htarget : s.dev.target rq = some c) (hfree : s.dev.subRefusal rq (subParams rq.params) c = none) :
    Safety.gives (.subscribe k) s (s.dev.admitSub rq (subParams rq.params) c) := by
  have hrow : exec (.subscribe k) s = execSubscribe k s := rfl
  rw [Safety.gives, hrow, execSubscribe, opcodeRow_runs hturn rfl, State.next_eq]
  simp only [hattached, htarget, hfree]

variable (hsub : s.dev.subscribed rq = .ok (c, x))
include hsub

/-- UNSUBSCRIBE ends the subscription and then answers. -/
theorem gives_unsubscribe (hturn : Safety.turn s.dev k rq 0x0402) :
    Safety.gives (.unsubscribe k) s ((s.dev.endSubscription c none).okWith rq []) := by
  have hrow : exec (.unsubscribe k) s = execUnsubscribe k s := rfl
  rw [Safety.gives, hrow, execUnsubscribe, opcodeRow_runs hturn rfl, State.next_eq]
  simp only [hsub]

/-- SHEET_READ answers with the sheet as it was read, or with POISONED where the sheet or a cell of it is bad. -/
theorem gives_sheetRead (hturn : Safety.turn s.dev k rq 0x0403) {v : List Byte} {bad : Bool} {d : Dev}
    (hread : s.dev.readSheet rqMill false x.place x.sheetLen = (v, bad, d)) :
    Safety.gives (.sheetRead k) s
      (if x.sheetPoison || bad then d.fail k stPoisoned else d.okWith rq (x.sheetBytes v)).vatAlarms := by
  have hrow : exec (.sheetRead k) s = execSheetRead k s := rfl
  rw [Safety.gives, hrow, execSheetRead, opcodeRow_runs hturn rfl, State.next_eq]
  simp only [hsub, hread]

/-- PERIODIC_WRITE on an OUT subscription, within its payload limit, replaces the sheet (R235). -/
theorem gives_periodicWrite (hturn : Safety.turn s.dev k rq 0x0404) (hout : x.isOut = true)
    (hfits : (rq.params.drop 4).length ≤ (s.dev.ctx c).payload) :
    Safety.gives (.periodicWrite k) s ((s.dev.sheetWritten c x (rq.params.drop 4) rq.poison).okWith rq []) := by
  have hrow : exec (.periodicWrite k) s = execPeriodicWrite k s := rfl
  rw [Safety.gives, hrow, execPeriodicWrite, opcodeRow_runs hturn rfl, State.next_eq]
  simp only [hsub, hout, decide_eq_false (Nat.not_lt.2 hfits), Bool.not_true, Bool.or_self, Bool.false_eq_true, if_false]

end Periodic

/-- Settles O12: what is admitted is recorded and outlasts its answer, and the other three act on the subscription that their
requester holds. -/
theorem periodicOpcodes : Obligations.PeriodicOpcodes := by
  intro k rq s c0 c x hattached htarget huse
  refine ⟨fun ph mf sl ts hturn _ hfree hplace hsheet => ?_, fun hheld hruns => ?_⟩
  · obtain ⟨⟨pl, a⟩, hclaim⟩ := Option.ne_none_iff_exists'.1 hsheet
    exact ⟨_, gives_subscribe hturn hattached htarget hfree, _, admitSub_records hplace hclaim,
      rfl, rfl, rfl, rfl, rfl, rfl, rfl, rfl⟩
  · have hsub := subscribed_ok hattached htarget huse hheld hruns
    refine ⟨fun hturn _ => gives_unsubscribe hsub hturn, fun hturn v d hread hclean => ?_, fun hturn v bad d hread hbad => ?_,
      fun hturn hout _ hfits => ?_⟩
    · have hrow := gives_sheetRead hsub hturn hread
      rwa [hclean, Bool.or_self, if_neg Bool.false_ne_true] at hrow
    · have hrow := gives_sheetRead hsub hturn hread
      rwa [if_pos (by simpa using hbad)] at hrow
    · have hrow := gives_periodicWrite hsub hturn hout (by rwa [List.length_drop])
      rwa [Dev.sheetWritten, List.length_drop] at hrow

end Sys2Proof.Machine

/-! # A link from HELLO to ENABLED

The common epoch of two ends, and what HELLO, the challenge exchange and ENABLE make of a link. -/

namespace Sys2Proof.Machine

open Sys2Proof

/-! ## The common epoch (R277) -/

/-- Two epochs that are used, and at most 1 apart, have the lower of them in common, and other epochs none. -/
theorem commonEpoch_eq_some {a b m : Nat} :
    commonEpoch a b = some m ↔ (a ≠ 0 ∧ b ≠ 0) ∧ a ≤ b + 1 ∧ b ≤ a + 1 ∧ m = min a b := by
  rw [commonEpoch]
  split_ifs with hunused hnear
  · simp [← not_or, hunused]
  · simp [← not_or, hunused, hnear, eq_comm]
  · have hfar : ¬(a ≤ b + 1 ∧ b ≤ a + 1 ∧ m = min a b) := fun ⟨hle, hge, _⟩ => hnear ⟨hle, hge⟩
    simp [hfar]

/-- Epoch 0 is never used. -/
theorem commonEpoch_unused {a b : Nat} (h : a = 0 ∨ b = 0) : commonEpoch a b = none := if_pos h

/-- Both ends speak their common epoch: the lower of the two is an end's own, or the one below it. -/
theorem speaks_commonEpoch {a b m : Nat} (h : commonEpoch a b = some m) : Safety.speaks a m ∧ Safety.speaks b m := by
  obtain ⟨⟨ha, hb⟩, hle, hge, rfl⟩ := commonEpoch_eq_some.1 h
  refine ⟨⟨?_, ?_⟩, ?_, ?_⟩ <;> omega

section LowFields

variable {n : Nat} {x y : W32}

/-- A value placed at or above bit n leaves the bits below it clear. -/
theorem at_low_clear (v : Nat) {lo : Nat} (hlo : n ≤ lo) (hn : n ≤ 32) : (at_ v lo).toNat % 2 ^ n = 0 := by
  rw [at_, BitVec.toNat_ofNat, Nat.mod_mod_of_dvd _ (Nat.pow_dvd_pow 2 hn), Nat.shiftLeft_eq]
  exact Nat.mod_eq_zero_of_dvd (Nat.dvd_mul_left_of_dvd (Nat.pow_dvd_pow 2 hlo) v)

/-- Words whose low bits are clear are joined to one whose low bits are clear. -/
theorem or_low_clear (hx : x.toNat % 2 ^ n = 0) (hy : y.toNat % 2 ^ n = 0) : (x ||| y).toNat % 2 ^ n = 0 := by
  rw [BitVec.toNat_or, Nat.or_mod_two_pow, hx, hy, Nat.or_zero]

/-- An epoch below the other fields of a register reads as it is. -/
theorem bits_epoch (e : BitVec 16) (hx : x.toNat % 2 ^ 16 = 0) : bits (x ||| at_ e.toNat 0) 0 16 = e.toNat := by
  have he : (at_ e.toNat 0).toNat = e.toNat := toNat_at_zero (Nat.lt_trans e.isLt (by decide))
  rw [bits_command (he.symm ▸ e.isLt) hx, he]

end LowFields

/-- `CPL_STATUS` shows the epoch of the link. -/
theorem bits_cplStatus_epoch (d : Dev) (n : Nat) : bits (d.cplStatus n) 0 16 = (d.link n).epoch.toNat := by
  have hclear (v : Nat) {lo : Nat} (hlo : 16 ≤ lo) := at_low_clear v hlo (by decide : 16 ≤ 32)
  exact bits_epoch _ (or_low_clear (or_low_clear (or_low_clear (or_low_clear (or_low_clear (hclear _ (by decide))
    (hclear _ (by decide))) (hclear _ (by decide))) (hclear _ (by decide))) (hclear _ (by decide))) (hclear _ (by decide)))

/-- `CPL_NBR` shows the epoch of the neighbour. -/
theorem bits_cplNbr_epoch (d : Dev) (n : Nat) : bits (d.cplNbr n) 0 16 = (d.link n).nbrEpoch.toNat := by
  have hclear (v : Nat) {lo : Nat} (hlo : 16 ≤ lo) := at_low_clear v hlo (by decide : 16 ≤ 32)
  exact bits_epoch _ (or_low_clear (hclear _ (by decide)) (hclear _ (by decide)))

/-- Settles O40: the common epoch is the lower of two used epochs at most 1 apart, and the registers show the epochs in their low
half. -/
theorem commonEpoch_spec : Obligations.CommonEpoch :=
  ⟨fun _ _ _ ha hb => commonEpoch_eq_some.trans (and_iff_right ⟨ha, hb⟩), fun _ _ => commonEpoch_unused,
    fun _ _ _ => speaks_commonEpoch, fun d n => ⟨bits_cplStatus_epoch d n, bits_cplNbr_epoch d n⟩⟩

/-! ## HELLO (R271, R275, R277) -/

section Hello

variable {d : Dev} {n : Nat} {f : List Byte}

section Epochs

variable (hcontrol : Safety.control d n f 1) (hstate : ((Safety.received d n f).link n).state = .hello)
include hcontrol hstate

/-- An end in HELLO that has an epoch in common with its neighbour goes on to AUTH under it. -/
theorem hello_agreed {e : Nat} (hepoch : commonEpoch ((Safety.received d n f).noteHello n (frPayload f)).couchEpoch
    (((Safety.received d n f).noteHello n (frPayload f)).link n).nbrEpoch.toNat = some e) :
    d.hello n f = (((Safety.received d n f).noteHello n (frPayload f)).updLink n fun x =>
      { x with epoch := BitVec.ofNat 16 e }).enterAuth n := by
  rw [Dev.hello, rxControl_received _ hcontrol]
  simp only [hstate, hepoch, ne_eq, not_true_eq_false, if_false]

/-- One that has none goes to QUARANTINE. -/
theorem hello_quarantined (hepoch : commonEpoch ((Safety.received d n f).noteHello n (frPayload f)).couchEpoch
    (((Safety.received d n f).noteHello n (frPayload f)).link n).nbrEpoch.toNat = none) :
    d.hello n f = ((((Safety.received d n f).noteHello n (frPayload f)).flag (aCplEvent n) 1).linkTo n
      .quarantine).linkSource n 4 := by
  rw [Dev.hello, rxControl_received _ hcontrol]
  simp only [hstate, hepoch, ne_eq, not_true_eq_false, if_false]

end Epochs

/-- HELLO goes again until the neighbour's has come. -/
theorem helloRepeat_due (hstate : (d.link n).state = .hello) (hseen : (d.link n).helloSeen = false)
    (hdue : (d.link n).helloAt + 8 ≤ d.now) : d.helloRepeat n = d.sendHello n := by
  simp only [Dev.helloRepeat, hstate, hseen, hdue, decide_true, Bool.not_false, Bool.and_self, if_true]

end Hello

/-- HELLO and its repetition. -/
theorem helloRows : Rows.HelloRows := by
  intro n f s
  have hhello : Safety.gives (.hello n f) s (s.dev.hello n.val f) := rfl
  have hrepeat : Safety.gives (.helloRepeat n) s (s.dev.helloRepeat n.val) := rfl
  refine ⟨fun e hcontrol hstate hepoch => ?_, fun hcontrol hstate hepoch => ?_, fun hstate hseen hdue => ?_⟩
  · rwa [hello_agreed hcontrol hstate hepoch] at hhello
  · rwa [hello_quarantined hcontrol hstate hepoch] at hhello
  · rwa [helloRepeat_due hstate hseen hdue] at hrepeat

/-! ## The challenge exchange (R279, R280) -/

section Challenge

variable {d a : Dev} {n : Nat} {f : List Byte}

section Exchange

variable (hreceived : Safety.received d n f = a) (hstate : (a.link n).state = .auth)
include hreceived hstate

/-- A UFP answers CHAL with a nonce of its own and its MAC. -/
theorem chal_ufp (hcontrol : Safety.control d n f 2) (hufp : (a.link n).ufp = true) :
    d.chal n f =
      let b := (a.updLink n fun x => { x with
        keyId := byteAt (frPayload f) 1 % 2, nonceNbr := some (BitVec.ofNat 128 (leAt (frPayload f) 4 16)) }).sendChal n
      b.sendResp n ((b.linkMac n true).getD (zeros 16)) := by
  rw [Dev.chal, rxControl_received _ hcontrol, hreceived]
  simp only [hufp, hstate, decide_true, Bool.true_or, if_true]

/-- A DFP notes the nonce of the answer. -/
theorem chal_dfp (hcontrol : Safety.control d n f 2) (hdfp : (a.link n).ufp = false) :
    d.chal n f = a.updLink n fun x => { x with nonceNbr := some (BitVec.ofNat 128 (leAt (frPayload f) 4 16)) } := by
  rw [Dev.chal, rxControl_received _ hcontrol, hreceived]
  simp only [hdfp, hstate, Bool.false_eq_true, if_false, if_true]

/-- A DFP that finds the UFP's MAC right sends its own and is ADMITTED; a wrong one fails the attempt. -/
theorem resp_dfp (hcontrol : Safety.control d n f 3) (hdfp : (a.link n).ufp = false) :
    d.resp n f =
      let b := a.updLink n fun x => { x with macOk := true }
      if a.linkMac n (!(a.link n).ufp) = some (((frPayload f).drop 4).take 16) then
        (b.sendResp n ((b.linkMac n false).getD (zeros 16))).enterAdmitted n
      else a.authFail n := by
  rw [Dev.resp, rxControl_received _ hcontrol, hreceived]
  simp only [hstate, hdfp, ne_eq, not_true_eq_false, ite_not, Bool.false_eq_true, if_false]

/-- A UFP that finds the DFP's MAC right is ADMITTED once it has sent its own; a wrong one fails the attempt. -/
theorem resp_ufp (hcontrol : Safety.control d n f 3) (hufp : (a.link n).ufp = true) :
    d.resp n f =
      let b := a.updLink n fun x => { x with macOk := true }
      if a.linkMac n (!(a.link n).ufp) = some (((frPayload f).drop 4).take 16) then
        if (a.link n).macSent then b.enterAdmitted n else b
      else a.authFail n := by
  rw [Dev.resp, rxControl_received _ hcontrol, hreceived]
  simp only [hstate, hufp, ne_eq, not_true_eq_false, ite_not, if_false, if_true]

end Exchange

/-- An attempt that takes 800 microframes fails. -/
theorem authTimeout_late (hstate : (d.link n).state = .auth) (hlate : (d.link n).authAt + 800 ≤ d.now) :
    d.authTimeout n = d.authFail n := by
  simp only [Dev.authTimeout, hstate, hlate, decide_true, Bool.and_self, if_true]

/-- Within three attempts, 8,000 microframes later the exchange starts again. -/
theorem authRetry_due (hstate : (d.link n).state = .authFailed) (htries : (d.link n).authTries < 3)
    (hdue : (d.link n).authAt + 8000 ≤ d.now) : d.authRetry n = (d.sendHello n).enterAuth n := by
  simp only [Dev.authRetry, hstate, htries, hdue, decide_true, Bool.and_self, if_true]
  rfl

/-- After three it does not. -/
theorem authRetry_spent (htries : 3 ≤ (d.link n).authTries) : d.authRetry n = d := by
  simp only [Dev.authRetry, Nat.not_lt.2 htries, decide_false, Bool.and_false, Bool.false_and, Bool.false_eq_true, if_false]

end Challenge

/-- The challenge exchange, its failures and its further attempts. -/
theorem challengeRows : Rows.ChallengeRows := by
  intro n f s
  have hchal : Safety.gives (.chal n f) s (s.dev.chal n.val f) := rfl
  have hresp : Safety.gives (.resp n f) s (s.dev.resp n.val f) := rfl
  have htimeout : Safety.gives (.authTimeout n) s (s.dev.authTimeout n.val) := rfl
  have hretry : Safety.gives (.authRetry n) s (s.dev.authRetry n.val) := rfl
  refine ⟨fun hcontrol hufp hstate => ?_, fun hcontrol hdfp hstate => ?_,
    fun hcontrol hstate => ⟨fun hdfp => ?_, fun hufp => ?_⟩, fun hstate hlate => ?_, fun hstate htries hdue => ?_,
    fun _ htries => ?_⟩
  · rwa [chal_ufp rfl hstate hcontrol hufp] at hchal
  · rwa [chal_dfp rfl hstate hcontrol hdfp] at hchal
  · exact resp_dfp rfl hstate hcontrol hdfp ▸ hresp
  · exact resp_ufp rfl hstate hcontrol hufp ▸ hresp
  · rwa [authTimeout_late hstate hlate] at htimeout
  · rwa [authRetry_due hstate htries hdue] at hretry
  · rwa [authRetry_spent htries] at hretry

/-! ## ENABLE (R281, R282) -/

section Enable

variable {d : Dev} {n : Nat} {f : List Byte}

/-- An ADMITTED end notes the neighbour's pools. -/
theorem enableSeen_admitted (hcontrol : Safety.control d n f 4)
    (hstate : ((Safety.received d n f).link n).state = .admitted) :
    d.enableSeen n f = ((Safety.received d n f).updLink n fun x => { x with
      enableSeen := true, svc1 := { x.svc1 with pool := leAt (frPayload f) 2 2 }
      svc2 := { x.svc2 with pool := leAt (frPayload f) 4 2 }
      svc3 := { x.svc3 with pool := leAt (frPayload f) 6 2 } }).enterEnabled n := by
  rw [Dev.enableSeen, rxControl_received _ hcontrol]
  simp only [hstate, ne_eq, not_true_eq_false, if_false]

section Send

variable (hstate : (d.link n).state = .admitted) (hsent : (d.link n).enableSent = false)
  (hclash : (d.link n).posClash = false) (hpos : d.posValid = true) (hmay : d.mayEnable n = true)
include hstate hsent hclash hpos hmay

/-- An ADMITTED end that may send ENABLE sends it with the pools that it has claimed. -/
theorem trySendEnable_claimed (hclaimed : ((d.claimPools n).link n).poolsClaimed = true) :
    d.trySendEnable n =
      let x := (d.claimPools n).link n
      (((d.claimPools n).control n
        ([4, 0] ++ leBytes 2 x.svc1.own ++ leBytes 2 x.svc2.own ++ leBytes 2 x.svc3.own)).updLink n fun y =>
          { y with enableSent := true }).enterEnabled n := by
  simp only [Dev.trySendEnable, hstate, hsent, hclash, hpos, hmay, hclaimed, decide_true, Bool.not_false, Bool.and_self, if_true]

/-- One whose claims do not succeed sends nothing. -/
theorem trySendEnable_unclaimed (hclaimed : ((d.claimPools n).link n).poolsClaimed = false) :
    d.trySendEnable n = d.claimPools n := by
  simp only [Dev.trySendEnable, hstate, hsent, hclash, hpos, hmay, hclaimed, decide_true, Bool.not_false, Bool.and_self, if_true,
    Bool.false_eq_true, if_false]

end Send

end Enable

/-- ENABLE received and sent. -/
theorem enableRows : Rows.EnableRows := by
  intro n f s
  have henable : Safety.gives (.enable n f) s (s.dev.enableSeen n.val f) := rfl
  have hsend : Safety.gives (.enableSend n) s (s.dev.trySendEnable n.val) := rfl
  refine ⟨fun hcontrol hstate => ?_, fun hstate hsent hclash hpos hmay => ⟨fun hclaimed => ?_, fun hclaimed => ?_⟩⟩
  · exact enableSeen_admitted hcontrol hstate ▸ henable
  · exact trySendEnable_claimed hstate hsent hclash hpos hmay hclaimed ▸ hsend
  · exact trySendEnable_unclaimed hstate hsent hclash hpos hmay hclaimed ▸ hsend

/-- Settles O41: each message of the way from HELLO to ENABLED acts on the state it is meant for, and each timer at its moment. -/
theorem linkStart : Obligations.LinkStart := ⟨helloRows, challengeRows, enableRows⟩

end Sys2Proof.Machine

/-! # The Train chain, TDI map and Statistics opcodes

What CHAIN_SET to CHAIN_INFO and STATS_READ do to the request whose turn has come (R264, R265, R441, R442). -/

namespace Sys2Proof.Machine

open Sys2Proof

/-! ## Parameters -/

/-- The bytes of words read as the words. -/
theorem toWords_wordsBytes (ws : List W32) : toWords ws.length (wordsBytes ws) = ws := by
  induction ws with
  | nil => rfl
  | cons w ws ih =>
    have hbytes : wordsBytes (w :: ws) = leBytes 4 w.toNat ++ wordsBytes ws := rfl
    have hhead : leAt (wordsBytes (w :: ws)) 0 4 = w.toNat := leAt_layout [] _ hbytes rfl w.isLt
    have htail : (wordsBytes (w :: ws)).drop 4 = wordsBytes ws := by rw [hbytes, List.drop_left' (length_leBytes ..)]
    rw [List.length_cons, toWords, hhead, htail, ih, BitVec.ofNat_toNat, BitVec.setWidth_eq]

/-- FIRST, COUNT and what they name stand in this order in the parameters of the TDI map; STATS_READ has its count in front. -/
theorem fields_of_range {p rest : List Byte} {f n : Nat} (hp : p = leBytes 2 f ++ leBytes 2 n ++ rest) (hf : f < 65536)
    (hn : n < 65536) : leAt p 0 2 = f ∧ leAt p 2 2 = n ∧ p.drop 4 = rest :=
  ⟨leAt_layout [] (leBytes 2 n ++ rest) (by simp [hp]) rfl hf, leAt_layout (leBytes 2 f) rest hp (length_leBytes ..) hn,
    by rw [hp, List.drop_left' (by simp)]⟩

/-- The valid bit of CHAIN_SET and the position below it share a byte. -/
theorem position_fields (v : Bool) (p : BitVec 6) :
    b2n v * 128 + p.toNat < 256 ∧ (b2n v * 128 + p.toNat) / 128 = b2n v ∧ (b2n v * 128 + p.toNat) % 64 = p.toNat := by
  have hp := p.isLt
  have hv : b2n v ≤ 1 := by cases v <;> decide
  omega

/-- The first byte of a layout. -/
theorem byteAt_head {p rest : List Byte} {n : Nat} (hp : p = BitVec.ofNat 8 n :: rest) (hn : n < 256) : byteAt p 0 = n := by
  rw [hp]
  exact Nat.mod_eq_of_lt hn

/-! ## The rows -/

section ChainRows

variable {k : ReqKey} {rq : Request} {s : State}

/-- CHAIN_SET answers, and its position is due. -/
theorem gives_chainSet (hturn : Safety.turn s.dev k rq 0x0A01) :
    Safety.gives (.chainSet k) s { s.dev.okWith rq [] with
      chainDue := some (k, at_ (byteAt rq.params 0 / 128) 31 ||| at_ (byteAt rq.params 0 % 64) 0, s.dev.now + 80) } := by
  have hrow : exec (.chainSet k) s = execChainSet k s := rfl
  rw [Safety.gives, hrow, execChainSet, opcodeRow_runs hturn rfl, State.next_eq]

/-- Once the answer has left, or 10 ms have passed, the position takes effect. -/
theorem gives_chainSetApply {v : W32} {t : Nat} (hdue : s.dev.chainDue = some (k, v, t))
    (hgone : s.dev.responseGone k t = true) :
    Safety.gives (.chainSetApply k) s (({ s.dev with chainDue := none } : Dev).chainPos v) := by
  have hrow : exec (.chainSetApply k) s = execChainSetApply k s := rfl
  rw [Safety.gives, hrow, execChainSetApply, hdue, State.next_eq]
  simp only [hgone, decide_true, Bool.and_self, if_true]

/-- An answer is gone when no request has its key, or its time is over. -/
theorem responseGone_holds {d : Dev} {t : Nat} (h : d.findReq k = none ∨ t ≤ d.now) : d.responseGone k t = true := by
  simpa only [Dev.responseGone, Bool.or_eq_true, Option.isNone_iff_eq_none, decide_eq_true_eq] using h

/-- ROUTE_WRITE sets the routes from the first one named. -/
theorem gives_routeWrite (hturn : Safety.turn s.dev k rq 0x0A02) :
    Safety.gives (.routeWrite k) s
      ((s.dev.setRegs (aRoute (byteAt rq.params 0)) ((rq.params.drop 4).map routeValue)).okWith rq []) := by
  have hrow : exec (.routeWrite k) s = execRouteWrite k s := rfl
  rw [Safety.gives, hrow, execRouteWrite, opcodeRow_runs hturn rfl, State.next_eq]

/-- TDI_WRITE sets the entries of the map from the first one named. -/
theorem gives_tdiWrite (hturn : Safety.turn s.dev k rq 0x0A03) :
    Safety.gives (.tdiWrite k) s ((s.dev.setRegs (aTdi (leAt rq.params 0 2))
      (toWords (leAt rq.params 2 2) (rq.params.drop 4))).okWith rq []) := by
  have hrow : exec (.tdiWrite k) s = execTdiWrite k s := rfl
  rw [Safety.gives, hrow, execTdiWrite, opcodeRow_runs hturn rfl, State.next_eq]

/-- TDI_READ answers with the entries of the map. -/
theorem gives_tdiRead (hturn : Safety.turn s.dev k rq 0x0A04) :
    Safety.gives (.tdiRead k) s (s.dev.okWith rq ((List.range (leAt rq.params 2 2)).flatMap fun i =>
      wordBytes (s.dev.reg (aTdi (leAt rq.params 0 2 + i))))) := by
  have hrow : exec (.tdiRead k) s = execTdiRead k s := rfl
  rw [Safety.gives, hrow, execTdiRead, opcodeRow_runs hturn rfl, State.next_eq]

/-- The three actions of LINK_ENABLE set ENABLE, RETRY and LINK_RESET. -/
theorem gives_linkEnable (act : Fin 3) (hturn : Safety.turn s.dev k rq 0x0A05) (hact : byteAt rq.params 1 = act.val) :
    Safety.gives ([.linkEnable k, .linkEnableRetry k, .linkEnableLinkReset k].getD act.val (.linkEnable k)) s
      (s.dev.linkEnable rq ([0, 2, 1].getD act.val 0)) := by
  match act with
  | 0 =>
    have hrow : exec (.linkEnable k) s = execLinkEnable k s := rfl
    exact hrow.trans (congrArg s.next (opcodeRow_runs hturn (decide_eq_true hact)))
  | 1 =>
    have hrow : exec (.linkEnableRetry k) s = execLinkEnableRetry k s := rfl
    exact hrow.trans (congrArg s.next (opcodeRow_runs hturn (decide_eq_true hact)))
  | 2 =>
    have hrow : exec (.linkEnableLinkReset k) s = execLinkEnableLinkReset k s := rfl
    exact hrow.trans (congrArg s.next (opcodeRow_runs hturn (decide_eq_true hact.ge)))

/-- On a coupler, and on U0 while its relay is on, an action of LINK_ENABLE is a write of its bit to `CPL_CTRL`. -/
theorem linkEnable_link {d : Dev} {n b : Nat} (hlink : byteAt rq.params 0 = n) (hcoupler : n < 4 → d.isCoupler n = true)
    (hrelay : n = 4 → d.u0.relayEn = true) :
    d.linkEnable rq b =
      let a := d.cplCtrl n (d.reg (aCplCtrl n) ||| at_ 1 b)
      a.okWith rq [BitVec.ofNat 8 (a.link n).state.code, 0, 0, 0] := by
  have htaken : (n < 4 && !d.isCoupler n || n = 4 && !d.u0.relayEn) = false := by
    simpa using ⟨hcoupler, hrelay⟩
  simp only [Dev.linkEnable, hlink, htaken, Bool.false_eq_true, if_false]

/-- CHAIN_INFO answers with the position and the five links. -/
theorem gives_chainInfo (hturn : Safety.turn s.dev k rq 0x0A06) :
    Safety.gives (.chainInfo k) s (s.dev.okWith rq ([s.dev.positionByte, 0, 0, 0] ++ (List.range 5).flatMap fun n =>
      wordBytes (s.dev.cplStatus n) ++ wordBytes (s.dev.cplNbr n) ++ leBytes 8 (s.dev.link n).nbrUid.toNat)) := by
  have hrow : exec (.chainInfo k) s = execChainInfo k s := rfl
  rw [Safety.gives, hrow, execChainInfo, opcodeRow_runs hturn rfl, State.next_eq]

/-- STATS_READ answers with the values of its selectors. -/
theorem gives_statsRead {bs : List Byte} (hturn : Safety.turn s.dev k rq 0x0B01)
    (hvalues : (s.dev.wideValues (toWords (leAt rq.params 0 2) (rq.params.drop 4))).1 = some bs) :
    Safety.gives (.statsRead k) s
      ((s.dev.wideValues (toWords (leAt rq.params 0 2) (rq.params.drop 4))).2.okWith rq bs) := by
  have hrow : exec (.statsRead k) s = execStatsRead k s := rfl
  rw [Safety.gives, hrow, execStatsRead, opcodeRow_runs hturn rfl, State.next_eq]
  simp only [hvalues]

end ChainRows

/-- Settles O18: each request sets, or answers with, what the fields of its parameters name. -/
theorem chainOpcodes : Obligations.ChainOpcodes := by
  intro k rq s n
  refine ⟨fun v p hturn hp => ?_, fun v t hdue hgone => gives_chainSetApply hdue (responseGone_holds hgone),
    fun f es hturn hes hfit hp _ _ => ?_, fun f es hturn hes hlen hfit hp _ _ => ?_, fun f hturn hfit hp => ?_,
    fun act hturn hn hcoupler hrelay hp => ?_, fun hturn _ => gives_chainInfo hturn,
    fun xs bs hturn _ hlen hp hvalues => ?_⟩
  · obtain ⟨hbyte, hvalid, hpos⟩ := position_fields v p
    have hrow := gives_chainSet hturn
    rwa [byteAt_head hp hbyte, hvalid, hpos] at hrow
  · have hfirst : byteAt rq.params 0 = f := byteAt_head hp (by omega)
    have hentries : rq.params.drop 4 = es := by rw [hp]; rfl
    have hrow := gives_routeWrite hturn
    rwa [hfirst, hentries] at hrow
  · obtain ⟨hfirst, hcount, hentries⟩ := fields_of_range hp (by omega) (by omega)
    have hrow := gives_tdiWrite hturn
    rwa [hfirst, hcount, hentries, toWords_wordsBytes] at hrow
  · obtain ⟨hfirst, hcount, -⟩ := fields_of_range (hp.trans (List.append_nil _).symm) (by omega) (by omega)
    have hrow := gives_tdiRead hturn
    rwa [hfirst, hcount] at hrow
  · have hact : byteAt rq.params 1 = act.val := by
      rw [hp]
      exact Nat.mod_eq_of_lt (by omega)
    have hrow := gives_linkEnable act hturn hact
    rw [linkEnable_link (byteAt_head hp (by omega)) hcoupler hrelay, aCplCtrl, Nat.mul_comm] at hrow
    match act with
    | 0 | 1 | 2 => exact hrow
  · obtain ⟨hcount, -, hselectors⟩ := fields_of_range (n := 0) hp (by omega) (by decide)
    have hwords : toWords (leAt rq.params 0 2) (rq.params.drop 4) = xs := by rw [hcount, hselectors, toWords_wordsBytes]
    have hrow := gives_statsRead (bs := bs) hturn (by rwa [hwords])
    rwa [hwords] at hrow

end Sys2Proof.Machine

/-! # Links that sleep, and ports that are suspended

What each row of L1, U1 and U2, and of suspend and resume does once its conditions hold (R294 to R303). -/

namespace Sys2Proof.Machine

open Sys2Proof

section LinkPower

variable {d : Dev} {n : Nat}

/-! ## L1, U1 and U2 (R294 to R297) -/

/-- An idle HS port that may use L1 sends the LPM token. -/
theorem l1Entry_idle (hemb : d.isEmbedded n = true) (hstate : (d.port n).state = .enabled) (hspeed : (d.port n).speed = 2)
    (hlink : (d.port n).link = 0) (hon : d.fldBit (aPortLpm n) 31 = true) (hallowed : (d.port n).lpmRefused = false)
    (hsent : (d.port n).lpmSent = false) (hidle : d.workBehind n (fun _ => true) = false)
    (hlong : (d.port n).lastWork + d.fld (aPortLpm n) 16 8 ≤ d.now) (hfar : ∀ k ≤ d.lx n, d.plannedAt n k = false) :
    d.l1Entry n = (d.updPort n fun x => { x with lpmSent := true }).sendUnit n (d.lpmToken n) false := by
  have hnone : ((List.range (d.lx n + 1)).all fun k => !d.plannedAt n k) = true := by
    simpa [Nat.lt_succ_iff] using hfar
  simp only [Dev.l1Entry, hemb, hstate, hspeed, hlink, hon, hallowed, hsent, hidle, hlong, hnone, decide_true, Bool.not_false,
    Bool.and_self, if_true]

/-- An answer counts while a token of the port waits for it. -/
theorem lpmAnswered_awaited (a : LpmAnswer) (hsent : (d.port n).lpmSent = true) : d.lpmAnswered n a =
    let e := d.updPort n fun p => { p with lpmSent := false }
    match a with
    | .ack =>
      let l1 := (e.updPort n fun p => { p with link := 1 }).count (selector 0x25 1 n)
      if d.workBehind n (fun _ => true) then l1.l1Exit n else l1
    | .nyet => e.updPort n fun p => { p with lastWork := d.now }
    | .stall => e.updPort n fun p => { p with lpmRefused := true }
    | .none => (e.updPort n fun p => { p with lastWork := d.now }).lpmError n :=
  if_neg (by simp [hsent])

/-- A link in L1 returns to L0. -/
theorem l1Exit_l1 (hlink : (d.port n).link = 1) : d.l1Exit n = d.updPort n fun p => { p with link := 0 } := if_pos hlink

section U1U2

variable (hemb : d.isEmbedded n = true) (hss : (d.port n).ss = true) (hstate : (d.port n).state = .enabled)
  (hfar : ∀ k ≤ d.fld (aSsLpm n) 0 4, d.plannedAt n k = false)
include hemb hss hstate hfar

/-- The timeout of an idle SuperSpeed link takes it one state down, where that state is enabled. -/
theorem u1Timeout_idle : d.u1Timeout n =
    if (d.port n).link = 0 && d.fld (aSsLpm n) 8 8 ≠ 0 then d.updPort n fun x => { x with link := 2 }
    else if (d.port n).link = 2 && d.fld (aSsLpm n) 16 8 ≠ 0 then d.updPort n fun x => { x with link := 3 } else d := by
  have hnone : ((List.range (d.fld (aSsLpm n) 0 4 + 1)).all fun k => !d.plannedAt n k) = true := by
    simpa [Nat.lt_succ_iff] using hfar
  simp only [Dev.u1Timeout, hemb, hss, hstate, hnone, decide_true, Bool.and_self, if_true]

/-- From U0 to U1. -/
theorem u1Timeout_u0 (hlink : (d.port n).link = 0) (hon : d.fld (aSsLpm n) 8 8 ≠ 0) :
    d.u1Timeout n = d.updPort n fun x => { x with link := 2 } := by
  rw [u1Timeout_idle hemb hss hstate hfar, if_pos (by simp [hlink, hon])]

/-- From U1 to U2. -/
theorem u1Timeout_u1 (hlink : (d.port n).link = 2) (hon : d.fld (aSsLpm n) 16 8 ≠ 0) :
    d.u1Timeout n = d.updPort n fun x => { x with link := 3 } := by
  rw [u1Timeout_idle hemb hss hstate hfar, if_neg (by simp [hlink]), if_pos (by simp [hlink, hon])]

end U1U2

/-- A link in U1 or U2 returns to U0. -/
theorem u1u2Exit_asleep (hlink : (d.port n).link = 2 ∨ (d.port n).link = 3) :
    d.u1u2Exit n = d.updPort n fun p => { p with link := 0 } := if_pos (by simpa using hlink)

/-! ## Suspend and resume (R298 to R303) -/

/-- A port that has been idle for `SUSP_BEATS` beats is suspended. -/
theorem suspendTimer_due (hemb : d.isEmbedded n = true) (hstate : (d.port n).state = .enabled) (hbeat : d.atBeat = true)
    (hon : d.fld (aPortLpm n) 0 16 ≠ 0) (hlong : d.fld (aPortLpm n) 0 16 ≤ (d.port n).idleBeats)
    (hidle : d.idleBeat n = true) : d.suspendTimer n = d.suspendPort n := by
  simp only [Dev.suspendTimer, hemb, hstate, hbeat, hon, hlong, hidle, ne_eq, not_false_eq_true, decide_true, Bool.and_self,
    if_true]

/-- At USB 2.0 recovery follows the end of resume signalling. -/
theorem resumeEnd_usb2 (hstate : (d.port n).state = .suspended) (hlink : (d.port n).link = 5) (hss : (d.port n).ss = false) :
    d.resumeEnd n = d.updPort n fun p => { p with resumeRecovery := true } := by
  simp only [Dev.resumeEnd, hstate, hlink, hss, decide_true, Bool.not_false, Bool.and_self, if_true]

/-- A remote wake of a suspended port resumes it, is flagged and notified. -/
theorem remoteWakeRow_suspended (hemb : d.isEmbedded n = true) (hstate : (d.port n).state = .suspended)
    (hlink : (d.port n).link = 4) : d.remoteWakeRow n none =
      (((d.resumePort n true).flag (aPortPwr n) 0).remoteWakeSent n 0 0 false).startWake .remoteWake := by
  simp only [Dev.remoteWakeRow, hemb, hstate, hlink, Nat.reduceEqDiff, decide_true, Bool.not_true, Bool.and_self,
    Bool.false_eq_true, if_false, if_true]

section Subtrees

variable {hub hp c : Nat}

/-- Hub `hub` answers on context c of its port, below SuperSpeed, and the device knows it and polls its status changes (R300). -/
structure Dev.WatchesHub (d : Dev) (n hub c : Nat) : Prop where
  ep0 : d.ep0 (d.port n).domain hub = some c
  onPort : (d.ctx c).port = n
  running : (d.ctx c).state = 1
  usb2 : (d.ctx c).speed ≠ 3
  known : hub ∈ (d.port n).knownHubs
  polled : (d.subscriptions.any fun kv => kv.2.isSome && (d.ctx kv.1).addr = hub && (d.ctx kv.1).port = n &&
    d.isHubInt kv.1) = true

/-- The subtree below port `hp` of hub `hub` has been idle for `SUSP_BEATS` beats, its port has not, and no suspend or resume of it
is under way (R300). -/
structure Dev.SubtreeDue (d : Dev) (n hub hp c : Nat) : Prop where
  beat : d.atBeat = true
  on : d.fld (aPortLpm n) 0 16 ≠ 0
  port : (d.port n).idleBeats < d.fld (aPortLpm n) 0 16
  long : d.fld (aPortLpm n) 0 16 ≤ (d.port n).idleOf hub hp
  idle : d.subtreeIdle n hub hp = true
  awake : (hub, hp) ∉ (d.port n).selSusp
  released : (hub, hp) ∉ (d.port n).selWait
  unasked : d.ownQueued c hp (.selSuspend n) = false

/-- Such a subtree is suspended by a request to its hub. -/
theorem selectiveSuspend_due (hemb : d.isEmbedded n = true) (hstate : (d.port n).state = .enabled)
    (hhub : d.WatchesHub n hub c) (hdue : d.SubtreeDue n hub hp c) :
    d.selectiveSuspend n hub hp = d.hubRequest c (.selSuspend n) (hubPortRequest 0x23 3 2 hp 0) := by
  have hknown := List.contains_iff_mem.2 hhub.known
  have hawake : (d.port n).selSusp.contains (hub, hp) = false := by simpa using hdue.awake
  have hreleased : (d.port n).selWait.contains (hub, hp) = false := by simpa using hdue.released
  simp only [Dev.selectiveSuspend, hhub.ep0, hemb, hstate, hdue.on, hdue.port, hhub.onPort, hhub.running, hhub.usb2, hknown,
    hawake, hreleased, hhub.polled, hdue.idle, hdue.long, hdue.beat, hdue.unasked, ne_eq, not_false_eq_true, decide_true,
    Bool.not_false, Bool.and_self, if_true]

end Subtrees

end LinkPower

/-! ## The rows -/

/-- LPM tokens, their answers and the exit from L1. -/
theorem l1Rows : Rows.L1Rows := by
  intro n s
  refine ⟨fun halloc hstate hspeed hlink hon hallowed hsent hidle hlong hfar => ?_, fun a hsent => ?_, fun hlink => ?_⟩
  · have hrow : Safety.gives (.l1Entry n) s (s.dev.l1Entry n.val) := rfl
    rwa [l1Entry_idle ((isEmbedded_iff n.isLt).2 halloc) hstate hspeed hlink hon hallowed hsent hidle hlong hfar] at hrow
  · have hrow : Safety.gives (.lpmResponse n a) s (s.dev.lpmAnswered n.val a) := rfl
    rw [lpmAnswered_awaited a hsent] at hrow
    cases a with
    | ack | nyet | stall | none => exact hrow
  · have hrow : Safety.gives (.l1Exit n) s (s.dev.l1Exit n.val) := rfl
    rwa [l1Exit_l1 hlink] at hrow

/-- The timeouts of an idle SuperSpeed link and its exit. -/
theorem u1U2Rows : Rows.U1U2Rows := by
  intro n s halloc hss hstate hfar
  have hemb := (isEmbedded_iff (d := s.dev) (by omega)).2 halloc
  have htimeout : Safety.gives (.u1Timeout n) s (s.dev.u1Timeout n.val) := rfl
  refine ⟨fun hlink hon => ?_, fun hlink hon => ?_, fun hlink => ?_⟩
  · rwa [u1Timeout_u0 hemb hss hstate hfar hlink hon] at htimeout
  · rwa [u1Timeout_u1 hemb hss hstate hfar hlink hon] at htimeout
  · have hrow : Safety.gives (.u1u2Exit n) s (s.dev.u1u2Exit n.val) := rfl
    rwa [u1u2Exit_asleep hlink] at hrow

/-- Suspend, resume and remote wake of a port, and the suspend of a subtree. -/
theorem suspendRows : Rows.SuspendRows := by
  intro n s halloc
  have hemb := (isEmbedded_iff (d := s.dev) n.isLt).2 halloc
  refine ⟨fun hstate hbeat hon hlong hidle => ?_, rfl, fun hstate hlink hss => ?_, fun hstate hrecovery => ?_, fun _ _ => rfl,
    fun h hp c hep0 hstate hon hport honPort hrunning husb2 hknown hawake hreleased hpolled hidle hbeat hlong hunasked => ?_,
    fun hstate hlink => ?_⟩
  · have hrow : Safety.gives (.suspendTimer n) s (s.dev.suspendTimer n.val) := rfl
    rwa [suspendTimer_due hemb hstate hbeat hon hlong hidle] at hrow
  · have hrow : Safety.gives (.resumeEnd n) s (s.dev.resumeEnd n.val) := rfl
    rwa [resumeEnd_usb2 hstate hlink hss] at hrow
  · have hrow : Safety.gives (.resumeRecoveryEnd n) s (if (s.dev.port n.val).state = .suspended &&
        (s.dev.port n.val).resumeRecovery then s.dev.enabledAgain n.val else s.dev) := rfl
    rwa [if_pos (by simp [hstate, hrecovery])] at hrow
  · have hrow : Safety.gives (.selectiveSuspend n h hp) s (s.dev.selectiveSuspend n.val h.toNat hp.toNat) := rfl
    rwa [selectiveSuspend_due hemb hstate ⟨hep0, honPort, hrunning, husb2, hknown, hpolled⟩
      ⟨hbeat, hon, hport, hlong, hidle, hawake, hreleased, hunasked⟩] at hrow
  · have hrow : Safety.gives (.remoteWake n none) s (s.dev.remoteWakeRow n.val none) := rfl
    rwa [remoteWakeRow_suspended hemb hstate hlink] at hrow

/-- Settles O38: each row of link power acts once the conditions of its rule hold. -/
theorem linkPower : Obligations.LinkPower := ⟨l1Rows, u1U2Rows, suspendRows⟩

end Sys2Proof.Machine

/-! # The power states of the chip

TRIM, DOZE with its AVS writes, and HIBERNATE (R308 to R316). -/

namespace Sys2Proof.Machine

open Sys2Proof

/-! ## TRIM and DOZE (R308, R309, R315, R316) -/

section Doze

variable {d : Dev}

/-- A device whose Vat is ready and whose Core moves serves its Vat. -/
theorem vatRuns_active (hup : d.up = true) (hready : d.isReady 4 = true) (hstate : d.power.state = .active)
    (havs : d.power.avs = .idle) : d.vatRuns = true := by
  simp [Dev.vatRuns, Dev.halted, hup, hready, hstate, havs]

/-- After `TRIM_BEATS` quiet beats an ACTIVE device goes to TRIM. -/
theorem trimEntry_due (hruns : d.vatRuns = true) (hstate : d.power.state = .active) (havs : d.power.avs = .idle)
    (hsafe : d.fc.chipSafe = false) (hbeat : d.atBeat = true) (hon : d.fld aPwrCfg 16 8 ≠ 0)
    (hlong : d.fld aPwrCfg 16 8 ≤ d.power.trimBeats) :
    d.trimEntry = (d.updPower fun p => { p with state := .trim, trimBeats := 0 }).seekDepth := by
  simp only [Dev.trimEntry, hruns, hstate, havs, hsafe, hbeat, hon, hlong, ne_eq, not_false_eq_true, decide_true, Bool.not_false,
    Bool.and_self, if_true]

/-- After `DOZE_BEATS` beats in which it might doze, the device writes the lower voltage. -/
theorem dozeEntry_due (hup : d.up = true) (hstate : d.power.state ≠ .doze) (havs : d.power.avs = .idle)
    (hasked : d.power.dozeNow = false) (hbeat : d.atBeat = true) (hon : d.fld aPwrSleep 0 16 ≠ 0)
    (hlong : d.fld aPwrSleep 0 16 ≤ d.power.dozeBeats) (hmay : d.mayDoze = true) :
    d.dozeEntry = d.updPower fun p => { p with avs := .lowering } := by
  simp only [Dev.dozeEntry, hup, hstate, havs, hasked, hbeat, hon, hlong, hmay, ne_eq, not_true_eq_false, not_false_eq_true,
    decide_true, decide_false, Bool.not_true, Bool.or_self, Bool.and_self, Bool.false_eq_true, if_false, if_true]

/-- The acknowledgement of the lower voltage is the entry to DOZE. -/
theorem avsAck_lowering (ok : Bool) (havs : d.power.avs = .lowering) : d.avsAck ok = d.updPower fun p =>
    { p with coreOk := ok, state := .doze, avs := .idle, lowered := true, dozeBeats := 0, hibBeats := 0 } := by
  simp only [Dev.avsAck, havs]
  rfl

/-- The clocks restart once the higher voltage is acknowledged and CORE_OK is high. -/
theorem avsAck_raising (ok : Bool) (havs : d.power.avs = .raising) : d.avsAck ok =
    if ok then (d.updPower fun p => { p with coreOk := ok }).clocksRestart else d.updPower fun p => { p with coreOk := ok } := by
  simp only [Dev.avsAck, havs]

/-- Without an acknowledgement of the lower voltage the device goes back to the higher one, with its event and AVS_NOACK. -/
theorem avsNoack_lowering (ok : Bool) (havs : d.power.avs = .lowering) : d.avsNoack ok =
    ((d.updPower fun p => { p with coreOk := ok, avs := .raising, holdoff := d.fld aPwrSleep 0 16 }).flag aPwrEvent 1).assert
      srcAvsNoack 0 := by
  simp only [Dev.avsNoack, havs, reduceCtorEq, if_false]
  rfl

/-- A wake in DOZE writes the higher voltage, while the clocks still stand. -/
theorem startWake_dozing (src : WakeSrc) (hstate : d.power.state = .doze) (havs : d.power.avs = .idle) :
    d.startWake src = d.updPower fun p =>
      { p with dozeNow := false, dozeBeats := 0, avs := .raising, lowered := false, wakeSrc := wakeCode src } := by
  simp only [Dev.startWake, havs]
  exact if_pos hstate

end Doze

/-- WAKE acts for every source but `BEAT_IN`, which wakes from HIBERNATE only (R307). -/
theorem gives_wake {s : State} {src : WakeSrc} (hup : s.dev.up = true) (hsrc : src ≠ .beatIn) :
    Safety.gives (.wake src) s (s.dev.startWake src) := by
  have hrow : Safety.gives (.wake src) s (if src = .beatIn || !s.dev.up then s.dev else s.dev.startWake src) := rfl
  rwa [if_neg (by simp [hup, hsrc])] at hrow

/-- TRIM, the entry to DOZE, its AVS writes and its wake. -/
theorem dozeRows : Rows.DozeRows := by
  intro s hup
  have hack (ok : Bool) : Safety.gives (.avsAck ok) s (s.dev.avsAck ok) := rfl
  refine ⟨fun hready hstate havs hsafe hbeat hon hlong => ?_, fun hstate havs hasked hbeat hon hlong hmay => ?_,
    fun ok havs => ?_, fun havs => ?_, fun havs => ?_, fun ok havs => ?_, fun src hsrc hstate havs => ?_⟩
  · have hrow : Safety.gives .trimEntry s s.dev.trimEntry := rfl
    rwa [trimEntry_due (vatRuns_active hup hready hstate havs) hstate havs hsafe hbeat hon hlong] at hrow
  · have hrow : Safety.gives .dozeEntry s s.dev.dozeEntry := rfl
    rwa [dozeEntry_due hup hstate havs hasked hbeat hon hlong hmay] at hrow
  · have hrow := hack ok
    rwa [avsAck_lowering ok havs] at hrow
  · have hrow := hack true
    rwa [avsAck_raising true havs, if_pos rfl] at hrow
  · have hrow := hack false
    rwa [avsAck_raising false havs, if_neg Bool.false_ne_true] at hrow
  · have hrow : Safety.gives (.avsNoack ok) s (s.dev.avsNoack ok) := rfl
    rwa [avsNoack_lowering ok havs] at hrow
  · have hrow := gives_wake hup hsrc
    rw [startWake_dozing src hstate havs] at hrow
    exact ⟨_, hrow, rfl, rfl, hstate, rfl⟩

/-! ## HIBERNATE (R311, R312, R314) -/

section Tables

variable {α : Type} [DecidableEq α] {dflt : Nat → α}

/-- The first n entries of a table, each changed by f. -/
def updFirst (dflt : Nat → α) (f : α → α) (n : Nat) (t : Tab α) : Tab α :=
  forN n (fun k u => put dflt u k (f (look dflt u k))) t

/-- One more entry is changed after those before it. -/
theorem updFirst_succ (f : α → α) (n : Nat) (t : Tab α) : updFirst dflt f (n + 1) t =
    put dflt (updFirst dflt f n t) n (f (look dflt (updFirst dflt f n t) n)) := by
  simp only [updFirst, forN, List.range_succ, List.foldl_append, List.foldl_cons, List.foldl_nil]

/-- A canonical table stays canonical, and its first n entries alone are changed. -/
theorem look_updFirst (f : α → α) (n : Nat) {t : Tab α} (ht : wfTab dflt t = true) :
    wfTab dflt (updFirst dflt f n t) = true ∧
      ∀ j, look dflt (updFirst dflt f n t) j = if j < n then f (look dflt t j) else look dflt t j := by
  induction n with
  | zero => exact ⟨ht, fun j => by simp [updFirst, forN]⟩
  | succ n ih =>
    obtain ⟨hwf, hlook⟩ := ih
    rw [updFirst_succ]
    refine ⟨wfTab_put _ _ hwf, fun j => ?_⟩
    rw [look_put _ _ _ hwf, hlook n, if_neg (Nat.lt_irrefl n), hlook j]
    by_cases hj : j = n
    · simp [hj]
    · have hbelow : j < n + 1 ↔ j < n := by omega
      simp only [hj, hbelow, if_false]

end Tables

section Hibernate

variable {d : Dev}

/-- A die that hibernates, its safe pair at Safe. -/
def Die.asleep (x : Die) : Die := { x with hibernating := true, safe := true }

/-- An E port that is down. -/
def Eth.down (x : Eth) : Eth := { x with linkUp := false, configured := false }

/-- The dies, the engines and the E ports as HIBERNATE leaves them. -/
def Dev.blocksDown (d : Dev) : Dev :=
  forN 2 (fun e a => a.updEth e Eth.down) (forN 33 (fun n a => a.pdHibernate n) (forN 4 (fun x a => a.updDie x Die.asleep) d))

/-- A sweep over the dies changes the first entries of their table alone. -/
theorem forN_updDie (f : Die → Die) (k : Nat) (d : Dev) :
    forN k (fun x a => a.updDie x f) d = { d with dies := updFirst dieDflt f k d.dies } :=
  List.foldl_hom (fun t => ({ d with dies := t } : Dev)) fun _ _ => rfl

/-- A sweep over the E ports changes the first entries of their table alone. -/
theorem forN_updEth (f : Eth → Eth) (k : Nat) (d : Dev) :
    forN k (fun e a => a.updEth e f) d = { d with eths := updFirst ethDflt f k d.eths } :=
  List.foldl_hom (fun t => ({ d with eths := t } : Dev)) fun _ _ => rfl

/-- An engine goes to HIBERNATE within the table of engines. -/
theorem pdHibernate_within (n : Nat) (t : Tab Pd) :
    ∃ u, Dev.pdHibernate { d with pd := t } n = { d with pd := u } := by
  unfold Dev.pdHibernate
  split
  · exact ⟨t, rfl⟩
  · exact ⟨_, rfl⟩

/-- Nothing but these three tables is touched. -/
theorem blocksDown_eq (d : Dev) : ∃ t, d.blocksDown =
    { d with dies := updFirst dieDflt Die.asleep 4 d.dies, pd := t, eths := updFirst ethDflt Eth.down 2 d.eths } := by
  have hengines (a : Dev) : ∃ t, forN 33 (fun n b => b.pdHibernate n) a = { a with pd := t } :=
    forEach_within (fun t => ({ a with pd := t } : Dev)) (List.range 33) pdHibernate_within a.pd
  obtain ⟨t, ht⟩ := hengines { d with dies := updFirst dieDflt Die.asleep 4 d.dies }
  exact ⟨t, by rw [Dev.blocksDown, forN_updDie, ht, forN_updEth]⟩

/-- From DOZE, after `HIB_BEATS` beats in which nothing forbids it, the device hibernates. -/
theorem hibernateEntry_due (hup : d.up = true) (hstate : d.power.state = .doze) (havs : d.power.avs = .idle)
    (hbeat : d.atBeat = true) (hon : d.fld aPwrSleep 16 16 ≠ 0) (hlong : d.fld aPwrSleep 16 16 ≤ d.power.hibBeats)
    (hmay : d.mayHibernate = true) : d.hibernateEntry = { d.blocksDown with
      life := .hibernate
      power := { d.blocksDown.power with state := .hibernate }
      deckle := { d.blocksDown.deckle with running := false }
      u0 := { d.blocksDown.u0 with speed := 0, suspended := false } } := by
  simp only [Dev.hibernateEntry, hup, hstate, havs, hbeat, hon, hlong, hmay, ne_eq, not_false_eq_true, decide_true, Bool.and_self,
    if_true]
  have hblocks : forN 2 (fun e a => a.updEth e fun x => { x with linkUp := false, configured := false })
      (forN 33 (fun n a => a.pdHibernate n)
        (forN 4 (fun x a => a.updDie x fun y => { y with hibernating := true, safe := true }) d)) = d.blocksDown := rfl
  rw [hblocks]

end Hibernate

/-- The entry to HIBERNATE. -/
theorem hibernateRow : Rows.HibernateRow := by
  intro s hup hstate havs hbeat hon hlong hmay
  have hrow : Safety.gives .hibernateEntry s s.dev.hibernateEntry := rfl
  obtain ⟨t, ht⟩ := blocksDown_eq s.dev
  rw [hibernateEntry_due hup hstate havs hbeat hon hlong hmay, ht] at hrow
  refine ⟨_, hrow, rfl, rfl, rfl, rfl, rfl, rfl, rfl, fun hdies x hx => ?_, fun heths e he => ?_⟩
  · have hdie := (look_updFirst Die.asleep 4 hdies).2 x
    rw [if_pos hx] at hdie
    exact ⟨congrArg Die.hibernating hdie, congrArg Die.safe hdie⟩
  · have heth := (look_updFirst Eth.down 2 heths).2 e
    rw [if_pos he] at heth
    exact ⟨congrArg Eth.linkUp heth, congrArg Eth.configured heth⟩

/-- Settles O39: each power state is entered under its conditions, and HIBERNATE finds every block down. -/
theorem chipPower : Obligations.ChipPower := ⟨dozeRows, hibernateRow⟩

end Sys2Proof.Machine

/-! # Steps and their completion

A step runs the command at the front of the queue, and every command completes: one that does not sample the straps answers the
state with a new device, and each of the two that do has its own equation. -/

namespace Sys2Proof.Machine

open Sys2Proof

/-- A step takes the oldest command off the queue and runs it. -/
theorem step_cons {c : Instr} {rest : List Instr} {s : State} (hpending : s.pending = c :: rest) :
    step s = exec c { s with pending := rest } := by
  simp only [step, hpending]

/-- With no command waiting the block idles. -/
theorem step_nil {s : State} (hpending : s.pending = []) : step s = .next s := by
  simp only [step, hpending]

/-- Every command answers a next state. -/
theorem exec_completes (i : Instr) (s : State) : ∃ t, exec i s = .next t := by
  by_cases hi : samplesStraps i = false
  · obtain ⟨d, hd⟩ := exec_eq_next s hi
    exact ⟨_, hd⟩
  cases i with
  | powerOn p => exact ⟨_, exec_powerOn p.straps p.csLow s⟩
  | resetNRelease st cs =>
    by_cases hreset : s.dev.life = .reset
    · exact ⟨_, exec_resetNRelease st cs hreset⟩
    · exact ⟨s, exec_resetNRelease_idle st cs hreset⟩
  | _ => exact absurd rfl hi

/-- Settles O1: it is the second equation of `step`. -/
theorem stepRunsHead : Obligations.StepRunsHead := fun _ _ _ hpending => step_cons hpending

/-- Settles O2: no command faults or is refused, and none touches the queue. -/
theorem commandsComplete : Obligations.CommandsComplete := by
  refine ⟨fun i s => ?_, fun s hpending => step_nil hpending⟩
  obtain ⟨t, ht⟩ := exec_completes i s
  exact ⟨t, ht, exec_pending ht⟩

end Sys2Proof.Machine

/-! # PD: the source's side of a contract

What each event does to an engine in the sequence that awaits it, one lemma for each outcome, and what a Request may ask for. -/

namespace Sys2Proof.Machine

open Sys2Proof

section SourceOutcomes

variable {d : Dev} {n : Nat} {c : Contract}

/-- Source_Capabilities go out again while attempts are left (R326). -/
theorem sourceCapRepeat_again (hams : (d.eng n).ams = .srcCaps) (hleft : (d.eng n).capsCount < 50) :
    d.sourceCapRepeat n = d.sendSourceCaps n := by
  simp [Dev.sourceCapRepeat, hams, hleft]

/-- A partner that has answered before and answers no more draws a hard reset. -/
theorem sourceCapRepeat_spent (hams : (d.eng n).ams = .srcCaps) (hspent : 50 ≤ (d.eng n).capsCount)
    (hheard : (d.eng n).partnerPd = true) : d.sourceCapRepeat n = d.hardResetAct n false := by
  simp [Dev.sourceCapRepeat, hams, hspent, hheard]

/-- The source has heard a Request: it notes the revision, and a SRC_CAP that waits ends. -/
def Dev.requestHeard (d : Dev) (n : Nat) (rev2 : Bool) : Dev :=
  ((d.pdHeard n).updEng n fun x => { x with rev := if rev2 then 1 else 2 }).endActions n [4] stOk

section Requests

variable {rdo : W32} (rev2 : Bool) (htalks : d.pdTalks n = true) (hsource : (d.eng n).source = true)
  (hoffered : (d.eng n).offered ≠ []) (hams : (d.eng n).ams = .srcCaps) (hmatch : bit rdo 26 = false)
include htalks hsource hoffered hams hmatch

/-- A Request that can be granted is accepted, and its transition starts (R327). -/
theorem requestIn_granted (hasked : requested (d.eng n).offered rdo = some c) : d.requestIn n rev2 rdo =
    ((d.requestHeard n rev2).pdSay n .accept).updEng n fun x => { x with ams := .srcTransition c } := by
  simp [Dev.requestIn, Dev.requestHeard, htalks, hsource, hoffered, hams, hmatch, hasked]

/-- Another is rejected; under a contract nothing else changes (R327). -/
theorem requestIn_refused (hasked : requested (d.eng n).offered rdo = none) (hcontract : (d.eng n).contract ≠ none) :
    d.requestIn n rev2 rdo = ((d.requestHeard n rev2).pdSay n .reject).amsEnd n := by
  simp [Dev.requestIn, Dev.requestHeard, htalks, hsource, hoffered, hams, hmatch, hasked, hcontract]

end Requests

/-- After tSrcTransition a new voltage is commanded (R337). -/
theorem srcTransitionEnd_newVolt (hams : (d.eng n).ams = .srcTransition c) (hvolt : c.volt ≠ (d.eng n).volt) :
    d.srcTransitionEnd n = (d.updEng n fun x => { x with ams := .srcVout c }).psbPush n 2 (.vout c.volt) true := by
  simp only [Dev.srcTransitionEnd, hams, if_neg hvolt]

/-- Where the voltage stays, PS_RDY follows at once (R337). -/
theorem srcTransitionEnd_sameVolt (hams : (d.eng n).ams = .srcTransition c) (hvolt : c.volt = (d.eng n).volt) :
    d.srcTransitionEnd n = d.srcReady n c := by
  simp only [Dev.srcTransitionEnd, hams, if_pos hvolt]

/-- PS_RDY follows once the new voltage has held (R337). -/
theorem windowHeld_ready (hams : (d.eng n).ams = .srcWindow c) : d.windowHeld n = d.srcReady n c := by
  simp only [Dev.windowHeld, hams]

/-- PS_RDY is late while the new voltage is commanded or awaited (R337). -/
theorem psrdyDeadline_late (hams : (d.eng n).ams = .srcVout c ∨ (d.eng n).ams = .srcWindow c) :
    d.psrdyDeadline n = d.psrdyLate n := by
  rcases hams with hams | hams
  · simp only [Dev.psrdyDeadline, hams]
  · simp only [Dev.psrdyDeadline, hams]

/-- An idle source answers Get_Source_Cap with its capabilities (R343). -/
theorem getSourceCapIn_idle (htalks : d.pdTalks n = true) (hsource : (d.eng n).source = true) (hidle : (d.eng n).ams = .idle) :
    d.getSourceCapIn n = (d.pdHeard n).sendSourceCaps n := by
  simp [Dev.getSourceCapIn, htalks, hsource, hidle]

end SourceOutcomes

/-- The rows of a source. -/
theorem sourceRows : Rows.SourceRows := by
  intro n s
  refine ⟨fun hams hleft => ?_, fun hams hspent hheard => ?_, fun rev2 rdo c htalks hsource hoffered hams hmatch hasked => ?_,
    fun rev2 rdo htalks hsource hoffered hams hmatch hasked hcontract => ?_, fun c hams hvolt => ?_, fun c hams hvolt => ?_,
    fun c hams => ?_, fun c hams => ?_, fun htalks hsource hidle => ?_⟩
  · exact sees_of_eq (sourceCapRepeat_again hams hleft) rfl
  · exact sees_of_eq (sourceCapRepeat_spent hams hspent hheard) rfl
  · exact gives_of_eq (requestIn_granted rev2 htalks hsource hoffered hams hmatch hasked) rfl
  · exact gives_of_eq (requestIn_refused rev2 htalks hsource hoffered hams hmatch hasked hcontract) rfl
  · exact gives_of_eq (srcTransitionEnd_newVolt hams hvolt) rfl
  · exact gives_of_eq (srcTransitionEnd_sameVolt hams hvolt) rfl
  · exact gives_of_eq (windowHeld_ready hams) rfl
  · exact sees_of_eq (psrdyDeadline_late hams) rfl
  · exact gives_of_eq (getSourceCapIn_idle htalks hsource hidle) rfl

/-! ## What a Request may ask for (R327) -/

section Requested

variable {offered : List W32} {rdo p : W32}

/-- Object 0 is no object. -/
theorem requested_zero (hpos : bits rdo 28 4 = 0) : requested offered rdo = none := if_pos hpos

/-- An object beyond those offered was not offered. -/
theorem requested_beyond (hpos : offered.length < bits rdo 28 4) : requested offered rdo = none := by
  have hnone : offered[bits rdo 28 4 - 1]? = none := List.getElem?_eq_none (by omega)
  simp only [requested, Nat.ne_of_gt (Nat.zero_lt_of_lt hpos), hnone, if_false]

/-- A fixed object is granted where neither current asked for is above its own. -/
theorem requested_fixed (hpos : bits rdo 28 4 ≠ 0) (hobject : offered[bits rdo 28 4 - 1]? = some p) (hfixed : bits p 30 2 = 0) :
    requested offered rdo = if bits rdo 10 10 ≤ bits p 0 10 ∧ bits rdo 0 10 ≤ bits p 0 10 then
      some ⟨bits rdo 28 4, bits p 10 10 * 5 / 2, bits rdo 10 10, false, 0⟩ else none := by
  simp only [requested, hpos, hobject, hfixed, if_false, if_true]

end Requested

/-- Only what was offered is granted, a fixed object with at most its current. -/
theorem requestRule : Rows.RequestRule := by
  intro offered rdo
  refine ⟨requested_zero, requested_beyond, fun p c hobject hfixed hasked => ?_, fun p hobject hfixed hover => ?_⟩
  · have hpos : bits rdo 28 4 ≠ 0 := fun h => by simp [requested_zero h] at hasked
    rw [requested_fixed hpos hobject hfixed] at hasked
    split at hasked
    · rename_i hwithin
      cases hasked
      exact ⟨hwithin.1, rfl, rfl⟩
    · cases hasked
  · by_cases hpos : bits rdo 28 4 = 0
    · exact requested_zero hpos
    · rw [requested_fixed hpos hobject hfixed]
      exact if_neg fun hwithin => Nat.not_le.2 hover hwithin.1

/-- Settles O45: each event of a source's sequence has its outcome, and a Request is judged by the object that it names. -/
theorem sourceContract : Obligations.SourceContract := ⟨sourceRows, requestRule⟩

end Sys2Proof.Machine

/-! # PD: the sink's side of a contract, and swaps

What each message and each timer does to an engine in the sequence that awaits it, one lemma for each outcome. -/

namespace Sys2Proof.Machine

open Sys2Proof

section SinkOutcomes

variable {d : Dev} {n : Nat} {c : Contract}

/-- The source's capabilities are kept, for the engine and in the registers of the partner's objects (R328). -/
def Dev.capsKept (d : Dev) (n : Nat) (rev2 : Bool) (pdos : List W32) : Dev :=
  forN 7 (fun k a => a.setReg (aPartnerPdo n k) (pdos.getD k 0)) ((d.pdHeard n).updEng n fun x =>
    { x with sourceCaps := pdos.take 7, rev := if rev2 then 1 else 2, ams := .idle })

/-- An idle sink keeps the capabilities and sends its Request (R328). -/
theorem sourceCapsIn_idle (rev2 : Bool) (pdos : List W32) (htalks : d.pdTalks n = true) (hsink : (d.eng n).source = false)
    (hidle : (d.eng n).ams = .idle) : d.sourceCapsIn n rev2 pdos = (d.capsKept n rev2 pdos).sendRequest n := by
  simp [Dev.sourceCapsIn, Dev.capsKept, htalks, hsink, hidle]

/-- Accept of a Request starts the transition; where the voltage stays, the sink's path does too (R328). -/
theorem acceptIn_request (htalks : d.pdTalks n = true) (hams : (d.eng n).ams = .snkRequest c) (hvolt : c.volt = (d.eng n).volt) :
    d.acceptIn n = ((d.pdHeard n).updEng n fun x => { x with ams := .snkTransition c }).endActions n [5] stOk := by
  simp [Dev.acceptIn, htalks, hams, hvolt]

/-- Reject of a Request ends the exchange (R328). -/
theorem rejectIn_request (htalks : d.pdTalks n = true) (hams : (d.eng n).ams = .snkRequest c) :
    d.rejectIn n = ((d.pdHeard n).endActions n [5] stNotPermitted).amsEnd n := by
  simp [Dev.rejectIn, htalks, hams]

/-- Wait on a Request ends the exchange (R328). -/
theorem waitIn_request (htalks : d.pdTalks n = true) (hams : (d.eng n).ams = .snkRequest c) :
    d.waitIn n = (d.pdHeard n).amsEnd n := by
  simp [Dev.waitIn, htalks, hams]

/-- PS_RDY makes the contract (R328). -/
theorem psRdyIn_transition (htalks : d.pdTalks n = true) (hams : (d.eng n).ams = .snkTransition c) :
    d.psRdyIn n = ((d.pdHeard n).makeContract n c).amsDone n := by
  simp [Dev.psRdyIn, htalks, hams]

/-- Without PS_RDY the transition ends in a hard reset (R332). -/
theorem psTransitionTimeout_late (hams : (d.eng n).ams = .snkTransition c) :
    d.psTransitionTimeout n = d.hardResetAct n false := by
  simp only [Dev.psTransitionTimeout, hams]

section IdleSink

variable (htalks : d.pdTalks n = true) (hsink : (d.eng n).source = false) (hidle : (d.eng n).ams = .idle)
include htalks hsink hidle

/-- tSinkRequest after a Wait the Request goes again (R328). -/
theorem sinkRequestAgain_idle : d.sinkRequestAgain n = d.sendRequest n := by
  simp [Dev.sinkRequestAgain, htalks, hsink, hidle]

/-- An idle sink that is asked for a Request sends it at once (R329). -/
theorem askRequest_idle : d.askRequest n = d.sendRequest n := by
  simp [Dev.askRequest, htalks, hsink, hidle]

end IdleSink

end SinkOutcomes

/-- Settles O46: each event of a sink's sequence has its outcome. -/
theorem sinkRows : Obligations.SinkRows := by
  intro n s
  refine ⟨fun rev2 pdos htalks hsink hidle => ?_, fun c htalks hams => ⟨fun hvolt => ?_, ?_, ?_⟩,
    fun c htalks hams => ⟨?_, ?_⟩, fun htalks hsink hidle => ⟨?_, fun hpps => ?_⟩⟩
  · exact sees_of_eq (sourceCapsIn_idle rev2 pdos htalks hsink hidle) rfl
  · exact sees_of_eq (acceptIn_request htalks hams hvolt) rfl
  · exact gives_of_eq (rejectIn_request htalks hams) rfl
  · exact gives_of_eq (waitIn_request htalks hams) rfl
  · exact sees_of_eq (psRdyIn_transition htalks hams) rfl
  · exact sees_of_eq (psTransitionTimeout_late hams) rfl
  · exact gives_of_eq (sinkRequestAgain_idle htalks hsink hidle) rfl
  · exact gives_of_eq ((if_pos hpps).trans (askRequest_idle htalks hsink hidle)) rfl

/-! ## Swaps (R338 to R342) -/

section SwapOutcomes

variable {d : Dev} {n : Nat}

section Asked

variable (htalks : d.pdTalks n = true)
include htalks

/-- An accepted DR_Swap turns the data role (R341). -/
theorem acceptIn_drSwap (hams : (d.eng n).ams = .drSwapSent) : d.acceptIn n = ((d.pdHeard n).drDone n).amsEnd n := by
  simp [Dev.acceptIn, htalks, hams]

/-- An accepted PR_Swap of a source starts its way to sink (R340). -/
theorem acceptIn_prSwap (hams : (d.eng n).ams = .prSwapSent) (hsource : (d.eng n).source = true) :
    d.acceptIn n = (d.pdHeard n).updEng n fun x => { x with ams := .prToSnk } := by
  simp [Dev.acceptIn, htalks, hams, hsource]

/-- PS_RDY of the new source completes the PR_Swap of a new sink (R340). -/
theorem psRdyIn_prSwap (hams : (d.eng n).ams = .prToSnkWait) : d.psRdyIn n = (d.pdHeard n).prDone n false := by
  simp [Dev.psRdyIn, htalks, hams]

/-- A PR_Swap that draws Reject or Not_Supported fails (R340). -/
theorem rejectIn_prSwap (hams : (d.eng n).ams = .prSwapSent) :
    d.rejectIn n = ((d.pdHeard n).swapRefused n true).amsEnd n := by
  simp [Dev.rejectIn, htalks, hams]

/-- A PR_Swap that draws Wait is tried again later (R340). -/
theorem waitIn_prSwap (hams : (d.eng n).ams = .prSwapSent) : d.waitIn n = ((d.pdHeard n).swapWait n true).amsEnd n := by
  simp [Dev.waitIn, htalks, hams]

end Asked

/-- Without PS_RDY of the new source a PR_Swap ends in a hard reset (R332). -/
theorem psSourceTimeout_late (hams : (d.eng n).ams = .prToSnkWait) : d.psSourceTimeout n = d.hardResetAct n false := by
  simp only [Dev.psSourceTimeout, hams]

/-- A swap that drew Wait is asked for again once nothing runs (R340). -/
theorem swapAgain_idle {pr : Bool} (hretry : (d.eng n).retrySwap = some pr) (hallowed : d.swapAllowed n pr = true)
    (hidle : (d.eng n).ams = .idle) : d.swapAgain n = d.askSwap n pr := by
  simp [Dev.swapAgain, hretry, hallowed, hidle]

/-- A swap held back is asked for once nothing runs and the source shows SinkTxOK (R339). -/
theorem heldStart_idle {pr : Bool} {rest : List Bool} (hheld : (d.eng n).heldSwaps = pr :: rest)
    (hidle : (d.eng n).ams = .idle) (hok : (d.eng n).sinkTxOk = true) (htalks : d.pdTalks n = true)
    (hallowed : d.swapAllowed n pr = true) :
    d.heldStart n = (d.updEng n fun x => { x with heldSwaps := rest }).askSwap n pr := by
  simp [Dev.heldStart, hheld, hidle, hok, htalks, hallowed]

section Heard

variable (htalks : d.pdTalks n = true) (hidle : ((d.pdHeard n).eng n).ams = .idle)
include htalks hidle

/-- An idle dual-role source with `PR_ACCEPT` accepts a PR_Swap and starts its way to sink (R338, R340). -/
theorem prSwapIn_accepted (hdual : (d.pdHeard n).pdDual n = true) (hport : n < 32)
    (haccept : (d.pdHeard n).fldBit (aPdCfg n) 10 = true) (hsource : ((d.pdHeard n).eng n).source = true) :
    d.prSwapIn n = ((d.pdHeard n).pdSay n .accept).updEng n fun x => { x with ams := .prToSnk } := by
  simp [Dev.prSwapIn, htalks, hidle, hdual, hport, haccept, hsource]

/-- An idle coupler with `DR_ACCEPT` accepts a DR_Swap (R338, R341). -/
theorem drSwapIn_accepted (haccept : (d.pdHeard n).fldBit (aPdCfg n) 9 = true) (hcoupler : (d.pdHeard n).isCoupler n = true) :
    d.drSwapIn n = (((d.pdHeard n).pdSay n .accept).drDone n).amsEnd n := by
  simp [Dev.drSwapIn, htalks, hidle, haccept, hcoupler]

/-- Without `DR_ACCEPT` a DR_Swap is rejected (R338, R341). -/
theorem drSwapIn_rejected (haccept : (d.pdHeard n).fldBit (aPdCfg n) 9 = false) :
    d.drSwapIn n = (d.pdHeard n).pdSay n .reject := by
  simp [Dev.drSwapIn, htalks, hidle, haccept]

end Heard

/-- A message that is answered with one reply. -/
theorem pdReply_talking (m : PdMsg) (htalks : d.pdTalks n = true) : d.pdReply n m = (d.pdHeard n).pdSay n m := if_pos htalks

end SwapOutcomes

/-- Settles O47: each event of a swap has its outcome in the sequence that awaits it. -/
theorem swapRows : Obligations.SwapRows := by
  intro n s htalks
  refine ⟨fun hams => ?_, fun hams hsource => ?_, fun hams => ⟨?_, ?_⟩, fun hams => ?_, fun hams => ?_,
    fun pr hretry hallowed hidle => ?_, fun hidle hdual hport haccept _ hsource => ?_, fun hidle haccept hcoupler => ?_,
    fun hidle haccept => ?_, fun pr rest hheld hidle hok hallowed => ?_, ?_⟩
  · exact sees_of_eq (acceptIn_drSwap htalks hams) rfl
  · exact sees_of_eq (acceptIn_prSwap htalks hams hsource) rfl
  · exact sees_of_eq (psRdyIn_prSwap htalks hams) rfl
  · exact sees_of_eq (psSourceTimeout_late hams) rfl
  · exact gives_of_eq (rejectIn_prSwap htalks hams) rfl
  · exact gives_of_eq (waitIn_prSwap htalks hams) rfl
  · exact gives_of_eq (swapAgain_idle hretry hallowed hidle) rfl
  · exact sees_of_eq (prSwapIn_accepted htalks hidle hdual hport haccept hsource) rfl
  · exact sees_of_eq (drSwapIn_accepted htalks hidle haccept hcoupler) rfl
  · exact sees_of_eq (drSwapIn_rejected htalks hidle haccept) rfl
  · exact sees_of_eq (heldStart_idle hheld hidle hok htalks hallowed) rfl
  · exact gives_of_eq (pdReply_talking .reject htalks) rfl

end Sys2Proof.Machine

/-! # PD: resets, error recovery and the partner's questions

How a reset that is received, sent or escalated to acts on an engine, how a source brings VBUS back, and what answers each question
of the partner. -/

namespace Sys2Proof.Machine

open Sys2Proof

section ResetOutcomes

variable {d : Dev} {n : Nat} {c : Contract}

/-- A Soft_Reset is accepted: swaps are dropped, and what runs ends (R331). -/
theorem softResetIn_talking (htalks : d.pdTalks n = true) :
    d.softResetIn n = (((((d.pdHeard n).dropSwaps n stTimeout).pdSay n .accept).updEng n fun e =>
      { e with sendCaps := e.sendCaps || e.source }).pdEvt n evSoftReset).amsEnd n := by
  simp [Dev.softResetIn, htalks]

/-- A Request that is not answered escalates to a soft reset (R332). -/
theorem senderTimeout_request (htalks : d.pdTalks n = true) (hams : (d.eng n).ams = .snkRequest c) :
    d.senderTimeout n = (d.endActions n [5] stTimeout).softResetAct n := by
  simp [Dev.senderTimeout, htalks, hams]

/-- A soft reset that is not answered escalates to a hard reset; whether its message drew GoodCRC is open (R332). -/
theorem senderTimeout_softReset (htalks : d.pdTalks n = true) (hams : (d.eng n).ams = .softReset) :
    d.senderTimeout n =
      (d.freeBit.2.endActions n [2] (if d.freeBit.1 then stOk else stTimeout)).hardResetAct n false := by
  simp [Dev.senderTimeout, htalks, hams]

/-- After tPSHardReset the source removes VBUS (R333). -/
theorem psHardResetEnd_start (hams : (d.eng n).ams = .hardSrcStart) :
    d.psHardResetEnd n = (d.gateOff n).updEng n fun e => { e with ams := .hardSrcRecover } := if_pos hams

/-- After tSrcRecover the source restores VBUS, and VCONN where it sees Ra (R322, R333). -/
theorem srcRecoverEnd_recovering (hams : (d.eng n).ams = .hardSrcRecover) (hport : n < 32) :
    d.srcRecoverEnd n = (d.gateOn n).updEng n fun e =>
      { e with
        ams := .hardSrcPower, vconn := d.seesRa n, discDone := e.discDone || !d.seesRa n
        discTries := if e.discDone then e.discTries else 0 } := by
  simp [Dev.srcRecoverEnd, hams, hport]

/-- The end of ERROR_RECOVERY lets the engine present its CC again (R332). -/
theorem errorRecoveryEnd_recovering (htc : (d.eng n).tc = .errorRecovery) :
    d.errorRecoveryEnd n = (d.updEng n fun e => { e with erTimer := false }).pdRelease n := if_pos htc

end ResetOutcomes

/-- The rows of the resets. -/
theorem pdResetRows : Rows.PdResetRows := by
  intro n s
  refine ⟨fun htalks => ⟨?_, ?_, fun c hams => ?_, fun hams => ?_, fun hsource hpps => ?_⟩, fun hams => ?_,
    fun hams hport => ?_, fun htc => ?_⟩
  · exact sees_of_eq (softResetIn_talking htalks) rfl
  · exact sees_of_eq (if_pos htalks) rfl
  · exact sees_of_eq (senderTimeout_request htalks hams) rfl
  · exact sees_of_eq (senderTimeout_softReset htalks hams) rfl
  · exact sees_of_eq (if_pos (by simp only [htalks, hsource, hpps, Bool.and_self])) rfl
  · exact sees_of_eq (psHardResetEnd_start hams) rfl
  · exact gives_of_eq (srcRecoverEnd_recovering hams hport) rfl
  · exact gives_of_eq (errorRecoveryEnd_recovering htc) rfl

/-! ## Questions of the partner (R324, R345 to R347) -/

section Questions

variable {d : Dev} {n : Nat} {m : PdMsg}

section Answers

variable (htalks : d.pdTalks n = true)
include htalks

/-- A message that is not supported is answered so, and noted (R324). -/
theorem notSupported_talking : d.notSupported n = ((d.pdHeard n).pdSay n .notSupported).pdEvt n evNotSupported := by
  rw [Dev.notSupported, if_pos htalks, pdReply_talking _ htalks]

/-- A source answers what only a source answers. -/
theorem sourceAnswers_source (hsource : (d.eng n).source = true) : d.sourceAnswers n m = (d.pdHeard n).pdSay n m :=
  (if_pos hsource).trans (pdReply_talking m htalks)

/-- A sink does not. -/
theorem sourceAnswers_sink (hsink : (d.eng n).source = false) :
    d.sourceAnswers n m = ((d.pdHeard n).pdSay n .notSupported).pdEvt n evNotSupported := by
  rw [Dev.sourceAnswers, hsink, if_neg Bool.false_ne_true, notSupported_talking htalks]

/-- A sink answers Get_Sink_Cap with its objects. -/
theorem getSinkCapIn_sink (hsink : (d.eng n).source = false) :
    d.getSinkCapIn n = (d.pdHeard n).pdSay n (.sinkCapabilities (d.snkPdos n)) := by
  rw [Dev.getSinkCapIn, hsink, Bool.not_false, Bool.true_or, if_pos rfl, pdReply_talking _ htalks]

/-- A source of one role does not support Get_Sink_Cap. -/
theorem getSinkCapIn_source (hsource : (d.eng n).source = true) (hdual : d.pdDual n = false) :
    d.getSinkCapIn n = ((d.pdHeard n).pdSay n .notSupported).pdEvt n evNotSupported := by
  rw [Dev.getSinkCapIn, hsource, hdual, Bool.not_true, Bool.or_self, if_neg Bool.false_ne_true, notSupported_talking htalks]

/-- Sink_Capabilities that were asked for are kept in the registers of the partner's objects (R345). -/
theorem sinkCapsIn_asked (pdos : List W32) (hams : (d.eng n).ams = .getSnkCap) :
    d.sinkCapsIn n pdos = ((forN 7 (fun k a => a.setReg (aPartnerPdo n k) (pdos.getD k 0)) (d.pdHeard n)).endActions n [6]
      stOk).amsEnd n := by
  simp [Dev.sinkCapsIn, htalks, hams]

/-- BIST is honoured at 5 V (R347). -/
theorem bistIn_fiveVolt (carrier : Bool) (hvolt : (d.eng n).volt = fiveVolt) : d.bistIn n carrier =
    if carrier then (d.pdHeard n).pdSay n .bistCarrier else d.updEng n fun e => { e with ams := .bist } := by
  simp [Dev.bistIn, htalks, hvolt, pdReply_talking]

end Answers

end Questions

/-- The rows of the questions. -/
theorem questionRows : Rows.QuestionRows := by
  intro n s htalks say no
  refine ⟨fun hsink => ?_, fun hsource hdual => ?_, fun pdos hams => ?_, ?_,
    fun hsource => ⟨?_, ?_, fun hpps => ?_⟩, fun hsink => ⟨?_, ?_⟩, fun hpps => ?_, ?_, ?_, fun hvolt => ⟨?_, ?_⟩, ?_⟩
  · exact gives_of_eq (getSinkCapIn_sink htalks hsink) rfl
  · exact gives_of_eq (getSinkCapIn_source htalks hsource hdual) rfl
  · exact gives_of_eq (sinkCapsIn_asked htalks pdos hams) rfl
  · exact gives_of_eq (if_pos htalks) rfl
  · exact gives_of_eq (sourceAnswers_source htalks hsource) rfl
  · exact gives_of_eq (sourceAnswers_source htalks hsource) rfl
  · exact gives_of_eq ((if_pos hpps).trans (sourceAnswers_source htalks hsource)) rfl
  · exact gives_of_eq (sourceAnswers_sink htalks hsink) rfl
  · exact gives_of_eq (sourceAnswers_sink htalks hsink) rfl
  · exact gives_of_eq ((if_neg (ne_true_of_eq_false hpps)).trans (notSupported_talking htalks)) rfl
  · exact gives_of_eq (pdReply_talking _ htalks) rfl
  · exact gives_of_eq (pdReply_talking _ htalks) rfl
  · exact gives_of_eq (bistIn_fiveVolt htalks true hvolt) rfl
  · exact gives_of_eq (bistIn_fiveVolt htalks false hvolt) rfl
  · exact gives_of_eq (notSupported_talking htalks) rfl

/-- Settles O48: each reset escalates and ends as R331 to R333 say, and each question has its answer. -/
theorem pdResetsAndQuestions : Obligations.PdResetsAndQuestions := ⟨pdResetRows, questionRows⟩

end Sys2Proof.Machine

/-! # The port supply bus and the input supply

How a transaction on the bus succeeds, is repeated and fails (R334 to R336), and what a change of the input supply and the end of an
Alert's hold bring (R344, R369). -/

namespace Sys2Proof.Machine

open Sys2Proof

section SupplyBus

variable {d : Dev} {t : PsbTx}

/-- A voltage command that no transition awaits is noted (R335). -/
theorem psbOk_vout {w : Nat} (v : BitVec 16) (a : BitVec 7) (hcmd : t.cmd = .vout w) (hidle : (d.eng t.port).ams = .idle) :
    d.psbOk t v a = { d with psb := { d.psb with commanded := put zeroDflt d.psb.commanded t.port w } } := by
  have hams : (({ d with psb := { d.psb with commanded := put zeroDflt d.psb.commanded t.port w } } : Dev).eng t.port).ams =
    .idle := hidle
  simp only [Dev.psbOk, hcmd, hams]

/-- A completed transaction frees the bus for the next. -/
theorem psbDone_done (v : BitVec 16) (a : BitVec 7) (hcurrent : d.psb.current = some t) :
    d.psbDone true v a = (d.psbOk t v a).psbNext := by
  simp only [Dev.psbDone, hcurrent, if_true]

/-- A transaction that fails on the bus. -/
theorem psbDone_failed (v : BitVec 16) (a : BitVec 7) (hcurrent : d.psb.current = some t) :
    d.psbDone false v a = d.psbFail t := by
  simp only [Dev.psbDone, hcurrent, Bool.false_eq_true, if_false]

/-- A transaction that has failed less than three times is repeated (R334). -/
theorem psbFail_repeats (hleft : d.psb.failures < 2) :
    d.psbFail t = { d with psb := { d.psb with failures := d.psb.failures + 1 } } := if_pos hleft

/-- The third failure of a read of the alert address is told, and the bus goes on (R334). -/
theorem psbFail_readAlert (hspent : 2 ≤ d.psb.failures) (hcmd : t.cmd = .readAlert) (htransition : t.transition = false) :
    d.psbFail t = (d.psbNext.pdTell t.port evPsbNoack).pdFault t.port 9 := by
  simp [Dev.psbFail, Nat.not_lt.2 hspent, hcmd, htransition]

/-- PSB_TRANSACTION_TIMEOUT is a failure of the transaction on the bus. -/
theorem sees_psbTransactionTimeout {s : State} (hcurrent : s.dev.psb.current = some t) :
    Safety.sees .psbTransactionTimeout s (s.dev.psbFail t) := by
  have hrow : exec .psbTransactionTimeout s = execPsbTransactionTimeout s := rfl
  rw [Safety.sees, hrow, execPsbTransactionTimeout, hcurrent]
  rfl

end SupplyBus

/-- The rows of the bus. -/
theorem supplyBusRows : Rows.SupplyBusRows := by
  intro t s
  refine ⟨fun v a w hcurrent hcmd hidle => ?_, fun v a hcurrent hleft => ⟨?_, ?_⟩,
    fun hcurrent hspent hcmd htransition => ?_, rfl⟩
  · exact sees_of_eq ((psbDone_done v a hcurrent).trans (congrArg Dev.psbNext (psbOk_vout v a hcmd hidle))) rfl
  · exact sees_of_eq ((psbDone_failed v a hcurrent).trans (psbFail_repeats hleft)) rfl
  · exact sees_of_eq (psbFail_repeats hleft) (sees_psbTransactionTimeout hcurrent)
  · exact sees_of_eq (psbFail_readAlert hspent hcmd htransition) (sees_psbTransactionTimeout hcurrent)

section AlertHold

variable {d : Dev} {n : Nat}

/-- After the hold another Alert goes out at once where the state has changed meanwhile and nothing runs (R344). -/
theorem alertHoldEnd_again (hagain : (d.eng n).alertAgain = true) (htalks : d.pdTalks n = true)
    (hsource : (d.eng n).source = true) (hcontract : (d.eng n).contract ≠ none) (hidle : (d.eng n).ams = .idle) :
    d.alertHoldEnd n = (d.updEng n fun x => { x with alertHold := false, alertAgain := false }).sendAlert n := by
  have hsome : (d.eng n).contract.isSome = true := Option.isSome_iff_ne_none.2 hcontract
  simp [Dev.alertHoldEnd, hagain, htalks, hsource, hsome, hidle]

/-- Else the hold just ends (R344). -/
theorem alertHoldEnd_quiet (hquiet : (d.eng n).alertAgain = false) :
    d.alertHoldEnd n = d.updEng n fun x => { x with alertHold := false, alertAgain := false } := by
  simp [Dev.alertHoldEnd, hquiet]

end AlertHold

/-- The rows of the input supply: VIN_MON_FALL and VIN_MON_RISE act on a change only. -/
theorem inputSupplyRows : Rows.InputSupplyRows := by
  intro n s
  refine ⟨fun hgood => ?_, fun hlow => ?_, fun hagain htalks hsource hcontract hidle => ?_, fun hquiet => ?_⟩
  · exact sees_of_eq (if_neg (ne_true_of_eq_false hgood)) rfl
  · exact gives_of_eq (if_pos hlow) rfl
  · exact gives_of_eq (alertHoldEnd_again hagain htalks hsource hcontract hidle) rfl
  · exact gives_of_eq (alertHoldEnd_quiet hquiet) rfl

/-- Settles O49: the bus repeats what fails and tells the third failure, and a change of the input supply is told on every way. -/
theorem supplies : Obligations.Supplies := ⟨supplyBusRows, inputSupplyRows⟩

end Sys2Proof.Machine

/-! # The fuses

A trip turns the gate off and leaves the port latched or in backoff (R356, R361 to R363); its line and its event are heard by the
collector (R377, R378); a backoff ends, and power good and VBUS are followed (R357, R363 to R368). -/

namespace Sys2Proof.Machine

open Sys2Proof

/-! ## Trips (R356, R361 to R363) -/

/-- The device after a trip of a fuse that held nothing: its port is off in `st`, for `ms` milliseconds. -/
def Dev.tripped (d : Dev) (n cause : Nat) (peak : BitVec 12) (vbus : BitVec 11) (ms : Nat) (st : FuseState) : Dev :=
  ((((d.updFuse n fun x => { x with
    state := st, gate := false, pg := false, limiting := false, pps := none, dsch := true, consec := (d.fuse n).consec + 1
    lastCause := cause, tripLine := true, backoffMs := ms, backoffDone := false, atZero := false
    trip := some ⟨cause, peak, vbus⟩ }).flag (aEfuseEvent n) cause).count (selector 0x26 (cause - 1) n)).hubOver n
      true).enterErrorRecovery n

section Trips

variable {d : Dev} {n : Nat} {peak : BitVec 12} {vbus : BitVec 11}

/-- Where retries are off, a trip latches the port (R363). -/
theorem trip_latched (cause : Nat) (hheld : (d.fuse n).state ≠ .held) (hsink : (d.fuse n).state ≠ .sink)
    (hretry : (d.reg (aEfuseCfg n)).getLsbD 7 = false) :
    d.trip n cause peak vbus = d.tripped n cause peak vbus 0 .latched := by
  have hoff : d.fldBit (aEfuseCfg n) 7 = false := hretry
  simp [Dev.trip, Dev.tripped, hheld, hsink, hoff]

/-- Where they are on and not bounded, it puts the port in backoff, for a time that doubles (R363). -/
theorem trip_backoff (cause : Nat) (hheld : (d.fuse n).state ≠ .held) (hsink : (d.fuse n).state ≠ .sink)
    (hretry : (d.reg (aEfuseCfg n)).getLsbD 7 = true) (htries : d.fld (aEfuseRetry n) 16 4 = 0) :
    d.trip n cause peak vbus =
      d.tripped n cause peak vbus (d.backoffTime n ((d.fuse n).consec + 1)) .backoff := by
  have hon : d.fldBit (aEfuseCfg n) 7 = true := hretry
  simp [Dev.trip, Dev.tripped, hheld, hsink, hon, htries]

end Trips

section TripCommands

variable {s : State} {n : Fin 32} {peak : BitVec 12} {vbus : BitVec 11}

/-- FAST_TRIP trips a fuse whose gate is on (R361). -/
theorem sees_fastTrip (hgate : (s.dev.fuse n.val).gate = true) :
    Safety.sees (.fastTrip n peak vbus) s (s.dev.trip n.val 1 peak vbus) := sees_of_eq (if_pos hgate) rfl

/-- INRUSH_EXPIRY trips a fuse in INRUSH (R356). -/
theorem sees_inrushExpiry (hstate : (s.dev.fuse n.val).state = .inrush) :
    Safety.sees (.inrushExpiry n peak vbus) s (s.dev.trip n.val 2 peak vbus) := sees_of_eq (if_pos hstate) rfl

/-- LIMIT_TIME_EXPIRY trips a fuse that is ON (R362). -/
theorem sees_limitTimeExpiry (hstate : (s.dev.fuse n.val).state = .on) :
    Safety.sees (.limitTimeExpiry n peak vbus) s (s.dev.trip n.val 3 peak vbus) :=
  sees_of_eq (if_pos (by simp [hstate])) rfl

end TripCommands

/-- The rows of the trips: a fuse that is ON or in INRUSH is neither held nor a sink's. -/
theorem tripRows : Rows.TripRows := by
  intro n peak vbus s after k
  have off : ∀ {st : FuseState}, (s.dev.fuse n.val).state = st → st = .on ∨ st = .inrush →
      (s.dev.fuse n.val).state ≠ .held ∧ (s.dev.fuse n.val).state ≠ .sink := by
    rintro st rfl (h | h) <;> simp [h]
  refine ⟨fun hretry => ⟨fun hon hgate => ?_, fun hinrush => ?_, fun hon => ?_⟩,
    fun hretry htries => ⟨fun hon hgate => ?_, fun hinrush => ?_, fun hon => ?_⟩⟩
  · obtain ⟨hheld, hsink⟩ := off hon (.inl rfl)
    exact sees_of_eq (trip_latched 1 hheld hsink hretry) (sees_fastTrip hgate)
  · obtain ⟨hheld, hsink⟩ := off hinrush (.inr rfl)
    exact sees_of_eq (trip_latched 2 hheld hsink hretry) (sees_inrushExpiry hinrush)
  · obtain ⟨hheld, hsink⟩ := off hon (.inl rfl)
    exact sees_of_eq (trip_latched 3 hheld hsink hretry) (sees_limitTimeExpiry hon)
  · obtain ⟨hheld, hsink⟩ := off hon (.inl rfl)
    exact sees_of_eq (trip_backoff 1 hheld hsink hretry htries) (sees_fastTrip hgate)
  · obtain ⟨hheld, hsink⟩ := off hinrush (.inr rfl)
    exact sees_of_eq (trip_backoff 2 hheld hsink hretry htries) (sees_inrushExpiry hinrush)
  · obtain ⟨hheld, hsink⟩ := off hon (.inl rfl)
    exact sees_of_eq (trip_backoff 3 hheld hsink hretry htries) (sees_limitTimeExpiry hon)

/-! ## How a trip is heard (R377, R378) -/

section TripReports

variable {d : Dev}

/-- The event of a trip that is pending names its cause, and asserts that source. -/
theorem tripEvent_pending {n : Nat} {t : TripInfo} (htrip : (d.fuse n).trip = some t) (hlink : (d.die (n / 8)).linkUp = true)
    (hpending : (d.fuse n).pendingTrip = true) : d.tripEvent n =
      (d.updFuse n fun y => { y with trip := none, pendingTrip := false }).assert (srcPort n (t.cause - 1)) t.context := by
  simp [Dev.tripEvent, htrip, hlink, hpending]

section Heard

variable {x : Nat} (hlink : (d.die x).linkUp = true) (hpower : (d.die x).powered = true) (hfound : (d.die x).lost = false)
include hlink hpower hfound

/-- A die that is heard and too hot asserts PRESS_TEMP. -/
theorem pressEvt_temp : d.pressEvt x .temp =
    (d.setSrc (srcPress x 2) { d.src (srcPress x 2) with cause := true }).assert (srcPress x 2) 0 := by
  simp [Dev.pressEvt, hlink, hpower, hfound]

/-- One whose calibration fails asserts PRESS_CAL. -/
theorem pressEvt_cal : d.pressEvt x .cal = d.assert (srcPress x 3) 0 := by
  simp [Dev.pressEvt, hlink, hpower, hfound]

end Heard

end TripReports

/-- The rows of the reports. -/
theorem tripReportRows : Rows.TripReportRows := by
  intro n x s
  refine ⟨fun hline htrip hlink hfound hlife => ?_, fun t htrip hlink hpending => ?_, fun hpending => ?_,
    fun hlink hpower hfound => ⟨?_, ?_⟩⟩
  · have hsome : (s.dev.fuse n.val).trip.isSome = true := Option.isSome_iff_ne_none.2 htrip
    have hhears : s.dev.hearsTrips (n.val / 8) = true := by simp [Dev.hearsTrips, hlink, hfound, hlife]
    exact gives_of_eq (if_pos (by simp only [hline, hsome, hhears, Bool.and_self])) rfl
  · exact sees_of_eq (tripEvent_pending htrip hlink hpending) rfl
  · exact sees_of_eq (if_pos hpending) rfl
  · exact sees_of_eq (pressEvt_temp hlink hpower hfound) rfl
  · exact sees_of_eq (pressEvt_cal hlink hpower hfound) rfl

/-! ## Retries and power good (R357, R363 to R368) -/

section PowerGood

variable {d : Dev} {n : Nat}

/-- Updates that agree on the fuse are the same. -/
theorem updFuse_congr {f g : Fuse → Fuse} (h : f (d.fuse n) = g (d.fuse n)) : d.updFuse n f = d.updFuse n g :=
  congrArg (d.setFuse n) h

/-- The backoff's time has passed. -/
theorem updFuse_backoffDone (hstate : (d.fuse n).state = .backoff) :
    (d.updFuse n fun x => if x.state = .backoff then { x with backoffDone := true } else x) =
      d.updFuse n fun x => { x with backoffDone := true } := updFuse_congr (if_pos hstate)

/-- A backoff whose time has passed, with VBUS at vSafe0V, ends: the port starts again, unless
something else keeps it off (R365). -/
theorem backoffEnd_over (hstate : (d.fuse n).state = .backoff) (hdone : (d.fuse n).backoffDone = true)
    (hzero : (d.fuse n).atZero = true) :
    let e := (d.updFuse n fun x => { x with state := .off, tripLine := false }).hubOver n false
    d.backoffEnd n = if 2 ≤ e.portLevel n ∨ e.mayPresent n = false then e
      else ((e.flag (aEfuseEvent n) 0).count (selector 0x26 3 n)).pdRelease n := by
  intro e
  have hover : ((d.fuse n).state = .backoff && (d.fuse n).backoffDone && (d.fuse n).atZero) = true := by
    simp [hstate, hdone, hzero]
  refine (if_pos hover).trans ?_
  simp only [Bool.or_eq_true, decide_eq_true_eq, Bool.not_eq_true', e]

/-- Power good turns INRUSH into ON (R357). -/
theorem powerGood_inrush (hstate : (d.fuse n).state = .inrush) : d.powerGood n =
    (d.updFuse n fun x => { x with state := if x.state = .inrush then .on else x.state, pg := true, limiting := false }).pdPowerGood
      n := if_pos (by simp [hstate])

/-- Power good that is lost outside a transition is flagged and asserted (R366). -/
theorem pgLost_idle (vbus : BitVec 11) (hpg : (d.fuse n).pg = true) (hidle : (d.eng n).ams = .idle) : d.pgLost n vbus =
    ((d.updFuse n fun x => { x with pg := false }).flag (aEfuseEvent n) 4).assert (srcPort n 3) (at_ vbus.toNat 0) := by
  have hquiet : d.voutRuns n = false := by simp only [Dev.voutRuns, hidle]
  simp [Dev.pgLost, hpg, hquiet]

/-- Within a transition of the voltage it is not (R366). -/
theorem pgLost_transition {c : Contract} (vbus : BitVec 11) (hams : (d.eng n).ams = .srcVout c) : d.pgLost n vbus = d := by
  have hruns : d.voutRuns n = true := by simp only [Dev.voutRuns, hams]
  simp [Dev.pgLost, hruns]

/-- A discharge that is late is flagged and asserted, and Rp waits for vSafe0V (R368). -/
theorem dschLate_discharging (vbus : BitVec 11) (hdsch : (d.fuse n).dsch = true) (hgate : (d.fuse n).gate = false) :
    d.dschLate n vbus = ((d.flag (aEfuseEvent n) 5).zeroWait n).assert (srcPort n 4) (at_ vbus.toNat 0) := by
  simp [Dev.dschLate, hdsch, hgate]

end PowerGood

/-- The rows of retries and power good. -/
theorem fuseRows : Rows.FuseRows := by
  intro n v s
  refine ⟨fun hstate => ?_, fun d hstate hdone hzero => backoffEnd_over hstate hdone hzero, fun hreset => ?_, fun hstate => ?_,
    fun hpg hidle => ?_, fun c hams => ?_, fun hgate => ?_, fun hdsch hgate => ?_⟩
  · exact gives_of_eq (congrArg (Dev.backoffEnd · n.val) (updFuse_backoffDone hstate)) rfl
  · exact gives_of_eq (if_pos (by simpa using hreset)) rfl
  · exact gives_of_eq (powerGood_inrush hstate) rfl
  · exact sees_of_eq (pgLost_idle v hpg hidle) rfl
  · exact sees_of_eq (pgLost_transition v hams) rfl
  · exact gives_of_eq (if_neg (ne_true_of_eq_false hgate)) rfl
  · exact sees_of_eq (dschLate_discharging v hdsch hgate) rfl

/-- Settles O51: trips, how they are heard, and how a port comes back. -/
theorem fuses : Obligations.Fuses := ⟨tripRows, tripReportRows, fuseRows⟩

end Sys2Proof.Machine

/-! # The fault collector

What asserts a source and what it leaves alone (R376 to R378, R380, R384, R389, R391), and the count of its window (R379). -/

namespace Sys2Proof.Machine

open Sys2Proof

/-! ## The collector's rows -/

section Rows

variable {d : Dev} {i : Nat}

/-- A line fault that is heard, on a source of its own, asserts it with bit 31. -/
theorem lineFault_heard (hup : d.up = true) (hself : lineSource i = i) (hline : (d.src i).line = false)
    (hheard : d.deafTo i = false) : d.lineFault i = d.assert i 0x80000000 false true := by
  have hbit : at_ 1 31 = 0x80000000#32 := by decide
  simp [Dev.lineFault, hself, hup, hline, hheard, hbit]

/-- A pair that stays Invalid counts once. -/
theorem lineFault_again (hself : lineSource i = i) (hline : (d.src i).line = true) : d.lineFault i = d := by
  simp [Dev.lineFault, hself, hline]

/-- A source that stays asserted counts once. -/
theorem sourceAssert_again (w : W32) (hstays : d.staysAsserted i = true) : d.sourceAssert i w = d := by
  simp [Dev.sourceAssert, hstays]

/-- A source that is heard asserts with its context. -/
theorem sourceAssert_heard (w : W32) (hup : d.up = true) (hused : srcUsed i = true) (hheard : d.deafTo i = false)
    (hnew : d.staysAsserted i = false) : d.sourceAssert i w = (d.setSrc i { d.src i with cause := true }).assert i w := by
  simp [Dev.sourceAssert, hup, hused, hheard, hnew]

/-- The copy of the Watermark that no FAULT_EVENT awaits (R391). -/
theorem watermarkCopy_quiet (hcopying : d.fc.copying = true) (hevent : d.fc.event = none) :
    let e := d.u0Off.quireAck.copyRecord
    d.watermarkCopy = { e with fc := { e.fc with copying := false, event := none } } := by
  simp [Dev.watermarkCopy, hcopying, hevent]

/-- A cause that ends, of a source that is no port supply's alert. -/
theorem causeEnds_present (hother : ∀ x k, srcKind i = some (2, x, k) → k ≠ 10) :
    d.causeEnds i = d.setSrc i { d.src i with cause := false, line := false } := by
  unfold Dev.causeEnds
  split
  case h_1 x hkind => exact absurd rfl (hother x 10 hkind)
  case h_2 => rfl

end Rows

/-- The rows of the collector. -/
theorem collectorRows : Rows.CollectorRows := by
  intro s hup
  refine ⟨fun i hself hline hheard => ?_, fun i hself hline => ?_, fun i w hstays => ?_, fun i w hused hheard hnew => ?_, ?_,
    fun hcopying hevent => ?_, fun i hother => ?_⟩
  · exact sees_of_eq (lineFault_heard hup hself hline hheard) rfl
  · exact sees_of_eq (lineFault_again hself hline) rfl
  · exact sees_of_eq (sourceAssert_again w hstays) rfl
  · exact sees_of_eq (sourceAssert_heard w hup hused hheard hnew) rfl
  · exact sees_of_eq (if_pos hup) rfl
  · exact gives_of_eq (watermarkCopy_quiet hcopying hevent) rfl
  · exact gives_of_eq (causeEnds_present hother) rfl

/-! ## What an assertion leaves alone (R380, R389) -/

section Frame

variable {d : Dev} {i lvl : Nat} (w : W32) (f l : Bool)

/-- A source that no row uses asserts nothing. -/
theorem assert_unused (hunused : srcUsed i = false) : d.assert i w f l = d := if_pos (by simp [hunused])

/-- Nor does any while the collector is stopped. -/
theorem assert_stopped (hdown : d.up = false) : d.assert i w f l = d := if_pos (by simp [hdown])

/-- The Watermark keeps its first record, and counts what comes after it. -/
theorem latchWatermark_valid (hvalid : d.watermark.valid = true) (hlevel : d.fld aFcCfg 0 3 ≤ lvl) :
    d.latchWatermark i lvl w f l =
      { d with watermark := { d.watermark with overflow := true, count := min 65535 (d.watermark.count + 1) } } := by
  rw [Dev.latchWatermark, if_neg (Nat.not_lt.2 hlevel), if_pos hvalid, satAdd]

/-- What is below the level of FC_CFG does not reach it. -/
theorem latchWatermark_below (hlevel : lvl < d.fld aFcCfg 0 3) : d.latchWatermark i lvl w f l = d := if_pos hlevel

end Frame

/-- What an assertion leaves alone. -/
theorem assertionFrame : Rows.AssertionFrame := fun _ _ w f l =>
  ⟨assert_unused w f l, assert_stopped w f l, fun _ hvalid hlevel => latchWatermark_valid w f l hvalid hlevel,
    fun _ hlevel => latchWatermark_below w f l hlevel⟩

/-! ## The counting window (R379) -/

section Window

variable {cfg : W32} {now c ws : Nat}

/-- An assertion within the window counts one more, up to 255. -/
theorem countWindow_within (hc : c ≤ 255) (hrunning : c ≠ 0) (hwithin : now - ws < bits cfg 0 16) :
    (countWindow cfg now c ws).1 = min 255 (c + 1) ∧ (countWindow cfg now c ws).2.1 = ws := by
  have hopen : ¬(c = 0 ∨ bits cfg 0 16 ≤ now - ws) := by omega
  refine ⟨?_, by simp only [countWindow, if_neg hopen]⟩
  simp only [countWindow, if_neg hopen]
  split <;> omega

/-- One after it starts a window. -/
theorem countWindow_starts (hover : c = 0 ∨ bits cfg 0 16 ≤ now - ws) :
    (countWindow cfg now c ws).1 = 1 ∧ (countWindow cfg now c ws).2.1 = now := by
  simp only [countWindow, if_pos hover, and_self]

end Window

/-- The window of R379. -/
theorem countingWindow : Rows.CountingWindow := fun _ _ _ _ _ hc =>
  ⟨fun hrunning hwithin => countWindow_within hc hrunning hwithin, countWindow_starts, rfl⟩

/-- Settles O52: what asserts a source, what it counts, and what it leaves alone. -/
theorem collector : Obligations.Collector := ⟨collectorRows, assertionFrame, countingWindow⟩

end Sys2Proof.Machine

/-! # FAULT_READ, FAULT_CLEAR and FAULT_FORCE

What a request of an opcode's row answers in its turn, and the three Fault opcodes (R385, R387, R388, R435). -/

namespace Sys2Proof.Machine

open Sys2Proof

section OpcodeRows

variable {i : Instr} {s : State} {k : ReqKey} {rq : Request} {o : Nat} {mine : List Byte → Bool} {run : Request → Dev → Dev}
  {e : Dev}

/-- The row of an opcode, in the request's turn, does what it runs. -/
theorem gives_opcode (hrow : exec i s = s.next (s.dev.opcodeRow k o mine run)) (hturn : Safety.turn s.dev k rq o)
    (hmine : mine rq.params = true) (hrun : run rq s.dev = e) : Safety.gives i s e := by
  rw [Safety.gives, hrow, opcodeRow_runs hturn hmine, hrun, State.next_eq]

/-- Likewise where R18 is judged anew. -/
theorem sees_opcode (hrow : exec i s = s.seen (s.dev.opcodeRow k o mine run)) (hturn : Safety.turn s.dev k rq o)
    (hmine : mine rq.params = true) (hrun : run rq s.dev = e) : Safety.sees i s e := by
  rw [Safety.sees, hrow, opcodeRow_runs hturn hmine, hrun]
  rfl

end OpcodeRows

section Fields

variable {p l : List Byte} {i : Nat}

/-- The 16-bit field that heads a list. -/
theorem leAt_head (hi : i < 65536) (hp : p = leBytes 2 i ++ l) : leAt p 0 2 = i := leAt_layout [] l hp rfl hi

/-- The bytes that follow it. -/
theorem leAt_next (n : Nat) (hp : p = leBytes 2 i ++ l) : leAt p 2 n = leNat (l.take n) := by
  rw [leAt, hp, List.drop_left' (length_leBytes 2 i)]

end Fields

section FaultOpcodes

variable {k : ReqKey} {rq : Request} {s : State} {i : Nat}

/-- FAULT_CLEAR of all sources answers how many refused. -/
theorem gives_faultClearAll (hturn : Safety.turn s.dev k rq 0x0602) (hp : rq.params = leBytes 2 i ++ [1, 0]) :
    Safety.gives (.faultClearAll k) s
      (s.dev.clearAll.2.answer k (if s.dev.clearAll.1 = 0 then stOk else stCausePresent) (refusedBytes s.dev.clearAll.1)) := by
  have hflags : clearFlags rq.params = 1 := leAt_next 2 hp
  exact gives_opcode rfl hturn (by simp [hflags]) rfl

/-- FAULT_CLEAR of the Watermark. -/
theorem gives_faultClearWatermark (hturn : Safety.turn s.dev k rq 0x0602)
    (hp : rq.params = [0, 0, 2, 0]) :
    Safety.gives (.faultClearWatermark k) s (s.dev.clearWatermark.okWith rq (refusedBytes 0)) := by
  have hflags : clearFlags rq.params = 2 := leAt_next (i := 0) 2 hp
  exact gives_opcode rfl hturn (by simp [hflags]) rfl

section OneSource

variable (hi : i < 512)
include hi

/-- FAULT_READ answers the status block and the words of each source. -/
theorem gives_faultRead {n : Nat} (hturn : Safety.turn s.dev k rq 0x0601) (hn : i + n ≤ 512)
    (hp : rq.params = leBytes 2 i ++ leBytes 2 n) : Safety.gives (.faultRead k) s (s.dev.okWith rq
      (wordBytes s.dev.fcStatus ++ zeros 4 ++ (List.range n).flatMap fun j => wordBytes (s.dev.srcStat (i + j)) ++ wordBytes (s.dev.reg (aSrcCfg (i + j))))) := by
  have hfirst : leAt rq.params 0 2 = i := leAt_head (by omega) hp
  have hcount : leAt rq.params 2 2 = n := by
    rw [leAt_next 2 hp, List.take_of_length_le (by simp), leNat_leBytes (by omega)]
  exact gives_opcode rfl hturn rfl (by simp only [hfirst, hcount])

/-- FAULT_CLEAR of one source below SV's level clears it, unless its cause is present. -/
theorem gives_faultClear (hturn : Safety.turn s.dev k rq 0x0602) (hp : rq.params = leBytes 2 i ++ [0, 0])
    (hlevel : (s.dev.src i).level ≠ 4) : Safety.gives (.faultClear k) s
      (let r := s.dev.clearSource i
       if r.1 then r.2.answer k stCausePresent (refusedBytes 1) else r.2.okWith rq (refusedBytes 0)) := by
  have hfirst : leAt rq.params 0 2 = i := leAt_head (by omega) hp
  have hflags : clearFlags rq.params = 0 := leAt_next 2 hp
  exact gives_opcode rfl hturn (by simp [hflags]) (by simp only [hfirst, if_neg hlevel])

/-- One at the level of CHIP_SAFE may not be cleared. -/
theorem gives_faultClear_refused (hturn : Safety.turn s.dev k rq 0x0602) (hp : rq.params = leBytes 2 i ++ [0, 0])
    (hlevel : (s.dev.src i).level = 4) : Safety.gives (.faultClear k) s (s.dev.fail k stNotPermitted) := by
  have hfirst : leAt rq.params 0 2 = i := leAt_head (by omega) hp
  have hflags : clearFlags rq.params = 0 := leAt_next 2 hp
  exact gives_opcode rfl hturn (by simp [hflags]) (by simp only [hfirst, if_pos hlevel])

/-- FAULT_FORCE forces the source. -/
theorem sees_faultForce (hturn : Safety.turn s.dev k rq 0x0603) (hp : rq.params = leBytes 2 i ++ [0, 0]) :
    Safety.sees (.faultForce k) s ((s.dev.force i).okWith rq (s.dev.force i).forceBytes) := by
  have hfirst : leAt rq.params 0 2 = i := leAt_head (by omega) hp
  have hmode : leAt rq.params 2 2 = 0 := leAt_next 2 hp
  exact sees_opcode rfl hturn (by simp [hmode]) (by simp only [hfirst])

/-- Its rehearsal only tells what a force would do. -/
theorem gives_faultForceRehearse (hturn : Safety.turn s.dev k rq 0x0603) (hp : rq.params = leBytes 2 i ++ [1, 0]) :
    Safety.gives (.faultForceRehearse k) s ((s.dev.rehearse i).okWith rq (s.dev.rehearse i).forceBytes) := by
  have hfirst : leAt rq.params 0 2 = i := leAt_head (by omega) hp
  have hmode : leAt rq.params 2 2 = 1 := leAt_next 2 hp
  exact gives_opcode rfl hturn (by simp [hmode]) (by simp only [hfirst])

end OneSource

end FaultOpcodes

/-- Settles O14: each of the three opcodes, in each of its forms. -/
theorem faultOpcodes : Obligations.FaultOpcodes := fun _ _ _ _ hi =>
  ⟨fun _ hturn hn hp => gives_faultRead hi hturn hn hp, fun hturn hp hlevel => gives_faultClear hi hturn hp hlevel,
    fun hturn hp hlevel => gives_faultClear_refused hi hturn hp hlevel, fun hturn hp => gives_faultClearAll hturn hp,
    fun hturn hp => gives_faultClearWatermark hturn hp, fun hturn _ hp => sees_faultForce hi hturn hp,
    fun _ hturn _ _ _ hp => gives_faultForceRehearse hi hturn hp⟩

end Sys2Proof.Machine

/-! # Registers that only store

A register whose write does not act takes what is written, at once or in its shadow (R397, R398, R402); in CHIP_SAFE no write takes
effect (R382). -/

namespace Sys2Proof.Machine

open Sys2Proof

section Plain

variable {d : Dev} {a : Nat} {v : W32} {i : RegInfo}

/-- A register that only stores is none whose write acts. -/
theorem ne_of_acts {b : Nat} {j : RegInfo} (hinfo : regInfo a = some i) (hacts : i.acts = false) (hb : regInfo b = some j)
    (hj : j.acts = true) : a ≠ b := by
  rintro rfl
  obtain rfl : i = j := Option.some.inj (hinfo.symm.trans hb)
  rw [hacts] at hj
  contradiction

/-- Its write is plain (R398), where none of the rows of single registers takes it. -/
theorem makeWrite_plain (who : Writer) (hinfo : regInfo a = some i) (hacts : i.acts = false) (hmailbox : isMailbox a = false)
    (hcfg : a ≠ aPwrCfg) (hsleep : a ≠ aPwrSleep) (hchain : a ≠ aChainPos) (hream : a < 0x080010 ∨ 0x080020 ≤ a) :
    d.makeWrite who a v i = (true, d.plainWrite a v i) := by
  have acts {b : Nat} {j : RegInfo} (hb : regInfo b = some j) (hj : j.acts = true) : a ≠ b := ne_of_acts hinfo hacts hb hj
  have hsel : a ≠ aWmbSel := by
    rintro rfl
    exact absurd hmailbox (by decide)
  have hefuse : ¬(0x140000 ≤ a ∧ a < 0x142000 ∧ a % 0x100 = 8) := fun h =>
    acts (isCommand_efuseCtrl ⟨(a - 0x140000) / 0x100, by omega⟩ 0).info rfl (by simp only [aEfuseCtrl]; omega)
  have hpd : ¬(0x180000 ≤ a ∧ a < 0x1A1000 ∧ a % 0x1000 = 0xC) := fun h =>
    acts (isCommand_pdCtrl ⟨(a - 0x180000) / 0x1000, by omega⟩ 0).info rfl (by simp only [aPdCtrl]; omega)
  have hcpl : ¬(0x1E0400 ≤ a ∧ a < 0x1E0540 ∧ (a - 0x1E0400) % 0x40 = 4) := fun h =>
    acts (isStore_cplCtrl ⟨(a - 0x1E0400) / 0x40, by omega⟩ 0).info rfl (by simp only [aCplCtrl]; omega)
  rw [Dev.makeWrite, if_neg (acts (b := aUnlock) rfl rfl), if_neg (acts (b := aUpdate) rfl rfl), if_neg hsel,
    if_neg (not_or.2 ⟨hcfg, hsleep⟩), if_neg (acts (b := aFcClear) rfl rfl), if_neg (acts (b := aFcForce) rfl rfl),
    if_neg (acts (b := aFcWmCtrl) rfl rfl), if_neg (acts (b := aVatQreset) rfl rfl), if_neg (by omega), if_neg hefuse, if_neg hpd,
    if_neg hchain, if_neg hcpl, if_neg (ne_true_of_eq_false hacts)]

/-- A write that is judged right, of a register that is neither guarded nor in a pending UPDATE, is made. -/
theorem writeReg_writable {who : Writer} (hsafe : d.fc.chipSafe = false) (hquire : quireAt a = none) (hinfo : regInfo a = some i)
    (hrw : i.rw ≠ 0) (hguarded : i.guarded = false) (hmailbox : isMailbox a = false) (henc : d.quireAck.encJudge a v = true)
    (hpending : (i.group.any fun g => bit d.quireAck.pendingGroups g) = false) :
    (d.writeReg who false a v).2 =
      let r := d.quireAck.makeWrite who a v i
      if r.1 then r.2 else r.2.regErr who a 29 := by
  have hsafe' : d.quireAck.fc.chipSafe = false := hsafe
  simp only [Dev.writeReg, hsafe', hquire, hinfo, hmailbox, hrw, henc, hguarded, hpending, decide_false, Bool.and_false,
    Bool.not_true, Bool.false_and, Bool.false_eq_true, if_false]
  split <;> rfl

end Plain

/-- The row of a register that only stores. -/
theorem registerWriteRow : Rows.RegisterWriteRow := by
  intro p a v i s hserved hquire hinfo hacts hguarded hrw hmailbox hcfg hsleep hchain hream henc hpending
  obtain ⟨k, hk⟩ := writer_eq s.dev p
  have hsafe : (s.dev.writer p).2.fc.chipSafe = false := hk ▸ hserved.2.1
  have hgroups : (s.dev.writer p).2.quireAck.pendingGroups = s.dev.pendingGroups := by rw [hk]; rfl
  have hwrite : s.dev.pathWrite p a.toNat v = (Safety.atWrite s.dev p).plainWrite a.toNat v i := by
    rw [pathWrite_served hserved, writeReg_writable hsafe hquire hinfo hrw hguarded hmailbox henc (hgroups ▸ hpending),
      makeWrite_plain _ hinfo hacts hmailbox hcfg hsleep hchain hream]
    rfl
  exact sees_of_eq hwrite rfl

section Kept

variable {d : Dev} {a : Nat} {v : W32} {i : RegInfo}

/-- Outside the UPDATE groups a write takes effect at once (R397, R398). -/
theorem plainWrite_ungrouped (hgroup : i.group = none) :
    d.plainWrite a v i = d.setReg a (((d.reg a &&& ~~~ i.rw) ||| (v &&& i.rw)) &&& ~~~ (v &&& i.w1c)) := by
  simp only [Dev.plainWrite, hgroup]

/-- In one, the value in effect stays (R402). -/
theorem regs_plainWrite_grouped {g : Nat} (hgroup : i.group = some g) : (d.plainWrite a v i).regs = d.regs := by
  simp only [Dev.plainWrite, hgroup]
  split <;> rfl

end Kept

/-- What a plain register takes. -/
theorem plainWrites : Rows.PlainWrites := by
  intro d a v i
  refine ⟨plainWrite_ungrouped, fun g hgroup => regs_plainWrite_grouped hgroup, fun hgroup hwf b hb => ?_⟩
  rw [plainWrite_ungrouped hgroup, Dev.reg_setReg d a b _ hwf, if_neg hb]

/-- In CHIP_SAFE a write over a path is flagged, and nothing else. -/
theorem safeStateWrites : Rows.SafeStateWrites := by
  intro p a v s hpath hsafe hgo
  obtain ⟨k, hk⟩ := atWrite_eq s.dev p
  have hsafe' : (s.dev.writer p).2.quireAck.fc.chipSafe = true := by
    change (Safety.atWrite s.dev p).fc.chipSafe = true
    rw [hk]
    exact hsafe
  have hawake : ¬((decide (p = .spi) && s.dev.halted) = true) := by simpa using hgo
  have hwrite : s.dev.pathWrite p a.toNat v = (Safety.atWrite s.dev p).flag aFcStatus 24 := by
    simp only [Dev.pathWrite, hpath, if_neg hawake, Dev.writeReg, hsafe', if_true, Bool.not_true, Bool.false_eq_true, if_false]
    rfl
  exact sees_of_eq hwrite rfl

/-- Settles O55: a plain write stores, in the register or its shadow, and none takes effect in CHIP_SAFE. -/
theorem registerWrites : Obligations.RegisterWrites := ⟨registerWriteRow, plainWrites, safeStateWrites⟩

end Sys2Proof.Machine

/-! # REG_READ, REG_WRITE, WIDE_READ and UPDATE

The Register opcodes (R425, R426): their fields, and what the words and the UPDATE give. -/

namespace Sys2Proof.Machine

open Sys2Proof

section RegisterOpcodes

variable {k : ReqKey} {rq : Request} {s : State}

/-- Words that are mapped and outside the mailbox may all be read. -/
theorem readStatus_none {a n : Nat} (hwords : ∀ i < n, mapped (a + 4 * i) = true ∧ isMailbox (a + 4 * i) = false) :
    readStatus a n = none := by
  refine List.findSome?_eq_none_iff.2 fun i hi => ?_
  obtain ⟨hmapped, hmailbox⟩ := hwords i (List.mem_range.1 hi)
  simp [hmapped, hmailbox]

/-- The address and the count that head the parameters of REG_READ and REG_WRITE, and what follows them. -/
theorem fields_of_words {p rest : List Byte} {a n : Nat} (hp : p = leBytes 4 a ++ leBytes 2 n ++ rest) (ha : a < 2 ^ 24)
    (hn : n ≤ 1000) : leAt p 0 4 = a ∧ leAt p 4 2 = n ∧ p.drop 6 = rest :=
  ⟨leAt_layout [] (leBytes 2 n ++ rest) (by simp [hp]) rfl (by omega),
    leAt_layout (leBytes 4 a) rest hp (length_leBytes ..) (by omega),
    by rw [hp, List.drop_left' (by simp)]⟩

/-- REG_READ answers the words that may be read. -/
theorem gives_regRead {a n : Nat} {shadow : Bool} (hturn : Safety.turn s.dev k rq 0x0101) (ha : a < 2 ^ 24) (hn : n ≤ 1000)
    (hp : rq.params = leBytes 4 a ++ leBytes 2 n ++ [if shadow then 1 else 0, 0])
    (hwords : ∀ i < n, mapped (a + 4 * i) = true ∧ isMailbox (a + 4 * i) = false) :
    Safety.gives (.regRead k) s
      ((s.dev.quireAck.readWords s.straps shadow a n).2.okWith rq (s.dev.quireAck.readWords s.straps shadow a n).1) := by
  obtain ⟨haddr, hcount, hrest⟩ := fields_of_words hp ha hn
  have hshadow : decide (leAt rq.params 6 2 = 1) = shadow := by
    rw [leAt, hrest]
    cases shadow <;> rfl
  exact gives_opcode rfl hturn rfl (by simp only [haddr, hcount, hshadow, readStatus_none hwords])

/-- REG_WRITE writes its words in order. -/
theorem sees_regWrite {a : Nat} {ws : List W32} (hturn : Safety.turn s.dev k rq 0x0102) (ha : a < 2 ^ 24) (hn : ws.length ≤ 1000)
    (hp : rq.params = leBytes 4 a ++ leBytes 2 ws.length ++ [0, 0] ++ wordsBytes ws) :
    Safety.sees (.regWrite k) s (let r := s.dev.writeWords (k.sub, k.tag) false 0 stOk a ws
      r.2.2.answer k r.2.1 (leBytes 2 r.1 ++ [0, 0])) := by
  rw [List.append_assoc] at hp
  obtain ⟨haddr, hcount, hrest⟩ := fields_of_words hp ha hn
  have hdrop : rq.params.drop 8 = wordsBytes ws := by
    rw [show 8 = 6 + 2 from rfl, ← List.drop_drop, hrest]
    rfl
  exact sees_opcode rfl hturn rfl (by simp only [haddr, hcount, hdrop, toWords_wordsBytes]; rfl)

/-- WIDE_READ answers the words of the value selected. -/
theorem gives_wideRead {x : W32} {ws : List W32} (hturn : Safety.turn s.dev k rq 0x0103) (hp : rq.params = wordBytes x)
    (hvalue : (s.dev.wideValue x).1 = some ws) :
    Safety.gives (.wideRead k) s ((s.dev.wideValue x).2.okWith rq (wordsBytes ws)) := by
  have hsel : BitVec.ofNat 32 (leAt rq.params 0 4) = x := by
    have hfield : leAt rq.params 0 4 = x.toNat := leAt_layout [] [] (by simp [hp, wordBytes]) rfl x.isLt
    rw [hfield, BitVec.ofNat_toNat, BitVec.setWidth_eq]
  exact gives_opcode rfl hturn rfl (by simp only [hsel, hvalue])

/-- UPDATE answers as its request is judged. -/
theorem gives_update {g : Byte} {w : BitVec 2} {b : BeatNo} (hturn : Safety.turn s.dev k rq 0x0104)
    (hp : rq.params = [g, BitVec.ofNat 8 w.toNat, 0, 0] ++ leBytes 6 b.toNat ++ [0, 0]) :
    Safety.gives (.update k) s (let r := s.dev.requestUpdate (some (k.sub, k.tag)) g w.toNat b
      r.2.fail k r.1) := by
  have hgroups : rq.params.getD 0 0 = g := by rw [hp]; rfl
  have hwhen : byteAt rq.params 1 = w.toNat := by
    rw [hp]
    exact Nat.mod_eq_of_lt (w.isLt.trans (by decide))
  have hcancel : byteAt rq.params 2 = 0 := by rw [hp]; rfl
  have hbeat : BitVec.ofNat 48 (leAt rq.params 4 6) = b := by
    have hfield : leAt rq.params 4 6 = b.toNat := leAt_layout [g, BitVec.ofNat 8 w.toNat, 0, 0] [0, 0] hp rfl b.isLt
    rw [hfield, BitVec.ofNat_toNat, BitVec.setWidth_eq]
  exact gives_opcode rfl hturn (by simp [hcancel]) (by simp only [hgroups, hwhen, hbeat])

/-- UPDATE with CANCEL ends the pending ones of its groups. -/
theorem gives_updateCancel {g : Byte} (hturn : Safety.turn s.dev k rq 0x0104)
    (hp : rq.params = [g, 0, 1, 0, 0, 0, 0, 0, 0, 0, 0, 0]) :
    Safety.gives (.updateCancel k) s ((s.dev.cancelUpdates g).okWith rq []) := by
  have hgroups : rq.params.getD 0 0 = g := by rw [hp]; rfl
  have hcancel : byteAt rq.params 2 = 1 := by rw [hp]; rfl
  exact gives_opcode rfl hturn (by simp [hcancel]) (by simp only [hgroups])

end RegisterOpcodes

/-- Settles O9: the words that REG_READ and REG_WRITE name, the wide value, and UPDATE with and without CANCEL. -/
theorem registerOpcodes : Obligations.RegisterOpcodes := fun _ _ _ =>
  ⟨fun _ _ _ hturn ha _ hn hp hwords => gives_regRead hturn ha hn hp hwords,
    fun _ _ hturn ha _ hn hp => sees_regWrite hturn ha hn hp, fun _ _ hturn hp hvalue => gives_wideRead hturn hp hvalue,
    fun _ _ _ hturn _ hp => gives_update hturn hp, fun _ hturn hp => gives_updateCancel hturn hp⟩

end Sys2Proof.Machine

/-! # UPDATE and a held fuse

A held port ignores every UPDATE (R372, R373): the shadow of its limits stays when its group is applied. -/

namespace Sys2Proof.Machine

open Sys2Proof

/-- A part whose port 0 is held, with one shadow: 0 for the limits of that port's fuse, of UPDATE group 3. -/
def heldWithShadow : State :=
  { State.reset with
    dev := { Dev.reset with fuses := [(0, { Fuse.reset with state := .held })], shadow := [(0x140000, some 0)] } }

/-- The limits of a held fuse do not take their shadow. -/
theorem shadow_takeShadows_held : (heldWithShadow.dev.takeShadows 8).shadow = [(0x140000, some 0)] := by decide

/-- Refutes O30: the statement takes the only shadow of a group that is applied to be gone, and that of a held fuse's limits
stays. -/
theorem not_updateGroups : ¬ Obligations.UpdateGroups := by
  rintro ⟨hrows, -⟩
  obtain ⟨-, -, htaken⟩ := hrows heldWithShadow
  obtain ⟨hgone, -⟩ := htaken 8 0x140000 0 3 rfl (by decide) (by decide)
  exact absurd (shadow_takeShadows_held.symm.trans hgone) (by decide)

end Sys2Proof.Machine

/-! # IDENTIFY, STATUS, EVENTS, RESET and READY

The System opcodes (R421 to R424): the bytes they answer, the reset they make due, and the wait of READY. -/

namespace Sys2Proof.Machine

open Sys2Proof

/-! ## IDENTIFY and STATUS (R421) -/

section Bytes

variable {d : Dev}

/-- A field of an image's header, 0 where there is none. -/
theorem fieldOf_eq_elim (h : Option ImageHdr) (f : ImageHdr → Nat) : ImageHdr.fieldOf h f = h.elim 0 f := by
  cases h <;> rfl

/-- What IDENTIFY answers of a part that runs. -/
theorem identifyBytes_alive (halive : d.dead = false) : d.identifyBytes =
    leBytes 8 Config.chipUid.toNat ++ [0x32, 0x32, 0xB1, d.stateByte, d.positionByte, 0] ++ leBytes 2 d.epoch ++
      leBytes 4 (d.boot.mill.elim 0 (·.version.toNat)) ++ leBytes 4 (d.boot.couch.elim 0 (·.version.toNat)) ++
      leBytes 2 (d.boot.mill.elim 0 (·.avvEpoch.toNat)) ++ leBytes 2 (d.boot.couch.elim 0 (·.relayEpoch.toNat)) ++
      leBytes 2 (d.boot.mill.elim 0 (·.ownEpoch.toNat)) ++ leBytes 2 (d.boot.couch.elim 0 (·.ownEpoch.toNat)) ++
      leBytes 4 d.boot.ready.toNat ++ [0, 0, 0, 0] := by
  simp only [Dev.identifyBytes, halive, Bool.false_eq_true, if_false, fieldOf_eq_elim]
  rfl

/-- In dead-battery service the fields of the images and `READY` are 0. -/
theorem identifyBytes_dead (hdead : d.dead = true) : d.identifyBytes =
    leBytes 8 Config.chipUid.toNat ++ [0x32, 0x32, 0xB1, d.stateByte, d.positionByte, 0] ++ leBytes 2 d.epoch ++
      List.replicate 24 0 := by
  simp only [Dev.identifyBytes, hdead, if_true]
  rfl

/-- The states of the four links in one byte. -/
theorem linkBits (f : Nat → Nat) : (List.range 4).foldl (fun m n => m + f n * 4 ^ n) 0 = f 0 + 4 * f 1 + 16 * f 2 + 64 * f 3 := by
  simp only [List.range_succ, List.range_zero, List.nil_append, List.foldl_append, List.foldl_cons, List.foldl_nil]
  omega

/-- What STATUS answers of a part that runs. -/
theorem statusBytes_alive (halive : d.dead = false) : d.statusBytes =
    [d.stateByte, BitVec.ofNat 8 d.power.state.code, BitVec.ofNat 8 d.deckle.state.code, 0] ++
      leBytes 6 d.deckle.beat.toNat ++ leBytes 2 d.deckle.mf ++ leBytes 4 d.boot.ready.toNat ++ wordBytes d.fcStatus ++
      leBytes 2 d.requests.length ++ leBytes 2 d.subsInEffect ++ leBytes 4 (d.shared % 2 ^ 17) ++
      [BitVec.ofNat 8 ((d.link 0).state.two + 4 * (d.link 1).state.two + 16 * (d.link 2).state.two + 64 * (d.link 3).state.two),
        BitVec.ofNat 8 (b2n d.watermark.valid + 2 * (d.link 4).state.two), 0, 0] := by
  rw [Dev.statusBytes, halive, if_neg Bool.false_ne_true, linkBits fun n => (d.link n).state.two, List.append_assoc _ _ (zeros 2)]
  rfl

end Bytes

/-! ## EVENTS (R424) -/

/-- A word in two parts, as a number. -/
theorem toNat_append_add {m n : Nat} (x : BitVec m) (y : BitVec n) : (x ++ y).toNat = x.toNat * 2 ^ n + y.toNat := by
  rw [BitVec.toNat_append, ← Nat.shiftLeft_add_eq_or_of_lt y.isLt, Nat.shiftLeft_eq]

/-- Four bytes, the lowest first, as one word. -/
theorem word_of_bytes (p0 p1 p2 p3 : Byte) : BitVec.ofNat 32 (leNat [p0, p1, p2, p3]) = p3 ++ p2 ++ p1 ++ p0 := by
  refine BitVec.eq_of_toNat_eq ?_
  simp only [leNat, BitVec.toNat_ofNat, toNat_append_add]
  omega

section SystemOpcodes

variable {k : ReqKey} {rq : Request} {s : State}

/-- EVENTS registers the classes, the ports and U0 of its subscriber. -/
theorem gives_events {c u p0 p1 p2 p3 : Byte} (hturn : Safety.turn s.dev k rq 0x0005)
    (hp : rq.params = [c, 0, 0, 0, p0, p1, p2, p3, u, 0, 0, 0, 0, 0, 0, 0]) : Safety.gives (.events k) s
      ((s.dev.updSubr rq.sub.toNat fun x =>
        { x with classes := BitVec.ofNat 7 c.toNat, ports := p3 ++ p2 ++ p1 ++ p0, u0 := decide (u.toNat = 1) }).okWith rq []) := by
  have hclasses : leAt rq.params 0 4 = c.toNat := by rw [hp]; rfl
  have hports : BitVec.ofNat 32 (leAt rq.params 4 4) = p3 ++ p2 ++ p1 ++ p0 := by
    rw [hp]
    exact word_of_bytes p0 p1 p2 p3
  have hu : byteAt rq.params 8 = u.toNat := by rw [hp]; rfl
  exact gives_opcode rfl hturn rfl (by simp only [hclasses, hports, hu])

/-! ## RESET (R423) -/

/-- RESET with chip scope ends the requests that have not started, and the reset is due once its response has gone. -/
theorem gives_resetChip (hturn : Safety.turn s.dev k rq 0x0003) (hp : rq.params = [0, 0, 0, 0]) : Safety.gives (.resetChip k) s
    { (s.dev.failAll ((s.dev.requests.filter fun r => r.phase = .accepted && !r.isFor rq.name).map Request.name)
        stResetAborted).okWith rq [] with resetDue := some (k, s.dev.now + 80) } := by
  have hscope : byteAt rq.params 0 = 0 := by rw [hp]; rfl
  have hname : rq.name = k := findReq_name hturn.1
  exact gives_opcode rfl hturn (decide_eq_true hscope) (by rw [Dev.chipScope, hname])

/-- RESET with port scope resets the port's load and its sources. -/
theorem sees_resetPort {n : Byte} (hturn : Safety.turn s.dev k rq 0x0003) (hp : rq.params = [1, n, 0, 0]) :
    Safety.sees (.resetPort k) s (s.dev.portScope rq n.toNat) := by
  have hscope : byteAt rq.params 0 = 1 := by rw [hp]; rfl
  have hport : byteAt rq.params 1 = n.toNat := by rw [hp]; rfl
  exact sees_opcode rfl hturn (decide_eq_true hscope) (by rw [hport])

/-- The reset that is due starts once the response has gone. -/
theorem gives_chipResetStart {j : ReqKey} {t : Nat} (hup : s.dev.up = true) (hdue : s.dev.resetDue = some (j, t))
    (hgone : s.dev.findReq j = none ∨ t ≤ s.dev.now) : Safety.gives .chipResetStart s s.dev.chipReset := by
  have hready : s.dev.resetReady = true := by
    rw [Dev.resetReady, hdue]
    exact responseGone_holds hgone
  exact gives_of_eq (if_pos (by rw [hup, hready, Bool.and_self])) rfl

end SystemOpcodes

/-- The rows of IDENTIFY, STATUS, EVENTS and RESET. -/
theorem systemOpcodeRows : Rows.SystemOpcodes := by
  intro k rq s
  refine ⟨fun hturn _ halive => ?_, fun hturn _ hdead => ?_, fun hturn _ halive => ?_,
    fun hturn c u p0 p1 p2 p3 _ _ hp => gives_events hturn hp, fun hturn hp => gives_resetChip hturn hp,
    fun hturn n _ hp => sees_resetPort hturn hp, fun j t hup hdue hgone => gives_chipResetStart hup hdue hgone⟩
  · exact gives_opcode rfl hturn rfl (congrArg (s.dev.okWith rq) (identifyBytes_alive halive))
  · exact gives_opcode rfl hturn rfl (congrArg (s.dev.okWith rq) (identifyBytes_dead hdead))
  · exact gives_opcode rfl hturn rfl (congrArg (s.dev.okWith rq) (statusBytes_alive halive))

/-! ## READY (R422) -/

section Ready

variable {k : ReqKey} {rq : Request} {s : State} {m : BitVec 10}

/-- READY answers, fails or waits. -/
theorem gives_ready {w : BitVec 20} (hturn : Safety.turn s.dev k rq 0x0004)
    (hp : rq.params = leBytes 2 m.toNat ++ [0, 0] ++ leBytes 4 w.toNat) : Safety.gives (.ready k) s
      (if s.dev.boot.ready &&& m = m then s.dev.okWith rq s.dev.readyBytes
       else if w = 0 then s.dev.answer k stTimeout s.dev.readyBytes
       else s.dev.setReq k fun r => { r with phase := .waitReady m (s.dev.now + w.toNat) }) := by
  have hmask : BitVec.ofNat 10 (leAt rq.params 0 2) = m := by
    have hfield : leAt rq.params 0 2 = m.toNat :=
      leAt_layout [] ([0, 0] ++ leBytes 4 w.toNat) (by rw [hp, List.append_assoc]; rfl) rfl (m.isLt.trans (by decide))
    rw [hfield, BitVec.ofNat_toNat, BitVec.setWidth_eq]
  have hwait : leAt rq.params 4 4 = w.toNat :=
    leAt_layout (leBytes 2 m.toNat ++ [0, 0]) [] (by rw [hp, List.append_nil]) rfl (w.isLt.trans (by decide))
  have hzero : w.toNat = 0 ↔ w = 0 := BitVec.toNat_inj (y := 0)
  exact gives_opcode rfl hturn rfl (by simp only [hmask, hwait, Dev.hasReady, decide_eq_true_eq, hzero])

section Waiting

variable {t : Nat} (hfind : s.dev.findReq k = some rq) (hphase : rq.phase = .waitReady m t)
include hfind hphase

/-- The phase of a request that waits for `READY`. -/
theorem phase_waitReady : (s.dev.findReq k).map Request.phase = some (.waitReady m t) := by
  rw [hfind, Option.map_some, hphase]

/-- A request that waits is answered once the bits are set. -/
theorem gives_readyAnswer (hset : s.dev.boot.ready &&& m = m) :
    Safety.gives (.readyAnswer k) s (s.dev.okWith rq s.dev.readyBytes) := by
  have hready : s.dev.hasReady m = true := decide_eq_true hset
  have hrow : exec (.readyAnswer k) s = execReadyAnswer k s := rfl
  rw [Safety.gives, hrow, execReadyAnswer, phase_waitReady hfind hphase, Dev.okWith, findReq_name hfind]
  exact congrArg s.next (if_pos hready)

/-- One whose time has passed ends with TIMEOUT. -/
theorem gives_readyWaitExpiry (hclear : s.dev.boot.ready &&& m ≠ m) (htime : t ≤ s.dev.now) :
    Safety.gives (.readyWaitExpiry k) s (s.dev.answer k stTimeout s.dev.readyBytes) := by
  have hready : s.dev.hasReady m = false := decide_eq_false hclear
  have hrow : exec (.readyWaitExpiry k) s = execReadyWaitExpiry k s := rfl
  rw [Safety.gives, hrow, execReadyWaitExpiry, phase_waitReady hfind hphase]
  exact congrArg s.next (if_pos (by simp [htime, hready]))

end Waiting

end Ready

/-- The rows of READY. -/
theorem readyOpcode : Rows.ReadyOpcode := fun _ _ _ =>
  ⟨fun hturn _ _ _ hp => gives_ready hturn hp, fun _ _ hfind hphase hset => gives_readyAnswer hfind hphase hset,
    fun _ _ hfind hphase hclear htime => gives_readyWaitExpiry hfind hphase hclear htime⟩

/-- Settles O8: what each of the five opcodes answers, the reset that RESET makes due, and how READY's wait ends. -/
theorem systemOpcodes : Obligations.SystemOpcodes := ⟨systemOpcodeRows, readyOpcode⟩

end Sys2Proof.Machine

/-! # The Port opcodes and EFUSE_CLEAR

PORT_RESET and the end of its wait, PORT_DISABLE, PORT_SUSPEND, PORT_RESUME, PORT_INFO and EFUSE_CLEAR (R427, R428). -/

namespace Sys2Proof.Machine

open Sys2Proof

section PortWork

variable {d : Dev} {n : Nat}

/-- PORT_RESET on a port that holds a device and no reset in progress, alone on its bus, resets it and waits. -/
theorem portResetOp_starts (k : ReqKey)
    (hstate : (d.port n).state = .connected ∨ (d.port n).state = .enabled ∨ (d.port n).state = .suspended ∨
      (d.port n).state = .error)
    (halone : ∀ b, d.binding (d.port n).domain = some b → b.port = n) : d.portResetOp k n =
      (d.setReq k fun r => { r with phase := .portReset n (d.now + 4000) }).enterResetting n := by
  have hbus : ((d.binding (d.port n).domain).any fun b => b.port ≠ n) = false := by
    cases hbinding : d.binding (d.port n).domain with
    | none => rfl
    | some b => exact decide_eq_false (not_not_intro (halone b hbinding))
  have hdevice : ((d.port n).state = .notPresent || (d.port n).state = .disconnected) = false := by
    rcases hstate with h | h | h | h <;> simp [h]
  have hquiet : ((d.port n).state = .debounce || (d.port n).state = .resetting || (d.port n).state = .recovery) = false := by
    rcases hstate with h | h | h | h <;> simp [h]
  simp only [Dev.portResetOp, hdevice, hquiet, hbus, Bool.or_self, Bool.false_eq_true, if_false]

/-- PORT_DISABLE takes ENABLED or SUSPENDED to ERROR. -/
theorem disablePort_eq : d.disablePort n =
    if (d.port n).state = .enabled ∨ (d.port n).state = .suspended then (d.cutXacts n fun _ => true).enterError n else d := by
  simp only [Dev.disablePort, Bool.or_eq_true, decide_eq_true_eq]

/-- PORT_SUSPEND on a root port that may be suspended. -/
theorem portSuspendOp_suspends (rq : Request) (hcoupler : d.isCoupler n = false) (hmay : d.maySuspend n = true) :
    d.portSuspendOp rq n = (d.suspendPort n).okWith rq [] := by
  have hstate : (d.port n).state = .enabled := by
    simp only [Dev.maySuspend, Bool.and_eq_true, decide_eq_true_eq] at hmay
    exact hmay.1.1
  simp [Dev.portSuspendOp, hstate, hcoupler, hmay]

/-- What PORT_INFO answers of a port. -/
theorem portInfoBytes_port (hn : n < 32) : d.portInfoBytes n =
    wordBytes (d.portStatus n) ++ wordBytes (d.reg (0x100008 + 0x1000 * n)) ++ wordBytes (d.portPwr n) ++ wordBytes (d.pdStatus n) ++
      wordBytes (d.efuseStatus n) ++ [BitVec.ofNat 8 (d.portLevel n + 8 * b2n (d.isHeld n)), 0, 0, 0] := by
  simp only [Dev.portInfoBytes, if_neg (Nat.ne_of_lt hn), aPortEvent, Nat.mul_comm n]

/-- What it answers of U0. -/
theorem portInfoBytes_u0 : d.portInfoBytes 32 =
    wordBytes d.u0Status ++ List.replicate 8 0 ++ wordBytes (d.pdStatus 32) ++ List.replicate 8 0 := by
  have hzero : wordBytes 0 ++ wordBytes 0 = List.replicate 8 0 := by decide
  have hend : wordBytes 0 ++ [0, 0, 0, 0] = List.replicate 8 0 := by decide
  simp only [Dev.portInfoBytes, if_true, List.append_assoc _ (wordBytes 0) [0, 0, 0, 0], hend,
    List.append_assoc _ (wordBytes 0) (wordBytes 0), hzero]

end PortWork

section PortRequests

variable {k : ReqKey} {rq : Request} {s : State}

/-- The port that heads the parameters. -/
theorem portParam_head {p rest : List Byte} {n : Byte} (hp : p = n :: rest) : portParam p = n.toNat := by
  rw [hp]
  rfl

/-- PORT_RESET that has taken too long ends with TIMEOUT. -/
theorem gives_portResetTimeout {p t : Nat} (hfind : s.dev.findReq k = some rq) (hphase : rq.phase = .portReset p t)
    (htime : t ≤ s.dev.now) : Safety.gives (.portResetTimeout k) s (s.dev.fail k stTimeout) := by
  have hwaits : (s.dev.findReq k).map Request.phase = some (.portReset p t) := by rw [hfind, Option.map_some, hphase]
  have hrow : exec (.portResetTimeout k) s = execPortResetTimeout k s := rfl
  rw [Safety.gives, hrow, execPortResetTimeout, hwaits]
  exact congrArg s.next (if_pos htime)

end PortRequests

/-- Settles O10: each of the six opcodes, on a port that takes it. -/
theorem portOpcodes : Obligations.PortOpcodes := by
  intro k rq s n
  refine ⟨fun hturn hp hembedded hstate halone => ?_, fun p t hfind hphase htime => gives_portResetTimeout hfind hphase htime,
    fun hturn hp hembedded => ?_, fun hturn hp hroot hcoupler hmay => ?_, fun hturn hp hroot hstate => ?_,
    fun hturn hp hn => ?_, fun hturn hp => ?_, fun hturn hp hn => ?_, fun hturn hp hn => ?_⟩
  · exact gives_opcode rfl hturn rfl (by simp only [portParam_head hp, hembedded, if_true, portResetOp_starts k hstate halone]; rfl)
  · exact gives_opcode rfl hturn rfl (by simp only [portParam_head hp, hembedded, if_true, disablePort_eq])
  · exact gives_opcode rfl hturn rfl (by simp only [portParam_head hp, hroot, if_true, portSuspendOp_suspends rq hcoupler hmay])
  · exact gives_opcode rfl hturn rfl
      (by simp only [portParam_head hp, hroot, hstate, Bool.not_true, Bool.false_eq_true, if_false, if_true])
  · exact gives_opcode rfl hturn rfl (by simp only [portParam_head hp, portInfoBytes_port hn])
  · exact gives_opcode rfl hturn rfl (congrArg (s.dev.okWith rq)
      ((congrArg s.dev.portInfoBytes (portParam_head hp)).trans portInfoBytes_u0))
  · exact gives_opcode rfl hturn (by rw [hp]; rfl) (by simp only [portParam_head hp])
  · exact gives_opcode rfl hturn (by rw [hp]; rfl) (by simp only [portParam_head hp])

end Sys2Proof.Machine

/-! # PWR_STATE, PD_INFO and PD_ACTION

The Power opcodes (R433, R434): the targets of PWR_STATE, the words of PD_INFO, and the eight actions of PD_ACTION. -/

namespace Sys2Proof.Machine

open Sys2Proof

/-! ## PWR_STATE and PD_INFO -/

section PowerRequests

variable {k : ReqKey} {rq : Request} {s : State}

/-- PWR_STATE with target ACTIVE ends TRIM and answers the state. -/
theorem gives_pwrStateActive (hturn : Safety.turn s.dev k rq 0x0501) (hp : rq.params = [0, 0, 0, 0]) :
    Safety.gives (.pwrStateActive k) s (s.dev.pwrActive.okWith rq s.dev.pwrActive.pwrReply) :=
  gives_opcode rfl hturn (by rw [hp]; rfl) rfl

/-- With target DOZE it answers OK where DOZE is allowed, else BUSY with what keeps the part awake. -/
theorem gives_pwrStateDoze (hturn : Safety.turn s.dev k rq 0x0501) (hp : rq.params = [2, 0, 0, 0]) :
    Safety.gives (.pwrStateDoze k) s (if s.dev.dozeAllowed k then s.dev.okWith rq s.dev.pwrReply
      else s.dev.answer k stBusy (leBytes 4 s.dev.powerBlock)) :=
  gives_opcode rfl hturn (by rw [hp]; rfl) rfl

/-- What PD_INFO answers of a port. -/
theorem pdInfoBytes_eq (d : Dev) (n : Nat) : d.pdInfoBytes n =
    wordBytes (d.pdStatus n) ++ wordBytes (d.pdContract n) ++ wordBytes (d.pdCable n) ++
      wordBytes (d.reg (0x180018 + 0x1000 * n)) ++
      ((List.range 7).flatMap fun i => wordBytes (d.reg (0x180060 + 0x1000 * n + 4 * i))) := by
  simp only [Dev.pdInfoBytes, wordsBytes, List.flatMap_append, List.flatMap_map, List.flatMap_cons, List.flatMap_nil,
    List.append_nil, List.append_assoc, aPdEvent, aPartnerPdo, Nat.mul_comm 0x1000]

/-- PD_INFO answers those words. -/
theorem gives_pdInfo {n : Byte} (hturn : Safety.turn s.dev k rq 0x0502) (hp : rq.params = [n, 0, 0, 0]) :
    Safety.gives (.pdInfo k) s (s.dev.okWith rq (s.dev.pdInfoBytes n.toNat)) := by
  have hport : portParam rq.params = n.toNat := by rw [hp]; rfl
  exact gives_opcode rfl hturn rfl (by simp only [hport])

end PowerRequests

/-- The rows of PWR_STATE and PD_INFO. -/
theorem powerOpcodeRows : Rows.PowerOpcodes := fun _ _ s =>
  ⟨fun hturn hp => gives_pwrStateActive hturn hp, fun hturn hp => gives_pwrStateDoze hturn hp,
    fun n hturn hp _ => gives_of_eq (congrArg (s.dev.okWith _) (pdInfoBytes_eq s.dev n.toNat)) (gives_pdInfo hturn hp)⟩

/-! ## PD_ACTION -/

section PdActions

variable {d : Dev} {k : ReqKey} {n act : Nat}

/-- On a port whose role takes the action, the request waits and the engine acts. -/
theorem pdAction_attached (hattached : d.tcUnattached n = false) (hfits : d.actionFits n act = true)
    (htalks : act = 7 ∨ d.pdTalks n = true) :
    d.pdAction k n act = (d.setReq k fun r => { r with phase := .pdAction n act }).pdAct n act := by
  have hsays : (decide (act ≠ 7) && !d.pdTalks n) = false := by
    rcases htalks with rfl | htalks
    · rfl
    · rw [htalks, Bool.not_true, Bool.and_false]
  simp only [Dev.pdAction, hattached, hfits, hsays, Bool.not_true, Bool.false_eq_true, if_false]

/-- On an Unattached port it ends with DETACHED. -/
theorem pdAction_unattached (hunattached : d.tcUnattached n = true) : d.pdAction k n act = d.fail k stDetached :=
  if_pos hunattached

/-- The row of an action that need not wait for the end of a sequence. -/
theorem pdActionRow_starts {rq : Request} {p act : Byte} (hturn : Safety.turn d k rq 0x0503) (hp : rq.params = [p, act, 0, 0])
    (hstarts : d.pdMustWait p.toNat act.toNat = false) :
    d.pdActionRow k act.toNat (actionIs act.toNat) = d.pdAction k p.toNat act.toNat := by
  have hport : portParam rq.params = p.toNat := by rw [hp]; rfl
  have hact : byteAt rq.params 1 = act.toNat := by rw [hp]; rfl
  rw [Dev.pdActionRow, opcodeRow_runs hturn (decide_eq_true hact)]
  simp only [hport, hstarts, Bool.and_false, Bool.false_eq_true, if_false]

/-- Each action has its row, and R18 is judged anew after HARD_RESET and ERROR_RECOVERY. -/
theorem gives_pdRow {s : State} {e : Dev} (hact : act < 8) (hrow : s.dev.pdActionRow k act (actionIs act) = e) :
    Safety.gives (Safety.pdRow k act) s (Safety.pdJudged act e) := by
  subst hrow
  interval_cases act <;> rfl

end PdActions

/-- The rows of PD_ACTION. -/
theorem pdActionOpcodes : Rows.PdActionOpcodes := by
  intro k rq s n act hturn hact hp _
  exact ⟨fun hattached hfits hstarts htalks =>
      gives_pdRow hact ((pdActionRow_starts hturn hp hstarts).trans (pdAction_attached hattached hfits htalks)),
    fun hunattached hstarts => gives_pdRow hact ((pdActionRow_starts hturn hp hstarts).trans (pdAction_unattached hunattached))⟩

/-- Settles O13: the targets of PWR_STATE, the words of PD_INFO, and each action of PD_ACTION on both ways. -/
theorem powerOpcodes : Obligations.PowerOpcodes := ⟨powerOpcodeRows, pdActionOpcodes⟩

end Sys2Proof.Machine

/-! # SELFTEST and MAINT

The five tests of SELFTEST with what they report, and the maintenance state (R439, R440). -/

namespace Sys2Proof.Machine

open Sys2Proof

/-! ## What a test reports -/

/-- A number below 256 as the word of DETAIL. -/
theorem wordBytes_small {v : Nat} (hv : v < 256) : wordBytes (at_ v 0) = [BitVec.ofNat 8 v, 0, 0, 0] := by
  have hword : (at_ v 0).toNat = v := toNat_at_zero (hv.trans (by decide))
  rw [wordBytes, hword]
  simp only [leBytes, Nat.div_eq_of_lt hv]
  rfl

/-- The result of a test, before its detail. -/
theorem selftestBytes_eq (failed : Bool) (detail : W32) :
    selftestBytes failed detail = [if failed then 1 else 0, 0, 0, 0] ++ wordBytes detail := by
  cases failed <;> rfl

/-- A test reports FAIL where something failed. -/
theorem selftestBytes_failing {n : Nat} (f : BitVec n) (detail : W32) :
    selftestBytes (decide (f ≠ 0)) detail = [if f = 0 then 0 else 1, 0, 0, 0] ++ wordBytes detail := by
  by_cases hf : f = 0 <;> simp [selftestBytes_eq, hf]

section Selftest

variable {k : ReqKey} {rq : Request} {s : State} {n : Byte}

/-- VAT_SPARE waits for the spare's next march pass. -/
theorem gives_selftestVatSpare (hturn : Safety.turn s.dev k rq 0x0901) (hp : rq.params = [0, 0, 0, 0])
    (hspare : s.dev.vat.spare ≠ none) :
    Safety.gives (.selftestVatSpare k) s (s.dev.setReq k fun r => { r with phase := .selftest }) := by
  have hsome : ¬(s.dev.vat.spare.isNone = true) := fun h => hspare (Option.isNone_iff_eq_none.1 h)
  exact gives_opcode rfl hturn (by rw [hp]; rfl) (if_neg hsome)

/-- Without a spare there is nothing to test. -/
theorem gives_selftestVatSpare_none (hturn : Safety.turn s.dev k rq 0x0901) (hp : rq.params = [0, 0, 0, 0])
    (hspare : s.dev.vat.spare = none) : Safety.gives (.selftestVatSpare k) s (s.dev.fail k stNoResource) :=
  gives_opcode rfl hturn (by rw [hp]; rfl) (if_pos (Option.isNone_iff_eq_none.2 hspare))

/-- ADC passes. -/
theorem gives_selftestAdc_pass (hturn : Safety.turn s.dev k rq 0x0901) (hp : rq.params = [1, n, 0, 0]) :
    Safety.gives (.selftestAdc k none) s (s.dev.okWith rq [0, 0, 0, 0, 0xFF, 0xFF, 0xFF, 0xFF]) :=
  gives_opcode rfl hturn (by rw [hp]; rfl) (congrArg (s.dev.okWith rq) (by decide))

/-- ADC reports the first channel that fails. -/
theorem gives_selftestAdc_fail (c : Byte) (hturn : Safety.turn s.dev k rq 0x0901) (hp : rq.params = [1, n, 0, 0]) :
    Safety.gives (.selftestAdc k (some c)) s (s.dev.okWith rq [1, 0, 0, 0, c, 0, 0, 0]) := by
  have hbytes : selftestBytes true (at_ c.toNat 0) = [1, 0, 0, 0, c, 0, 0, 0] := by
    rw [selftestBytes, wordBytes_small c.isLt, BitVec.ofNat_toNat, BitVec.setWidth_eq]
    rfl
  exact gives_opcode rfl hturn (by rw [hp]; rfl) (congrArg (s.dev.okWith rq) hbytes)

/-- PORT reports what fails on a port that is disabled. -/
theorem gives_selftestPort (f : W32) (hturn : Safety.turn s.dev k rq 0x0901) (hp : rq.params = [2, n, 0, 0]) :
    Safety.gives (.selftestPort k f) s (if s.dev.isDisabled n.toNat then
      s.dev.okWith rq ([if f = 0 then 0 else 1, 0, 0, 0] ++ wordBytes f) else s.dev.fail k stBusy) := by
  have hport : byteAt rq.params 1 = n.toNat := by rw [hp]; rfl
  exact gives_opcode rfl hturn (by rw [hp]; rfl) (by simp only [hport, selftestBytes_failing])

/-- EFUSE_TRIP reports the trip time of a fuse that is off and not held; its RESULT is free. -/
theorem gives_selftestEfuseTrip (t : W32) (hturn : Safety.turn s.dev k rq 0x0901) (hp : rq.params = [3, n, 0, 0])
    (hheld : s.dev.isHeld n.toNat = false)
    (hoff : (s.dev.fuse n.toNat).state = .off ∨ (s.dev.fuse n.toNat).state = .latched ∨ (s.dev.fuse n.toNat).state = .backoff) :
    Safety.gives (.selftestEfuseTrip k t) s
      (({ s.dev with freeCtr := s.dev.freeCtr + 1 } : Dev).okWith rq
        ([if Config.freeBit s.dev.freeCtr then 1 else 0, 0, 0, 0] ++ wordBytes t)) := by
  have hport : byteAt rq.params 1 = n.toNat := by rw [hp]; rfl
  have hstate : ((s.dev.fuse n.toNat).state = .off || (s.dev.fuse n.toNat).state = .latched ||
      (s.dev.fuse n.toNat).state = .backoff) = true := by
    rcases hoff with h | h | h <;> simp [h]
  exact gives_opcode rfl hturn (by rw [hp]; rfl)
    (by simp only [hport, hstate, hheld, Bool.not_false, Bool.and_self, if_true, selftestBytes_eq, Dev.freeBit])

/-- FULL runs in the maintenance state, and reports what failed. -/
theorem gives_selftestFull (f : BitVec 4) (hturn : Safety.turn s.dev k rq 0x0901) (hp : rq.params = [4, 0, 0, 0]) :
    Safety.gives (.selftestFull k f) s (if s.dev.maint then
      s.dev.okWith rq [if f = 0 then 0 else 1, 0, 0, 0, BitVec.ofNat 8 f.toNat, 0, 0, 0] else s.dev.fail k stNotPermitted) := by
  have hdetail : wordBytes (at_ f.toNat 0) = [BitVec.ofNat 8 f.toNat, 0, 0, 0] := wordBytes_small (f.isLt.trans (by decide))
  exact gives_opcode rfl hturn (by rw [hp]; rfl) (by simp only [selftestBytes_failing, hdetail]; rfl)

end Selftest

/-! ## The maintenance state -/

section Maintenance

variable {k : ReqKey} {rq : Request} {s : State}

/-- The maintenance state may be entered once every port is disabled and no subscription or context is in use. -/
theorem mayMaintain_iff (d : Dev) : d.mayMaintain = true ↔
    (∀ p < 32, d.isDisabled p = true) ∧ (∀ e ∈ d.subscriptions, e.2 = none) ∧ ∀ e ∈ d.ctxs, e.2.state = 0 := by
  simp [Dev.mayMaintain, and_assoc]

variable (hturn : Safety.turn s.dev k rq 0x0902)
include hturn

/-- MAINT enters it. -/
theorem gives_maintEnter (hp : rq.params = [1, 0, 0, 0]) (hmay : s.dev.mayMaintain = true) :
    Safety.gives (.maintEnter k) s { s.dev.okWith rq [] with maint := true } :=
  gives_opcode rfl hturn (by rw [hp]; rfl) (if_pos hmay)

/-- It gives BUSY where it may not. -/
theorem gives_maintEnter_busy (hp : rq.params = [1, 0, 0, 0]) (hmay : ¬(s.dev.mayMaintain = true)) :
    Safety.gives (.maintEnter k) s (s.dev.fail k stBusy) :=
  gives_opcode rfl hturn (by rw [hp]; rfl) (if_neg hmay)

/-- It leaves it. -/
theorem gives_maintLeave (hp : rq.params = [0, 0, 0, 0]) :
    Safety.gives (.maintLeave k) s { s.dev.okWith rq [] with maint := false } :=
  gives_opcode rfl hturn (by rw [hp]; rfl) rfl

end Maintenance

/-- Something in use keeps the maintenance state from being entered. -/
theorem not_mayMaintain {d : Dev}
    (huse : (∃ p < 32, d.isDisabled p = false) ∨ (∃ e ∈ d.subscriptions, e.2 ≠ none) ∨ (∃ e ∈ d.ctxs, e.2.state ≠ 0)) :
    ¬(d.mayMaintain = true) := by
  rw [mayMaintain_iff]
  rintro ⟨hports, hsubs, hctxs⟩
  rcases huse with ⟨p, hp, hon⟩ | ⟨e, he, hsub⟩ | ⟨e, he, hctx⟩
  · exact absurd (hports p hp) (ne_true_of_eq_false hon)
  · exact hsub (hsubs e he)
  · exact hctx (hctxs e he)

/-- Settles O17: each test of SELFTEST, and the maintenance state entered, refused and left. -/
theorem selftestOpcodes : Obligations.SelftestOpcodes := by
  intro k rq s n
  refine ⟨fun hturn hp hspare => gives_selftestVatSpare hturn hp hspare,
    fun hturn hp hspare => gives_selftestVatSpare_none hturn hp hspare, fun f hturn hp _ => ?_,
    fun f hturn hp _ => gives_selftestPort f hturn hp, fun t hturn hp _ hheld hoff => gives_selftestEfuseTrip t hturn hp hheld hoff,
    fun f hturn hp => gives_selftestFull f hturn hp,
    fun hturn hp hports hsubs hctxs => gives_maintEnter hturn hp ((mayMaintain_iff s.dev).2 ⟨hports, hsubs, hctxs⟩),
    fun hturn hp huse => gives_maintEnter_busy hturn hp (not_mayMaintain huse), fun hturn hp => gives_maintLeave hturn hp⟩
  · cases f with
    | none => exact gives_selftestAdc_pass hturn hp
    | some c => exact gives_selftestAdc_fail c hturn hp

end Sys2Proof.Machine

/-! # Writes of Quire words

What a word of the Quire is, how a write of one is made (R408 to R410), and the rows of the SPI (R411 to R414). -/

namespace Sys2Proof.Machine

open Sys2Proof

/-! ## The words -/

/-- A Quire word's address. -/
theorem quireAt_aQuire {w : Nat} (hw : w < 4096) : quireAt (aQuire w) = some w := by
  have hword : (0x1C0000 + 4 * w - 0x1C0000) / 4 = w := by omega
  rw [aQuire, quireAt, if_pos (by omega), hword]

/-- The four words of a key. -/
theorem quireKind_keyWord {k i : Nat} (hk : k < 66) (hi : i < 4) : quireKind (keyFirst k + i) = .key k i := by
  rw [keyFirst]
  split
  case isTrue hslot =>
    have hdiv : (0x0C0 + 4 * k + i - 0x0C0) / 4 = k := by omega
    have hmod : (0x0C0 + 4 * k + i - 0x0C0) % 4 = i := by omega
    rw [quireKind]
    iterate 20 rw [if_neg (by omega)]
    rw [if_pos (by omega), hdiv, hmod]
  case isFalse hrelay =>
    have hdiv : 64 + (0x090 + 4 * (k - 64) + i - 0x090) / 4 = k := by omega
    have hmod : (0x090 + 4 * (k - 64) + i - 0x090) % 4 = i := by omega
    rw [quireKind]
    iterate 17 rw [if_neg (by omega)]
    rw [if_pos (by omega), hdiv, hmod]

/-- The range of a key slot. -/
theorem quireKind_range {k : Nat} (hk : k < 64) : quireKind (0x1C0 + 2 * k) = .field 0x03FF03FF := by
  rw [quireKind]
  iterate 21 rw [if_neg (by omega)]
  rw [if_pos (by omega), if_pos (by omega)]

/-- The permissions of a key slot. -/
theorem quireKind_perm {k : Nat} (hk : k < 64) : quireKind (0x1C1 + 2 * k) = .perm k := by
  have hslot : (0x1C1 + 2 * k - 0x1C1) / 2 = k := by omega
  rw [quireKind]
  iterate 21 rw [if_neg (by omega)]
  rw [if_pos (by omega), if_neg (by omega), hslot]

/-- A word of a key lies in the Quire. -/
theorem keyFirst_lt {k i : Nat} (hk : k < 66) (hi : i < 4) : keyFirst k + i < 0x1C0 := by
  rw [keyFirst]
  split <;> omega

/-- The words from the chip's `UID` to `KEY_VALID` on, which no rule spans. -/
theorem quireSpanOk_key {d : Dev} {w : Nat} (v : W32) (hfrom : 0x050 ≤ w) (hto : w < 0x300) : d.quireSpanOk w v = true := by
  simp only [Dev.quireSpanOk]
  iterate 5 rw [if_neg (by omega)]

/-! ## A write that is made -/

section QuireWrites

variable {d : Dev} {w : Nat} {v : W32}

/-- A write to a word that is not worn (R409, R410). -/
theorem storeWord_fresh (hwear : d.wear w < 1000000) : d.storeWord w v =
    (false, { d.setQword w v with
      quire := { (d.setQword w v).quire with
        wear := put zeroDflt d.quire.wear w (d.wear w + 1), busy := some (w, d.qword w) } }) := by
  have hfresh : decide (endurance ≤ d.wear w) = false := decide_eq_false (Nat.not_le.2 hwear)
  simp only [Dev.storeWord, hfresh, Bool.false_eq_true, if_false]
  rfl

/-- The word that is written wears, whatever its kind. -/
theorem makeQuire_fst : (d.makeQuire w v).1 = decide (endurance ≤ d.wear w) := by
  have hstore (x : W32) : (d.storeWord w x).1 = decide (endurance ≤ d.wear w) := by
    simp only [Dev.storeWord]
    split <;> simp_all
  rw [Dev.makeQuire]
  split
  case h_1 => exact hstore _
  case h_2 => exact hstore _
  case h_3 => split <;> exact hstore _
  case h_4 => exact hstore _

/-- A write to a word that some path writes, which holds no reserved encoding, past an open guard, is made. -/
theorem writeReg_quire {who : Writer} {opened : Bool} (hsafe : d.fc.chipSafe = false) (hw : w < 4096) (hro : quireRo w = false)
    (hjudge : d.quireJudge w v = true) (hopen : d.guardShut who opened = false) (hwear : d.wear w < 1000000) :
    d.writeReg who opened (aQuire w) v = (stOk, let e := ((d.quireAck.useGuard who opened).makeQuire w v).2
      if who.isSome then e.quireAck else e) := by
  have hsafe' : d.quireAck.fc.chipSafe = false := hsafe
  have hjudge' : d.quireAck.quireJudge w v = true := hjudge
  have hopen' : d.quireAck.guardShut who opened = false := hopen
  have hwear' : (d.quireAck.useGuard who opened).wear w = d.wear w := by
    rw [Dev.useGuard]
    split <;> rfl
  have hfresh : ((d.quireAck.useGuard who opened).makeQuire w v).1 = false := by
    rw [makeQuire_fst, hwear']
    exact decide_eq_false (Nat.not_le.2 hwear)
  simp only [Dev.writeReg, hsafe', quireAt_aQuire hw, Dev.writeQuire, hro, hjudge', hopen', hfresh, Bool.not_true,
    Bool.false_eq_true, if_false]

/-- Over the SPI it is made as the guard re-arms. -/
theorem pathWrite_quire (hserved : Safety.writes d .spi) (hopen : Safety.unlocked d .spi) (hw : w < 4096) (hro : quireRo w = false)
    (hjudge : d.quireJudge w v = true) (hwear : d.wear w < 1000000) :
    d.pathWrite .spi (aQuire w) v = ((Safety.atGuarded d .spi).makeQuire w v).2 := by
  have hguard : d.guardShut none false = false := decide_eq_false (Nat.not_lt.2 hopen)
  rw [pathWrite_served hserved]
  exact congrArg Prod.snd (writeReg_quire hserved.2.1 hw hro hjudge hguard hwear)

end QuireWrites

section KindWrites

variable {d : Dev} {w k i : Nat} {v : W32}

/-- A field, or a register's default, is a word that some path writes. -/
theorem quireRo_field (hkind : (∃ m, quireKind w = .field m) ∨ ∃ a, quireKind w = .supplies a) : quireRo w = false := by
  rcases hkind with ⟨m, h⟩ | ⟨a, h⟩ <;> simp only [quireRo, h]

/-- It takes the bits that its layout stores (R408). -/
theorem makeQuire_field (hkind : (∃ m, quireKind w = .field m) ∨ ∃ a, quireKind w = .supplies a) :
    d.makeQuire w v = d.storeWord w (quireMerge w v) := by
  rcases hkind with ⟨m, h⟩ | ⟨a, h⟩ <;> simp only [Dev.makeQuire, h]

/-- A key word takes the whole word (R411). -/
theorem makeQuire_key (hkind : quireKind w = .key k i) : (d.makeQuire w v).2 = (d.storeWord w v).2.keyWordDone k i := by
  simp only [Dev.makeQuire, hkind]

/-- ERASE of a key slot (R412). -/
theorem makeQuire_perm_erase (hkind : quireKind w = .perm k) : (d.makeQuire w (at_ 1 31)).2 = (d.storeWord w 0).2.eraseKey k := by
  have hbit : bit (at_ 1 31) 31 = true := by decide
  simp only [Dev.makeQuire, hkind, hbit, if_true]

/-- The permissions of a key slot. -/
theorem makeQuire_perm (hkind : quireKind w = .perm k) (hkeep : bit v 31 = false) :
    d.makeQuire w v = d.storeWord w (quireMerge w v) := by
  simp only [Dev.makeQuire, hkind, hkeep, Bool.false_eq_true, if_false]

/-- ERASE of a relay key (R412). -/
theorem makeQuire_eraseRelay (x : Fin 2) : (d.makeQuire 0x09B (at_ 1 x.val)).2 = (d.storeWord 0x09B 0).2.eraseKey (64 + x.val) := by
  fin_cases x <;> rfl

end KindWrites

section KeyWords

variable {d : Dev} {k i : Nat} (v : W32)

/-- A key word may hold anything. -/
theorem quireJudge_key (hk : k < 66) (hi : i < 4) : d.quireJudge (keyFirst k + i) v = true := by
  have hto := keyFirst_lt hk hi
  have hfrom : 0x050 ≤ keyFirst k + i := by
    rw [keyFirst]
    split <;> omega
  simp only [Dev.quireJudge, quireKind_keyWord hk hi, quireSpanOk_key v hfrom (by omega), Bool.and_self]

/-- So may the permissions of a key slot, whose other bits are not stored. -/
theorem quireJudge_perm (hk : k < 64) : d.quireJudge (0x1C1 + 2 * k) v = true := by
  simp only [Dev.quireJudge, quireKind_perm hk, quireSpanOk_key v (show 0x050 ≤ 0x1C1 + 2 * k by omega) (by omega), Bool.and_self]

/-- And ERASE of the relay keys. -/
theorem quireJudge_eraseRelay : d.quireJudge 0x09B v = true := by
  have hkind : quireKind 0x09B = .eraseRelay := rfl
  simp only [Dev.quireJudge, hkind, quireSpanOk_key v (show 0x050 ≤ 0x09B by omega) (by omega), Bool.and_self]

/-- Some path writes them all. -/
theorem quireRo_key (hk : k < 66) (hi : i < 4) : quireRo (keyFirst k + i) = false := by
  simp only [quireRo, quireKind_keyWord hk hi]

/-- Also the permissions of a key slot. -/
theorem quireRo_perm (hk : k < 64) : quireRo (0x1C1 + 2 * k) = false := by simp only [quireRo, quireKind_perm hk]

end KeyWords

/-- Settles O56: each kind of word takes its write, and an erase empties its key. -/
theorem quireRows : Obligations.QuireRows := by
  intro s
  refine ⟨fun w v hserved hkind hjudge hopen hwear => ?_, rfl, fun k i v hserved hopen hwear => ?_, fun k hserved hopen hwear => ?_,
    fun k hserved hopen hwear => ?_⟩
  · have hwear' : (Safety.atGuarded s.dev .spi).wear w.val < 1000000 := hwear
    refine ⟨_, gives_of_eq (pathWrite_quire hserved hopen w.isLt (quireRo_field hkind) hjudge hwear) rfl, ?_⟩
    rw [makeQuire_field hkind, storeWord_fresh hwear']
    exact ⟨rfl, rfl, rfl⟩
  · have hword := keyFirst_lt (k := k.val) (by omega) i.isLt
    have hwrite := pathWrite_quire (v := v) hserved hopen (by omega) (quireRo_key (by omega) i.isLt)
      (quireJudge_key v (by omega) i.isLt) hwear
    exact gives_of_eq (hwrite.trans (makeQuire_key (quireKind_keyWord (by omega) i.isLt))) rfl
  · have hwrite := pathWrite_quire (v := at_ 1 31) hserved hopen (by omega) (quireRo_perm k.isLt) (quireJudge_perm _ k.isLt) hwear
    exact gives_of_eq (hwrite.trans (makeQuire_perm_erase (quireKind_perm k.isLt))) rfl
  · have hwrite := pathWrite_quire (v := at_ 1 k.val) hserved hopen (by decide) rfl (quireJudge_eraseRelay _) hwear
    exact gives_of_eq (hwrite.trans (makeQuire_eraseRelay k)) rfl

end Sys2Proof.Machine

/-! # Keys in the Quire

What a stored word leaves alone, how the four words of a key make it valid (R411), and what an erase leaves of it (R412). -/

namespace Sys2Proof.Machine

open Sys2Proof

/-- An entry that is not the default leaves the others alone, whatever the table held before. -/
theorem look_put_other {α : Type} [DecidableEq α] {dflt : Nat → α} (t : Tab α) {k j : Nat} {v : α} (hv : v ≠ dflt k) (hj : j ≠ k) :
    look dflt (put dflt t k v) j = look dflt t j := by
  induction t with
  | nil => simp [put, look, hv, hj]
  | cons e t ih =>
    obtain ⟨k', v'⟩ := e
    by_cases hk : k = k'
    · subst hk
      simp [put, hv, look, hj]
    · by_cases hlt : k < k'
      · simp only [put, if_neg hk, if_pos hlt, if_neg hv, look, if_neg hj]
        by_cases hjk : j < k
        · simp [hjk, show j ≠ k' by omega, show j < k' by omega]
        · simp [hjk]
      · simp only [put, if_neg hk, if_neg hlt, look, ih]

/-! ## A stored word -/

/-- The part after a write of `v` to word `w` that found it not worn. -/
structure Stored (d e : Dev) (w : Nat) (v : W32) : Prop where
  fc : e.fc = d.fc
  canonical : wfTab quireDefault e.quire.words = true
  wear : ∀ j, j ≠ w → e.wear j = d.wear j
  qword : ∀ j, e.qword j = if j = w then v else d.qword j
  keyPart : ∀ k, e.keyPart k = d.keyPart k

section Words

variable {d : Dev} (hwf : wfTab quireDefault d.quire.words = true)
include hwf

/-- A write makes such a part. -/
theorem stored_storeWord {w : Nat} (v : W32) (hwear : d.wear w < 1000000) : Stored d (d.quireAck.storeWord w v).2 w v := by
  have hwear' : d.quireAck.wear w < 1000000 := hwear
  rw [storeWord_fresh hwear']
  exact ⟨rfl, wfTab_put w v hwf, fun j hj => look_put_other _ (Nat.succ_ne_zero _) hj, fun j => d.qword_setQword w j v hwf,
    fun _ => rfl⟩

/-- A key that is marked changes its word of `KEY_VALID`. -/
theorem qword_markKey (k j : Nat) (b : Bool) : (d.markKey k b).qword j =
    if j = keyValidWord k then setBit (d.qword (keyValidWord k)) (k % 32) b else d.qword j := d.qword_setQword _ j _ hwf

/-- The Quire stays canonical. -/
theorem canonical_markKey (k : Nat) (b : Bool) : wfTab quireDefault (d.markKey k b).quire.words = true := wfTab_put _ _ hwf

end Words

/-- The bit that is set. -/
theorem getLsbD_setBit (x : W32) {i : Nat} (hi : i < 32) (b : Bool) : (setBit x i b).getLsbD i = b := by
  have hmask : (at_ (2 ^ 1 - 1) i).getLsbD i = true := by simp [at_, BitVec.getLsbD_ofNat, hi, Nat.testBit_shiftLeft]
  have hbit : (at_ (b2n b % 2 ^ 1) i).getLsbD i = b := by
    cases b <;> simp [at_, b2n, BitVec.getLsbD_ofNat, hi, Nat.testBit_shiftLeft]
  rw [setBit, setBits, BitVec.getLsbD_or, BitVec.getLsbD_and, BitVec.getLsbD_not, hmask, hbit]
  simp

/-- The words of a key are none of those that tell which keys are valid. -/
theorem keyWord_ne_valid {k i : Nat} (hk : k < 66) (hi : i < 4) : keyFirst k + i ≠ keyValidWord k := by
  rw [keyFirst, keyValidWord]
  split <;> omega

/-! ## Writing a key -/

/-- A write of a Quire word from the mailbox, until its acknowledgement. -/
def Dev.putQuire (d : Dev) (w : Nat) (v : W32) : Dev := (d.quireAck.makeQuire w v).2.quireAck

/-- The first `m` words of key `n`, of at most three, have been written in order on the part `s`. -/
structure KeyBegun (s d : Dev) (n m : Nat) (key : Nat → W32) : Prop where
  fc : d.fc = s.fc
  canonical : wfTab quireDefault d.quire.words = true
  wear : ∀ w, keyFirst n + m ≤ w → d.wear w = s.wear w
  part : 0 < m → d.keyPart n = BitVec.ofNat 4 (2 ^ m - 1)
  words : ∀ i < m, d.qword (keyFirst n + i) = key i

/-- All four have been. -/
structure KeyWritten (s d : Dev) (n : Nat) (key : Nat → W32) : Prop where
  fc : d.fc = s.fc
  canonical : wfTab quireDefault d.quire.words = true
  wear : ∀ w, keyFirst n + 4 ≤ w → d.wear w = s.wear w
  words : ∀ i < 4, d.qword (keyFirst n + i) = key i
  valid : (d.qword (keyValidWord n)).getLsbD (n % 32) = true

section Keys

variable {s d : Dev} {n m : Nat} {key : Nat → W32}

/-- A word of a key is stored, and counts. -/
theorem putQuire_key (v : W32) (hn : n < 66) (hm : m < 4) :
    d.putQuire (keyFirst n + m) v = ((d.quireAck.storeWord (keyFirst n + m) v).2.keyWordDone n m).quireAck := by
  rw [Dev.putQuire, makeQuire_key (quireKind_keyWord hn hm)]

/-- Before the first word. -/
theorem keyBegun_zero (hwf : wfTab quireDefault s.quire.words = true) : KeyBegun s s n 0 key :=
  ⟨rfl, hwf, fun _ _ => rfl, fun h => absurd h (Nat.lt_irrefl 0), fun i hi => absurd hi (Nat.not_lt_zero i)⟩

/-- The words so far, and the next. -/
theorem words_succ {e : Dev} (hbegun : KeyBegun s d n m key) (hstored : Stored d e (keyFirst n + m) (key m)) :
    ∀ i < m + 1, e.qword (keyFirst n + i) = key i := by
  intro i hi
  rw [hstored.qword]
  by_cases him : i = m
  · rw [if_pos (by omega), him]
  · rw [if_neg (by omega), hbegun.words i (by omega)]

/-- The wear of the words behind it. -/
theorem wear_succ {e : Dev} (hbegun : KeyBegun s d n m key) (hstored : Stored d e (keyFirst n + m) (key m)) :
    ∀ w, keyFirst n + (m + 1) ≤ w → e.wear w = s.wear w := fun w hw =>
  (hstored.wear w (by omega)).trans (hbegun.wear w (by omega))

/-- A word between the first and the last goes on with the count. -/
theorem keyWordDone_next (hm : m = 1 ∨ m = 2) (hpart : d.keyPart n = BitVec.ofNat 4 (2 ^ m - 1)) :
    d.keyWordDone n m = d.setKeyPart n (BitVec.ofNat 4 (2 ^ (m + 1) - 1)) := by
  rcases hm with rfl | rfl
  all_goals
    refine (if_pos (by rw [hpart]; decide)).trans (congrArg (d.setKeyPart n) ?_)
    rw [hpart]
    decide

/-- The count of the words so far, as it is read back. -/
theorem keyPart_setKeyPart_self {c : BitVec 4} (hc : c ≠ 0) : (d.setKeyPart n c).keyPart n = c := look_put_self _ _ hc

/-- The next of the first three words: the first marks the key empty and starts the count, the others go on with it. -/
theorem keyBegun_succ (hbegun : KeyBegun s d n m key) (hn : n < 66) (hm : m < 3) (hwear : d.wear (keyFirst n + m) < 1000000) :
    KeyBegun s (d.putQuire (keyFirst n + m) (key m)) n (m + 1) key := by
  have hstored := stored_storeWord hbegun.canonical (key m) hwear
  rw [putQuire_key _ hn (by omega)]
  generalize (d.quireAck.storeWord (keyFirst n + m) (key m)).2 = e at hstored
  have hwords := words_succ hbegun hstored
  have hwears := wear_succ hbegun hstored
  obtain rfl | hpos := Nat.eq_zero_or_pos m
  · refine ⟨hstored.fc.trans hbegun.fc, canonical_markKey hstored.canonical n false, hwears,
      fun _ => keyPart_setKeyPart_self (by decide), fun i hi => ?_⟩
    exact (qword_markKey hstored.canonical n (keyFirst n + i) false).trans
      ((if_neg (keyWord_ne_valid hn (by omega))).trans (hwords i hi))
  · have hmiddle : m = 1 ∨ m = 2 := by omega
    have hcount : BitVec.ofNat 4 (2 ^ (m + 1) - 1) ≠ 0 := by rcases hmiddle with rfl | rfl <;> decide
    rw [keyWordDone_next hmiddle ((hstored.keyPart n).trans (hbegun.part hpos))]
    exact ⟨hstored.fc.trans hbegun.fc, hstored.canonical, hwears, fun _ => keyPart_setKeyPart_self hcount, hwords⟩

/-- The fourth word makes the key valid. -/
theorem keyWritten_last (hbegun : KeyBegun s d n 3 key) (hn : n < 66) (hwear : d.wear (keyFirst n + 3) < 1000000) :
    KeyWritten s (d.putQuire (keyFirst n + 3) (key 3)) n key := by
  have hstored := stored_storeWord hbegun.canonical (key 3) hwear
  rw [putQuire_key _ hn (by omega)]
  generalize (d.quireAck.storeWord (keyFirst n + 3) (key 3)).2 = e at hstored
  have hpart : e.keyPart n = 7 := (hstored.keyPart n).trans (hbegun.part (by omega))
  have hdone : e.keyWordDone n 3 = e.markKey n true := if_pos hpart
  have hwords := words_succ hbegun hstored
  have hwears := wear_succ hbegun hstored
  rw [hdone]
  refine ⟨hstored.fc.trans hbegun.fc, canonical_markKey hstored.canonical n true, hwears, fun i hi => ?_, ?_⟩
  · exact (qword_markKey hstored.canonical n (keyFirst n + i) true).trans
      ((if_neg (keyWord_ne_valid hn hi)).trans (hwords i hi))
  · have hvalid : (e.markKey n true).qword (keyValidWord n) = setBit (e.qword (keyValidWord n)) (n % 32) true :=
      (qword_markKey hstored.canonical n _ true).trans (if_pos rfl)
    exact (congrArg (BitVec.getLsbD · (n % 32)) hvalid).trans (getLsbD_setBit _ (Nat.mod_lt n (by decide)) true)

end Keys

end Sys2Proof.Machine

/-! # QUIRE_WRITE, KEY_WRITE and KEY_ERASE

The words of the three opcodes and what they leave in the Quire (R401, R411, R412, R436). -/

namespace Sys2Proof.Machine

open Sys2Proof

/-! ## Erasing a key -/

/-- A key that reads zero, and empty. -/
structure KeyErased (d : Dev) (k : Nat) : Prop where
  words : ∀ i < 4, d.qword (keyFirst k + i) = 0
  empty : (d.qword (keyValidWord k)).getLsbD (k % 32) = false

section Erase

variable {d : Dev} {k : Nat}

/-- One more turn of a loop. -/
theorem forN_succ {σ : Type} (n : Nat) (f : Nat → σ → σ) (a : σ) : forN (n + 1) f a = f n (forN n f a) := by
  rw [forN, List.range_succ, List.foldl_append]
  rfl

/-- A write keeps the Quire canonical. -/
theorem canonical_setQword (w : Nat) (v : W32) (hwf : wfTab quireDefault d.quire.words = true) :
    wfTab quireDefault (d.setQword w v).quire.words = true := wfTab_put w v hwf

/-- A word that reads 0 still does after another is zeroed. -/
theorem qword_setQword_zero {w j : Nat} (hwf : wfTab quireDefault d.quire.words = true) (hj : j = w ∨ d.qword j = 0) :
    (d.setQword w 0).qword j = 0 := by
  rw [d.qword_setQword w j 0 hwf]
  split
  · rfl
  · exact hj.resolve_left ‹_›

/-- Words that are zeroed one by one. -/
theorem forN_setQword_zero (hwf : wfTab quireDefault d.quire.words = true) (f n : Nat) :
    wfTab quireDefault (forN n (fun i a => a.setQword (f + i) 0) d).quire.words = true ∧
      ∀ i < n, (forN n (fun i a => a.setQword (f + i) 0) d).qword (f + i) = 0 := by
  induction n with
  | zero => exact ⟨hwf, fun i hi => absurd hi (Nat.not_lt_zero i)⟩
  | succ n ih =>
    obtain ⟨hcanonical, hzero⟩ := ih
    rw [forN_succ]
    refine ⟨canonical_setQword _ _ hcanonical, fun i hi => qword_setQword_zero hcanonical ?_⟩
    rcases Nat.lt_succ_iff_lt_or_eq.1 hi with hlt | rfl
    · exact .inr (hzero i hlt)
    · exact .inl rfl

/-- A key is kept erased by zeroing a word that is not the one which tells its validity. -/
theorem keyErased_setQword (hwf : wfTab quireDefault d.quire.words = true) (herased : KeyErased d k) {w : Nat}
    (hw : keyValidWord k ≠ w) : KeyErased (d.setQword w 0) k := by
  refine ⟨fun i hi => qword_setQword_zero hwf (.inr (herased.words i hi)), ?_⟩
  rw [d.qword_setQword w _ 0 hwf, if_neg hw]
  exact herased.empty

/-- The word that tells a key's validity lies among those before the key slots. -/
theorem keyValidWord_lt (hk : k < 66) : keyValidWord k < 0x09B := by
  rw [keyValidWord]
  split <;> omega

variable (hwf : wfTab quireDefault d.quire.words = true) (hk : k < 66)
include hwf hk

/-- The key's words are zeroed and it is marked empty. -/
theorem keyErased_zeroed :
    let e := ((forN 4 (fun i a => a.setQword (keyFirst k + i) 0) d).markKey k false).setKeyPart k 0
    wfTab quireDefault e.quire.words = true ∧ KeyErased e k := by
  obtain ⟨hcanonical, hzero⟩ := forN_setQword_zero hwf (keyFirst k) 4
  refine ⟨canonical_markKey hcanonical k false, fun i hi => ?_, ?_⟩
  · exact (qword_markKey hcanonical k _ false).trans ((if_neg (keyWord_ne_valid hk hi)).trans (hzero i hi))
  · exact (congrArg (BitVec.getLsbD · (k % 32)) ((qword_markKey hcanonical k _ false).trans (if_pos rfl))).trans
      (getLsbD_setBit _ (Nat.mod_lt k (by decide)) false)

/-- ERASE of a key erases it. -/
theorem keyErased_eraseKey : KeyErased (d.eraseKey k) k := by
  obtain ⟨hcanonical, herased⟩ := keyErased_zeroed hwf hk
  have hvalid := keyValidWord_lt hk
  simp only [Dev.eraseKey]
  split
  · exact keyErased_setQword (canonical_setQword _ _ hcanonical)
      (keyErased_setQword hcanonical herased (by omega)) (by omega)
  · exact herased

/-- That of a key slot zeroes its range and its permissions. -/
theorem slotErased_eraseKey (hslot : k < 64) :
    (d.eraseKey k).qword (0x1C0 + 2 * k) = 0 ∧ (d.eraseKey k).qword (0x1C1 + 2 * k) = 0 := by
  obtain ⟨hcanonical, -⟩ := keyErased_zeroed hwf hk
  have hrange := canonical_setQword (0x1C0 + 2 * k) 0 hcanonical
  simp only [Dev.eraseKey, if_pos hslot]
  exact ⟨qword_setQword_zero hrange (.inr (qword_setQword_zero hcanonical (.inl rfl))), qword_setQword_zero hrange (.inl rfl)⟩

end Erase

/-! ## The range and the permissions of a key slot -/

section Slots

variable {d : Dev} {k : Nat}

/-- A bit of a field placed in a word. -/
theorem getLsbD_at {m : Nat} (x : BitVec m) (lo : Nat) {i : Nat} (hi : i < 32) :
    (at_ x.toNat lo).getLsbD i = (decide (lo ≤ i) && x.getLsbD (i - lo)) := by
  rw [at_, BitVec.getLsbD_ofNat, decide_eq_true hi, Bool.true_and, Nat.testBit_shiftLeft, BitVec.testBit_toNat]

/-- The bits that the range of a key slot stores. -/
theorem rangeMask : ∀ i < 32, (0x03FF03FF : W32).getLsbD i = decide (i < 10 ∨ 16 ≤ i ∧ i < 26) := by decide

/-- The bits that its permissions store. -/
theorem permMask : ∀ i < 32, (0xFFF : W32).getLsbD i = decide (i < 12) := by decide

/-- A range is stored whole. -/
theorem range_stored (lo hi : BitVec 10) :
    (at_ hi.toNat 16 ||| at_ lo.toNat 0) &&& (0x03FF03FF : W32) = at_ hi.toNat 16 ||| at_ lo.toNat 0 := by
  refine BitVec.eq_of_getLsbD_eq fun i hi32 => ?_
  rw [BitVec.getLsbD_and, rangeMask i hi32, BitVec.getLsbD_or, getLsbD_at hi 16 hi32, getLsbD_at lo 0 hi32]
  by_cases hlow : i < 10
  · simp [hlow]
  · by_cases hhigh : 16 ≤ i ∧ i < 26
    · simp [hhigh]
    · have hlo : lo.getLsbD i = false := BitVec.getLsbD_of_ge lo i (by omega)
      have hhi : (decide (16 ≤ i) && hi.getLsbD (i - 16)) = false := by
        by_cases h16 : 16 ≤ i
        · rw [BitVec.getLsbD_of_ge hi (i - 16) (by omega), Bool.and_false]
        · rw [decide_eq_false h16, Bool.false_and]
      simp [hlo, hhi]

/-- Permissions are stored whole. -/
theorem perm_stored (perm : BitVec 12) : at_ perm.toNat 0 &&& (0xFFF : W32) = at_ perm.toNat 0 := by
  refine BitVec.eq_of_getLsbD_eq fun i hi32 => ?_
  rw [BitVec.getLsbD_and, permMask i hi32, getLsbD_at perm 0 hi32]
  by_cases hlow : i < 12
  · simp [hlow]
  · simp [BitVec.getLsbD_of_ge perm i (by omega)]

/-- A range whose bounds are in order holds no reserved encoding. -/
theorem quireJudge_range {lo hi : BitVec 10} (hk : k < 64) (horder : lo.toNat ≤ hi.toNat) :
    d.quireJudge (0x1C0 + 2 * k) (at_ hi.toNat 16 ||| at_ lo.toNat 0) = true := by
  have hlow : (at_ lo.toNat 0).toNat = lo.toNat := toNat_at_zero (lo.isLt.trans (by decide))
  have hsmall : (at_ lo.toNat 0).toNat < 2 ^ 10 := hlow.trans_lt lo.isLt
  have hfirst : bits (at_ hi.toNat 16 ||| at_ lo.toNat 0) 0 10 = lo.toNat :=
    (bits_command hsmall (at_low_clear _ (by decide) (by decide))).trans hlow
  have hlast : bits (at_ hi.toNat 16 ||| at_ lo.toNat 0) 16 10 = hi.toNat := by
    rw [bits_command_above 10 hsmall (by decide), bits, at_, BitVec.toNat_ofNat, Nat.shiftLeft_eq, Nat.shiftRight_eq_div_pow]
    omega
  have hfield : quireFieldOk (0x1C0 + 2 * k) (at_ hi.toNat 16 ||| at_ lo.toNat 0) = true := by
    rw [quireFieldOk]
    iterate 4 rw [if_neg (by omega)]
    rw [if_pos (by omega), hfirst, hlast]
    exact decide_eq_true horder
  simp only [Dev.quireJudge, quireKind_range hk, hfield, quireSpanOk_key _ (show 0x050 ≤ 0x1C0 + 2 * k by omega) (by omega),
    Bool.and_self]

/-- A field is stored under its mask. -/
theorem quireMerge_range (v : W32) (hk : k < 64) : quireMerge (0x1C0 + 2 * k) v = v &&& 0x03FF03FF := by
  simp [quireMerge, quireDefault, quireMask, quireKind_range hk]

/-- So are permissions. -/
theorem quireMerge_perm (v : W32) (hk : k < 64) : quireMerge (0x1C1 + 2 * k) v = v &&& 0xFFF := by
  simp [quireMerge, quireDefault, quireMask, quireKind_perm hk]

variable (hwf : wfTab quireDefault d.quire.words = true) (hk : k < 64)
include hwf hk

/-- The range is stored. -/
theorem stored_range (lo hi : BitVec 10) (hwear : d.wear (0x1C0 + 2 * k) < 1000000) :
    Stored d (d.putQuire (0x1C0 + 2 * k) (at_ hi.toNat 16 ||| at_ lo.toNat 0)) (0x1C0 + 2 * k)
      (at_ hi.toNat 16 ||| at_ lo.toNat 0) := by
  rw [Dev.putQuire, makeQuire_field (.inl ⟨_, quireKind_range hk⟩), quireMerge_range _ hk, range_stored]
  obtain ⟨hfc, hcanonical, hwears, hwords, hpart⟩ := stored_storeWord hwf (at_ hi.toNat 16 ||| at_ lo.toNat 0) hwear
  exact ⟨hfc, hcanonical, hwears, hwords, hpart⟩

/-- The permissions are stored. -/
theorem stored_perm (perm : BitVec 12) (hwear : d.wear (0x1C1 + 2 * k) < 1000000) :
    Stored d (d.putQuire (0x1C1 + 2 * k) (at_ perm.toNat 0)) (0x1C1 + 2 * k) (at_ perm.toNat 0) := by
  have hkeep : bit (at_ perm.toNat 0) 31 = false := by
    rw [bit, getLsbD_at perm 0 (by decide)]
    exact BitVec.getLsbD_of_ge perm 31 (by decide)
  rw [Dev.putQuire, makeQuire_perm (quireKind_perm hk) hkeep, quireMerge_perm _ hk, perm_stored]
  obtain ⟨hfc, hcanonical, hwears, hwords, hpart⟩ := stored_storeWord hwf (at_ perm.toNat 0) hwear
  exact ⟨hfc, hcanonical, hwears, hwords, hpart⟩

end Slots

end Sys2Proof.Machine

/-! # The Key opcodes

QUIRE_WRITE, KEY_WRITE and KEY_ERASE as their requests run (R401, R436). -/

namespace Sys2Proof.Machine

open Sys2Proof

/-! ## Writes from the mailbox -/

section Writes

variable {d : Dev} {w : Nat} {v : W32} (who : SubId × BitVec 16)

/-- An opcode that CHIP_SAFE refuses has its turn outside it (R383). -/
theorem chipSafe_of_turn {k : ReqKey} {rq : Request} {o : Nat} (hturn : Safety.turn d k rq o)
    (hrefused : safeServes o rq.params = false) : d.fc.chipSafe = false := by
  obtain ⟨-, -, -, -, -, hheld⟩ := hturn
  cases hsafe : d.fc.chipSafe with
  | false => rfl
  | true => simp [Dev.heldStatus, hsafe, hrefused] at hheld

section Made

variable (hsafe : d.fc.chipSafe = false) (hw : w < 4096) (hro : quireRo w = false) (hjudge : d.quireJudge w v = true)
  (hwear : d.wear w < 1000000)
include hsafe hw hro hjudge hwear

/-- With its unlock, a write is made and acknowledged. -/
theorem writeReg_opened : d.writeReg (some who) true (aQuire w) v = (stOk, d.putQuire w v) :=
  writeReg_quire hsafe hw hro hjudge rfl hwear

/-- The first of several single steps. -/
theorem guardedWrites_cons (ws : List (Nat × W32)) :
    d.guardedWrites who ((w, v) :: ws) = (d.putQuire w v).guardedWrites who ws := by
  rw [Dev.guardedWrites, List.foldl_cons]
  simp only [writeReg_opened who hsafe hw hro hjudge hwear]
  rfl

/-- QUIRE_WRITE of a single word. -/
theorem writeQuireWords_single (hbarred : quireBarred w = false) :
    d.writeQuireWords who 0 stOk w [v] = (1, stOk, d.putQuire w v) := by
  simp only [Dev.writeQuireWords, hbarred, writeReg_opened who hsafe hw hro hjudge hwear, Bool.false_eq_true, if_false, if_true]

end Made

/-- A word that QUIRE_WRITE may name is one that some path writes. -/
theorem quireRo_of_barred (hbarred : quireBarred w = false) : quireRo w = false := by
  rw [quireRo]
  split
  case h_1 h =>
    rw [quireBarred, h] at hbarred
    contradiction
  case h_2 => rfl

end Writes

/-! ## The words of a key -/

section KeyWrites

variable {s d : Dev} {n m : Nat} {key : Nat → W32} (who : SubId × BitVec 16) (hsafe : s.fc.chipSafe = false) (hn : n < 66)
include hsafe hn

/-- The next word of a key. -/
theorem guardedWrites_keyWord (hbegun : KeyBegun s d n m key) (hm : m < 4) (hwear : s.wear (keyFirst n + m) < 1000000)
    (ws : List (Nat × W32)) : d.guardedWrites who ((keyFirst n + m, key m) :: ws) =
      (d.putQuire (keyFirst n + m) (key m)).guardedWrites who ws := by
  have hword := keyFirst_lt hn hm
  have hwear' : d.wear (keyFirst n + m) < 1000000 := (hbegun.wear _ (Nat.le_refl _)).trans_lt hwear
  exact guardedWrites_cons who (hbegun.fc.symm ▸ hsafe) (by omega) (quireRo_key hn hm) (quireJudge_key _ hn hm) hwear' ws

/-- The four words of a key, in order. -/
theorem guardedWrites_key (hwf : wfTab quireDefault s.quire.words = true) (hwear : ∀ w < 4096, s.wear w < 1000000)
    (ws : List (Nat × W32)) : ∃ e, KeyWritten s e n key ∧
      s.guardedWrites who ((keyFirst n, key 0) :: (keyFirst n + 1, key 1) :: (keyFirst n + 2, key 2) ::
        (keyFirst n + 3, key 3) :: ws) = e.guardedWrites who ws := by
  have hfresh {m : Nat} (hm : m < 4) : s.wear (keyFirst n + m) < 1000000 := hwear _ (by have := keyFirst_lt hn hm; omega)
  have hworn {d : Dev} {m : Nat} (hm : m < 4) (hbegun : KeyBegun s d n m key) : d.wear (keyFirst n + m) < 1000000 :=
    (hbegun.wear _ (Nat.le_refl _)).trans_lt (hfresh hm)
  have h0 : KeyBegun s s n 0 key := keyBegun_zero hwf
  have h1 := keyBegun_succ h0 hn (by decide) (hworn (by decide) h0)
  have h2 := keyBegun_succ h1 hn (by decide) (hworn (by decide) h1)
  have h3 := keyBegun_succ h2 hn (by decide) (hworn (by decide) h2)
  refine ⟨_, keyWritten_last h3 hn (hworn (by decide) h3), ?_⟩
  calc s.guardedWrites who ((keyFirst n + 0, key 0) :: _)
    _ = _ := guardedWrites_keyWord who hsafe hn h0 (by decide) (hfresh (by decide)) _
    _ = _ := guardedWrites_keyWord who hsafe hn h1 (by decide) (hfresh (by decide)) _
    _ = _ := guardedWrites_keyWord who hsafe hn h2 (by decide) (hfresh (by decide)) _
    _ = _ := guardedWrites_keyWord who hsafe hn h3 (by decide) (hfresh (by decide)) _

end KeyWrites

/-- A written key stands. -/
theorem KeyWritten.holdsKey {s d : Dev} {n : Nat} {key : Nat → W32} (hwritten : KeyWritten s d n key) :
    Safety.holdsKey d n (key 0) (key 1) (key 2) (key 3) :=
  ⟨hwritten.words 0 (by decide), hwritten.words 1 (by decide), hwritten.words 2 (by decide), hwritten.words 3 (by decide),
    hwritten.valid⟩

/-- It still does once a word behind the key words has been stored. -/
theorem holdsKey_stored {d e : Dev} {n w : Nat} {k0 k1 k2 k3 v : W32} (hstored : Stored d e w v) (hn : n < 66) (hw : 0x1C0 ≤ w)
    (hkey : Safety.holdsKey d n k0 k1 k2 k3) : Safety.holdsKey e n k0 k1 k2 k3 := by
  have hvalid := keyValidWord_lt hn
  have hlast := keyFirst_lt hn (i := 3) (by decide)
  have hkept {j : Nat} (hj : j < 0x1C0) : e.qword j = d.qword j := (hstored.qword j).trans (if_neg (by omega))
  obtain ⟨h0, h1, h2, h3, hbit⟩ := hkey
  exact ⟨(hkept (by omega)).trans h0, (hkept (by omega)).trans h1, (hkept (by omega)).trans h2, (hkept (by omega)).trans h3,
    (congrArg (BitVec.getLsbD · (n % 32)) (hkept (by omega))).trans hbit⟩

section SlotWrites

variable {s : Dev} (who : SubId × BitVec 16) (hsafe : s.fc.chipSafe = false) (hwf : wfTab quireDefault s.quire.words = true)
  (hwear : ∀ w < 4096, s.wear w < 1000000)
include hsafe hwf hwear

/-- KEY_WRITE of a slot leaves the key valid, with its range and its permissions. -/
theorem guardedWrites_slot {n : Nat} (key : Nat → W32) {lo hi : BitVec 10} (perm : BitVec 12) (hn : n < 64)
    (horder : lo.toNat ≤ hi.toNat) :
    let r := s.guardedWrites who [(keyFirst n, key 0), (keyFirst n + 1, key 1), (keyFirst n + 2, key 2), (keyFirst n + 3, key 3),
      (0x1C0 + 2 * n, at_ hi.toNat 16 ||| at_ lo.toNat 0), (0x1C1 + 2 * n, at_ perm.toNat 0)]
    r.1 = false ∧ Safety.holdsKey r.2 n (key 0) (key 1) (key 2) (key 3) ∧
      r.2.qword (0x1C0 + 2 * n) = at_ hi.toNat 16 ||| at_ lo.toNat 0 ∧ r.2.qword (0x1C1 + 2 * n) = at_ perm.toNat 0 := by
  have hkey : n < 66 := by omega
  have hlast := keyFirst_lt hkey (i := 3) (by decide)
  obtain ⟨e, hwritten, hrun⟩ := guardedWrites_key (key := key) who hsafe hkey hwf hwear
    [(0x1C0 + 2 * n, at_ hi.toNat 16 ||| at_ lo.toNat 0), (0x1C1 + 2 * n, at_ perm.toNat 0)]
  have hworn {w : Nat} (hfrom : 0x1C0 ≤ w) (hto : w < 4096) : e.wear w < 1000000 :=
    (hwritten.wear w (by omega)).trans_lt (hwear w hto)
  have hsafe' : e.fc.chipSafe = false := hwritten.fc.symm ▸ hsafe
  have hrange := stored_range hwritten.canonical hn lo hi (hworn (by omega) (by omega))
  have hwear' : (e.putQuire (0x1C0 + 2 * n) (at_ hi.toNat 16 ||| at_ lo.toNat 0)).wear (0x1C1 + 2 * n) < 1000000 :=
    (hrange.wear _ (by omega)).trans_lt (hworn (by omega) (by omega))
  have hperm := stored_perm hrange.canonical hn perm hwear'
  rw [hrun, guardedWrites_cons who hsafe' (by omega) (quireRo_field (.inl ⟨_, quireKind_range hn⟩)) (quireJudge_range hn horder)
    (hworn (by omega) (by omega)), guardedWrites_cons who (hrange.fc.symm ▸ hsafe') (by omega) (quireRo_perm hn)
    (quireJudge_perm _ hn) hwear']
  refine ⟨rfl, holdsKey_stored hperm hkey (by omega) (holdsKey_stored hrange hkey (by omega) hwritten.holdsKey), ?_, ?_⟩
  · exact (hperm.qword _).trans ((if_neg (by omega)).trans ((hrange.qword _).trans (if_pos rfl)))
  · exact (hperm.qword _).trans (if_pos rfl)

/-- KEY_WRITE of a relay key leaves the key valid. -/
theorem guardedWrites_relay {n : Nat} (key : Nat → W32) (hn : n < 66) :
    let r := s.guardedWrites who [(keyFirst n, key 0), (keyFirst n + 1, key 1), (keyFirst n + 2, key 2), (keyFirst n + 3, key 3)]
    r.1 = false ∧ Safety.holdsKey r.2 n (key 0) (key 1) (key 2) (key 3) := by
  obtain ⟨e, hwritten, hrun⟩ := guardedWrites_key (key := key) who hsafe hn hwf hwear []
  rw [hrun]
  exact ⟨rfl, hwritten.holdsKey⟩

/-- KEY_ERASE of a slot. -/
theorem guardedWrites_eraseSlot {n : Nat} (hn : n < 64) :
    (s.guardedWrites who [(0x1C1 + 2 * n, at_ 1 31)]).2 = ((s.quireAck.storeWord (0x1C1 + 2 * n) 0).2.eraseKey n).quireAck ∧
      Stored s (s.quireAck.storeWord (0x1C1 + 2 * n) 0).2 (0x1C1 + 2 * n) 0 := by
  refine ⟨?_, stored_storeWord hwf 0 (hwear _ (by omega))⟩
  rw [guardedWrites_cons who hsafe (by omega) (quireRo_perm hn) (quireJudge_perm _ hn) (hwear _ (by omega)), Dev.putQuire,
    makeQuire_perm_erase (quireKind_perm hn)]
  rfl

/-- KEY_ERASE of a relay key. -/
theorem guardedWrites_eraseRelay (x : Fin 2) :
    (s.guardedWrites who [(0x09B, at_ 1 x.val)]).2 = ((s.quireAck.storeWord 0x09B 0).2.eraseKey (64 + x.val)).quireAck ∧
      Stored s (s.quireAck.storeWord 0x09B 0).2 0x09B 0 := by
  refine ⟨?_, stored_storeWord hwf 0 (hwear _ (by decide))⟩
  rw [guardedWrites_cons who hsafe (by decide) rfl (quireJudge_eraseRelay _) (hwear _ (by decide)), Dev.putQuire,
    makeQuire_eraseRelay]
  rfl

end SlotWrites

/-! ## The requests -/

section Requests

variable {k : ReqKey} {rq : Request} {s : State}

/-- Words that head a list of bytes. -/
theorem toWords_wordsBytes_append (ws : List W32) (rest : List Byte) : toWords ws.length (wordsBytes ws ++ rest) = ws := by
  induction ws with
  | nil => rfl
  | cons w ws ih =>
    have hbytes : wordsBytes (w :: ws) ++ rest = leBytes 4 w.toNat ++ (wordsBytes ws ++ rest) := List.append_assoc ..
    have hhead : leAt (wordsBytes (w :: ws) ++ rest) 0 4 = w.toNat := leAt_layout [] _ hbytes rfl w.isLt
    have htail : (wordsBytes (w :: ws) ++ rest).drop 4 = wordsBytes ws ++ rest := by
      rw [hbytes, List.drop_left' (length_leBytes ..)]
    rw [List.length_cons, toWords, hhead, htail, ih, BitVec.ofNat_toNat, BitVec.setWidth_eq]

/-- QUIRE_WRITE writes its words in order. -/
theorem gives_quireWrite {w : Nat} {ws : List W32} (hturn : Safety.turn s.dev k rq 0x0701) (hw : w < 65536) (hn : ws.length < 65536)
    (hp : rq.params = leBytes 2 w ++ leBytes 2 ws.length ++ wordsBytes ws) :
    Safety.gives (.quireWrite k) s (let r := s.dev.writeQuireWords (k.sub, k.tag) 0 stOk w ws
      r.2.2.answer k r.2.1 (leBytes 2 r.1 ++ [0, 0])) := by
  obtain ⟨hword, hcount, hrest⟩ := fields_of_range hp hw hn
  exact gives_opcode rfl hturn rfl (by simp only [hword, hcount, hrest, toWords_wordsBytes]; rfl)

/-- The words that KEY_WRITE writes: those of the key, then the range and the permissions of a slot. -/
def keyWriteWords (p : List Byte) (n : Nat) (k0 k1 k2 k3 : W32) : List (Nat × W32) :=
  [(keyFirst n, k0), (keyFirst n + 1, k1), (keyFirst n + 2, k2), (keyFirst n + 3, k3)] ++
    if n < 64 then [(0x1C0 + 2 * n, at_ (leAt p 22 2) 16 ||| at_ (leAt p 20 2) 0), (0x1C1 + 2 * n, at_ (leAt p 24 2) 0)] else []

/-- KEY_WRITE of a key. -/
theorem gives_keyWrite {n : Nat} {name : Byte} {k0 k1 k2 k3 : W32} {rest : List Byte} (hturn : Safety.turn s.dev k rq 0x0702)
    (hp : rq.params = [name, 0, 0, 0] ++ (wordsBytes [k0, k1, k2, k3] ++ rest)) (hname : keyOfByte name.toNat = some n) :
    Safety.gives (.keyWrite k) s (let r := s.dev.guardedWrites (k.sub, k.tag) (keyWriteWords rq.params n k0 k1 k2 k3)
      r.2.answer k (if r.1 then stWearFlagged else stOk) []) := by
  have hkey : keyOfByte (byteAt rq.params 0) = some n := by
    rw [hp]
    exact hname
  have hwords : toWords 4 (rq.params.drop 4) = [k0, k1, k2, k3] := by
    rw [hp]
    exact toWords_wordsBytes_append [k0, k1, k2, k3] rest
  exact gives_opcode rfl hturn rfl (by simp only [hkey, hwords]; rfl)

/-- KEY_ERASE of a key. -/
theorem gives_keyErase {n : Nat} {name : Byte} (hturn : Safety.turn s.dev k rq 0x0703) (hp : rq.params = [name, 0, 0, 0])
    (hname : keyOfByte name.toNat = some n) : Safety.gives (.keyErase k) s
      ((s.dev.guardedWrites (k.sub, k.tag)
        [if n < 64 then (0x1C1 + 2 * n, at_ 1 31) else (0x09B, at_ 1 (n - 64))]).2.okWith rq []) := by
  have hkey : keyOfByte (byteAt rq.params 0) = some n := by
    rw [hp]
    exact hname
  exact gives_opcode rfl hturn rfl (by simp only [hkey]; rfl)

end Requests

end Sys2Proof.Machine

/-! # What the Key opcodes answer and leave

The layouts of R436, and the Quire after each request. -/

namespace Sys2Proof.Machine

open Sys2Proof

/-! ## The layout of KEY_WRITE -/

section Layout

variable {p key : List Byte} {n : Byte} {lo hi : BitVec 10} {perm : BitVec 12}

/-- The range and the permissions behind the sixteen bytes of a key. -/
theorem fields_of_slot (hp : p = [n, 0, 0, 0] ++ key ++ leBytes 2 lo.toNat ++ leBytes 2 hi.toNat ++ leBytes 2 perm.toNat ++ [0, 0])
    (hkey : key.length = 16) : leAt p 20 2 = lo.toNat ∧ leAt p 22 2 = hi.toNat ∧ leAt p 24 2 = perm.toNat := by
  refine ⟨leAt_layout ([n, 0, 0, 0] ++ key) (leBytes 2 hi.toNat ++ leBytes 2 perm.toNat ++ [0, 0]) ?_ ?_ (by omega),
    leAt_layout ([n, 0, 0, 0] ++ key ++ leBytes 2 lo.toNat) (leBytes 2 perm.toNat ++ [0, 0]) ?_ ?_ (by omega),
    leAt_layout ([n, 0, 0, 0] ++ key ++ leBytes 2 lo.toNat ++ leBytes 2 hi.toNat) [0, 0] hp ?_ (by omega)⟩
  all_goals simp [hp, hkey]

end Layout

/-- The four words of a key, by their number. -/
def keyWords (k0 k1 k2 k3 : W32) (i : Nat) : W32 := [k0, k1, k2, k3].getD i 0

section KeyRequests

variable {k : ReqKey} {rq : Request} {s : State} (hwf : wfTab quireDefault s.dev.quire.words = true)

/-- A single word that QUIRE_WRITE may write is written, and DONE is 1. -/
theorem gives_quireWrite_single {w : Nat} {v : W32} (hturn : Safety.turn s.dev k rq 0x0701) (hw : w < 4096)
    (hp : rq.params = leBytes 2 w ++ [1, 0] ++ wordBytes v) (hbarred : quireBarred w = false) (hjudge : s.dev.quireJudge w v = true)
    (hwear : s.dev.wear w < 1000000) : Safety.gives (.quireWrite k) s ((s.dev.putQuire w v).answer k stOk [1, 0, 0, 0]) := by
  have hone : leBytes 2 1 = [1, 0] := by decide
  have hp' : rq.params = leBytes 2 w ++ leBytes 2 [v].length ++ wordsBytes [v] := by
    rw [hp, wordsBytes, List.flatMap_cons, List.flatMap_nil, List.append_nil, List.length_singleton, hone]
  have hrow := gives_quireWrite hturn (by omega) (by simp) hp'
  simp only [writeQuireWords_single _ (chipSafe_of_turn hturn rfl) hw (quireRo_of_barred hbarred) hjudge hwear hbarred, hone] at hrow
  exact hrow

include hwf in
/-- A field that is written holds what its layout stores. -/
theorem qword_putQuire_field {w : Nat} {v : W32} (hwear : s.dev.wear w < 1000000)
    (hkind : (∃ m, quireKind w = .field m) ∨ ∃ a, quireKind w = .supplies a) :
    (s.dev.putQuire w v).qword w = quireMerge w v := by
  rw [Dev.putQuire, makeQuire_field hkind]
  exact ((stored_storeWord hwf (quireMerge w v) hwear).qword w).trans (if_pos rfl)

/-- KEY_WRITE of a slot writes the key, its range and its permissions. -/
theorem gives_keyWrite_slot {n : Byte} {k0 k1 k2 k3 : W32} {lo hi : BitVec 10} {perm : BitVec 12}
    (hturn : Safety.turn s.dev k rq 0x0702) (hn : n.toNat < 64)
    (hp : rq.params = [n, 0, 0, 0] ++ wordBytes k0 ++ wordBytes k1 ++ wordBytes k2 ++ wordBytes k3 ++ leBytes 2 lo.toNat ++
      leBytes 2 hi.toNat ++ leBytes 2 perm.toNat ++ [0, 0]) :
    let r := s.dev.guardedWrites (k.sub, k.tag) [(keyFirst n.toNat, k0), (keyFirst n.toNat + 1, k1), (keyFirst n.toNat + 2, k2),
      (keyFirst n.toNat + 3, k3), (0x1C0 + 2 * n.toNat, at_ hi.toNat 16 ||| at_ lo.toNat 0), (0x1C1 + 2 * n.toNat, at_ perm.toNat 0)]
    Safety.gives (.keyWrite k) s (r.2.answer k (if r.1 then stWearFlagged else stOk) []) := by
  obtain ⟨hlo, hhi, hperm⟩ := fields_of_slot (p := rq.params) (key := wordsBytes [k0, k1, k2, k3]) (n := n) (lo := lo) (hi := hi)
    (perm := perm) (by simp [hp, wordsBytes]) rfl
  have hrow := gives_keyWrite (n := n.toNat) (name := n) (k0 := k0) (k1 := k1) (k2 := k2) (k3 := k3)
    (rest := leBytes 2 lo.toNat ++ leBytes 2 hi.toNat ++ leBytes 2 perm.toNat ++ [0, 0]) hturn (by simp [hp, wordsBytes]) (if_pos hn)
  rw [keyWriteWords, if_pos hn, hlo, hhi, hperm] at hrow
  exact hrow

/-- KEY_WRITE of a relay key writes the key. -/
theorem gives_keyWrite_relay (x : Bool) {k0 k1 k2 k3 : W32} (hturn : Safety.turn s.dev k rq 0x0702)
    (hp : rq.params = [if x then 0x81 else 0x80, 0, 0, 0] ++ wordBytes k0 ++ wordBytes k1 ++ wordBytes k2 ++ wordBytes k3 ++
      List.replicate 8 0) :
    let n := if x then 65 else 64
    let r := s.dev.guardedWrites (k.sub, k.tag) [(keyFirst n, k0), (keyFirst n + 1, k1), (keyFirst n + 2, k2), (keyFirst n + 3, k3)]
    Safety.gives (.keyWrite k) s (r.2.answer k (if r.1 then stWearFlagged else stOk) []) := by
  have hname : keyOfByte (if x then 0x81 else 0x80 : Byte).toNat = some (if x then 65 else 64) := by cases x <;> rfl
  have hslot : ¬((if x then 65 else 64) < 64) := by cases x <;> decide
  have hrow := gives_keyWrite (k0 := k0) (k1 := k1) (k2 := k2) (k3 := k3) (rest := List.replicate 8 0) hturn
    (by simp only [hp, wordsBytes, List.flatMap_cons, List.flatMap_nil, List.append_nil, List.append_assoc]) hname
  rw [keyWriteWords, if_neg hslot, List.append_nil] at hrow
  exact hrow

/-- KEY_ERASE of a slot writes ERASE of its permissions. -/
theorem gives_keyErase_slot {n : Byte} (hturn : Safety.turn s.dev k rq 0x0703) (hn : n.toNat < 64) (hp : rq.params = [n, 0, 0, 0]) :
    Safety.gives (.keyErase k) s ((s.dev.guardedWrites (k.sub, k.tag) [(0x1C1 + 2 * n.toNat, at_ 1 31)]).2.okWith rq []) := by
  have hrow := gives_keyErase (n := n.toNat) hturn hp (if_pos hn)
  rwa [if_pos hn] at hrow

/-- KEY_ERASE of a relay key writes its bit of the word that erases them. -/
theorem gives_keyErase_relay (x : Fin 2) (hturn : Safety.turn s.dev k rq 0x0703)
    (hp : rq.params = [BitVec.ofNat 8 (0x80 + x.val), 0, 0, 0]) :
    Safety.gives (.keyErase k) s ((s.dev.guardedWrites (k.sub, k.tag) [(0x09B, at_ 1 x.val)]).2.okWith rq []) := by
  have hname : keyOfByte (BitVec.ofNat 8 (0x80 + x.val)).toNat = some (64 + x.val) := by fin_cases x <;> rfl
  have hbit : 64 + x.val - 64 = x.val := by omega
  have hrow := gives_keyErase hturn hp hname
  rwa [if_neg (by omega), hbit] at hrow

include hwf in
/-- It leaves that key erased. -/
theorem keyErase_relay (x : Fin 2) (hturn : Safety.turn s.dev k rq 0x0703)
    (hp : rq.params = [BitVec.ofNat 8 (0x80 + x.val), 0, 0, 0]) :
    let d := (s.dev.guardedWrites (k.sub, k.tag) [(0x09B, at_ 1 x.val)]).2
    Safety.gives (.keyErase k) s (d.okWith rq []) ∧ ((∀ w < 4096, s.dev.wear w < 1000000) → KeyErased d (64 + x.val)) := by
  refine ⟨gives_keyErase_relay x hturn hp, fun hwear => ?_⟩
  obtain ⟨hrun, hstored⟩ := guardedWrites_eraseRelay (k.sub, k.tag) (chipSafe_of_turn hturn rfl) hwf hwear x
  have herased := keyErased_eraseKey hstored.canonical (show 64 + x.val < 66 by omega)
  rw [hrun]
  exact ⟨herased.words, herased.empty⟩

end KeyRequests

/-- Settles O15: what QUIRE_WRITE, KEY_WRITE and KEY_ERASE write, in their order, and how the key then stands. -/
theorem keyOpcodes : Obligations.KeyOpcodes := by
  intro k rq s hwf
  refine ⟨fun w ws hturn hfrom hto hspan hp => gives_quireWrite hturn (by omega) (by omega) hp,
    fun w v hturn hw hp hbarred hjudge hwear => ?_, fun d who done st w v ws hbarred => if_pos hbarred,
    fun n k0 k1 k2 k3 lo hi perm hturn hn horder hp => ?_, fun x k0 k1 k2 k3 hturn hp => ?_, fun n hturn hn hp => ?_,
    fun x hturn hp => ?_⟩
  · exact ⟨gives_quireWrite_single hturn hw hp hbarred hjudge hwear, qword_putQuire_field hwf hwear⟩
  · exact ⟨gives_keyWrite_slot hturn hn hp, fun hwear =>
      guardedWrites_slot _ (chipSafe_of_turn hturn rfl) hwf hwear (keyWords k0 k1 k2 k3) perm hn horder⟩
  · exact ⟨gives_keyWrite_relay x hturn hp, fun hwear =>
      guardedWrites_relay _ (chipSafe_of_turn hturn rfl) hwf hwear (keyWords k0 k1 k2 k3) (by cases x <;> decide)⟩
  · refine ⟨gives_keyErase_slot hturn hn hp, fun hwear => ?_⟩
    obtain ⟨hrun, hstored⟩ := guardedWrites_eraseSlot (k.sub, k.tag) (chipSafe_of_turn hturn rfl) hwf hwear hn
    have herased := keyErased_eraseKey hstored.canonical (show n.toNat < 66 by omega)
    have hslot := slotErased_eraseKey hstored.canonical (show n.toNat < 66 by omega) hn
    have hword : (0x80000000 : W32) = at_ 1 31 := by decide
    rw [hword, hrun]
    exact ⟨herased.words, herased.empty, hslot⟩
  · cases x with
    | false =>
      obtain ⟨hrow, herased⟩ := keyErase_relay hwf 0 hturn hp
      exact ⟨hrow, fun hwear => ⟨(herased hwear).words, (herased hwear).empty⟩⟩
    | true =>
      obtain ⟨hrow, herased⟩ := keyErase_relay hwf 1 hturn hp
      exact ⟨hrow, fun hwear => ⟨(herased hwear).words, (herased hwear).empty⟩⟩

end Sys2Proof.Machine
